-- ==== Sys2Proof/Word.lean ====
section
/-! DEFINITION. The word types of the Quitus PV-Q2408 and the sparse table type every part of the state is built from. -/

namespace Sys2Proof

abbrev Byte := BitVec 8
abbrev Half := BitVec 16
/-- One register of configuration space (R13). -/
abbrev Word := BitVec 32
/-- A 64-bit quantity: a Trestle address, a credit edge, a nonce. -/
abbrev Dword := BitVec 64
/-- A master identity: class in bits [15:12], number in bits [11:0] (R143). -/
abbrev Master := BitVec 16

/-- A sparse table: (key, entry) pairs with keys strictly rising; an unlisted key holds the default its reader names. -/
abbrev Tab (α : Type) := List (Nat × α)

end Sys2Proof
end

