-- ==== Sys2Proof/Syntax.lean ====
section
/-! DEFINITION. The commands the block takes: one constructor of `Instr` per row of spec/opcode_table.json, and before it the
data their operands carry (what arrives on a wire, what a drive or a sensor answers, what a memory image holds). -/

namespace Sys2Proof

/-! ### Records that both the state and the commands carry -/

/-- An access entry of 8 bytes as its two words (R144): MASTER_ID and NUMBER_MASK in `w0`, RIGHTS in `w1[7:0]`. -/
structure AccessEntry where
  w0 : Word := 0
  w1 : Word := 0
  deriving DecidableEq, Repr

/-- PD entry (R248). CONN_COUNT and REGION_COUNT are counted from the connection and region tables. -/
structure PdEntry where
  token : Dword := 0
  enabled : Bool := false
  maxConn : Nat := 1
  regionLimit : Nat := 0
  tokenTime : Nat := 0
  deriving DecidableEq, Repr

/-- Region entry (R252). -/
structure Region where
  vaBase : Nat := 0
  length : Nat := 0
  offset : Nat := 0
  partition : Nat := 0
  pd : Nat := 0
  gen : Nat := 0
  remoteRead : Bool := false
  remoteWrite : Bool := false
  ring : Bool := false
  bound : Bool := false
  sq : Nat := 0
  deriving DecidableEq, Repr

/-- The mirrored connection record (R210). -/
structure ConnRec where
  gen : Nat := 1
  hostIp : Nat := 0
  localIp : Nat := 0
  hostPort : Nat := 0
  hostPortBase : Nat := 0
  srcConn : Word := 0
  pd : Nat := 0
  pathMask : Dword := 0
  payload : Nat := 4096
  hostReadSlots : Nat := 0
  nonce : Dword := 0
  /-- the remote pier of an inner connection (R451) -/
  inner : Option Nat := none
  deriving DecidableEq, Repr

/-- Submission queue (R274, R275). -/
structure SqRec where
  pd : Nat := 0
  cls : Nat := 0
  depth : Nat := 16
  cq : Nat := 0
  region : Nat := 0
  ringOff : Nat := 0
  head : Nat := 0
  phase : Bool := true
  deriving DecidableEq, Repr

/-- Completion queue (R278 to R281). -/
structure CqRec where
  pd : Nat := 0
  depth : Nat := 16
  conn : Nat := 0
  key : Word := 0
  addr : Nat := 0
  headAddr : Nat := 0
  notify : Bool := false
  tail : Nat := 0
  phase : Bool := true
  hostHead : Nat := 0
  reading : Bool := false
  detached : Bool := false
  deriving DecidableEq, Repr

/-- Key page contents (R473): 16 or 32 key bytes. -/
structure KeyPage where
  aes256 : Bool := false
  key : List Byte := []
  deriving DecidableEq, Repr

/-- The layout fields of a volume (R322, R325): scheme 0 MIRROR2, 1 MIRROR3, 2 PARITY. -/
structure Layout where
  scheme : Nat := 0
  k : Nat := 0
  m : Nat := 0
  chunk : Nat := 0
  group : Nat := 0
  spareCols : Nat := 0
  /-- MAX_PER_SHELF of a viaduct volume, with its default put in; 0 for a local one (R458) -/
  shelfCap : Nat := 0
  seed : Dword := 0
  blocks : Nat := 0
  slabs : List Nat := []
  deriving DecidableEq, Repr

/-- Dirty region states (R352). -/
inductive DirtySt where
  | clean | setting | dirty | clearing | clearingReset
  deriving DecidableEq, Repr

/-- One entry of a lost-extent list (R408). -/
structure LostExt where
  lba : Nat := 0
  count : Nat := 0
  cause : Nat := 0
  slot : Nat := 255
  deriving DecidableEq, Repr

/-- A SANITIZE or FORMAT, with what log 0x04 shows of it (R484, R503). -/
structure AdmOp where
  /-- 0xFFFF for a shelf -/
  vol : Nat := 0xFFFF
  op : Nat := 1
  action : Nat := 1
  /-- 0 running, 1 done, 2 done with slots left over -/
  state : Nat := 0
  pass : Nat := 0
  passes : Nat := 0
  invert : Bool := false
  pattern : Word := 0
  slabsDone : Nat := 0
  slabsTotal : Nat := 0
  percent : Nat := 0
  unreached : Nat := 0
  failedSlots : Nat := 0
  start : Nat := 0
  finish : Nat := 0
  /-- FORMAT: new TAG_SIZE, GRANULE, KEY_PAGE (R494) -/
  tagSize : Nat := 0
  granule : Nat := 0xFF
  keyPage : Nat := 0xFFFF
  /-- slots that have missed a part of the overwrite, or whose drive sanitize is not done (R489, R491) -/
  missed : Nat := 0
  /-- slots that alone receive the passes again (R489); 0 for all -/
  only : Nat := 0
  deriving DecidableEq, Repr

/-- A metadata extent of a volume record, with the group whose metadata space it lies in (R545, R547): KIND 1 slab map, 2 allocation
map, 3 dirty-region bitmap, 4 lost-extent list, 5 slab map of the new layout. -/
structure Extent where
  kind : Nat := 1
  group : Nat := 0
  first : Nat := 0
  count : Nat := 1
  deriving DecidableEq, Repr

/-- A volume: its record and descriptor (R341, R545), maps and lists. -/
structure Volume where
  lay : Layout := {}
  /-- the new layout while RESHAPING -/
  newLay : Option Layout := none
  cursor : Nat := 0
  abandoning : Bool := false
  tagSize : Nat := 8
  granule : Nat := 2
  keyPage : Nat := 0
  kcv : List Byte := []
  awu : Nat := 6
  dirtyRegion : Nat := 256
  share : Nat := 0
  readOnly : Bool := false
  verifyReads : Bool := false
  access : List AccessEntry := []
  creating : Bool := false
  deleting : Bool := false
  sanitizing : Bool := false
  formatting : Bool := false
  offline : Bool := false
  pause : Bool := false
  /-- set allocation units (R332) -/
  alloc : List Nat := []
  dirty : Tab DirtySt := []
  lost : List LostExt := []
  /-- the metadata units of its structures, in ascending ORDER within a kind (R547) -/
  extents : List Extent := []
  /-- the SANITIZE or FORMAT that the volume is under, or that it had last; its overwrite cursor (R495) is in it -/
  op : Option AdmOp := none
  deriving DecidableEq, Repr

/-- One image of a FULL_IMAGE record (R363). -/
structure Image where
  column : Nat := 0
  firstBlock : Nat := 0
  data : List Byte := []
  shadow : List Byte := []
  deriving DecidableEq, Repr

/-- The type fields and body of a journal record (R363, R407). -/
inductive JBody where
  | data (lba count stripe : Nat) (bytes tags : List Byte)
  | fullImage (lba count stripe : Nat) (images : List Image)
  | alloc (entries : List (Nat × Bool))
  /-- the new head and its offset in the ring in 64-byte units -/
  | checkpoint (head off : Nat)
  | memberEvent (slot newState : Nat) (regions : List (Nat × Nat))
  /-- a PAD record of so many bytes, to the end of the ring (R359) -/
  | pad (bytes : Nat)
  | claim (slot position kind spare index : Nat)
  | progress (level work entry band failures : Nat)
  | lostExtent (lba count cause slot : Nat)
  | lostClear (lba count : Nat)
  | reshapeCursor (lba dir : Nat)
  | reshapeSwitch (seed : Dword)
  | journalCopy (slot action : Nat) (jseq : Nat)
  deriving DecidableEq, Repr

/-- A journal record (R363): `volume` is 0xFFFF for a group-wide record. -/
structure JRec where
  jseq : Nat := 0
  volume : Nat := 0xFFFF
  cmdTag : Word := 0
  part : Nat := 0
  lastPart : Nat := 0
  time : Nat := 0
  body : JBody := .pad 64
  deriving DecidableEq, Repr

/-- The group record (R545): member drives by position, journal copies, failure list. -/
structure GroupRec where
  id : Dword := 0
  epoch : Nat := 0
  slots : List Nat := []
  slabs : Nat := 0
  metaSeed : Dword := 0
  /-- position that holds copy i, and the live copies -/
  copies : Tab Nat := []
  live : List Nat := []
  /-- position and replacement slot -/
  failed : List (Nat × Option Nat) := []
  deriving DecidableEq, Repr

/-- A viaduct group known to a pier (R457, R461). -/
structure VGroup where
  home : Nat := 0
  successor : Nat := 0
  /-- (slot, shelf) by position -/
  members : List (Nat × Nat) := []
  arbiters : List Nat := []
  epoch : Nat := 0
  /-- highest epoch this proxy has seen, and the pier it granted that epoch to -/
  seen : Nat := 0
  granted : Option (Nat × Nat) := none
  /-- device time a home pier last reached this proxy -/
  homeAt : Nat := 0
  /-- a claim of this pier: epoch and grants (R461) -/
  claim : Option (Nat × Nat) := none
  /-- after a won claim: proxies that have not acknowledged their EPOCH record; the lost home pier and the device time of its loss -/
  acks : List Nat := []
  lost : Option (Nat × Nat) := none
  deriving DecidableEq, Repr

/-- A STATE mirror item (R417): the changed entry. -/
inductive StateItem where
  | pd (n : Nat) (e : PdEntry) (revoke : Bool)
  | group (g : Nat) (r : GroupRec)
  | conn (idx : Nat) (r : Option ConnRec)
  | region (idx : Nat) (r : Option Region)
  | sq (q : Nat) (r : Option SqRec)
  | cq (q : Nat) (r : Option CqRec)
  | volume (v : Nat) (r : Option Volume)
  | member (slot st : Nat)
  | key (page : Nat) (k : Option KeyPage)
  | keyAccess (page : Nat) (l : List AccessEntry)
  /-- a viaduct group, which the other pier of the shelf serves after a take-over (R460) -/
  | vgroup (g : Nat) (x : Option VGroup)
  deriving DecidableEq, Repr

/-- A mirror item (R417). -/
inductive MirrorItem where
  | ring (off : Nat) (bytes : List Byte)
  | st (i : StateItem)
  | admission (sq cid adm head : Nat) (phase : Bool)
  /-- `fwd` is a forwarded command's other pier and SEQ; one forwarded here has (gate shelf + 1) × 65,536 + SQ -/
  | cmd (sq : Nat) (capsule : List Byte) (adm : Nat) (held released : Bool) (fwd : Option (Nat × Nat))
  | dirty (vol region : Nat) (d : DirtySt)
  | journal (group off : Nat) (r : JRec)
  | completion (cq slot : Nat) (entry : List Byte) (cmdTag : Word)
  | hostack (cq slot : Nat)
  deriving DecidableEq, Repr

/-! ### What arrives from the network -/

/-- Where a Trestle datagram came from and went to. -/
structure Net where
  srcIp : Nat := 0
  srcPort : Nat := 0
  dstIp : Nat := 0
  deriving DecidableEq, Repr

/-- A Trestle packet: the 40-byte header of R206, then data or body, then the CRC-32C trailer (R202). -/
structure Pkt where
  verOp : Byte := 0
  flags : Byte := 0
  path : Half := 0
  dstConn : Word := 0
  psn : Word := 0
  msn : Word := 0
  msgLen : Word := 0
  msgOffset : Word := 0
  addr : Dword := 0
  key : Word := 0
  tag : Word := 0
  body : List Byte := []
  crc : Word := 0
  deriving DecidableEq, Repr

/-- IP and UDP facts of a received frame; `udpCk` is 0 wrong, 1 right, 2 a checksum field of 0 (R172). -/
structure IpHdr where
  v6 : Bool := false
  src : Nat := 0
  dst : Nat := 0
  proto : Nat := 17
  sport : Nat := 0
  dport : Nat := 0
  ttl : Nat := 64
  dscp : Nat := 0
  ecn : Nat := 0
  /-- IPv6 flow label -/
  flow : Nat := 0
  frag : Bool := false
  /-- IPv4 header checksum, and whether it is right -/
  hdrCk : Half := 0
  hdrCkOk : Bool := true
  udpCk : Nat := 1
  /-- opcode and DST_CONN when the datagram reads as a Trestle packet -/
  trOp : Nat := 0
  trConn : Word := 0
  deriving DecidableEq, Repr

/-- A received Ethernet frame as the MAC sees it; `len` is frame bytes (R154). -/
structure Frame where
  len : Nat := 64
  fcsOk : Bool := true
  pcsOk : Bool := true
  dst : Nat := 0
  src : Nat := 0
  tag : Option (Nat × Nat) := none
  etype : Nat := 0
  ip : Option IpHdr := none
  /-- PTP event message: its sequence id -/
  ptp : Option Nat := none
  deriving DecidableEq, Repr

/-- A super-frame (R168 to R170): payload bytes, the connection's payload size, the template's Trestle header (without a body), its
IPv4 identification, the connection's source-port base, the paths, and the payload; the template's other headers are the frame's. -/
structure Super where
  bytes : Nat := 0
  payload : Nat := 4096
  pkt : Pkt := {}
  ipId : Half := 0
  portBase : Half := 0
  pathMask : Dword := 1
  start : Nat := 0
  data : List Byte := []
  deriving DecidableEq, Repr

/-- A frame from switch ports 33 to 35 (R180): it names an egress port (below 64) or group 64 + g. -/
structure IntFrame where
  src : Nat := 35
  dest : Nat := 0
  prio : Nat := 0
  frame : Frame := {}
  super : Option Super := none
  mark : Bool := false
  deriving DecidableEq, Repr

/-- What started a retrain (R158). -/
inductive RetrainCause where
  | lockLoss | fecErrors | remoteFault
  deriving DecidableEq, Repr

/-! ### What arrives from boot sources, drives and the partner -/

/-- A firmware image as the boot ROM finds it (R114). -/
structure FwImage where
  responds : Bool := true
  magicOk : Bool := true
  lengthOk : Bool := true
  crcOk : Bool := true
  sigOk : Bool := true
  version : Nat := 0
  /-- the firmware version number of IDENTIFY (R290) -/
  fwVersion : Word := 0
  deriving DecidableEq, Repr

/-- One macro of the PORTS section (R152, R154): breakout 0 1×, 1 2×, 2 4×. -/
structure MacroPlan where
  present : Bool := true
  rate212 : Bool := true
  breakout : Nat := 0
  fecLL : Bool := false
  anEn : Bool := true
  maxFrame : List Nat := [1518, 1518, 1518, 1518]
  /-- inverted lanes by direction, bit per lane (R52) -/
  txInvert : BitVec 4 := 0
  rxInvert : BitVec 4 := 0
  deriving DecidableEq, Repr

/-- The VIADUCT section (R446). -/
structure ViaPlan where
  id : Dword := 0
  token : Dword := 0
  gate : Bool := false
  offered : BitVec 24 := 0
  endpoints : List Nat := []
  pierMask : Dword := 0
  /-- inner address, inner VLAN and GATE bit per pier -/
  piers : List (Nat × Nat × Bool) := []
  deriving DecidableEq, Repr

/-- The content of a floor plan (R128): structure, and in `regs` the first value of every runtime register by live offset. A register
not listed there is one that the plan gives the value 0; one that the plan leaves out altogether is named by its image (R543). -/
structure Plan where
  /-- 32 bytes (R128) -/
  shelfName : List Byte := []
  unpaired : Bool := true
  planId : Dword := 0
  pairPlanId : Dword := 0
  rollback : Nat := 0
  expSide : Bool := false
  pier : Nat := 255
  macros : List MacroPlan := []
  pwEn : Bool := false
  pwTxInvert : BitVec 4 := 0
  pwRxInvert : BitVec 4 := 0
  heldOff : Dword := 0
  ringMiB : Nat := 1024
  dumpMiB : Nat := 256
  pantryMiB : Nat := 4096
  banks : Nat := 8
  tcMap : Tab Word := []
  connCount : Nat := 1024
  payload8k : Bool := true
  udpPort : Nat := 48131
  sqLimit : Nat := 1024
  slotReserve : List Nat := [1024, 4096, 0, 0, 0]
  /-- STORAGE: the slot map, whose layout the spec does not give -/
  slotMap : List Nat := []
  groups : List (List Nat) := []
  spares : List Nat := []
  arbiters : List Nat := []
  journalCopies : Nat := 3
  keyPages : Nat := 1
  keyAccess : Tab (List AccessEntry) := []
  hasPair : Bool := false
  hbPorts : List Nat := []
  hbVlan : Nat := 0
  hbPrio : Nat := 7
  /-- the pair group address (R421) -/
  pairGroup : Nat := 0x030000000000
  initOwner : BitVec 6 := 0
  shelfA : List Nat := []
  shelfB : List Nat := []
  viaduct : Option ViaPlan := none
  debugGrants : Tab AccessEntry := []
  /-- MANAGEMENT: static address (R58), PMBus clock in kHz (R59), PMBus addresses of the regulators by rail -/
  mgmtAddr : Nat := 0x5C
  pmbusKhz : Nat := 400
  regulators : List Nat := []
  /-- ACC_PAGE and CTR_ACC words and every runtime register, by live offset -/
  regs : Tab Word := []
  deriving DecidableEq, Repr

/-- A floor plan image as found in a flash of `flashBytes` bytes, or as management delivers it (R124 to R131): its bytes; what the
section values say whose layout the spec does not give; and what they leave out of their sections (R543): section types, and live
offsets of runtime registers. -/
structure PlanImage where
  responds : Bool := true
  flashBytes : Nat := 0x4000000
  bytes : List Byte := []
  content : Plan := {}
  left : List Nat := []
  deriving DecidableEq, Repr

/-- What a member header found on a drive says (R544): kind 0 none, 1 MEMBER, 2 SPARE, 3 ARBITER. -/
structure DriveHdr where
  kind : Nat := 0
  groupId : Dword := 0
  position : Nat := 0
  journal : Bool := false
  /-- EPOCH of the current copy (R544) -/
  epoch : Nat := 0
  /-- the current copy is copy 1; a drive that has no header takes its first in copy 0 (R544) -/
  copy1 : Bool := true
  sanitizePending : Bool := false
  lastSanitizeOk : Bool := false
  sanitizeRunning : Bool := false
  deriving DecidableEq, Repr

/-- Identify data, health log and header of a drive (R315, R408). -/
structure DriveIdent where
  nvm : Bool := true
  queuePairs : Nat := 16
  lba4096 : Bool := true
  dualShared : Bool := true
  reservations : Bool := true
  noVwc : Bool := true
  awupf : Nat := 1
  capacity : Nat := 0
  critWarning : Byte := 0
  linkRate : Nat := 4
  linkWidth : Nat := 2
  eui64 : Dword := 0
  percentUsed : Byte := 0
  tempK : Half := 0
  sanBlockErase : Bool := true
  sanOverwrite : Bool := true
  hdr : DriveHdr := {}
  deriving DecidableEq, Repr

/-- What the JOIN exchange tells of the partner (R121, R134): its side, firmware version, state and floor plan, and its ownership
record. -/
structure JoinInfo where
  side : Bool := true
  fwVersion : Word := 0
  state : Nat := 7
  plan : Plan := {}
  /-- the partner owns the volumes this device's floor plan assigns to it -/
  ownsMine : Bool := true
  ownerEpoch : Nat := 0
  groupOwner : BitVec 6 := 0
  partnerAddr : Nat := 0
  deriving DecidableEq, Repr

/-- HEARTBEAT (R422). -/
structure Heartbeat where
  side : Bool := true
  state : Nat := 7
  seq : Word := 0
  planId : Dword := 0
  epoch : Word := 0
  flags : Byte := 0
  deriving DecidableEq, Repr

/-- HEALTH report (R426). -/
structure Health where
  seq : Word := 0
  /-- the sender's device time -/
  time : Nat := 0
  tjMax : Half := 0
  hot : Byte := 0
  flags : Byte := 0
  powerMw : Word := 0
  domains : Dword := 0
  portsUp : Word := 0
  slotsReached : BitVec 24 := 0
  freeSlots : Word := 0
  retired : Byte := 0
  groups : Byte := 0
  bistFails : Half := 0
  fwVersion : Word := 0
  mirrorFree : Word := 0
  state : Nat := 7
  deriving DecidableEq, Repr

/-- One inner record (R452). -/
structure InnerRec where
  flags : Byte := 0
  gateShelf : Nat := 0
  seq : Nat := 0
  gateTag : Word := 0
  hostPd : Nat := 0
  epoch : Nat := 0
  stageKey : Word := 0
  stageAddr : Dword := 0
  kindFields : List Byte := []
  payload : List Byte := []
  deriving DecidableEq, Repr

/-- Result of a drive command: NVMe success with data, a failure after the port's retries, or Reservation Conflict. -/
inductive DriveResult where
  | ok (data shadow : List Byte)
  | mediaError
  | conflict
  deriving DecidableEq, Repr

/-- The fault reports of R379 that arrive as their own command. -/
inductive FaultReport where
  | linkDown | pcieError | writeFailed | presenceLost
  deriving DecidableEq, Repr

/-- A TAP instruction (R54). -/
inductive TapInstr where
  | bypass | extest | extestPulse | extestTrain
  deriving DecidableEq, Repr

/-- HBM ECC events (R514). -/
inductive EccKind where
  | corrected (rowRepeat spareLeft : Bool) | uncorrectable (copyOk : Bool)
  deriving DecidableEq, Repr

/-- A failing row or column of a repairable SRAM instance of a unit (R510). -/
structure SramFault where
  dom : Nat
  unit : Nat
  inst : Nat
  column : Bool := false
  deriving DecidableEq, Repr

/-- An entry of the soft-repair table and of the fuse table: a spare of an SRAM instance, a spared HBM row, a retired pseudo-channel
(R510, R517). -/
inductive RepairEntry where
  | sram (f : SramFault) | row (pc addr : Nat) | channel (pc : Nat)
  deriving DecidableEq, Repr

/-- What a BIST segment found (R510, R511): `more` is a segment that passed with another to come, `repairable` a failing row or column
of an instance. -/
inductive SegResult where
  | pass | repairable (inst : Nat) (column : Bool) | logicFail | more
  deriving DecidableEq, Repr

/-- What boot BIST found beside failed domains: integrity lanes that fail a known answer, and instances that need a spare (R118, R479,
R510). -/
structure BootFound where
  laneFails : List Nat := []
  repairs : List SramFault := []
  deriving DecidableEq, Repr

/-- What a whole image reads as once its last piece is there: the firmware image, or what the sections of a floor plan image hold whose
layout the spec does not give, and the registers those sections leave out (R124, R500). -/
structure ImageRead where
  fw : FwImage := {}
  content : Plan := {}
  left : List Nat := []
  deriving DecidableEq, Repr

/-- A scrubber's step: the end of an HBM scrub pass, drive scrub reads, or the SRAM scrub with a unit whose SRAM holds an uncorrectable
error, as its domain and number (R505, R514, R518). -/
inductive ScrubStep where
  | hbmPass | driveReads | sram (bad : Option (Nat × Nat))
  deriving DecidableEq, Repr

/-- One arbiter's answer (R429): its registrants after the acquire. -/
structure ArbAnswer where
  ownKey : Bool := true
  partnerKey : Bool := false
  deriving DecidableEq, Repr

/-- The commands, one constructor per row of the opcode table; each cites its row's rule. -/
inductive Instr where
  | aonPowerOn  -- R108 AON_POWER_ON
  | aonPowerLoss  -- R113 AON_POWER_LOSS
  | porstAssert  -- R64 PORST_ASSERT
  | resetRelease (pairSide boot1 boot0 : Bool)  -- R113 RESET_RELEASE
  | avsInitialSet (marginMv : Nat)  -- R78 AVS_INITIAL_SET
  | agingMonitorRead (slowdown : Half) (marginPct : Byte) (more : Bool)  -- R107 AGING_MONITOR_READ
  | pwrFailRecognise  -- R65 PWR_FAIL_RECOGNISE
  | pwrFailClear  -- R97 PWR_FAIL_CLEAR
  | presenceChange (slot : Nat) (present : Bool)  -- R62 PRESENCE_CHANGE
  | mgtGpioOutSet (m : Master) (v : Word)  -- R71 MGT_GPIO_OUT_SET
  | mgtGpioOutClr (m : Master) (v : Word)  -- R71 MGT_GPIO_OUT_CLR
  | pmbusAlert (rail : Nat)  -- R59 PMBUS_ALERT
  | domainSwitchOnRequest (d : Nat) (takeover : Bool)  -- R81 DOMAIN_SWITCH_ON_REQUEST
  | domainSwitchOffRequest (d : Nat) (takeover : Bool)  -- R81 DOMAIN_SWITCH_OFF_REQUEST
  | domainReady (d : Nat)  -- R79 DOMAIN_READY
  | domainOffComplete (d : Nat)  -- R79 DOMAIN_OFF_COMPLETE
  | deepIdleEnter (m : Master)  -- R85 DEEP_IDLE_ENTER
  | deepIdleExit (m : Master)  -- R85 DEEP_IDLE_EXIT
  | loadGovernorTick (demand : List Nat)  -- R87 LOAD_GOVERNOR_TICK
  | powerEstimateTick (estimateMw : Nat)  -- R92 POWER_ESTIMATE_TICK
  | powerTelemetryCorrect (powerMw : Nat) (railMv : List Nat) (railMa : List Nat)  -- R92 POWER_TELEMETRY_CORRECT
  | pwrCapWrite (m : Master) (v : Word)  -- R91 PWR_CAP_WRITE
  | pwrThermCfgWrite (m : Master) (v : Word)  -- R104 PWR_THERM_CFG_WRITE
  | capRefuseTimeout (sq : Nat)  -- R94 CAP_REFUSE_TIMEOUT
  | powerAttnClear  -- R95 POWER_ATTN_CLEAR
  | sensorScan (readings : List Int)  -- R98 SENSOR_SCAN
  | thermtrip (sensor : Nat)  -- R66 THERMTRIP
  | thermalGovernorTick  -- R100 THERMAL_GOVERNOR_TICK
  | haltEntry  -- R101 HALT_ENTRY
  | glbResetCtrlWrite (m : Master) (v : Word)  -- R123 GLB_RESET_CTRL_WRITE
  | glbWdogKick (m : Master) (v : Word)  -- R110 GLB_WDOG_KICK
  | watchdogExpire  -- R110 WATCHDOG_EXPIRE
  | bootSourceRead (flashB : Bool) (img : FwImage)  -- R114 BOOT_SOURCE_READ
  | mgmtImageDelivery (m : Master) (img : FwImage)  -- R115 MGMT_IMAGE_DELIVERY
  | floorPlanCheck (source : Nat) (img : PlanImage)  -- R131 FLOOR_PLAN_CHECK
  | planApply  -- R117 PLAN_APPLY
  | bootBist (fails : List Nat) (found : BootFound)  -- R118 BOOT_BIST
  | drivePerstRelease  -- R120 DRIVE_PERST_RELEASE
  | driveLinkUp (slot : Nat) (rate : Nat) (width : Nat)  -- R120 DRIVE_LINK_UP
  | driveReady (slot : Nat) (id : DriveIdent)  -- R120 DRIVE_READY
  | driveReadyTimeout (slot : Nat)  -- R120 DRIVE_READY_TIMEOUT
  | pairJoin (j : JoinInfo)  -- R121 PAIR_JOIN
  | joinTimeout  -- R121 JOIN_TIMEOUT
  | recoveryScan (group : Nat) (copies : List (List JRec)) (bitmaps : List (Nat × Nat))  -- R371 RECOVERY_SCAN
  | recoveryReplay (group : Nat)  -- R373 RECOVERY_REPLAY
  | recoveryResync (group : Nat) (agree : Bool)  -- R374 RECOVERY_RESYNC
  | recoveryComplete (micros : Nat)  -- R375 RECOVERY_COMPLETE
  | registerWrite (m : Master) (off : Nat) (v : Word)  -- R13 REGISTER_WRITE
  | registerReadClear (m : Master) (off : Nat)  -- R177 REGISTER_READ_CLEAR
  | stagedRegisterWrite (m : Master) (off : Nat) (v : Word)  -- R137 STAGED_REGISTER_WRITE
  | plnCommit (m : Master) (g : Nat)  -- R139 PLN_COMMIT
  | plnDiscard (m : Master) (g : Nat)  -- R140 PLN_DISCARD
  | plnLockClaim (m : Master) (g : Nat)  -- R141 PLN_LOCK_CLAIM
  | plnLockRelease (m : Master) (g : Nat)  -- R141 PLN_LOCK_RELEASE
  | plnLockTimeout (g : Nat)  -- R141 PLN_LOCK_TIMEOUT
  | accessEntryWord0Write (m : Master) (page : Nat) (e : Nat) (v : Word)  -- R148 ACCESS_ENTRY_WORD0_WRITE
  | accessEntryWord1Write (m : Master) (page : Nat) (e : Nat) (v : Word)  -- R148 ACCESS_ENTRY_WORD1_WRITE
  | debugUnlockRequest  -- R151 DEBUG_UNLOCK_REQUEST
  | debugUnlockResponse (key : List Byte) (sig : List Byte)  -- R151 DEBUG_UNLOCK_RESPONSE
  | tapInstructionLoad (instr : TapInstr)  -- R54 TAP_INSTRUCTION_LOAD
  | portBringupAttempt (p : Nat)  -- R157 PORT_BRINGUP_ATTEMPT
  | portLinkUp (p : Nat)  -- R157 PORT_LINK_UP
  | portBringupTimeout (p : Nat) (blame : List Nat)  -- R157 PORT_BRINGUP_TIMEOUT
  | portRetrainTrigger (p : Nat) (cause : RetrainCause)  -- R158 PORT_RETRAIN_TRIGGER
  | ethLaneRetrain (m : Master) (mac : Nat) (lanes : BitVec 4)  -- R158 ETH_LANE_RETRAIN
  | ethLaneRestore (m : Master) (mac : Nat) (lanes : BitVec 4)  -- R162 ETH_LANE_RESTORE
  | portLinkDown (p : Nat)  -- R191 PORT_LINK_DOWN
  | linkHoldExpire (p : Nat)  -- R191 LINK_HOLD_EXPIRE
  | frameIngress (p : Nat) (f : Frame)  -- R178 FRAME_INGRESS
  | pauseFrameReceive (p : Nat) (quanta : Half)  -- R163 PAUSE_FRAME_RECEIVE
  | pfcFrameReceive (p : Nat) (enable : Byte) (quanta : List Half)  -- R163 PFC_FRAME_RECEIVE
  | pauseQuantaExpire (p : Nat) (inst : Nat)  -- R165 PAUSE_QUANTA_EXPIRE
  | pwdWatchExpire (p : Nat) (inst : Nat)  -- R165 PWD_WATCH_EXPIRE
  | pwdRecoveryExpire (p : Nat) (inst : Nat)  -- R165 PWD_RECOVERY_EXPIRE
  | pauseRefresh (p : Nat) (prio : Nat)  -- R164 PAUSE_REFRESH
  | internalFrameOffer (f : IntFrame)  -- R190 INTERNAL_FRAME_OFFER
  | holdoffAccept (src : Nat)  -- R190 HOLDOFF_ACCEPT
  | frameTransmitStart (p : Nat) (cellErr : Bool)  -- R196 FRAME_TRANSMIT_START
  | frameTransmitComplete (p : Nat)  -- R193 FRAME_TRANSMIT_COMPLETE
  | frameAgeDiscard (p : Nat) (q : Nat)  -- R192 FRAME_AGE_DISCARD
  | fdbAgeOut (vid : Nat) (addr : Nat)  -- R181 FDB_AGE_OUT
  | swcFdbFlush (m : Master) (v : Word)  -- R181 SWC_FDB_FLUSH
  | ethPtpTsRead (m : Master) (mac : Nat)  -- R176 ETH_PTP_TS_READ
  | trestleWrite (net : Net) (pk : Pkt)  -- R218 TRESTLE_WRITE
  | trestleReadReq (net : Net) (pk : Pkt)  -- R241 TRESTLE_READ_REQ
  | trestleReadResp (net : Net) (pk : Pkt)  -- R240 TRESTLE_READ_RESP
  | trestleAck (net : Net) (pk : Pkt)  -- R227 TRESTLE_ACK
  | trestleNack (net : Net) (pk : Pkt)  -- R229 TRESTLE_NACK
  | trestleCredit (net : Net) (pk : Pkt)  -- R237 TRESTLE_CREDIT
  | trestleProbe (net : Net) (pk : Pkt)  -- R234 TRESTLE_PROBE
  | trestleConnect (net : Net) (pk : Pkt)  -- R209 TRESTLE_CONNECT
  | trestleClose (net : Net) (pk : Pkt)  -- R213 TRESTLE_CLOSE
  | trestleResumeReply (net : Net) (pk : Pkt)  -- R244 TRESTLE_RESUME_REPLY
  | fenceRelease (c : Nat) (psn : Word)  -- R222 FENCE_RELEASE
  | rtoExpire (c : Nat)  -- R231 RTO_EXPIRE
  | pathProbeTimer (c : Nat) (path : Nat)  -- R233 PATH_PROBE_TIMER
  | ackCoalesceExpire (c : Nat)  -- R228 ACK_COALESCE_EXPIRE
  | deadTimerExpire (c : Nat)  -- R234 DEAD_TIMER_EXPIRE
  | closingTimeout (c : Nat)  -- R212 CLOSING_TIMEOUT
  | timeWaitExpire (c : Nat)  -- R212 TIME_WAIT_EXPIRE
  | resumeRetry (c : Nat)  -- R245 RESUME_RETRY
  | trsPdSelWrite (m : Master) (v : Word)  -- R273 TRS_PD_SEL_WRITE
  | pdApply (m : Master) (v : Word)  -- R250 PD_APPLY
  | pdApplyComplete  -- R250 PD_APPLY_COMPLETE
  | contextFetchComplete (c : Nat) (eccOk : Bool) (late : Bool)  -- R268 CONTEXT_FETCH_COMPLETE
  | contextWritebackDone (c : Nat) (eccOk : Bool)  -- R267 CONTEXT_WRITEBACK_DONE
  | triggerLingerExpire  -- R264 TRIGGER_LINGER_EXPIRE
  | ringFetch (sq : Nat)  -- R276 RING_FETCH
  | commandAdmit  -- R299 COMMAND_ADMIT
  | slotWaitTimeout (cls : Nat)  -- R299 SLOT_WAIT_TIMEOUT
  | holdTimeout (cmd : Nat)  -- R305 HOLD_TIMEOUT
  | completionGenerate (cmd : Nat) (late : Bool) (waits : List Nat) (latencyNs : Nat)  -- R294 COMPLETION_GENERATE
  | cqSpacePoll (cq : Nat)  -- R280 CQ_SPACE_POLL
  | cqDetachTimeout (cq : Nat)  -- R281 CQ_DETACH_TIMEOUT
  | cmdPdSelWrite (m : Master) (v : Word)  -- R313 CMD_PD_SEL_WRITE
  | msubGo (m : Master)  -- R314 MSUB_GO
  | readCmd (cmd : Nat)  -- R367 READ
  | writeCmd (cmd : Nat)  -- R345 WRITE
  | writeZeroes (cmd : Nat)  -- R333 WRITE_ZEROES
  | deallocate (cmd : Nat)  -- R333 DEALLOCATE
  | flushCmd (cmd : Nat)  -- R286 FLUSH
  | verifyCmd (cmd : Nat)  -- R369 VERIFY
  | readTags (cmd : Nat)  -- R287 READ_TAGS
  | releaseCmd (cmd : Nat)  -- R307 RELEASE
  | abortCmd (cmd : Nat)  -- R308 ABORT
  | identifyDevice (cmd : Nat)  -- R290 IDENTIFY_DEVICE
  | identifyVolume (cmd : Nat)  -- R341 IDENTIFY_VOLUME
  | configRead (cmd : Nat)  -- R149 CONFIG_READ
  | configWrite (cmd : Nat)  -- R149 CONFIG_WRITE
  | queueCreateSq (cmd : Nat)  -- R282 QUEUE_CREATE_SQ
  | queueCreateCq (cmd : Nat)  -- R282 QUEUE_CREATE_CQ
  | queueAttach (cmd : Nat)  -- R281 QUEUE_ATTACH
  | queueDeleteSq (cmd : Nat)  -- R283 QUEUE_DELETE_SQ
  | queueDeleteCq (cmd : Nat)  -- R283 QUEUE_DELETE_CQ
  | volumeCreate (cmd : Nat) (blk : List Byte)  -- R338 VOLUME_CREATE
  | volumeDelete (cmd : Nat)  -- R340 VOLUME_DELETE
  | volumeReshapeStart (cmd : Nat) (blk : List Byte)  -- R400 VOLUME_RESHAPE_START
  | volumeReshapeAbandon (cmd : Nat) (blk : List Byte)  -- R404 VOLUME_RESHAPE_ABANDON
  | setAccess (cmd : Nat) (blk : List Byte)  -- R342 SET_ACCESS
  | volumeQuery (cmd : Nat)  -- R341 VOLUME_QUERY
  | getLog (cmd : Nat)  -- R291 GET_LOG
  | keyLoad (cmd : Nat) (blk : List Byte)  -- R475 KEY_LOAD
  | keyClear (cmd : Nat)  -- R477 KEY_CLEAR
  | sanitizeOverwrite (cmd : Nat) (blk : List Byte)  -- R488 SANITIZE_OVERWRITE
  | sanitizeBlockErase (cmd : Nat) (blk : List Byte)  -- R491 SANITIZE_BLOCK_ERASE
  | sanitizeDriveOverwrite (cmd : Nat) (blk : List Byte)  -- R491 SANITIZE_DRIVE_OVERWRITE
  | formatCmd (cmd : Nat) (blk : List Byte)  -- R485 FORMAT
  | formatApply (vol : Nat)  -- R494 FORMAT_APPLY
  | selfTestShort (cmd : Nat)  -- R496 SELF_TEST_SHORT
  | selfTestExtended (cmd : Nat)  -- R496 SELF_TEST_EXTENDED
  | selfTestStop (cmd : Nat)  -- R496 SELF_TEST_STOP
  | selfTestTimeout  -- R497 SELF_TEST_TIMEOUT
  | imageLoad (cmd : Nat) (blk : List Byte) (read : ImageRead)  -- R499 IMAGE_LOAD
  | imageActivate (cmd : Nat) (blk : List Byte) (fw : FwImage) (img : PlanImage)  -- R501 IMAGE_ACTIVATE
  | imageCopyFirstFlash  -- R502 IMAGE_COPY_FIRST_FLASH
  | memberFail (cmd : Nat) (blk : List Byte)  -- R406 MEMBER_FAIL
  | memberRetire (cmd : Nat) (blk : List Byte)  -- R406 MEMBER_RETIRE
  | slotOff (cmd : Nat) (blk : List Byte)  -- R406 SLOT_OFF
  | slotOn (cmd : Nat) (blk : List Byte)  -- R406 SLOT_ON
  | adoptMember (cmd : Nat) (blk : List Byte)  -- R406 ADOPT
  | setShare (cmd : Nat) (blk : List Byte)  -- R406 SET_SHARE
  | pauseVolume (cmd : Nat) (blk : List Byte)  -- R406 PAUSE
  | resumeVolume (cmd : Nat) (blk : List Byte)  -- R406 RESUME
  | counterSetupDump (cmd : Nat) (blk : List Byte)  -- R533 COUNTER_SETUP_DUMP
  | clearSet (cmd : Nat) (blk : List Byte)  -- R533 CLEAR
  | sampleSetup (cmd : Nat) (blk : List Byte)  -- R533 SAMPLE
  | windowSetup (cmd : Nat) (blk : List Byte)  -- R533 WINDOW
  | copyOut (cmd : Nat) (blk : List Byte)  -- R533 COPY
  | regionCreate (cmd : Nat)  -- R289 REGION_CREATE
  | regionDestroy (cmd : Nat)  -- R257 REGION_DESTROY
  | maintRequest (cmd : Nat) (blk : List Byte)  -- R441 MAINT_REQUEST
  | moveGroups (cmd : Nat) (blk : List Byte)  -- R441 MOVE_GROUPS
  | returnRoles (cmd : Nat) (blk : List Byte)  -- R441 RETURN
  | admitPier (cmd : Nat) (blk : List Byte)  -- R463 ADMIT_PIER
  | removePier (cmd : Nat) (blk : List Byte)  -- R463 REMOVE_PIER
  | formGroup (cmd : Nat) (blk : List Byte)  -- R457 FORM_GROUP
  | dissolveGroup (cmd : Nat) (blk : List Byte)  -- R463 DISSOLVE_GROUP
  | gateOn (cmd : Nat) (blk : List Byte)  -- R462 GATE_ON
  | gateOff (cmd : Nat) (blk : List Byte)  -- R463 GATE_OFF
  | gateDrainExpire  -- R463 GATE_DRAIN_EXPIRE
  | groupForm (g : Nat)  -- R317 GROUP_FORM
  | tagComputeDone (cmd : Nat) (granule : Nat)  -- R470 TAG_COMPUTE_DONE
  | parityComputeDone (cmd : Nat) (stripe : Nat)  -- R345 PARITY_COMPUTE_DONE
  | bitmapWriteComplete (vol : Nat) (region : Nat) (ok : Bool)  -- R353 BITMAP_WRITE_COMPLETE
  | dirtyIdleExpire (vol : Nat) (region : Nat)  -- R352 DIRTY_IDLE_EXPIRE
  | journalWriteComplete (group : Nat) (copy : Nat) (jseq : Nat) (ok : Bool)  -- R360 JOURNAL_WRITE_COMPLETE
  | journalCheckpoint (group : Nat)  -- R361 JOURNAL_CHECKPOINT
  | fragmentWriteComplete (cmd : Nat) (stripe : Nat) (col : Nat) (r : DriveResult)  -- R365 FRAGMENT_WRITE_COMPLETE
  | driveReadComplete (cmd : Nat) (stripe : Nat) (col : Nat) (first : Nat) (r : DriveResult)  -- R367 DRIVE_READ_COMPLETE
  | driveFaultReport (slot : Nat) (report : FaultReport)  -- R379 DRIVE_FAULT_REPORT
  | cstsPoll (slot : Nat) (cfs : Bool)  -- R379 CSTS_POLL
  | driveCmdTimeout (slot : Nat)  -- R379 DRIVE_CMD_TIMEOUT
  | healthLogPoll (slot : Nat) (warning : Byte)  -- R379 HEALTH_LOG_POLL
  | asyncEventNotice (slot : Nat) (warning : Byte)  -- R379 ASYNC_EVENT_NOTICE
  | memberAnswer (slot : Nat)  -- R381 MEMBER_ANSWER
  | memberFailTimeout (slot : Nat) (cause : Nat)  -- R382 MEMBER_FAIL_TIMEOUT
  | journalRemirrorComplete (group : Nat) (copy : Nat)  -- R387 JOURNAL_REMIRROR_COMPLETE
  | catchupComplete (slot : Nat)  -- R383 CATCHUP_COMPLETE
  | bandRestoreStart (group : Nat)  -- R392 BAND_RESTORE_START
  | bandRestoreComplete (group : Nat)  -- R393 BAND_RESTORE_COMPLETE
  | copybackComplete (group : Nat) (position : Nat)  -- R396 COPYBACK_COMPLETE
  | rebuildProgressTick (group : Nat) (mbps : Nat) (gibLeft : Nat)  -- R398 REBUILD_PROGRESS_TICK
  | reshapeUnitCopy (vol : Nat)  -- R402 RESHAPE_UNIT_COPY
  | reshapeSwitch (vol : Nat)  -- R403 RESHAPE_SWITCH
  | reshapeAbandonDone (vol : Nat)  -- R404 RESHAPE_ABANDON_DONE
  | sanitizeStatusPoll (slot : Nat) (done : Bool) (failed : Bool)  -- R491 SANITIZE_STATUS_POLL
  | overwriteCursorTick (vol : Nat) (finished : Bool)  -- R495 OVERWRITE_CURSOR_TICK
  | heartbeatSend  -- R422 HEARTBEAT_SEND
  | heartbeatReceive (pathB : Bool) (h : Heartbeat)  -- R423 HEARTBEAT_RECEIVE
  | heartbeatMiss (pathB : Bool)  -- R423 HEARTBEAT_MISS
  | partnerHaltedReceive  -- R424 PARTNER_HALTED_RECEIVE
  | powerFailFrameReceive  -- R425 POWER_FAIL_FRAME_RECEIVE
  | healthSend  -- R426 HEALTH_SEND
  | healthReceive (h : Health)  -- R427 HEALTH_RECEIVE
  | mirrorReceive (mseq : Nat) (items : List MirrorItem)  -- R419 MIRROR_RECEIVE
  | mirrorAckReceive (mseq : Nat)  -- R418 MIRROR_ACK_RECEIVE
  | mirrorResend  -- R419 MIRROR_RESEND
  | snapshotAcked (kcvAgree : Bool)  -- R415 SNAPSHOT_ACKED
  | arbiterAcquireComplete (n : Nat) (a : ArbAnswer)  -- R429 ARBITER_ACQUIRE_COMPLETE
  | arbiterTimeout (n : Nat)  -- R429 ARBITER_TIMEOUT
  | arbitrationRetry  -- R429 ARBITRATION_RETRY
  | garpRepeat  -- R432 GARP_REPEAT
  | preemptComplete (slot : Nat)  -- R430 PREEMPT_COMPLETE
  | preemptTimeout (slot : Nat)  -- R430 PREEMPT_TIMEOUT
  | ownershipRecordDurable  -- R413 OWNERSHIP_RECORD_DURABLE
  | takeoverFinish  -- R113 TAKEOVER_FINISH
  | selfFence  -- R431 SELF_FENCE
  | handoverStart  -- R441 HANDOVER_START
  | handoverDrainTimeout  -- R438 HANDOVER_DRAIN_TIMEOUT
  | handoverReceive (groups : BitVec 6) (roles : BitVec 2) (lastMseq : Nat)  -- R438 HANDOVER_RECEIVE
  | stableTimeExpire  -- R439 STABLE_TIME_EXPIRE
  | innerConnect (pier : Nat)  -- R451 INNER_CONNECT
  | innerIdleProbe (pier : Nat)  -- R453 INNER_IDLE_PROBE
  | pierLossTimeout (pier : Nat)  -- R453 PIER_LOSS_TIMEOUT
  | fwdCmd (pier : Nat) (r : InnerRec)  -- R455 FWD_CMD
  | fwdCpl (pier : Nat) (r : InnerRec)  -- R456 FWD_CPL
  | fwdTrigger (pier : Nat) (r : InnerRec)  -- R456 FWD_TRIGGER
  | fragReq (pier : Nat) (r : InnerRec) (group : Nat)  -- R461 FRAG_REQ
  | fragDone (pier : Nat) (r : InnerRec)  -- R464 FRAG_DONE
  | directoryRec (pier : Nat) (r : InnerRec)  -- R454 DIRECTORY
  | epochRec (pier : Nat) (r : InnerRec) (group : Nat)  -- R461 EPOCH
  | ownerWaitTimeout (cmd : Nat)  -- R454 OWNER_WAIT_TIMEOUT
  | entropyFault  -- R472 ENTROPY_FAULT
  | bistSliceStart  -- R507 BIST_SLICE_START
  | sliceDrainTimeout  -- R509 SLICE_DRAIN_TIMEOUT
  | sliceSegmentEnd (r : SegResult)  -- R507 SLICE_SEGMENT_END
  | fuseBurn (m : Master) (v : Word)  -- R513 FUSE_BURN
  | hbmEccError (pc : Nat) (addr : Nat) (kind : EccKind)  -- R514 HBM_ECC_ERROR
  | pcRetireCopyDone (pc : Nat)  -- R515 PC_RETIRE_COPY_DONE
  | maintRequestRetry  -- R515 MAINT_REQUEST_RETRY
  | cpuCoreError (core : Nat) (uncorrectable : Bool)  -- R514 CPU_CORE_ERROR
  | sensorDisagree (sensor : Nat)  -- R514 SENSOR_DISAGREE
  | refclkLoss (clk : Nat)  -- R514 REFCLK_LOSS
  | refclkRestore (clk : Nat)  -- R514 REFCLK_RESTORE
  | fatalClockFault  -- R514 FATAL_CLOCK_FAULT
  | counterSnapshot  -- R524 COUNTER_SNAPSHOT
  | windowPublish (ports inner : List Nat)  -- R529 WINDOW_PUBLISH
  | ctrPrivSelWrite (m : Master) (v : Word)  -- R530 CTR_PRIV_SEL_WRITE
  | sampleLfsrReseed  -- R531 SAMPLE_LFSR_RESEED
  | traceRecordDrop  -- R532 TRACE_RECORD_DROP
  | trestleConnectReply (net : Net) (pk : Pkt)  -- R451 TRESTLE_CONNECT_REPLY
  | trestleResume (net : Net) (pk : Pkt)  -- R460 TRESTLE_RESUME
  | epochGrantReceive (pier : Nat) (group : Nat) (epoch : Nat) (arbiter : Bool)  -- R461 EPOCH_GRANT_RECEIVE
  | selfTestComplete (failed : Word) (driveFails : BitVec 24) (first : Word)  -- R497 SELF_TEST_COMPLETE
  | fuseBurnComplete (ok : Bool)  -- R513 FUSE_BURN_COMPLETE
  | dumpWriteComplete  -- R526 DUMP_WRITE_COMPLETE
  | scrubTick (step : ScrubStep)  -- R518 SCRUB_TICK
  deriving DecidableEq, Repr

end Sys2Proof
end

