-- ==== Sys2Proof/Machine/Operands.lean ====
section
/-! DEFINITION. Fields of words and of byte strings, sparse tables, and the memory laid out as (address, byte) pairs: the plain
helpers every meaning reads and writes its operands with. -/

namespace Sys2Proof.Machine

/-! ### Fields of numbers -/

/-- Bits [lsb + width - 1 : lsb] of `v`. -/
def fld (v lsb width : Nat) : Nat := (v >>> lsb) % 2 ^ width

/-- Bit `i` of `v`. -/
def bitAt (v i : Nat) : Bool := (v >>> i) % 2 == 1

/-- 1 for true. -/
def b2n (b : Bool) : Nat := if b then 1 else 0

/-- Set bit `i` of `v`. -/
def setBit (v i : Nat) : Nat := v ||| (1 <<< i)

/-- The numbers below 64 whose bit is set, in rising order. -/
def bitList (v : Nat) (n : Nat) : List Nat := (List.range n).filter (bitAt v)

/-- Bit mask of a list of numbers. -/
def maskOf (l : List Nat) : Nat := l.foldl setBit 0

/-! ### Byte strings, little-endian and big-endian (R10, R11) -/

/-- `n` bytes of `v`, low byte first. -/
def le : Nat → Nat → List Byte
  | 0, _ => []
  | n + 1, v => BitVec.ofNat 8 v :: le n (v / 256)

/-- The number a little-endian byte string holds. -/
def unle : List Byte → Nat
  | [] => 0
  | b :: bs => b.toNat + 256 * unle bs

/-- `n` bytes of `v`, high byte first. -/
def be (n v : Nat) : List Byte := (le n v).reverse

/-- The number a big-endian byte string holds. -/
def unbe (bs : List Byte) : Nat := unle bs.reverse

/-- Byte `i`, 0 beyond the end. -/
def byteAt (bs : List Byte) (i : Nat) : Nat := (bs.getD i 0).toNat

/-- The little-endian number in the `n` bytes from `off`. -/
def leAt (bs : List Byte) (off n : Nat) : Nat := unle ((bs.drop off).take n)

/-- The big-endian number in the `n` bytes from `off`. -/
def beAt (bs : List Byte) (off n : Nat) : Nat := unbe ((bs.drop off).take n)

/-- `n` zero bytes. -/
def zeros (n : Nat) : List Byte := List.replicate n 0

/-- Cut or zero-pad to `n` bytes. -/
def fit (n : Nat) (bs : List Byte) : List Byte := (bs ++ zeros n).take n

/-- Are the `n` bytes from `off` all 0? -/
def zeroAt (bs : List Byte) (off n : Nat) : Bool := ((bs.drop off).take n).all (· == 0)

/-- Replace the bytes from `off` by `d`. -/
def putAt (bs : List Byte) (off : Nat) (d : List Byte) : List Byte :=
  bs.take off ++ d ++ bs.drop (off + d.length)

/-- Cut a list into pieces of `n`, at most `fuel` of them. -/
def pieces {α : Type} (n : Nat) : Nat → List α → List (List α)
  | 0, _ => []
  | _, [] => []
  | f + 1, l => l.take n :: pieces n f (l.drop n)

/-! ### Sparse tables -/

/-- The entry of key `k`. -/
def tget {α : Type} : Tab α → Nat → Option α
  | [], _ => none
  | (k', v) :: t, k => if k' == k then some v else tget t k

/-- The entry of key `k`, or the default. -/
def tgetD {α : Type} (t : Tab α) (k : Nat) (d : α) : α := (tget t k).getD d

/-- Write key `k`, keeping the keys strictly rising. -/
def tset {α : Type} : Tab α → Nat → α → Tab α
  | [], k, v => [(k, v)]
  | (k', v') :: t, k, v =>
    if k < k' then (k, v) :: (k', v') :: t
    else if k == k' then (k, v) :: t
    else (k', v') :: tset t k v

/-- Remove key `k`. -/
def tdel {α : Type} (t : Tab α) (k : Nat) : Tab α := t.filter fun e => e.1 != k

/-- Is key `k` listed? -/
def thas {α : Type} (t : Tab α) (k : Nat) : Bool := (tget t k).isSome

/-- Change the entry of key `k`, from the default where it is unlisted. -/
def tmod {α : Type} (t : Tab α) (k : Nat) (d : α) (f : α → α) : Tab α := tset t k (f (tgetD t k d))

/-- Change the entry of key `k` where it is listed. -/
def tupd {α : Type} (t : Tab α) (k : Nat) (f : α → α) : Tab α :=
  t.map fun e => if e.1 == k then (e.1, f e.2) else e

/-- The keys. -/
def tkeys {α : Type} (t : Tab α) : List Nat := t.map (·.1)

/-- Keep only the entries that `p` accepts. -/
def tfilter {α : Type} (t : Tab α) (p : Nat → α → Bool) : Tab α := t.filter fun e => p e.1 e.2

/-- Add to a list of numbers without a repeat. -/
def addNew (l : List Nat) (n : Nat) : List Nat := if l.contains n then l else l ++ [n]

/-- Put an element into a sorted list, before what it does not exceed. -/
def insertBy {α : Type} (before : α → α → Bool) (x : α) : List α → List α
  | [] => [x]
  | y :: ys => if before x y then x :: y :: ys else y :: insertBy before x ys

/-- Sort a list, keeping the order of equals. -/
def sortBy {α : Type} (before : α → α → Bool) (l : List α) : List α := l.foldr (insertBy before) []

/-- Sort numbers, ascending. -/
def sortN (l : List Nat) : List Nat := sortBy (fun a b => decide (a ≤ b)) l

/-! ### Memory: (address, byte) pairs, addresses strictly rising, no byte of 0 listed -/

/-- What an unlisted address reads as: 0 (R259, R275 zero the pantry and every ring). -/
def memDefault : Byte := 0

/-- Read one byte. -/
def memRead : List (Nat × Byte) → Nat → Byte
  | [], _ => memDefault
  | (a, b) :: m, x => if a == x then b else memRead m x

/-- Write one byte, keeping the canonical form. -/
def memWrite : List (Nat × Byte) → Nat → Byte → List (Nat × Byte)
  | [], x, v => if v == memDefault then [] else [(x, v)]
  | (a, b) :: m, x, v =>
    if x < a then (if v == memDefault then (a, b) :: m else (x, v) :: (a, b) :: m)
    else if x == a then (if v == memDefault then m else (a, v) :: m)
    else (a, b) :: memWrite m x v

/-- Write a byte string from an address on. -/
def memWrites : List (Nat × Byte) → Nat → List Byte → List (Nat × Byte)
  | m, _, [] => m
  | m, x, b :: bs => memWrites (memWrite m x b) (x + 1) bs

/-- Read `n` bytes from an address on. -/
def memReads (m : List (Nat × Byte)) (x n : Nat) : List Byte := (List.range n).map fun i => memRead m (x + i)

/-- Zero the addresses of a range. -/
def memZero (m : List (Nat × Byte)) (x n : Nat) : List (Nat × Byte) :=
  m.filter fun e => e.1 < x || x + n ≤ e.1

/-- The canonical form: addresses strictly rising, all above `lo`, and no listed byte equal to the default. -/
def memWfFrom : Option Nat → List (Nat × Byte) → Bool
  | _, [] => true
  | lo, (a, b) :: m => (lo.all (· < a)) && b != memDefault && memWfFrom (some a) m

/-- The canonical form of a memory. -/
def memWf (m : List (Nat × Byte)) : Bool := memWfFrom none m

end Sys2Proof.Machine
end

