-- ==== Sys2Proof/Machine/Gf.lean ====
section
/-! DEFINITION. Arithmetic over GF(2^8) with polynomial 0x11D: the Cauchy coefficients, encoding and decoding of stripes (R541). -/

namespace Sys2Proof.Machine

/-- Multiply by x modulo a field polynomial's low byte. -/
def gfX (poly a : Nat) : Nat := let y := 2 * a; if 256 ≤ y then (y - 256) ^^^ poly else y

/-- Sum of the products of `b`'s bits, lowest first. -/
def gfMulGo (poly : Nat) : Nat → Nat → Nat → Nat
  | 0, _, _ => 0
  | n + 1, a, b => (if b % 2 == 1 then a else 0) ^^^ gfMulGo poly n (gfX poly a) (b / 2)

/-- Product in GF(2^8) with a polynomial given by its low byte. -/
def gfMulP (poly a b : Nat) : Nat := gfMulGo poly 8 a b

/-- Product modulo 0x11D (R541). -/
def gfMul (a b : Nat) : Nat := gfMulP 0x1D a b

/-- Multiplicative inverse; 0 for 0. -/
def gfInvP (poly a : Nat) : Nat := ((List.range 256).find? fun b => gfMulP poly a b == 1).getD 0
def gfInv (a : Nat) : Nat := gfInvP 0x1D a

/-- Coefficient g(c, d) = 1 ÷ (c ⊕ (4 + d)) (R541). -/
def gfCoef (c d : Nat) : Nat := gfInv (c ^^^ (4 + d))

/-- XOR of two byte strings. -/
def xorBytes (a b : List Byte) : List Byte := List.zipWith (· ^^^ ·) a b

/-- A byte string times a coefficient. -/
def scaleBytes (g : Nat) (a : List Byte) : List Byte := a.map fun b => BitVec.ofNat 8 (gfMul g b.toNat)

/-- Check column `c` over the data columns' rows (R541). -/
def encodeCheck (c n : Nat) (cols : List (List Byte)) : List Byte :=
  (cols.zipIdx).foldl (fun acc e => xorBytes acc (scaleBytes (gfCoef c e.2) e.1)) (zeros n)

/-- The generator row of a stripe column with `k` data columns. -/
def genRow (k col : Nat) : List Nat :=
  if col < k then (List.range k).map fun i => b2n (i == col) else (List.range k).map fun d => gfCoef (col - k) d

/-- Scale a row of an augmented system. -/
def rowScale (g : Nat) (r : List Nat × List Byte) : List Nat × List Byte := (r.1.map (gfMul g), scaleBytes g r.2)
/-- Add a multiple of one row to another. -/
def rowAdd (g : Nat) (r p : List Nat × List Byte) : List Nat × List Byte :=
  (List.zipWith (fun a b => a ^^^ gfMul g b) r.1 p.1, xorBytes r.2 (scaleBytes g p.2))

/-- Gauss-Jordan elimination of column `i` and those after it, `n` steps. -/
def solveGo : Nat → Nat → List (List Nat × List Byte) → List (List Nat × List Byte)
  | 0, _, rows => rows
  | n + 1, i, rows =>
    match rows.zipIdx.find? fun e => i ≤ e.2 && e.1.1.getD i 0 != 0 with
    | none => rows
    | some (p, at_) =>
      let swapped := (rows.set at_ (rows.getD i ([], []))).set i p
      let p := rowScale (gfInv (p.1.getD i 0)) p
      let rows := swapped.zipIdx.map fun e => if e.2 == i then p else rowAdd (e.1.1.getD i 0) e.1 p
      solveGo n (i + 1) rows

/-- The data columns of a stripe from `k` of its columns (R541): `known` lists column numbers with their bytes. -/
def decodeData (k : Nat) (known : List (Nat × List Byte)) : List (List Byte) :=
  (solveGo k 0 ((known.take k).map fun e => (genRow k e.1, e.2))).map (·.2)

/-- Column `col` of a stripe from `k` known columns. -/
def decodeCol (k n col : Nat) (known : List (Nat × List Byte)) : List Byte :=
  let data := decodeData k known
  if col < k then data.getD col (zeros n) else encodeCheck (col - k) n data

end Sys2Proof.Machine
end

