-- ==== Sys2Proof/Machine/Aes.lean ====
section
/-! DEFINITION. AES, AES-CMAC, the tag of a granule and the key check value (R466 to R468, R474). -/

namespace Sys2Proof.Machine

/-- AES field product (polynomial 0x11B). -/
def aesMul (a b : Nat) : Nat := gfMulP 0x1B a b

/-- The affine step of SubBytes. -/
def aesAffine (b : Nat) : Nat :=
  let rot := fun n => (b <<< n ||| b >>> (8 - n)) % 256
  b ^^^ rot 1 ^^^ rot 2 ^^^ rot 3 ^^^ rot 4 ^^^ 0x63

/-- SubBytes on one byte: inverse, then the affine map. -/
def aesSub (b : Byte) : Byte := BitVec.ofNat 8 (aesAffine (gfInvP 0x1B b.toNat))

/-- ShiftRows on a column-major state of 16 bytes. -/
def aesShift (s : List Byte) : List Byte := (List.range 16).map fun i => s.getD ((i + 4 * (i % 4)) % 16) 0

/-- MixColumns on one column. -/
def aesMixCol (c : List Byte) : List Byte :=
  let b := fun i => (c.getD (i % 4) 0).toNat
  (List.range 4).map fun i => BitVec.ofNat 8 (aesMul 2 (b i) ^^^ aesMul 3 (b (i + 1)) ^^^ b (i + 2) ^^^ b (i + 3))

def aesMix (s : List Byte) : List Byte := (pieces 4 4 s).flatMap aesMixCol

/-- Round constant `i`, from 1. -/
def aesRcon : Nat → Nat
  | 0 => 0
  | 1 => 1
  | n + 1 => gfX 0x1B (aesRcon n)

/-- Key schedule words (FIPS 197): `nk` words of key, up to `n` more words. -/
def aesExpand (nk : Nat) : Nat → List (List Byte) → List (List Byte)
  | 0, w => w
  | n + 1, w =>
    let i := w.length
    let t := w.getD (i - 1) []
    let t := if i % nk == 0 then
        let r := (t.drop 1 ++ t.take 1).map aesSub
        xorBytes r [BitVec.ofNat 8 (aesRcon (i / nk)), 0, 0, 0]
      else if 6 < nk && i % nk == 4 then t.map aesSub else t
    aesExpand nk n (w ++ [xorBytes (w.getD (i - nk) []) t])

/-- Rounds `r`, …, the last without MixColumns. -/
def aesRounds (w : List (List Byte)) (nr : Nat) : Nat → List Byte → List Byte
  | 0, s => s
  | n + 1, s =>
    let r := nr - n
    let s := aesShift (s.map aesSub)
    let s := if n == 0 then s else aesMix s
    aesRounds w nr n (xorBytes s ((w.drop (4 * r)).take 4).flatten)

/-- AES of one block under a 16- or 32-byte key. -/
def aesBlock (key block : List Byte) : List Byte :=
  let nk := key.length / 4
  let nr := nk + 6
  let w := aesExpand nk (4 * (nr + 1) - nk) (pieces 4 nk key)
  aesRounds w nr nr (xorBytes block (w.take 4).flatten)

/-- Double a 16-byte value, byte 0 most significant (R466). -/
def cmacDouble (b : List Byte) : List Byte :=
  let v := 2 * unbe b
  be 16 (if 2 ^ 128 ≤ v then (v - 2 ^ 128) ^^^ 0x87 else v)

/-- AES-CMAC (R466). -/
def cmac (key msg : List Byte) : List Byte :=
  let k1 := cmacDouble (aesBlock key (zeros 16))
  let k2 := cmacDouble k1
  let whole := msg.length != 0 && msg.length % 16 == 0
  let n := if whole then msg.length / 16 - 1 else msg.length / 16
  let last := msg.drop (16 * n)
  let last := if whole then xorBytes last k1 else xorBytes (fit 16 (last ++ [0x80])) k2
  (pieces 16 n msg ++ [last]).foldl (fun c b => aesBlock key (xorBytes c b)) (zeros 16)

/-- Frame block of a granule (R467). -/
def frameBlock (granule tagSize vol lba : Nat) : List Byte :=
  [1, BitVec.ofNat 8 granule, BitVec.ofNat 8 tagSize, 0] ++ le 2 vol ++ [0, 0] ++ le 6 lba ++ [0, 0]

/-- The tag of a granule (R467): `data` is its bytes. -/
def granuleTag (key : List Byte) (granule tagSize vol lba : Nat) (data : List Byte) : List Byte :=
  let m := frameBlock granule tagSize vol lba ++ (pieces 1024 64 data).flatMap (cmac key)
  (cmac key m).take tagSize

/-- The 16 ASCII bytes "PV-Q2408-KCV-001" (R474). -/
def kcvText : List Byte := [0x50, 0x56, 0x2D, 0x51, 0x32, 0x34, 0x30, 0x38, 0x2D, 0x4B, 0x43, 0x56, 0x2D, 0x30, 0x30, 0x31]

/-- Key check value (R474). -/
def kcvOf (k : KeyPage) : List Byte := (cmac k.key kcvText).take 8

end Sys2Proof.Machine
end

