-- ==== Sys2Proof/Config.lean ====
section
/-! DEFINITION. What the device's maker fuses into one device, and the free values: constants with no body, so that nothing
can be proved of them but what holds of every value. -/

namespace Sys2Proof.Config

/-- MAC base address in OTP (R199). -/
opaque macBase : Nat
/-- 16-byte device serial number (R290). -/
opaque serial : List Byte
/-- What the fuse of the time-zero VDD_CORE setpoint selects; `avsFuseMv` is the setpoint, from 700 to 740 mV (R107). -/
opaque avsFuse : Nat
/-- Fused time-zero VDD_CORE setpoint in mV (R107). -/
def avsFuseMv : Nat := 700 + avsFuse % 41
/-- The 48-byte owner key hash in OTP (R130, R131, R151). -/
opaque ownerKeyHash : List Byte
/-- Does this ECDSA P-384 signature over these bytes verify under this public key (R131, R151)? -/
opaque ecdsaOk : List Byte → List Byte → List Byte → Bool
/-- How the board drives a GPIO ball at a device time; none where it leaves the ball alone (R71). -/
opaque gpioDriven : Nat → Nat → Option Bool
/-- What a GPIO ball without a pull reads as where the board leaves it alone. -/
opaque gpioFloat : Nat → Nat → Bool
/-- Nanoseconds of a forward correction applied as a step at a device time, 0 for none (R31). -/
opaque forwardStep : Nat → Nat
/-- TTL, DSCP and ECN, flow label and IPv4 identification of a Trestle packet that the device originates, by its bytes. -/
opaque originTtl : List Byte → Nat
opaque originTos : List Byte → Nat
opaque originFlow : List Byte → Nat
opaque originId : List Byte → Nat
/-- A free value of 64 bits, by the number of values drawn before it. -/
opaque free64 : Nat → Dword
/-- A free natural number. -/
opaque freeNat : Nat → Nat
/-- A free truth value. -/
opaque freeBool : Nat → Bool
/-- A free byte: the content of what the spec calls undefined, by draw and position. -/
opaque freeByte : Nat → Nat → Byte

end Sys2Proof.Config
end

