-- ==== Sys2Proof/Machine/State.lean ====
section
/-! DEFINITION. The state of the device as plain data: every register, queue, table, counter, mode and pin the spec gives it,
the queue of commands that wait, the reasons a step can stop, and the machine right after reset. -/

namespace Sys2Proof.Machine

/-- Reasons to stop with a fault. The block has none: every command has an effect, or is one that the rules say is
ignored, refused with a status, denied or discarded. -/
inductive Fault
  deriving DecidableEq, Repr

/-- Reasons to refuse a command. -/
inductive Refusal where
  /-- The command has no meaning yet (raised by Dispatch.lean alone; safe). -/
  | notModelled (mnemonic : String)
  deriving DecidableEq, Repr

/-! ### Device, power and reset (R108 to R123, R79 to R107) -/

/-- Device states (R112, R123). -/
inductive DevSt where
  | off | reset | boot | plan | selftest | train | recovery | service | takeover | maint | halt
  deriving DecidableEq, Repr

/-- A power domain's phase (R79, R81). -/
inductive DomPhase where
  | off | rising | on | falling
  deriving DecidableEq, Repr

/-- A queued request for a domain transition (R81, R82). -/
structure DomReq where
  d : Nat := 0
  on : Bool := true
  takeover : Bool := false
  deriving DecidableEq, Repr

/-- Global window, reset and boot progress (R66 to R68, R108 to R123). -/
structure Glb where
  /-- GLB_STATE.STATE, 4 bits with OFF beside it (R123) -/
  st : DevSt := .reset
  /-- GLB_STATE.PREV_STATE, 4 bits (R123) -/
  prev : Nat := 0
  /-- GLB_STATE.TRANSITIONS, 16 bits (R123) -/
  transitions : Nat := 0
  /-- GLB_RESET_CAUSE, 6 bits (R123) -/
  cause : BitVec 6 := 0x20
  /-- GLB_BOOT_STATUS (R123) -/
  bootStatus : Word := 0
  /-- latched PAIR_SIDE strap (R67) -/
  side : Bool := false
  /-- latched BOOT_SRC strap, 2 bits (R67) -/
  bootSrc : BitVec 2 := 0
  /-- PORST_N is low: RESET ends at its rising edge (R113) -/
  porst : Bool := true
  /-- THERMTRIP_N is driven low (R66) -/
  thermtrip : Bool := false
  /-- a shutdown into HALT is under way (R101) -/
  shutdown : Bool := false
  /-- LOAD_FIRST: the next boot reads the second flash first (R501) -/
  loadFirst : Bool := false
  /-- flashes that this boot may read, in order: 0 A, 1 B (R115, R501) -/
  bootOrder : List Nat := []
  /-- this boot runs under LOAD_FIRST (R502) -/
  underLoad : Bool := false
  /-- boot sources already tried in this boot (R114) -/
  tried : List Nat := []
  /-- BOOT waits for a management image (R115) -/
  mgmtWait : Bool := false
  /-- the source that supplied the running firmware: 0, 1, 2 management, 3 none (R123) -/
  fwSource : Nat := 3
  /-- version of the running image, as the anti-rollback counter counts it (R114, R501) -/
  fwRoll : Nat := 0
  /-- running firmware version (R290) -/
  fwVersion : Word := 0
  /-- floor plan sources already tried (R116) -/
  planTried : List Nat := []
  /-- a floor plan has been accepted since the last reset (R147) -/
  planAccepted : Bool := false
  /-- PLAN_APPLY has run in this boot (R117) -/
  planApplied : Bool := false
  /-- drive readiness is settled and the join is done (R113) -/
  joinDone : Bool := false
  /-- the join awaits a partner in TAKEOVER (R121) -/
  joinWait : Bool := false
  /-- device time of entry to the current state (R112) -/
  entered : Nat := 0
  /-- device time of the last watchdog kick (R110) -/
  wdog : Nat := 0
  /-- OTP firmware anti-rollback counter (R114) -/
  otpFw : Nat := 0
  /-- OTP plan counter, 7 bits (R132) -/
  otpPlan : Nat := 0
  deriving DecidableEq, Repr

/-- Power manager (R78 to R107). -/
structure Pwr where
  /-- phase of each domain, off when unlisted (R79) -/
  dom : Tab DomPhase := []
  /-- requests waiting, in order of arrival (R82) -/
  reqs : List DomReq := []
  /-- the domains being switched on one at a time, bit per domain: in PLAN, and on leaving deep idle (R85, R117) -/
  turn : Option Dword := none
  /-- device time of the last switch-on start (R81) -/
  onAt : Option Nat := none
  /-- device time of the last switch-off start (R81) -/
  offAt : Option Nat := none
  /-- domains held off by the floor plan or after boot BIST, bit per domain (R83, R118) -/
  heldOff : Dword := 0
  /-- deep idle: the domains that were on at entry (R85) -/
  idle : Option (List Nat) := none
  /-- on-die estimate of input power in mW (R92) -/
  estimate : Nat := 0
  /-- PWR_POWER_MW (R103) -/
  powerMw : Nat := 0
  /-- energy since cold reset in pJ, read in µJ by PWR_ENERGY, 64 bits (R103) -/
  energy : Nat := 0
  /-- device time up to which energy is counted (R103) -/
  energyAt : Nat := 0
  /-- thermal cap in mW while the thermal governor runs (R100) -/
  thermalCap : Option Nat := none
  /-- control cluster clock in MHz (R93) -/
  cpuMhz : Nat := 2000
  /-- BIST slices and scrubbing paused by the cap (R93) -/
  bistPaused : Bool := false
  /-- rebuild and reshape bandwidth left by the cap, percent (R93) -/
  bgPct : Nat := 100
  /-- admission rate left by the cap for HIGH, MEDIUM, LOW, percent (R93) -/
  admPct : List Nat := [100, 100, 100]
  /-- device time at which the cap or the thermal governor last held a command (R95) -/
  heldAt : Option Nat := none
  /-- attention 0x6 from a hold (R95) -/
  holdAttn : Bool := false
  /-- permitted activity per VDD_CORE block, in 1/200 of full rate (R87, R88) -/
  activity : Tab Nat := []
  /-- demand of each block at the last governor tick, in 1/200 (R88) -/
  demand : Tab Nat := []
  /-- the load governor is limiting activity: PWR_STATUS.GOVERNOR_HOLD (R103) -/
  governorHold : Bool := false
  /-- PWR_STATUS.PWR_FAIL (R97) -/
  fail : Bool := false
  /-- PWR_STATUS.CAP_REJECT (R91) -/
  capReject : Bool := false
  /-- PWR_STATUS.THERM_CFG_REJECT (R104) -/
  thermReject : Bool := false
  deriving DecidableEq, Repr

/-- Sensors, regulators and the AVS loop (R59, R78, R98 to R107). -/
structure Sense where
  /-- readings of sensors 0 to 29 in 1/16 °C (R98, R103) -/
  temps : Tab Int := []
  /-- sensors left out of TJ_MAX after a disagreement (R514) -/
  leftOut : List Nat := []
  /-- TJ_MAX in 1/16 °C, 16 bits (R103) -/
  tjMax : Int := 0
  /-- hottest sensor, 8 bits (R103) -/
  hottest : Nat := 0
  /-- PWR_TEMP_PEAK: highest TJ_MAX since its last read, and its sensor (R103) -/
  peak : Option (Int × Nat) := none
  /-- TJ_MAX is at or above WARN_C (R99) -/
  warned : Bool := false
  /-- refresh doubled for HBM0, HBM1 (R99) -/
  refresh2 : List Bool := [false, false]
  /-- VDD_CORE setpoint in mV (R78, R103) -/
  avsMv : Nat := 750
  /-- remaining aging margin in percent, 8 bits (R103) -/
  marginPct : Byte := 0
  /-- worst path slowdown in 0.01 %, 16 bits (R103) -/
  slowdown : Half := 0
  /-- the monitors were calibrated and the setpoint set in this power cycle (R78) -/
  avsSet : Bool := false
  /-- CORE and SWC clock reductions of one sixty-fourth (R107) -/
  clockDrop : Nat := 0
  /-- rail voltages in mV and currents in mA as last read over PMBus (R92) -/
  railMv : List Nat := []
  railMa : List Nat := []
  /-- the regulator that raised PMB_ALERT_N and awaits its poll (R59) -/
  pmbAlert : Option Nat := none
  /-- recognised presence of each slot, bit per slot (R62) -/
  present : BitVec 24 := 0
  /-- the bus-continuity check of SGPIO_SDATAIN in the last frame (R60) -/
  sgpioOk : Bool := true
  /-- clock references lost: 0 ETH_REFCLK0, 1 ETH_REFCLK1, 2 PCIE_REFCLK (R514) -/
  clkLost : List Nat := []
  deriving DecidableEq, Repr

/-! ### Registers, floor plan and access (R13 to R16, R124 to R151) -/

/-- The register file: words that are stored as they are written. -/
structure Reg where
  /-- live values of RW and RWS registers, by offset; unlisted: the reset value (R13) -/
  live : Tab Word := []
  /-- staged copies of RWS registers, by live offset (R13) -/
  staged : Tab Word := []
  /-- 48-bit RC counters by low-word offset (R177) -/
  cnt : Tab Nat := []
  /-- latched high words, by offset (R13) -/
  latch : Tab Word := []
  /-- registers with a sticky reject or fault bit set, by offset: the set bits (R13) -/
  sticky : Tab Word := []
  /-- the value the last bus read returned -/
  readVal : Word := 0
  deriving DecidableEq, Repr

/-- Running plan and commits (R137 to R142). -/
structure Pln where
  /-- the accepted floor plan, as checked (R128) -/
  cand : Option Plan := none
  /-- the running floor plan (R128) -/
  plan : Plan := {}
  /-- PLN_COMMIT_g.SEQ, 16 bits (R142) -/
  seq : Tab Nat := []
  /-- PLN_COMMIT_STATUS.ATTEMPT, 16 bits (R142) -/
  attempt : Nat := 0
  /-- PLN_COMMIT_STATUS.RESULT, 8 bits (R142) -/
  result : Nat := 0
  /-- PLN_COMMIT_STATUS.GROUP, 6 bits (R142) -/
  group : Nat := 0
  /-- PLN_COMMIT_DETAIL (R142) -/
  detail : Word := 0
  /-- PLN_LOCK_g holders (R141) -/
  locks : Tab Master := []
  deriving DecidableEq, Repr

/-- Access control, denials and debug unlock (R143 to R151). -/
structure Acc where
  /-- word 0 latched by its write, by page × 8 + entry (R148) -/
  w0 : Tab Word := []
  /-- word 0 latched for a counter set entry, by set × 16 + entry (R148) -/
  ctrW0 : Tab Word := []
  /-- word 0 latched for a key page entry, by page × 4 + entry (R482) -/
  keyW0 : Tab Word := []
  /-- configuration page entries, by page × 8 + entry (R146) -/
  pages : Tab AccessEntry := []
  /-- counter set entries, by set × 16 + entry (R146) -/
  ctr : Tab AccessEntry := []
  /-- key page entries, by page × 4 + entry (R146) -/
  keys : Tab AccessEntry := []
  /-- key page entries written and not yet acknowledged by the partner: they read as written (R15, R482) -/
  keyPend : Tab AccessEntry := []
  /-- ACC_DENY_COUNT (R150) -/
  denyCount : Nat := 0
  /-- ACC_DENY_MASTER (R150) -/
  denyMaster : Word := 0
  /-- ACC_DENY_WHERE (R150) -/
  denyWhere : Word := 0
  /-- ACC_DENY_TIME (R150) -/
  denyTime : Word := 0
  /-- device time of the last denial event per master (R150) -/
  denyLogged : Tab Nat := []
  /-- ACC_DBG_CHALLENGE, 64 bits (R151) -/
  challenge : Dword := 0
  /-- a challenge is outstanding (R151) -/
  challenged : Bool := false
  /-- ACC_DBG_STATUS.UNLOCKED (R151) -/
  unlocked : Bool := false
  /-- ACC_DBG_STATUS failed attempts, 2 bits (R151) -/
  dbgFails : Nat := 0
  /-- while an admitted command runs: its master, and the rights it was found to hold at admission (R24) -/
  acting : Option (Master × Tab Nat) := none
  /-- the instruction in the TAP (R54) -/
  tap : TapInstr := .bypass
  deriving DecidableEq, Repr

/-! ### Event log and attention (R291, R298, R542) -/

/-- What an event-log entry names, for its visibility (R298). -/
inductive Topic where
  | none | volume (v : Nat) | volumes | group (g : Nat) | keyPage (k : Nat) | keyPages | ctrSets (mask : Nat)
  /-- a denial of this master -/
  | denial (m : Master)
  deriving DecidableEq, Repr

/-- Event log entry (R291). -/
structure LogEntry where
  time : Nat := 0
  seq : Nat := 0
  event : Nat := 0
  attn : Nat := 0
  tag : Word := 0
  status : Half := 0
  detail : List Byte := []
  topic : Topic := .none
  /-- the PD of the command the entry names (R298) -/
  pd : Option Nat := .none
  deriving DecidableEq, Repr

/-- Event log, cursors and attention sequence numbers (R291, R298). -/
structure Log where
  /-- the retained entries, oldest first, at most 4,096 (R291) -/
  entries : List LogEntry := []
  /-- SEQ of the next entry, 32 bits (R291) -/
  seq : Nat := 0
  /-- per PD: SEQ of the first entry beyond its read cursor; unlisted 0 (R291) -/
  cursor : Tab Nat := []
  /-- event values lost by overwriting before a PD read them, per PD, bit per value (R298) -/
  missed : Tab Nat := []
  /-- ATTN_SEQ per PD, 16 bits (R298) -/
  attnSeq : Tab Nat := []
  /-- the visible set that ATTN_SEQ was last counted for, bit per value (R298) -/
  attnVis : Tab Nat := []
  deriving DecidableEq, Repr

/-! ### Ethernet ports and the switch core (R152 to R201) -/

/-- Pause watchdog states (R165). -/
inductive PwdSt where
  | open | held | recover
  deriving DecidableEq, Repr

/-- A pause watchdog instance (R165). -/
structure Pwd where
  st : PwdSt := .open
  /-- device time at which the quanta timer expires -/
  quantaAt : Nat := 0
  /-- device time at which the watch timer started -/
  watchAt : Nat := 0
  /-- device time at which the recovery timer started -/
  recAt : Nat := 0
  /-- the ACTION taken at expiry: true DRAIN (R166, R167) -/
  drain : Bool := false
  deriving DecidableEq, Repr

/-- A logical port, switch ports 0 to 32 (R157 to R165, R191). -/
structure Port where
  up : Bool := false
  /-- a bring-up attempt is under way, and since when (R157) -/
  attempt : Option Nat := none
  /-- the attempts follow a retrain: a failed one is a failed retrain (R158) -/
  retrain : Bool := false
  /-- lanes of the current form, within the macro (R160) -/
  lanes : List Nat := []
  reformed : Bool := false
  /-- watchdog instances: 0 to 7 PFC priority, 8 Annex 31B (R165) -/
  pwd : Tab Pwd := []
  /-- device time of the loss of link, and LINK_HOLD at that moment in µs (R191) -/
  down : Option (Nat × Nat) := none
  /-- step 3b of R191 is past -/
  holdDone : Bool := true
  deriving DecidableEq, Repr

/-- A lane (R159 to R162). -/
structure Lane where
  lock : Bool := false
  retired : Bool := false
  idle : Bool := false
  /-- device times of the failed retrains charged to it (R159) -/
  fails : List Nat := []
  deriving DecidableEq, Repr

/-- A transmit timestamp (R174, R176). -/
structure PtpTs where
  time : Nat := 0
  seqId : Nat := 0
  port : Nat := 0
  deriving DecidableEq, Repr

/-- The Ethernet macros and the partywall macro. -/
structure Eth where
  /-- logical ports by switch port (R20, R157) -/
  ports : Tab Port := []
  /-- lanes by macro × 4 + lane, PW is macro 8 (R159) -/
  lanes : Tab Lane := []
  /-- transmit timestamp FIFOs by macro, 16 entries each (R174) -/
  ptp : Tab (List PtpTs) := []
  /-- latched ETH_PTP_TS_HI and ETH_PTP_TS_ID by macro (R176) -/
  ptpLatch : Tab (Word × Word) := []
  deriving DecidableEq, Repr

/-- A frame in the shared buffer (R187). -/
structure QFrame where
  /-- the stored frame it is a copy of (R193) -/
  id : Nat := 0
  bytes : Nat := 0
  cells : Nat := 0
  /-- its cells stand in the headroom of its ingress port and priority (R189) -/
  inHead : Bool := false
  /-- ingress switch port and priority (R189) -/
  src : Nat := 0
  prio : Nat := 0
  /-- device time of its storing (R192) -/
  time : Nat := 0
  frame : Frame := {}
  super : Option Super := none
  mark : Bool := false
  /-- a mirror copy is never mirrored again (R195) -/
  mirrored : Bool := false
  /-- a multicast or flooded copy (R193) -/
  copy : Bool := false
  /-- forwarded cut-through (R183) -/
  cut : Bool := false
  /-- a cut-through frame found in error (R154) -/
  stomp : Bool := false
  /-- a super-frame's next segment, where its queue was halted between two (R163) -/
  seg : Nat := 0
  deriving DecidableEq, Repr

/-- An egress queue (R187, R196). -/
structure Queue where
  frames : List QFrame := []
  deficit : Nat := 0
  fresh : Bool := true
  /-- shaper tokens in 1/1024 byte and the device time they stand for (R197) -/
  tokens : Int := 0
  tokensAt : Nat := 0
  deriving DecidableEq, Repr

/-- A frame or super-frame being sent (R168, R196). -/
structure Tx where
  q : Nat := 0
  f : QFrame := {}
  /-- the segment under way, or next to start -/
  seg : Nat := 0
  /-- a frame or segment is on the wire -/
  sending : Bool := true
  /-- device time of its start (R173) -/
  time : Nat := 0
  deriving DecidableEq, Repr

/-- Egress state of a switch port (R196). -/
structure Egress where
  /-- the DWRR list -/
  active : List Nat := []
  tokens : Int := 0
  tokensAt : Nat := 0
  /-- what is being sent -/
  tx : Option Tx := none
  deriving DecidableEq, Repr

/-- A stored frame's cells and the copies that remain (R193). -/
structure Stored where
  cells : Nat := 0
  copies : Nat := 0
  /-- cells of it that count in the headroom of its ingress port and priority (R189) -/
  headroom : Nat := 0
  src : Nat := 0
  prio : Nat := 0
  /-- the lossless accounting key at its storing (R189) -/
  key : Option Nat := none
  deriving DecidableEq, Repr

/-- A learned entry (R181); `port` 64 + g names a LAG group, `via` the port itself. -/
structure FdbEnt where
  vid : Nat := 0
  addr : Nat := 0
  port : Nat := 0
  via : Nat := 0
  seen : Nat := 0
  deriving DecidableEq, Repr

/-- A policer's token counts in 1/1024 byte (R198). -/
structure Police where
  tc : Nat := 0
  tp : Nat := 0
  time : Nat := 0
  deriving DecidableEq, Repr

/-- The switch core and the egress scheduler. -/
structure Swc where
  /-- learned entries, at most 32,768 (R181) -/
  fdb : List FdbEnt := []
  /-- egress queues by port × 16 + queue (R187) -/
  queues : Tab Queue := []
  /-- egress ports 0 to 35 (R196) -/
  egress : Tab Egress := []
  /-- stored frames by id (R193) -/
  store : Tab Stored := []
  /-- id of the next stored frame -/
  nextId : Nat := 0
  /-- headroom cells in use by lossless key: ingress port × 8 + priority, or 264 + port with PAUSE_EN (R189) -/
  headroom : Tab Nat := []
  /-- lossless keys whose sender is XOFF (R189) -/
  xoff : List Nat := []
  /-- policers (R198) -/
  police : Tab Police := []
  /-- LFSR of each mirror session, 32 bits (R194) -/
  lfsr : Tab Word := []
  /-- frames withheld from ports 33 to 35, oldest first (R190) -/
  holdoff : List IntFrame := []
  deriving DecidableEq, Repr

/-! ### What the device sends -/

/-- A command to a drive: first 4,096-byte block of the namespace, and what it carries. -/
inductive DriveCmd where
  /-- blocks and their shadow bytes -/
  | read (lba count : Nat)
  | write (lba : Nat) (data : List Byte)
  /-- shadow bytes at a drive byte address (R331) -/
  | shadow (addr : Nat) (data : List Byte)
  /-- a pattern over a range of drive bytes (R488) -/
  | fill (addr len : Nat) (pattern : Word)
  /-- NVMe Sanitize, SANACT 010b and 011b, AUSE 0, No-Deallocate After Sanitize 0 (R491) -/
  | sanitizeBlockErase
  | sanitizeOverwrite (passes : Nat) (invert : Bool) (pattern : Word)
  /-- NVMe device self-test, short or extended (R496) -/
  | selfTest (extended : Bool)
  | register | reserve | acquire | preempt
  | enable | queueReset | retrain | ctrlReset
  /-- the identify data and the health log are read; the asynchronous event notices are enabled (R120) -/
  | identify | healthLog | asyncEnable
  deriving DecidableEq, Repr

/-- What the device computes in the IP and UDP headers of a datagram it originates: source address, total or payload length,
identification and DF (none over IPv6), header checksum, UDP length and checksum (R169, R172, R203). -/
structure IpWire where
  src : Nat := 0
  len : Nat := 0
  id : Half := 0
  df : Bool := true
  ck : Half := 0
  udpLen : Nat := 0
  udpCk : Half := 0
  deriving DecidableEq, Repr

/-- A message to the partner over the partywall or the heartbeat VLAN (R421 to R444). -/
inductive PairMsg where
  | heartbeat (h : Heartbeat)
  /-- the JOIN exchange: side, firmware version, PLAN_ID, PAIR_PLAN_ID, state (R121, R134) -/
  | join (side : Bool) (fwVersion : Word) (planId pairPlanId : Dword) (state : Nat)
  | partnerHalted
  | powerFail
  | health (h : Health)
  | mirror (mseq : Nat) (item : MirrorItem)
  | mirrorAck (mseq : Nat)
  /-- groups, roles that move (bit 0 A, bit 1 B), the giver's last MSEQ -/
  | handover (groups : BitVec 6) (roles : BitVec 2) (lastMseq : Nat)
  | key (page : Nat) (k : Option KeyPage)
  deriving DecidableEq, Repr

/-- A pair frame as it leaves: port, destination address, 802.1Q tag, and the header that begins its payload (R421). -/
structure PairFrame where
  port : Nat := 32
  dst : Nat := 0
  tci : Half := 0
  head : List Byte := []
  deriving DecidableEq, Repr

/-- What a home pier's drive access through a proxy is for. -/
inductive FragUse where
  | none
  | frag (cmd stripe col : Nat)
  | read (cmd stripe col first : Nat)
  | bitmap (vol region : Nat)
  | journal (group copy jseq : Nat)
  deriving DecidableEq, Repr

/-- One thing the device sends or does outside itself. -/
inductive Emit where
  /-- a Trestle packet to a host or a pier: destination IP, source and destination UDP port, packet, what is computed for it -/
  | trs (ip sport dport : Nat) (pk : Pkt) (w : IpWire)
  /-- an inner record to a pier: its 128 bytes (R452) -/
  | inner (pier : Nat) (bytes : List Byte)
  | pair (f : PairFrame) (m : PairMsg)
  | drive (slot : Nat) (c : DriveCmd)
  /-- gratuitous ARP, or unsolicited neighbour advertisement of an IPv6 address, on a port in a VLAN (R432) -/
  | garp (port vid addr : Nat)
  /-- pause or PFC frame: port, priority or 8 for Annex 31B, quanta (R164) -/
  | pfc (p prio quanta : Nat)
  /-- a frame started on a port (R196) -/
  | frame (p : Nat) (f : QFrame)
  /-- a segment of a super-frame started on a port: index, the headers copied from the template, its packet, what is computed for
  it (R169) -/
  | segment (p i : Nat) (f : Frame) (pk : Pkt) (w : IpWire)
  /-- a frame handed to the pair logic (R179) -/
  | toPair (f : Frame)
  /-- a relayed frame rewritten for another pier (R450) -/
  | relay (pier : Nat) (f : Frame)
  /-- a received PTP event message's timestamp to port 35 (R173) -/
  | ptpRx (p seqId time : Nat)
  /-- an operation on flash A or B: opcode and clock in MHz (R57) -/
  | spi (flashB : Bool) (op : Byte) (mhz : Nat)
  /-- an SGPIO frame of 72 bits, the first sent first (R60) -/
  | sgpio (bits : List Bool)
  deriving DecidableEq, Repr

/-! ### Trestle: connections, regions, contexts (R202 to R273) -/

/-- Device connection states (R212); FREE is an unlisted index, `connecting` an inner CONNECT that awaits its reply (R451). -/
inductive ConnSt where
  | connecting | established | closing | timeWait | resuming
  deriving DecidableEq, Repr

/-- What a transfer of the device is for. -/
inductive Use where
  | none
  /-- host write data of a slot, from this byte on (R242) -/
  | pull (cmd off : Nat)
  /-- read data or tags of a slot sent to the host (R285) -/
  | data (cmd : Nat)
  /-- the head word of a CQ (R280) -/
  | cqHead (cq : Nat)
  /-- the completion entry in this slot of a CQ (R278) -/
  | entry (cq slot : Nat)
  /-- an inner record (R452) -/
  | record
  /-- data of a forwarded read, for this host address (R452) -/
  | relay (cmd addr : Nat)
  /-- at a proxy: write data of a fragment request, by its number (R452) -/
  | frag (n : Nat)
  /-- at a home pier: read data of a fragment request, by its tag -/
  | fragBack (tag : Nat)
  deriving DecidableEq, Repr

inductive OutKind where
  | write | readReq | readResp | close
  deriving DecidableEq, Repr

/-- A message the device has to send on a connection (R216, R239). -/
structure OutMsg where
  kind : OutKind := .write
  msn : Option Nat := none
  len : Nat := 0
  addr : Nat := 0
  key : Nat := 0
  tag : Nat := 0
  fence : Bool := false
  notify : Bool := false
  data : List Byte := []
  /-- READ_RESP: offset, KEY and partition of the source, partition 0 where `data` holds the bytes; READ_REQ: RESP_ADDR and RESP_KEY -/
  src : Nat := 0
  region : Nat := 0
  part : Nat := 0
  /-- a resent message (R244) -/
  retry : Bool := false
  /-- CLOSE reason (R213) -/
  reason : Nat := 0
  /-- bytes already sent -/
  off : Nat := 0
  /-- device time from which it waits for its context, and for the peer's edge (R238, R269) -/
  ctxSince : Option Nat := none
  creditSince : Option Nat := none
  /-- a completion entry's longest wait, where it is DELAYED (R297) -/
  wait : Nat := 0
  use : Use := .none
  deriving DecidableEq, Repr

/-- A read of the device that is outstanding (R241). -/
structure ReadOut where
  id : Nat := 0
  msn : Nat := 0
  len : Nat := 0
  /-- RESP_ADDR and RESP_KEY -/
  addr : Nat := 0
  key : Nat := 0
  /-- the source at the responder, for a resent request (R244) -/
  srcAddr : Nat := 0
  srcKey : Nat := 0
  count : Nat := 0
  use : Use := .none
  deriving DecidableEq, Repr

/-- A sequenced packet that awaits its acknowledgement (R230). -/
structure TxPkt where
  psn : Nat := 0
  pk : Pkt := {}
  /-- path and order on the connection of each transmission, the latest first (R230, R232) -/
  sent : List (Nat × Nat) := []
  /-- device time of the last transmission -/
  time : Nat := 0
  /-- device time of the last fast retransmission (R232) -/
  fastAt : Option Nat := none
  /-- READ_RESP: partition, offset and KEY of the source, read again on a retransmission (R240) -/
  src : Option (Nat × Nat × Nat) := none
  deriving DecidableEq, Repr

/-- An open message of the receive direction (R216, R218). -/
structure RxMsg where
  len : Nat := 0
  count : Nat := 0
  complete : Bool := false
  failed : Bool := false
  tag : Option Nat := none
  notify : Bool := false
  deriving DecidableEq, Repr

inductive PathSt where
  | open | suspect (n : Nat) | closed
  deriving DecidableEq, Repr

/-- A path at the sender (R233). -/
structure PathRec where
  st : PathSt := .open
  /-- tag of the latest PROBE, 0 when none was sent -/
  tag : Nat := 0
  /-- its PROBE awaits an answer -/
  probing : Bool := false
  /-- device time of the last PROBE -/
  time : Nat := 0
  deriving DecidableEq, Repr

/-- A connection context (R208 to R245). -/
structure Conn where
  st : ConnSt := .established
  r : ConnRec := {}
  /-- device time of entry to the state -/
  since : Nat := 0
  /-- the connection was adopted at a take-over (R243) -/
  adopted : Bool := false
  /-- CUM_PSN and the received PSNs at or above it (R215) -/
  cum : Nat := 0
  got : List Nat := []
  /-- fenced packets held at step 11 (R222) -/
  held : List Pkt := []
  /-- PSNs placed whose RING item the partner has not acknowledged: left out of every ACK (R418) -/
  ringWait : List (Nat × Nat) := []
  /-- COMPLETED_MSN and the open messages (R216) -/
  completed : Nat := 0
  msgs : Tab RxMsg := []
  failMask : Dword := 0
  /-- RCVD, the edge granted, the edge last advertised, and the window taken at establishment (R236, R237) -/
  rcvd : Nat := 0
  edge : Nat := 0
  advertised : Nat := 0
  window : Nat := 0x40000
  /-- read slots the device offers as responder (R242) -/
  slots : Nat := 16
  /-- acknowledgements coalesced: packets and path (R228) -/
  ackPend : Nat := 0
  ackPath : Nat := 0
  /-- device time of the first packet whose acknowledgement is coalesced (R228) -/
  ackSince : Nat := 0
  /-- PSN of the peer's CLOSE, not yet acted on (R213) -/
  closePsn : Option Nat := none
  peerClosed : Bool := false
  closeSent : Bool := false
  /-- next PSN and MSN, SENT and the edge held (R215, R216, R236) -/
  psn : Nat := 0
  msn : Nat := 0
  sent : Nat := 0
  peerEdge : Nat := 0
  /-- latest known CUM_PSN and COMPLETED_MSN of the peer -/
  peerCum : Nat := 0
  peerDone : Nat := 0
  sendQ : List OutMsg := []
  unacked : List TxPkt := []
  reads : List ReadOut := []
  /-- WRITE messages begun and not known finished, by MSN (R227, R244) -/
  outMsgs : List (Nat × OutMsg) := []
  order : Nat := 0
  /-- the RTO estimator in ns (R231) -/
  srtt : Option Nat := none
  rttvar : Nat := 0
  /-- doublings of the RTO since the last sample (R231) -/
  backoff : Nat := 0
  paths : Tab PathRec := []
  nextPath : Nat := 0
  /-- SRC_PORT_BASE of the device (R210) -/
  portBase : Nat := 0xC000
  /-- start of the dead timer, while acknowledgement is awaited (R234) -/
  deadAt : Option Nat := none
  /-- connect id of an inner CONNECT, or resume id, and the RESUMEs sent (R243, R245, R451) -/
  id : Nat := 0
  resumes : Nat := 0
  planned : Bool := false
  /-- the RESUME answered last: its resume id and the reply (R244) -/
  resumed : Option (Word × Emit) := none
  /-- reason of a local close that waits for the end of RESUMING (R251) -/
  closeLater : Option Nat := none
  /-- device time of the last NACK by PSN (R229) -/
  nackAt : Tab Nat := []
  deriving DecidableEq, Repr

/-- Is the connection ESTABLISHED? -/
def Conn.est (c : Conn) : Bool := c.st == .established

/-- A fetch work request (R261). -/
structure Wr where
  /-- ARMED, which the spec names and never changes (R261) -/
  armed : Bool := true
  running : Bool := false
  refetch : Bool := false
  /-- the fetch pauses on a full fetch buffer (R312) -/
  paused : Bool := false
  triggers : Nat := 0
  lastTrigger : Nat := 0
  deriving DecidableEq, Repr

/-- A timer action that waits for its context (R266). -/
inductive CtxTimer where
  | rto | ack | dead | probe (path : Nat)
  /-- a CREDIT (R237), the probes of an idle inner connection (R453) -/
  | credit | idleProbe
  deriving DecidableEq, Repr

/-- The Trestle engine. -/
structure Trs where
  /-- protection domain table; unlisted entries are disabled (R248) -/
  pds : Tab PdEntry := []
  /-- VALID region entries by index (R252) -/
  regions : Tab Region := []
  /-- generation last allocated by region index (R254) -/
  regionGen : Tab Nat := []
  /-- lowest region index of the range never allocated, counted from the range's start (R254) -/
  regionFresh : Nat := 0
  /-- freed region indices and their device times, oldest first (R254) -/
  regionFreed : List (Nat × Nat) := []
  /-- connections by local index (R212) -/
  conns : Tab Conn := []
  connFresh : Nat := 0
  connFreed : List (Nat × Nat) := []
  connGen : Tab Nat := []
  /-- CONNECTs answered: source IP, SRC_CONN, connect id, device time, the reply (R211) -/
  answered : List (Nat × Word × Word × Nat × Emit) := []
  /-- fetch work requests by SQ (R261) -/
  wrs : Tab Wr := []
  /-- lingering triggers: PD, tag, device time; at most 4,096 (R264) -/
  linger : List (Nat × Nat × Nat) := []
  /-- triggers that arrived in TAKEOVER before replay has re-created the held commands: PD, tag (R538) -/
  late : List (Nat × Nat) := []
  /-- resident contexts, least recently used first, and the device time each became resident (R265, R267) -/
  resident : List Nat := []
  residentAt : Tab Nat := []
  /-- contexts in the writeback buffer, at most 32 (R267) -/
  writeback : List Nat := []
  /-- those of the buffer that are reclaimed and wait for a slot (R267, R268) -/
  reclaim : List Nat := []
  /-- contexts whose fetch is outstanding (R268) -/
  fetching : List Nat := []
  /-- parked packets, at most 1,024 (R271) -/
  porch : List (Nat × Net × Pkt) := []
  porchPeak : Nat := 0
  /-- timer actions deferred to residency (R266) -/
  timers : List (Nat × CtxTimer) := []
  /-- TRS_PD_CTRL.BUSY since, and REJECT (R250, R273) -/
  pdBusy : Option Nat := none
  pdReject : Bool := false
  /-- device time of the last BAD_CONN NACK by source address (R213) -/
  badConnAt : Tab Nat := []
  /-- submission-ring partition, both halves of a pair (R258, R416) -/
  rings : List Host.Cell := []
  /-- device time of the last placement in a ring, by partition offset / 64 (R532) -/
  ringAt : Tab Nat := []
  /-- the pantry (R259) -/
  pantry : List Host.Cell := []
  /-- the last probe tag used (the model's own) -/
  probeSeq : Nat := 0
  deriving DecidableEq, Repr

/-! ### Command queues and slots (R274 to R314) -/

/-- A capsule in a fetch buffer (R276). -/
structure Fetched where
  sq : Nat := 0
  cap : List Byte := []
  /-- device time of the fetch, and its place among all fetches -/
  time : Nat := 0
  order : Nat := 0
  /-- device time of its placement in the ring (R532) -/
  placed : Nat := 0
  /-- delay reasons of the waits that the rules name: power, PWR_FAIL, a take-over (R94, R97, R435) -/
  slow : List Nat := []
  deriving DecidableEq, Repr

/-- Where a command stands. -/
inductive Phase where
  /-- waits for its trigger (R305) -/
  | held
  /-- admitted, not yet executing -/
  | admitted
  /-- executing -/
  | running
  /-- its result is decided, its entry not generated -/
  | answered
  /-- its entry is generated and waits for the partner or for space in the CQ -/
  | generated
  deriving DecidableEq, Repr

/-- States of a drive write fragment (R349, R365). -/
inductive FragSt where
  | waiting | sent | durable | dropped
  deriving DecidableEq, Repr

/-- The rows of one column that a write changes, and their shadow bytes (R345, R346). -/
structure Frag where
  col : Nat := 0
  /-- rows of the chunk with their new blocks -/
  rows : List (Nat × List Byte) := []
  /-- granules of the chunk with their new shadow bytes -/
  shadow : List (Nat × List Byte) := []
  st : FragSt := .waiting
  deriving DecidableEq, Repr

/-- Update methods (R345). -/
inductive Method where
  | read | mirror | full | rmw | recon
  deriving DecidableEq, Repr

/-- What a command does in one stripe (R345, R367). Tables are keyed by column × 65,536 + row or granule. -/
structure Work where
  /-- volume stripe; 2^47 + stripe in the new layout of a reshape (R401) -/
  stripe : Nat := 0
  /-- first block and blocks of the range in this stripe -/
  lba : Nat := 0
  count : Nat := 0
  method : Method := .read
  /-- drive reads outstanding: column, first row, rows -/
  asked : List (Nat × Nat × Nat) := []
  /-- (column, row) found unreadable -/
  bad : List (Nat × Nat) := []
  blk : Tab (List Byte) := []
  shd : Tab (List Byte) := []
  /-- reads submitted; check data computed (R541) -/
  begun : Bool := false
  computed : Bool := false
  frags : List Frag := []
  deriving DecidableEq, Repr

/-- A command slot (R294 to R314). -/
structure Slot where
  /-- SQ and COMMAND_ID; a management submission shows SQ 0xFFFF (R314) -/
  sq : Nat := 0
  cid : Nat := 0
  /-- the CQ its SQ is bound to -/
  cq : Nat := 0
  cap : List Byte := []
  pd : Nat := 0
  cls : Nat := 0
  /-- identity under which rights are judged -/
  master : Master := 0
  msub : Bool := false
  /-- admission number (R303) -/
  adm : Nat := 0
  /-- place in overlap order; none while held (R306) -/
  place : Option Nat := none
  phase : Phase := .admitted
  /-- occupies a reserved slot of its class (R299) -/
  reserved : Bool := false
  fetched : Nat := 0
  admitted : Nat := 0
  /-- place among all fetches: submission order within an SQ (R276) -/
  order : Nat := 0
  held : Bool := false
  /-- forwarded from a gate: pier, gate shelf, SEQ, STAGE_KEY, STAGE_ADDR (R455) -/
  from_ : Option (Nat × Nat × Nat × Nat × Nat) := none
  /-- forwarded to an owner, with SEQ (R454) -/
  to_ : Option (Nat × Nat) := none
  /-- key and address under which the other pier pulls its data (R452) -/
  stage : Option (Nat × Nat) := none
  /-- at an owner: host address and bytes of a forwarded read; at a gate: bytes still to be pulled from the owner -/
  back : List (Nat × List Byte) := []
  backLeft : Nat := 0
  /-- waits for a reachable owner (R454) -/
  ownerWait : Bool := false
  /-- its SQ is gone with a DETACHED CQ: its completion is discarded (R281) -/
  orphan : Bool := false
  /-- an ABORT of the device's own to an owner pier: it has no completion (R283) -/
  own : Bool := false
  traced : Bool := false
  /-- host data in staging, bytes landed and bytes asked for (R242, R285) -/
  data : List Byte := []
  landed : Nat := 0
  asked : Nat := 0
  /-- ns waited by its transfers under the delay reasons 6 and 7 (R238, R269) -/
  stalls : Tab Nat := []
  /-- class 1 NACK of a host transfer; 0 when the connection was lost (R281, R296) -/
  xferFail : Option Nat := none
  /-- the bound key page as taken at admission or release (R476, R477) -/
  key : Option KeyPage := none
  /-- tags by granule (R467, R287) -/
  tags : Tab (List Byte) := []
  /-- granules of a verified read that have passed, and those under mismatch resolution (R369) -/
  checked : List Nat := []
  mism : List Nat := []
  /-- a granule that no alternative resolves, the lowest so far (R369) -/
  mismAt : Option Nat := none
  /-- the range written or read, whole allocation units of zero fill included (R333) -/
  works : List Work := []
  planned : Bool := false
  /-- all read data is in staging (R301) -/
  staged : Bool := false
  /-- all read data has been handed to the connection -/
  sentData : Bool := false
  /-- dirty regions it needs or holds (R352) -/
  regions : List Nat := []
  /-- JSEQs of its VESTIBULE set and of its ALLOC and LOST_CLEAR records (R548, R349) -/
  recs : List Nat := []
  recsMade : Bool := false
  allocs : List (Nat × Bool) := []
  allocRecs : List Nat := []
  allocMade : Bool := false
  /-- MSEQ of its CMD item (R418) -/
  cmdItem : Option Nat := none
  /-- past its point of no return (R309) -/
  pnr : Bool := false
  /-- an ABORT of it has been decided (R308) -/
  abortSeen : Bool := false
  /-- target of an ABORT whose own entry waits for the target's (R310) -/
  after : Option Nat := none
  /-- a partner action or other event that the answer waits for -/
  waitFor : Bool := false
  /-- status, RESULT0, RESULT1 -/
  result : Option (Nat × Nat × Nat) := none
  /-- the event log holds an entry for it (R293) -/
  more : Bool := false
  /-- replayed after a take-over (R433) -/
  replay : Bool := false
  /-- device time of its capsule's placement, milestones by index, and drive commands issued for it (R532) -/
  placed : Nat := 0
  miles : Tab Nat := []
  driveCmds : Nat := 0
  /-- delay reasons of the waits that the rules name: power, PWR_FAIL, credit, a take-over (R94, R97, R238, R435) -/
  slow : List Nat := []
  /-- rights of an admin command as found at its admission, by what they are held on (R24) -/
  rights : Tab Nat := []
  /-- the entry that the owner generated, at the gate of a forwarded command (R456) -/
  fwdCpl : List Byte := []
  /-- generated entry and its place in the CQ -/
  entry : List Byte := []
  cqSlot : Nat := 0
  deriving DecidableEq, Repr

/-- A generated entry that waits for the partner or for space, in CQ order (R280, R418). -/
structure Posting where
  cq : Nat := 0
  cmd : Nat := 0
  slot : Nat := 0
  entry : List Byte := []
  /-- the partner has acknowledged it -/
  ready : Bool := true
  /-- device time from which it waits for space in its CQ (R280, R297) -/
  fullSince : Option Nat := none
  /-- the longest wait that a DELAYED entry shows (R297) -/
  wait : Nat := 0
  deriving DecidableEq, Repr

/-- The command engine. -/
structure Cmd where
  sqs : Tab SqRec := []
  cqs : Tab CqRec := []
  /-- fetch buffers by class, oldest first, at most 1,024 each (R299) -/
  bufs : Tab (List Fetched) := []
  fetches : Nat := 0
  /-- budgets of HIGH, MEDIUM and LOW in the round (R299, R300) -/
  budget : List Nat := [0, 0, 0]
  /-- SQ served last, by class (R299) -/
  lastSq : Tab Nat := []
  /-- command slots in use, by slot number (R299) -/
  slots : Tab Slot := []
  nextAdm : Nat := 0
  nextPlace : Nat := 0
  /-- entries generated and not posted, in order -/
  posting : List Posting := []
  /-- held commands: admitted late for power since this device time, by SQ (R94) -/
  heldSince : Tab Nat := []
  /-- CMD_PD_QUOTA by PD; unlisted 131,072 (R313) -/
  quota : Tab Nat := []
  /-- CMD_MSUB_CTRL.BUSY and DONE, and CMD_MSUB_CPL (R314) -/
  msubBusy : Bool := false
  msubDone : Bool := false
  msubCpl : List Byte := []
  /-- device time at which each CQ was DETACHED (R281) -/
  detachedAt : Tab Nat := []
  deriving DecidableEq, Repr

/-! ### Drives, groups, journals and volumes (R315 to R410) -/

/-- Member states (R316). -/
inductive MemberSt where
  | absent | present | ok | suspect | failed | spare | rebuilding | retired
  deriving DecidableEq, Repr

/-- Bring-up of a slot (R120). -/
inductive Bring where
  | down | released | link | ready | failed
  deriving DecidableEq, Repr

/-- A drive slot (R120, R316, R379 to R384, R408). -/
structure Drive where
  st : MemberSt := .absent
  bring : Bring := .down
  /-- identify data, health log and header as last read -/
  id : DriveIdent := {}
  /-- asynchronous event notices are enabled on it (R120, R379) -/
  async : Bool := false
  /-- what link training found on lanes 0 and 1: inverted receive polarity, corrected, and lane reversal (R52) -/
  rxInvert : BitVec 2 := 0
  reversed : Bool := false
  /-- layout group and position, group 7 when none (R343) -/
  group : Nat := 7
  pos : Nat := 0
  /-- device time of entry to the state -/
  since : Nat := 0
  /-- cause of the latest failure (R382) -/
  cause : Nat := 0
  retrains : List Nat := []
  timeouts : List Nat := []
  media : List Nat := []
  /-- device time of the last controller reset (R382) -/
  resetAt : Option Nat := none
  /-- catch-up runs (R383) -/
  catching : Bool := false
  /-- regions named by its MEMBER_EVENT records or written while it was SUSPECT: volume, region (R383, R384) -/
  behind : List (Nat × Nat) := []
  /-- the MEMBER_EVENT record of its fault, by JSEQ (R364) -/
  event : Option Nat := none
  /-- the survivor's preempt has not completed on it (R430) -/
  fencing : Bool := false
  /-- ready since the pair was made, and the partner has not registered on it (R414) -/
  late : Bool := false
  /-- held off by SLOT_OFF (R63, R406) -/
  off : Bool := false
  /-- the drive sanitize under way on it and its failures (R491, R493) -/
  sanitize : Bool := false
  sanFails : Nat := 0
  deriving DecidableEq, Repr

/-- A record in the journal ring (R359, R360). -/
structure JLive where
  r : JRec := {}
  len : Nat := 64
  off : Nat := 0
  /-- live copies that have not completed its write -/
  pend : List Nat := []
  durable : Bool := false
  /-- no use is left for it (R361) -/
  done : Bool := false
  deriving DecidableEq, Repr

/-- The journal of a layout group (R358 to R362, R387). -/
structure Journal where
  next : Nat := 1
  head : Nat := 1
  recs : List JLive := []
  tail : Nat := 0
  /-- position that holds copy i, and the live copies -/
  copies : Tab Nat := []
  live : List Nat := []
  /-- re-mirroring under way: copy, JSEQ of its ACTION 0 record (R387) -/
  remirror : List (Nat × Nat) := []
  /-- VESTIBULE records that the head has passed and nothing has overwritten yet: volume, ring offset, bytes (R488) -/
  passed : List (Nat × Nat × Nat) := []
  /-- admission held for journal space (R362) -/
  held : Bool := false
  /-- device time of the last CHECKPOINT -/
  checkAt : Nat := 0
  deriving DecidableEq, Repr

/-- A band: volume, slab-map entry, band (R389). -/
abbrev BandId := Nat × Nat × Nat

/-- A layout group (R317, R385, R389 to R398, R545). -/
structure Group where
  formed : Bool := false
  id : Dword := 0
  epoch : Nat := 0
  /-- member slots by position; a viaduct member is slot + 32 × shelf -/
  slots : List Nat := []
  /-- slab count G -/
  slabs : Nat := 0
  metaSeed : Dword := 0
  journal : Journal := {}
  /-- failure list: position, replacement slot (R385) -/
  failed : List (Nat × Option Nat) := []
  /-- a CLAIM record not yet durable (R386) -/
  claims : List Nat := []
  /-- bands restored: failed position and band (R389, R398) -/
  restored : List (Nat × BandId) := []
  /-- the band being restored, its redo stripes and redo passes (R393) -/
  restoring : Option BandId := none
  redo : List Nat := []
  passes : Nat := 0
  /-- level, rate in MB/s and GiB left as last reported (R398, R410) -/
  level : Nat := 0
  rate : Nat := 0
  left : Nat := 0
  /-- restoration has no claimable source for a band (R385) -/
  stalled : Bool := false
  deriving DecidableEq, Repr

/-- A request for a stripe lock, in arrival order (R348). -/
structure LockReq where
  vol : Nat := 0
  stripe : Nat := 0
  cmd : Nat := 0
  excl : Bool := true
  granted : Bool := false
  deriving DecidableEq, Repr

/-- A repair write that waits for its stripe lock or its drive (R368); its lock request and its fragment carry its own number,
131,072 and above. -/
structure Repair where
  vol : Nat := 0
  stripe : Nat := 0
  /-- admission number of the command whose read found it -/
  adm : Nat := 0
  frag : Frag := {}
  deriving DecidableEq, Repr

/-- A bitmap block write outstanding (R353). -/
structure BmWrite where
  vol : Nat := 0
  block : Nat := 0
  /-- regions that it carries in SETTING or CLEARING -/
  regions : List Nat := []
  deriving DecidableEq, Repr

/-- RECOVERY of a group (R370 to R375). -/
structure Recovery where
  /-- 1 scan, 2 replay, 3 resynchronisation, 4 done -/
  phase : Nat := 0
  recs : List JRec := []
  dirty : List (Nat × Nat) := []
  /-- uncertain sets: slot, volume, region (R373) -/
  uncertain : List (Nat × Nat × Nat) := []
  /-- stripes written by replay: volume, stripe -/
  resolved : List (Nat × Nat) := []
  deriving DecidableEq, Repr

/-- Storage engine and drive ports. -/
structure Sto where
  drives : Tab Drive := []
  groups : Tab Group := []
  vols : Tab Volume := []
  /-- volumes about to be created, whose numbers the device has asked its partner to reserve (R338) -/
  making : Tab Volume := []
  /-- the volume states last logged (R336) -/
  volSt : Tab Nat := []
  locks : List LockReq := []
  /-- repair writes by number, and the next number (R368) -/
  repairs : Tab Repair := []
  nextRepair : Nat := 131072
  bmOut : List BmWrite := []
  /-- bitmap blocks that wait for the outstanding write: volume, block (R353) -/
  bmWait : List (Nat × Nat) := []
  /-- device time of the last update of a region: volume × 2^40 + region (R352) -/
  lastUpdate : Tab Nat := []
  recovery : Tab Recovery := []
  resynced : Nat := 0
  dirtyFound : Nat := 0
  /-- reshape units in flight: volume, first block (R402) -/
  units : List (Nat × Nat) := []
  /-- background work is stopped while TAKEOVER lasts (R391) -/
  bgPaused : Bool := false
  deriving DecidableEq, Repr

/-! ### The pair (R411 to R444) -/

/-- Pair states (R415). -/
inductive PairSt where
  | unpaired | alone | syncing | paired
  deriving DecidableEq, Repr

/-- What the partner's acknowledgement of an item lets the device do (R418). -/
inductive OnAck where
  | nothing
  /-- send the CONNECT_REPLY (R210) -/
  | reply (e : Emit) (conn : Nat)
  /-- include a PSN in ACKs again (R418) -/
  | ring (conn psn : Nat)
  /-- post the completion entry of a slot (R418) -/
  | post (cmd : Nat)
  /-- answer a command that waits (R250, R339, R342, R478) -/
  | answer (cmd : Nat)
  /-- let the CMD item of a write go (R418) -/
  | cmd (c : Nat)
  /-- PD apply done (R250) -/
  | pd
  /-- apply a key page access entry (R482) -/
  | keyAccess (entry : Nat) (e : AccessEntry)
  deriving DecidableEq, Repr

/-- A mirror item sent and not acknowledged (R417 to R419). -/
structure Mirrored where
  mseq : Nat := 0
  item : MirrorItem := .hostack 0 0
  act : OnAck := .nothing
  sentAt : Nat := 0
  pathB : Bool := false
  /-- its frame has left an UP path (R418) -/
  left : Bool := true
  deriving DecidableEq, Repr

/-- A key page item, which carries no MSEQ (R419, R478). -/
structure KeyItem where
  page : Nat := 0
  key : Option KeyPage := none
  act : OnAck := .nothing
  deriving DecidableEq, Repr

/-- A heartbeat path (R423). -/
structure HbPath where
  up : Bool := false
  misses : Nat := 0
  /-- last SEQ accepted -/
  seq : Option Nat := none
  /-- device time of the last valid heartbeat -/
  last : Option Nat := none
  deriving DecidableEq, Repr

/-- A CMD item as stored (R417, R456). -/
structure CmdCopy where
  cap : List Byte := []
  adm : Nat := 0
  held : Bool := false
  released : Bool := false
  fwd : Option (Nat × Nat) := none
  deriving DecidableEq, Repr

/-- What the partner's items left here (R417): state to be installed at a take-over. -/
structure PartnerStore where
  conns : Tab ConnRec := []
  regions : Tab Region := []
  sqs : Tab SqRec := []
  cqs : Tab CqRec := []
  vols : Tab Volume := []
  groups : Tab GroupRec := []
  members : Tab Nat := []
  /-- ADMIT: SQ × 65,536 + COMMAND_ID: admission number -/
  admits : Tab Nat := []
  /-- CMD: capsule, admission number, held, released, other pier and SEQ of a forwarded command -/
  cmds : Tab CmdCopy := []
  dirty : List (Nat × Nat × DirtySt) := []
  /-- JOURNAL: group, ring offset, record -/
  journal : List (Nat × Nat × JRec) := []
  /-- COMPLETION: CQ × 65,536 + slot: entry and CMD_TAG; dropped when HOSTACK covers it -/
  completions : Tab (List Byte × Word) := []
  deriving DecidableEq, Repr

/-- Take-over steps (R428). -/
inductive TakeStep where
  | none | arbitrate | fence | record | install | resume
  deriving DecidableEq, Repr

/-- The partywall, ownership and the mirror. -/
structure Par where
  st : PairSt := .unpaired
  pathA : HbPath := {}
  pathB : HbPath := {}
  /-- the partner has reported the same side since the last cold reset: no join (R69) -/
  barred : Bool := false
  /-- partner lost since the last JOIN (R424) -/
  lost : Bool := false
  /-- attention 0xB (R424) -/
  lostAttn : Bool := false
  partnerState : Nat := 0
  /-- the partner's firmware version, and the layout groups of its floor plan once a join has told them (R121, R134) -/
  partnerFw : Word := 0
  partnerGroups : Option (List (List Nat)) := none
  /-- a join was refused as incompatible in this boot: the device stays in TRAIN (R134) -/
  refused : Bool := false
  partnerPlan : Dword := 0
  partnerPwrFail : Bool := false
  partnerAddr : Nat := 0
  /-- latest HEALTH frame and the device time of its arrival (R427) -/
  health : Option (Health × Nat) := none
  /-- an essential block has failed since cold reset (R427) -/
  unfit : Bool := false
  /-- the valid ownership record: OWNER_EPOCH, GROUP_OWNER, ROLES (R413, R546) -/
  epoch : Nat := 0
  owner : BitVec 6 := 0
  /-- side that holds role A, role B: true is B -/
  roleA : Bool := false
  roleB : Bool := true
  /-- a record being made durable: owner mask, roles -/
  newRecord : Option (BitVec 6 × Bool × Bool) := none
  /-- own items unacknowledged, next MSEQ, last partner MSEQ applied -/
  items : List Mirrored := []
  nextMseq : Nat := 0
  rxMseq : Nat := 0
  keyItems : List KeyItem := []
  store : PartnerStore := {}
  /-- own snapshot acknowledged, partner's snapshot received (R415, R440) -/
  snapAcked : Bool := false
  resynced : Bool := false
  /-- take-over under way (R428 to R434) -/
  step : TakeStep := .none
  /-- the arbiter whose answer is awaited, 3 when all have been asked; those won, bit per arbiter; answers -/
  arbiter : Nat := 0
  won : Nat := 0
  answered : Nat := 0
  cause : Nat := 0
  takeAt : Nat := 0
  takeMicros : Nat := 0
  takeovers : Nat := 0
  /-- SYNCING at the loss: recover instead of replay (R436) -/
  recoverAfter : Bool := false
  /-- addresses adopted, and the gratuitous ARP repeats still to send (R432) -/
  adopted : List Nat := []
  garps : Nat := 0
  /-- a hand-over being given: groups, roles that move (bit 0 A, bit 1 B), maintenance follows; started; HANDOVER sent (R438) -/
  giving : Option (BitVec 6 × BitVec 2 × Bool) := none
  givingStarted : Bool := false
  givingSent : Bool := false
  /-- hand-over request that waits for its own completion's acknowledgement: slot (R441) -/
  request : Option Nat := none
  /-- start of the stable time (R439) -/
  stableSince : Option Nat := none
  /-- SEQ of the next pair frame, by 2 × type + path (R421) -/
  txSeq : Tab Nat := []
  /-- drive writes that wait for a mirror item to leave, or for the fence of their drive: group, drive, command, use (R418, R430) -/
  gated : List (Nat × Nat × DriveCmd × FragUse) := []
  /-- drives whose preempt has not completed in time (R430) -/
  fenceLate : List Nat := []
  /-- the hand-over being taken: groups, roles, the giver's last MSEQ (R438) -/
  taking : Option (BitVec 6 × BitVec 2 × Nat) := none
  /-- MAINT_REQUEST to be repeated (R515) -/
  maintRetry : Bool := false
  deriving DecidableEq, Repr

/-! ### The viaduct (R445 to R465) -/

/-- A fragment request sent: its proxy, its use, and read data as it arrives (R457). -/
structure FragOut where
  pier : Nat := 0
  use : FragUse := .none
  /-- bytes of the read, data then shadow; those that have landed -/
  len : Nat := 0
  data : List Byte := []
  landed : Nat := 0
  /-- blocks read -/
  count : Nat := 0
  deriving DecidableEq, Repr

/-- A fragment request at its proxy (R461, R464). -/
structure FragIn where
  pier : Nat := 0
  tag : Word := 0
  epoch : Nat := 0
  slot : Nat := 0
  group : Nat := 0
  read : Bool := false
  /-- drive byte address and blocks -/
  addr : Nat := 0
  count : Nat := 0
  /-- write data, bytes asked for, bytes landed -/
  data : List Byte := []
  len : Nat := 0
  landed : Nat := 0
  /-- the drive has the command -/
  sent : Bool := false
  deriving DecidableEq, Repr

/-- Viaduct state. -/
structure Via where
  up : Dword := 0
  gate : Bool := false
  /-- the other gate piers: those of the floor plan, as GATE_ON and GATE_OFF have changed them (R446, R462) -/
  gates : Dword := 0
  admitted : Bool := false
  /-- owner pier by volume number (R454) -/
  directory : Tab Nat := []
  /-- inner connection by pier, and the device time of its last ACK (R451, R453) -/
  inner : Tab Nat := []
  ackAt : Tab Nat := []
  groups : Tab VGroup := []
  /-- next SEQ of FWD_CMD by gate SQ (R452) -/
  nextSeq : Tab Nat := []
  /-- at an owner: next SEQ to admit by gate shelf × 65,536 + SQ, records that wait, with the reasons that have
  held them, completed ones with their FWD_CPL (R97, R455) -/
  expect : Tab Nat := []
  early : List (Nat × InnerRec × List Nat) := []
  done : List (Nat × Nat × InnerRec) := []
  /-- data of forwarded reads that gates pull: key, address, bytes; READ_REQs that wait for bytes to be in staging (R452) -/
  staged : List (Nat × Nat × List Byte) := []
  heldReads : List (Nat × Pkt) := []
  /-- at a proxy: drive commands of FRAG_REQ that run, by number (R461, R464) -/
  frags : Tab FragIn := []
  nextFrag : Nat := 0
  /-- at a home pier: fragment requests that await their FRAG_DONE, by tag -/
  sent : Tab FragOut := []
  nextSent : Nat := 0
  /-- at a proxy: EPOCH records whose acknowledgement waits for lower-epoch drive commands: pier, group, epoch (R461) -/
  epochWait : List (Nat × Nat × Nat) := []
  /-- GATE_OFF draining since (R463) -/
  draining : Option Nat := none
  deriving DecidableEq, Repr

/-! ### Integrity, administration, BIST, counters (R466 to R534) -/

/-- Integrity engine and key pages. -/
structure Itg where
  /-- LOADED key pages (R473) -/
  pages : Tab KeyPage := []
  /-- pages that are being cleared (R481) -/
  clearing : List Nat := []
  /-- lanes out of service (R479, R511) -/
  lanesOut : List Nat := []
  rngFault : Bool := false
  deriving DecidableEq, Repr

/-- A self-test result (R503). -/
structure TestRes where
  code : Nat := 1
  result : Nat := 3
  percent : Nat := 0
  items : Nat := 0
  start : Nat := 0
  finish : Nat := 0
  driveFails : Nat := 0
  first : Nat := 0
  deriving DecidableEq, Repr

/-- Administration functions. -/
structure Adm where
  /-- the shelf operation that runs or ran last (R503); a volume's own stands with the volume -/
  ops : List AdmOp := []
  /-- self-test results, newest first, at most 8; the first is running when its result is 3 -/
  tests : List TestRes := []
  /-- loads by target: TOTAL_LENGTH and the bytes accepted so far (R499) -/
  loads : Tab (Nat × List Byte) := []
  /-- images that passed the check in the second flash, by target -/
  checked : List Nat := []
  /-- booted under LOAD_FIRST: the copy to the first flash is owed (R502) -/
  copyOwed : Bool := false
  /-- the slot of an IMAGE_ACTIVATE whose posted completion the warm reset waits for (R501) -/
  resetAfter : Option Nat := none
  deriving DecidableEq, Repr

/-- BIST and memory (R505 to R519). -/
structure Bst where
  /-- the slice under way: domain, unit (R507) -/
  active : Option Nat := none
  unit : Nat := 0
  /-- device time of its start -/
  since : Nat := 0
  /-- the unit of the next slice, and a unit that takes its slice at once -/
  next : Nat × Nat := (0, 0)
  urgent : List (Nat × Nat) := []
  lastEnd : Option Nat := none
  /-- units whose segment failed repairably and is repeated (R510) -/
  repeat_ : List (Nat × Nat) := []
  /-- units held out of service (R511) -/
  held : List (Nat × Nat) := []
  /-- device times of unrepairable failures (R427, R511) -/
  fails : List Nat := []
  /-- the next segment of a unit whose test is under way, by 32,768 × domain + unit (R507) -/
  seg : Tab Nat := []
  /-- soft-repair entries in order of discovery; how many of them are fused; fuse slots used (R510, R512, R513) -/
  soft : List RepairEntry := []
  fused : Nat := 0
  fuseUsed : Nat := 0
  burning : Bool := false
  burnDone : Bool := false
  burnFail : Bool := false
  burnt : Nat := 0
  /-- retired pseudo-channels 0 to 63, in order of retirement (R515) -/
  retired : List Nat := []
  /-- retirements whose copy runs -/
  copying : List Nat := []
  /-- pseudo-channels ruled out in boot training (R517) -/
  bootRetired : List Nat := []
  /-- entries of the fuse table that have their valid bit (R512, R513, R517) -/
  fuses : List RepairEntry := []
  /-- device times of the corrected errors of the last second, by pseudo-channel (R514) -/
  corrected : Tab (List Nat) := []
  /-- device times of uncorrectable core errors, by core (R514) -/
  coreErrs : Tab (List Nat) := []
  /-- device times of uncorrectable cell errors, by bank (R514) -/
  cellErrs : Tab (List Nat) := []
  deriving DecidableEq, Repr

/-- The counter unit (R520 to R534). Counters of sets 7 to 11 lie in `reg.cnt` by their register offset. -/
structure Ctr where
  /-- RC reads by set since cold reset (R525) -/
  clears : Tab Nat := []
  /-- the dump record being written: offset in the partition, bytes, sets, and the offset in the area where the next begins
  (R526) -/
  writing : Option (Nat × Nat × Nat × Nat) := none
  seq : Nat := 0
  next : Nat := 0
  skipped : Nat := 0
  /-- skips and discards since the last such event, and the device times of the events (R526, R532) -/
  skipLog : Nat := 0
  skipAt : Option Nat := none
  dropLog : Nat := 0
  dropAt : Option Nat := none
  /-- the dump and the trace area of the counter dump partition (R525, R532) -/
  dump : List Host.Cell := []
  /-- the latest complete record: offset in the partition, bytes, sets (R533) -/
  latest : Option (Nat × Nat × Nat) := none
  /-- the newest trace record, not yet written; it is written before anything else that touches the trace area (R532) -/
  traceWait : Option (List Byte) := none
  /-- trace records kept: SEQ and bytes -/
  traces : List (Nat × List Byte) := []
  traceSeq : Nat := 0
  traceNext : Nat := 0
  /-- top-down mode rather than window mode, start of the running window, published windows (R528, R529) -/
  topDown : Bool := false
  windowAt : Nat := 0
  /-- CTR_WINDOW_US at the start of the running window (R529) -/
  windowUs : Nat := 1000
  windowSeq : Nat := 0
  windowNs : Nat := 0
  /-- sampling LFSR, 32 bits (R531) -/
  lfsr : Word := 0
  /-- the last privileged capture: index, value, time (R530) -/
  priv : Option (Nat × Nat × Nat) := none
  privAt : Option Nat := none
  /-- latches by master of the high word, most recent first, at most 16: master, offset, value (R522) -/
  latches : List (Master × Nat × Word) := []
  deriving DecidableEq, Repr

/-! ### The device and the machine -/

/-- Everything the spec gives the device. -/
structure Dev where
  /-- device time in ns, 64 bits (R29) -/
  time : Nat := 0
  /-- the number of free values drawn so far (the model's own) -/
  free : Nat := 0
  glb : Glb := {}
  pwr : Pwr := {}
  sense : Sense := {}
  reg : Reg := {}
  pln : Pln := {}
  acc : Acc := {}
  log : Log := {}
  eth : Eth := {}
  swc : Swc := {}
  trs : Trs := {}
  cmd : Cmd := {}
  sto : Sto := {}
  par : Par := {}
  via : Via := {}
  itg : Itg := {}
  adm : Adm := {}
  bst : Bst := {}
  ctr : Ctr := {}
  /-- what the device has sent and done outside itself, oldest first (the model's own record) -/
  out : List Emit := []
  deriving DecidableEq, Repr

/-- The machine: the commands that wait, first in first out, and the device. -/
structure State where
  pending : List Instr := []
  dev : Dev := {}
  deriving DecidableEq, Repr

/-- The machine right after VDD_AON has risen into tolerance: RESET, with PORST_N low (R108, R113, R123). -/
def State.reset : State := {}

end Sys2Proof.Machine
end

