-- ==== Sys2Proof/Machine/Access.lean ====
section
/-! DEFINITION. Master identities, access entries and the rights they give (R143 to R147). -/

namespace Sys2Proof.Machine

/-! ### Rights in the RIGHTS bit layout (R144) -/

def rREAD : Nat := 0x01
def rWRITE : Nat := 0x02
def rTRIGGER : Nat := 0x04
def rADMIN : Nat := 0x08
def rCOUNTERS : Nat := 0x10
def rGLOBAL : Nat := 0x20

/-! ### Master identities (R143) -/

def mClass (m : Master) : Nat := fld m.toNat 12 4
def mNumber (m : Master) : Nat := fld m.toNat 0 12
def hostPd (n : Nat) : Master := BitVec.ofNat 16 (n % 4096)
def pierM (n : Nat) : Master := BitVec.ofNat 16 (0x1000 + n % 64)
def fwCore : Master := 0x3000
def mgmt : Master := 0x6000
def isFw (m : Master) : Bool := mClass m == 3
def isHost (m : Master) : Bool := mClass m == 0

/-- Does an entry match a master (R145)? A reserved class never matches. -/
def entryMatches (e : AccessEntry) (m : Master) : Bool :=
  bitAt e.w1.toNat 7 && fld e.w0.toNat 12 4 == mClass m && mClass m < 8
    && (((fld e.w0.toNat 0 12) ^^^ mNumber m) &&& fld e.w0.toNat 16 12) == 0

/-- Rights of a master by a list of entries: the OR over the matching ones (R145). -/
def entryRights (l : List AccessEntry) (m : Master) : Nat :=
  l.foldl (fun r e => if entryMatches e m then r ||| fld e.w1.toNat 0 6 else r) 0

/-- The entries of target `k` in a table with `n` entries per target. -/
def entriesOf (t : Tab AccessEntry) (k n : Nat) : List AccessEntry :=
  (t.filter fun e => e.1 / n == k).map (·.2)

/-- The 4 entries of a key page, in their places (R482). -/
def keyEntries (d : Dev) (page : Nat) : List AccessEntry := (List.range 4).map fun e => tgetD d.acc.keys (4 * page + e) {}

/-- Key page entries as they were last written: those that still wait for the partner stand before the applied ones (R15, R482). -/
def keysWritten (d : Dev) : Tab AccessEntry := d.acc.keyPend.foldl (fun t e => tset t e.1 e.2) d.acc.keys

/-- Apply a key page entry. -/
def keyApply (d : Dev) (k : Nat) (x : AccessEntry) : Dev :=
  { d with acc.keys := tset d.acc.keys k x,
           acc.keyPend := if tget d.acc.keyPend k == some x then tdel d.acc.keyPend k else d.acc.keyPend }

/-- MGMT's built-in grant holds until a floor plan has been accepted since the last reset, and in MAINT reached with none
(R147). -/
def mgmtBuiltIn (d : Dev) (p : Nat) : Nat :=
  if d.glb.planAccepted then 0
  else if p == 0 || p == 208 then rREAD ||| rWRITE ||| rADMIN
  else if p == 1 || p == 2 then rREAD else 0

/-- The power domains whose block has its registers on configuration page `p` (R32, R79). -/
def pageDomains (p : Nat) : List Nat :=
  let from_ := fun (a n : Nat) => (List.range n).map (a + ·)
  if 16 ≤ p && p < 24 then [p - 16]
  else if p == 24 then [32]
  else if 32 ≤ p && p < 48 then from_ 35 8
  else if 48 ≤ p && p < 64 then from_ 43 4
  else if 64 ≤ p && p < 80 then from_ 59 2
  else if 80 ≤ p && p < 88 then [59]
  else if 88 ≤ p && p < 96 then from_ 47 4
  else if 96 ≤ p && p < 99 then from_ 8 24
  else if 112 ≤ p && p < 128 then from_ 51 4
  else if 128 ≤ p && p < 144 then from_ 33 2
  else if 176 ≤ p && p < 192 then [63]
  else if 192 ≤ p && p < 208 then [61]
  else []

/-- Is the domain's block under test: by the slice that runs, or by boot BIST, which tests every powered block (R118, R507)? -/
def underTest (d : Dev) (n : Nat) : Bool :=
  d.bst.active == some n || (d.glb.st == .selftest && tgetD d.pwr.dom n .off == .on)

/-- BIST's built-in READ and WRITE on the pages of the block under test (R23, R147; DEDUCED, log entry 75). -/
def bistBuiltIn (d : Dev) (p : Nat) : Nat := if (pageDomains p).any (underTest d) then rREAD ||| rWRITE else 0

/-- The rights that a table can grant a master of a class (table "Masters", R23); BIST and DUMP take none from a table. -/
def classRights (c : Nat) : Nat :=
  match c with
  | 0 | 2 | 3 => 0x3F
  | 1 => 0x1F
  | 5 => 0x33
  | 6 => 0x3B
  | _ => 0

/-- Rights of a master at a target (R23, R145, R147): `built` is the grant built into the device there, `l` the target's entries. -/
def rightsWith (d : Dev) (m : Master) (built : Nat) (l : List AccessEntry) : Nat :=
  let table := entryRights l m &&& classRights (mClass m)
  if mClass m == 3 then 0x3F
  else if mClass m == 5 then (if d.acc.unlocked then table else 0)
  else built ||| table

/-- What is built in at a configuration page for a master that is not FW_CORE (R147). -/
def pageBuiltIn (d : Dev) (m : Master) (p : Nat) : Nat :=
  if mClass m == 6 then mgmtBuiltIn d p else if mClass m == 4 then bistBuiltIn d p else 0

/-- What a right is held on, as a number: a configuration page stands for itself. -/
def onSet (s : Nat) : Nat := 0x10000 + s
def onVol (v : Nat) : Nat := 0x20000 + v
def onKey (k : Nat) : Nat := 0x30000 + k

/-- Rights on `k`: those found at admission while that command of the master runs, else those that the tables give `now` (R24). -/
def heldOn (d : Dev) (m : Master) (k now : Nat) : Nat :=
  match d.acc.acting with
  | some (who, l) => if who == m then (tget l k).getD now else now
  | none => now

/-- Rights on a configuration page; DEBUG adds what the ACCESS section grants it once unlocked (R146, R151). -/
def pageRights (d : Dev) (m : Master) (p : Nat) : Nat :=
  heldOn d m p (rightsWith d m (pageBuiltIn d m p)
    (entriesOf d.acc.pages p 8 ++ ((tget d.pln.plan.debugGrants p).map ([·])).getD []))

/-- Rights on a volume (R146). -/
def volRights (d : Dev) (m : Master) (v : Nat) : Nat :=
  match tget d.sto.vols v with
  | some vol => heldOn d m (onVol v) (rightsWith d m 0 vol.access)
  | none => 0

/-- Rights on a key page (R146). -/
def keyRights (d : Dev) (m : Master) (k : Nat) : Nat := heldOn d m (onKey k) (rightsWith d m 0 (entriesOf d.acc.keys k 4))

/-- Rights on a counter set (R146). -/
def ctrRights (d : Dev) (m : Master) (s : Nat) : Nat := heldOn d m (onSet s) (rightsWith d m 0 (entriesOf d.acc.ctr s 16))

/-- Does a rights set hold a right? -/
def holds (rights right : Nat) : Bool := rights &&& right == right && right != 0

def pageHas (d : Dev) (m : Master) (p right : Nat) : Bool := holds (pageRights d m p) right

end Sys2Proof.Machine
end

