-- ==== Sys2Proof/Machine/Layout.lean ====
section
/-! DEFINITION. Declustered layouts: seeds and permutations, translation, claims of spare space, what is available, and volume states
(R317 to R336, R347, R385). -/

namespace Sys2Proof.Machine

/-! ### Seeds and permutations (R325) -/

/-- One step of splitmix64: the new state and the value (R325). -/
def splitmix (state : Nat) : Nat × Nat :=
  let m := 2 ^ 64
  let state := (state + 0x9E3779B97F4A7C15) % m
  let z := ((state ^^^ (state >>> 30)) * 0xBF58476D1CE4E5B9) % m
  let z := ((z ^^^ (z >>> 27)) * 0x94D049BB133111EB) % m
  (state, z ^^^ (z >>> 31))

/-- Exchange two entries. -/
def swapAt (l : List Nat) (x y : Nat) : List Nat := (l.set x (l.getD y 0)).set y (l.getD x 0)

/-- One base permutation, x from n down to 1 (R325). -/
def basePerm : Nat → Nat → List Nat → Nat × List Nat
  | 0, st, l => (st, l)
  | x + 1, st, l =>
    let (st, z) := splitmix st
    basePerm x st (swapAt l (x + 1) (z % (x + 2)))

/-- The base permutations β (R325). -/
def basesGo (n : Nat) : Nat → Nat → List (List Nat)
  | 0, _ => []
  | f + 1, st =>
    let (st, l) := basePerm (n - 1) st (List.range n)
    l :: basesGo n f st

def bases (seed n : Nat) : List (List Nat) := basesGo n 16 seed

/-- π_t(x) (R325). -/
def permAt (β : List (List Nat)) (n t x : Nat) : Nat := (β.getD (t / n) []).getD ((x + t % n) % n) 0

/-! ### Layout quantities (R322 to R324, R328, R334) -/

/-- Scheme 3 stands for the metadata space: a mirror of `k` copies (R547). -/
def layW (l : Layout) : Nat := if l.scheme == 0 then 2 else if l.scheme == 1 then 3 else if l.scheme == 3 then l.k else l.k + l.m
def layKd (l : Layout) : Nat := if l.scheme == 2 then l.k else 1
def laySurvive (l : Layout) : Nat := if l.scheme == 0 then 1 else if l.scheme == 1 then 2 else if l.scheme == 3 then l.k - 1 else l.m
/-- Chunk bytes, and blocks per chunk. -/
def chunkBytes (l : Layout) : Nat := 65536 * 2 ^ l.chunk
def chunkBlocks (l : Layout) : Nat := 16 * 2 ^ l.chunk
def layU (l : Layout) (n : Nat) : Nat := n - l.spareCols
def layB (l : Layout) (n : Nat) : Nat := layW l / Nat.gcd (layW l) (layU l n)
def layP (l : Layout) (n : Nat) : Nat := layB l n * layU l n / layW l
/-- Bands per slab. -/
def layBands (l : Layout) (n : Nat) : Nat := (1073741824 / chunkBytes l) / layB l n
def layQ (l : Layout) (n : Nat) : Nat := layBands l n * layP l n
/-- Data blocks per stripe. -/
def layD (l : Layout) : Nat := layKd l * chunkBlocks l
/-- Blocks per slab (R334). -/
def blocksPerSlab (l : Layout) (n : Nat) : Nat := layQ l n * layD l
/-- Slabs of a volume (R334). -/
def slabsFor (l : Layout) (n blocks : Nat) : Nat := (blocks + blocksPerSlab l n - 1) / max (blocksPerSlab l n) 1

/-- A cell of a stripe: position, and drive block of its chunk (R319, R328). -/
structure Cell where
  band : Nat := 0
  entry : Nat := 0
  t : Nat := 0
  /-- member position by column, and the chunk's slab and row by column -/
  pos : List Nat := []
  slab : Nat := 0
  rows : List Nat := []
  deriving DecidableEq, Repr

/-- Translate a stripe (R328). -/
def locate (l : Layout) (n stripe : Nat) : Cell :=
  let q := stripe % max (layQ l n) 1
  let entry := stripe / max (layQ l n) 1
  let g := l.slabs.getD entry 0
  let band := q / max (layP l n) 1
  let j := q % max (layP l n) 1
  let t := (g * layBands l n + band) % (16 * n)
  let β := bases l.seed.toNat n
  let xs := (List.range (layW l)).map fun c => j * layW l + c
  { band, entry, t, slab := g,
    pos := xs.map fun x => permAt β n t (l.spareCols + x % layU l n),
    rows := xs.map fun x => band * layB l n + x / layU l n }

/-- Drive byte of a chunk (R319). -/
def chunkAddr (l : Layout) (slab row : Nat) : Nat := 8 * 2 ^ 30 + slab * 2 ^ 30 + row * chunkBytes l

/-- Drive byte of a chunk's tag shadow (R331): `slabs` is G. -/
def shadowAddr (l : Layout) (slabs slab row : Nat) : Nat :=
  8 * 2 ^ 30 + slabs * 2 ^ 30 + slab * 4 * 2 ^ 20 + row * (chunkBytes l / 256)

/-! ### Balance (R326) -/

/-- Members of the stripes of band pattern `t`, as positions. -/
def patternStripes (l : Layout) (n : Nat) (β : List (List Nat)) (t : Nat) : List (List Nat) :=
  (List.range (layP l n)).map fun j => (List.range (layW l)).map fun c =>
    permAt β n t (l.spareCols + (j * layW l + c) % layU l n)

/-- Is a candidate table balanced (R326)? -/
def balanced (l : Layout) (n seed : Nat) : Bool :=
  let β := bases seed n
  let stripes := (List.range (16 * n)).flatMap (patternStripes l n β)
  (List.range n).all fun a =>
    let cnt := fun b => (stripes.filter fun s => s.contains a && s.contains b).length
    let others := (List.range n).filter (· != a)
    let total := others.foldl (fun s b => s + cnt b) 0
    -- n(a, b) from 0.85 to 1.15 times the mean over the other members
    others.all fun b => 85 * total ≤ 100 * cnt b * others.length && 100 * cnt b * others.length ≤ 115 * total

/-- The first balanced seed among SEED to SEED + 63 (R326). -/
def balancedSeed (l : Layout) (n seed : Nat) : Option Nat :=
  ((List.range 64).map fun i => (seed + i) % 2 ^ 64).find? (balanced l n)

/-! ### Members, groups and claims (R316, R329, R347, R385) -/

def driveOf (d : Dev) (k : Nat) : Drive := tgetD d.sto.drives k {}
def modDrive (d : Dev) (k : Nat) (f : Drive → Drive) : Dev := { d with sto.drives := tmod d.sto.drives k {} f }
def groupOf (d : Dev) (g : Nat) : Group := tgetD d.sto.groups g {}
def modGroup (d : Dev) (g : Nat) (f : Group → Group) : Dev := { d with sto.groups := tmod d.sto.groups g {} f }
def volOf (d : Dev) (v : Nat) : Option Volume := tget d.sto.vols v
def modVol (d : Dev) (v : Nat) (f : Volume → Volume) : Dev := { d with sto.vols := tupd d.sto.vols v f }

/-- Number of members of a group. -/
def groupN (d : Dev) (g : Nat) : Nat := (groupOf d g).slots.length

/-- A layout group that the partner's plan lacks is ignored, once a join has told (R134). -/
def groupIgnored (d : Dev) (g : Nat) : Bool := d.par.partnerGroups.any fun l => (l.getD g []).isEmpty

/-- Slots the floor plan gives a group, ascending (R317). -/
def planSlots (d : Dev) (g : Nat) : List Nat := if groupIgnored d g then [] else sortN (d.pln.plan.groups.getD g [])

/-- The member drive at a position. -/
def memberAt (d : Dev) (g pos : Nat) : Nat := (groupOf d g).slots.getD pos 0xFFFF

/-- Are a drive's columns unavailable because the partner's key is not preempted there in time (R430)? -/
def fenced (d : Dev) (k : Nat) : Bool := (driveOf d k).fencing && (d.par.step != .fence || d.par.fenceLate.contains k)

/-- Is the member at a position OK and not in the failure list? -/
def posOk (d : Dev) (g pos : Nat) : Bool :=
  (driveOf d (memberAt d g pos)).st == .ok && !fenced d (memberAt d g pos)
    && !(groupOf d g).failed.any (·.1 == pos)

/-- Shelf of a drive key: below 64 the own shelf. -/
def keyShelf (d : Dev) (key : Nat) : Nat := if key < 64 then d.pln.plan.pier / 2 else key / 64 - 1

/-- May a spare position take one more column of a band (R458): its shelf then has no more than MAX_PER_SHELF of them, held by positions
that have not failed and by spare positions claimed before? -/
def shelfRoom (d : Dev) (l : Layout) (cells : List Nat) (used : List Nat) (p : Nat) : Bool :=
  let sh := fun q => keyShelf d (memberAt d l.group q)
  let held := (cells.filter fun q => !(groupOf d l.group).failed.any (·.1 == q)) ++ used
  l.shelfCap == 0 || (held.filter fun q => sh q == sh p).length < l.shelfCap

/-- Where a failed position's cells of a band go: a spare position's member, or the replacement (R385). -/
inductive Claim where
  | spare (pos : Nat) | replacement (slot : Nat) | none
  deriving DecidableEq, Repr

/-- Claims of a band in failure-list order: failed position and its source (R385, R458). -/
def claimsGo (d : Dev) (g : Nat) (l : Layout) (pos : Nat → Nat) (cells : List Nat) :
    List (Nat × Option Nat) → List (Nat × Claim) → List (Nat × Claim)
  | [], acc => acc
  | (f, rep) :: rest, acc =>
    if !cells.contains f then claimsGo d g l pos cells rest acc
    else
      let used := acc.filterMap fun e => match e.2 with | .spare p => some p | _ => Option.none
      let spare := (List.range l.spareCols).map pos |>.find? fun p => posOk d g p && !used.contains p && shelfRoom d l cells used p
      let c := match spare with
        | some p => .spare p
        | Option.none => match rep with | some s => .replacement s | Option.none => .none
      claimsGo d g l pos cells rest (acc ++ [(f, c)])

/-- The claims of the band of a pattern (R329, R385). -/
def bandClaims (d : Dev) (l : Layout) (t : Nat) : List (Nat × Claim) :=
  let n := groupN d l.group
  let β := bases l.seed.toNat n
  let pos := permAt β n t
  claimsGo d l.group l pos ((List.range n).drop l.spareCols |>.map pos) (groupOf d l.group).failed []

/-- The drive that holds a column of a stripe, where it can be read and written: an OK member, or a restored claim (R347). -/
def colDrive (d : Dev) (v : Nat) (l : Layout) (c : Cell) (col : Nat) : Option Nat :=
  let g := l.group
  let p := c.pos.getD col 0
  if posOk d g p then some (memberAt d g p)
  else if !(groupOf d g).failed.any (·.1 == p) then none
  else if !(groupOf d g).restored.contains (p, (v, c.entry, c.band)) then none
  else match (bandClaims d l c.t).find? (·.1 == p) with
    | some (_, .spare q) => if posOk d g q then some (memberAt d g q) else none
    | some (_, .replacement s) =>
      if (driveOf d s).st == .rebuilding || (driveOf d s).st == .ok then some s else none
    | _ => none

/-- Columns of a stripe that are available (R347). -/
def availCols (d : Dev) (v : Nat) (l : Layout) (stripe : Nat) : List Nat :=
  let c := locate l (groupN d l.group) stripe
  (List.range (layW l)).filter fun col => (colDrive d v l c col).isSome

/-! ### Allocation, regions and volume states (R332, R335, R336, R350) -/

def auSet (vol : Volume) (au : Nat) : Bool := vol.alloc.contains au

/-- Stripes of the layout that hold a set allocation unit. -/
def setStripes (vol : Volume) (l : Layout) : List Nat :=
  (vol.alloc.flatMap fun a =>
    let lo := a * 256 / max (layD l) 1
    let hi := (a * 256 + 255) / max (layD l) 1
    (List.range (hi + 1 - lo)).map (lo + ·)).eraseDups

/-- Is every member of a group OK with no failure standing? -/
def groupWhole (d : Dev) (g : Nat) : Bool :=
  (groupOf d g).failed.isEmpty && (List.range (groupN d g)).all (posOk d g)

/-- Redundancy left in those stripes of a layout that `served` names (R336). -/
def layRedundancy (d : Dev) (key : Nat) (vol : Volume) (l : Layout) (served : Nat → Bool) : Int :=
  if groupWhole d l.group then laySurvive l
  else ((setStripes vol l).filter served).foldl (fun (r : Int) s =>
    min r ((laySurvive l : Int) - (layW l - (availCols d key l s).length : Nat))) (laySurvive l)

/-- Redundancy left (R336); while a reshape runs, of the old layout at and above its cursor and of the new below it (R401). -/
def redundancyLeft (d : Dev) (v : Nat) (vol : Volume) : Int :=
  match vol.newLay with
  | none => layRedundancy d v vol vol.lay fun _ => true
  | some nl =>
    let old := layRedundancy d v vol vol.lay fun s => vol.cursor < (s + 1) * layD vol.lay
    if vol.cursor == 0 then old else min old (layRedundancy d (v + 4096) vol nl fun s => s * layD nl < vol.cursor)

/-- May a member's header copies be read: it is OK, or SUSPECT and has answered (R381)? -/
def headRead (x : Drive) : Bool := x.st == .ok || (x.st == .suspect && x.catching)

/-- Does a majority of a group's members return a copy with the highest epoch (R321)? -/
def groupValid (d : Dev) (g : Nat) : Bool :=
  let gr := groupOf d g
  let heads := ((gr.slots.map (driveOf d)).filter headRead).map (·.id.hdr.epoch)
  let top := heads.foldl max 0
  gr.formed && gr.slots.length < 2 * (heads.filter (· == top)).length

/-- Volume state code (R296, R335). -/
def volState (d : Dev) (v : Nat) : Nat :=
  match volOf d v with
  | none => 7
  | some vol =>
    if vol.deleting then 8
    else if vol.sanitizing then 5
    else if vol.formatting then 6
    else if vol.offline || !groupValid d vol.lay.group then 7
    else if vol.creating then 0
    else if vol.newLay.isSome then 4
    else
      let r := redundancyLeft d v vol
      if r ≤ 0 || !vol.lost.isEmpty then 3
      else if r < laySurvive vol.lay then 2 else 1

/-- Dirty region of a stripe (R350). -/
def regionOf (vol : Volume) (stripe : Nat) : Nat := stripe % 2 ^ 47 / max vol.dirtyRegion 1

def dirtyOf (vol : Volume) (r : Nat) : DirtySt := tgetD vol.dirty r .clean

/-- The layout and the stripe number that a work's stripe names: 2^47 and above lie in the new layout (R401). -/
def layoutOf (vol : Volume) (stripe : Nat) : Layout × Nat :=
  if stripe < 2 ^ 47 then (vol.lay, stripe) else (vol.newLay.getD vol.lay, stripe - 2 ^ 47)

/-- Is a volume owned by this device: its group's owner side, or for a viaduct group its home pier (R412, R454)? -/
def ownsGroup (d : Dev) (g : Nat) : Bool :=
  if g < 64 then d.pln.plan.unpaired || d.par.owner.getLsbD g == d.glb.side
  else ((tget d.via.groups (g - 64)).any fun x => x.home == d.pln.plan.pier)

def ownsVol (d : Dev) (vol : Volume) : Bool := ownsGroup d vol.lay.group

/-- Is a record a VESTIBULE record (R356)? -/
def isVestibule (r : JRec) : Bool := match r.body with
  | .data .. | .fullImage .. => true
  | _ => false

/-! ### Restoration order (R385, R389) -/

/-- The pattern of a band of a slab-map entry (R328). -/
def bandPattern (l : Layout) (n entry band : Nat) : Nat := (l.slabs.getD entry 0 * layBands l n + band) % (16 * n)

/-- Failed positions whose cells of a band are claimed and not restored (R389). -/
def bandOwed (d : Dev) (v : Nat) (l : Layout) (entry band : Nat) : List Nat :=
  let cl := bandClaims d l (bandPattern l (groupN d l.group) entry band)
  (cl.filter fun c => c.2 != .none && !(groupOf d l.group).restored.contains (c.1, (v, entry, band))).map (·.1)

/-- The layouts of a volume that restoration covers, each with the number its bands are kept under: the old layout, and while a
reshape runs the new one under number + 4,096 (R405). -/
def layoutsOf (v : Nat) (vol : Volume) : List (Nat × Layout) :=
  (v, vol.lay) :: match vol.newLay with | some l => [(v + 4096, l)] | none => []

/-- Does a band hold blocks that the layout serves: at or above the reshape cursor in the old one, below it in the new (R405)? -/
def bandServed (vol : Volume) (l : Layout) (n : Nat) (isNew : Bool) (entry band : Nat) : Bool :=
  match vol.newLay with
  | none => true
  | some _ =>
    let first := (entry * layQ l n + band * layP l n) * layD l
    if isNew then first < vol.cursor else vol.cursor < first + layP l n * layD l

/-- Level of a band: the lowest, over its stripes that hold a set allocation unit, of the losses survived less the unavailable
columns; none without such a stripe (R389). -/
def bandLevel (d : Dev) (key : Nat) (vol : Volume) (l : Layout) (entry band : Nat) : Option Int :=
  let n := groupN d l.group
  let first := entry * layQ l n + band * layP l n
  let set := setStripes vol l
  ((List.range (layP l n)).map (first + ·)).foldl (fun r s =>
    if set.contains s then
      let x : Int := laySurvive l - ((layW l - (availCols d key l s).length : Nat) : Int)
      some (match r with | some y => min x y | none => x)
    else r) none

/-- Bands of a group that are owed restoration, with their level; volumes under SANITIZE are left out (R389, R489). -/
def owedBands (d : Dev) (g : Nat) : List (Int × BandId) :=
  if (groupOf d g).failed.isEmpty then []
  else (d.sto.vols.filter fun e => !e.2.sanitizing).flatMap fun e =>
    ((layoutsOf e.1 e.2).filter (·.2.group == g)).flatMap fun kl =>
      let n := groupN d g
      (List.range kl.2.slabs.length).flatMap fun en => (List.range (layBands kl.2 n)).filterMap fun b =>
        if (bandOwed d kl.1 kl.2 en b).isEmpty || !bandServed e.2 kl.2 n (4096 ≤ kl.1) en b then none
        else some ((bandLevel d kl.1 e.2 kl.2 en b).getD 1000, (kl.1, en, b))

/-- The band restored next: lowest level, then volume, slab-map entry and band (R389). -/
def nextBand (d : Dev) (g : Nat) : Option (Int × BandId) :=
  (owedBands d g).foldl (fun r x => match r with | none => some x | some y => if x.1 < y.1 then some x else r) none

/-- Does restoration run on a group (R386, R535)? -/
def restoring (d : Dev) (g : Nat) : Bool := (groupOf d g).restoring.isSome || (nextBand d g).isSome

end Sys2Proof.Machine
end

