-- ==== Sys2Proof/Machine/Flags.lean ====
section
/-! DEFINITION. The attention conditions, what a protection domain sees of them, and the numbers computed from them (R58, R298). -/

namespace Sys2Proof.Machine

/-- Has PD `n` any connection to the device (R298)? -/
def pdConnected (d : Dev) (n : Nat) : Bool := d.trs.conns.any fun e => e.2.est && e.2.r.pd == n

/-- Rights of a PD on any configuration page that a condition names. -/
def pdAnyPage (d : Dev) (n right : Nat) : Bool :=
  d.acc.pages.any fun e => entryMatches e.2 (hostPd n) && holds (fld e.2.w1.toNat 0 6) right

/-- COUNTERS_GLOBAL on any counter set (R298). -/
def pdAnyCtr (d : Dev) (n right : Nat) : Bool :=
  d.acc.ctr.any fun e => entryMatches e.2 (hostPd n) && holds (fld e.2.w1.toNat 0 6) right

/-- Is a condition of attention value `a` that names `t` visible to PD `n` (table "Attention visibility", R298)? -/
def topicVisible (d : Dev) (n a : Nat) (t : Topic) : Bool :=
  match a with
  | 0x1 => pageHas d (hostPd n) 0 rADMIN || (match t with | .denial m => isHost m && mNumber m == n | _ => false)
  | 0x2 => pdAnyPage d n rWRITE
  | 0x3 => match t with
    | .ctrSets mask => (List.range 16).any fun s => bitAt mask s && holds (ctrRights d (hostPd n) s) rCOUNTERS
    | _ => false
  | 0x4 => pageHas d (hostPd n) 176 rADMIN
  | 0x6 | 0xB => pdConnected d n
  | 0x8 => pdAnyCtr d n rGLOBAL
  | 0x9 => match t with
    | .keyPage k => keyRights d (hostPd n) k != 0
    | .keyPages => d.acc.keys.any fun e => entryMatches e.2 (hostPd n) && fld e.2.w1.toNat 0 6 != 0
    | _ => false
  | 0x5 | 0x7 | 0xA | 0xC | 0xD => match t with
    | .volume v => volRights d (hostPd n) v != 0
    | .group g => d.sto.vols.any fun e => e.2.lay.group == g && entryRights e.2.access (hostPd n) != 0
    | .volumes => d.sto.vols.any fun e => entryRights e.2.access (hostPd n) != 0
    | _ => false
  | _ => pageHas d (hostPd n) 0 rADMIN

/-- Is an event-log entry visible to PD `n` (R298)? -/
def entryVisible (d : Dev) (n : Nat) (e : LogEntry) : Bool :=
  e.pd == some n || topicVisible d n e.attn e.topic

/-- Is attention value `a` an event condition (R298)? -/
def isEventAttn (a : Nat) : Bool := [0x1, 0x2, 0x3, 0x4, 0x8, 0x9, 0xA, 0xD].contains a

/-- The read cursor of PD `n`: the SEQ of the first entry beyond it. -/
def cursorOf (d : Dev) (n : Nat) : Nat := tgetD d.log.cursor n 0

/-- The event conditions in PD `n`'s visible set, bit per value (R298). -/
def eventVis (d : Dev) (n : Nat) : Nat :=
  d.log.entries.foldl (fun r e =>
    if isEventAttn e.attn && cursorOf d n ≤ e.seq && entryVisible d n e then setBit r e.attn else r)
    (tgetD d.log.missed n 0)

/-- The state conditions that hold, with what each concerns. -/
def stateConds (d : Dev) : List (Nat × Topic) :=
  (if d.pwr.holdAttn || 0 < d.sense.clockDrop then [(0x6, Topic.none)] else [])
    ++ (if d.par.lostAttn then [(0xB, Topic.none)] else [])
    ++ (d.sto.groups.filter fun e => restoring d e.1).map (fun e => (0x7, Topic.group e.1))
    ++ d.sto.vols.flatMap fun e =>
      (if e.2.sanitizing || e.2.formatting then [(0x5, Topic.volume e.1)] else [])
        ++ (if e.2.newLay.isSome then [(0x7, Topic.volume e.1)] else [])
        ++ (if volState d e.1 == 2 || volState d e.1 == 3 then [(0xC, Topic.volume e.1)] else [])

/-- PD `n`'s visible set, bit per attention value (R298). -/
def attnMask (d : Dev) (n : Nat) : Nat :=
  (stateConds d).foldl (fun r c => if topicVisible d n c.1 c.2 then setBit r c.1 else r) (eventVis d n)

/-- The highest value of a visible set, 0 when it is empty (R298). -/
def attnTop (mask : Nat) : Nat := ((List.range 16).filter (bitAt mask)).getLastD 0

/-- The number of values that two visible sets differ in. -/
def attnDiff (a b : Nat) : Nat := ((List.range 16).filter fun i => bitAt a i != bitAt b i).length

/-- Count one PD's changes of its visible set in its ATTN_SEQ (R298). -/
def attnCount (d : Dev) (n : Nat) : Dev :=
  let old := tgetD d.log.attnVis n 0
  let new := attnMask d n
  if old == new then d
  else { d with log.attnVis := tset d.log.attnVis n new,
                log.attnSeq := tset d.log.attnSeq n ((tgetD d.log.attnSeq n 0 + attnDiff old new) % 65536) }

/-- Bring every PD's ATTN_SEQ up to date (R298). Where no condition holds and none was counted, nothing changes. -/
def attnRefresh (d : Dev) : Dev :=
  if (stateConds d).isEmpty && d.log.attnVis.isEmpty && d.log.missed.isEmpty
      && d.log.entries.all (fun e => !isEventAttn e.attn) then d
  else (List.range 4096).foldl attnCount d

/-- MGT_ALERT_N is held low while a state condition 0x5, 0x6, 0x7, 0xB or 0xC holds for any volume or the device (R58). -/
def mgtAlertLow (d : Dev) : Bool := (stateConds d).any fun c => [0x5, 0x6, 0x7, 0xB, 0xC].contains c.1

end Sys2Proof.Machine
end

