-- ==== Sys2Proof/Machine/Ops.lean ====
section
/-! DEFINITION. The operations every command is written over: drawing a free value, counters, the event log, denials, entering a
device state, and the outcome of a command. -/

namespace Sys2Proof.Machine

/-! ### Free values and emissions -/

/-- The number of the next free value, and the device with it drawn. -/
def draw (d : Dev) : Nat × Dev := (d.free, { d with free := d.free + 1 })

/-- Send or do something outside the device. -/
def emit (d : Dev) (e : Emit) : Dev := { d with out := d.out ++ [e] }

/-- Send several things in order. -/
def emits (d : Dev) (l : List Emit) : Dev := { d with out := d.out ++ l }

/-! ### 48-bit counters (R177) -/

/-- Is a power domain ready (R79)? -/
def domOn (d : Dev) (n : Nat) : Bool := tgetD d.pwr.dom n .off == .on

/-- The power domain that a counter needs: the counter unit's own counters, and the statistics of a macro, read 0 while it is off
(R79). -/
def countDomain (off : Nat) : Option Nat :=
  if 0xC00000 ≤ off && off < 0xD00000 then some 61
  else if 0x100000 ≤ off && off < 0x180000 then some ((off - 0x100000) / 0x10000)
  else if 0x180000 ≤ off && off < 0x190000 then some 32
  else none

/-- Does the counter at an offset count now (R79)? -/
def counts (d : Dev) (off : Nat) : Bool := (countDomain off).all (domOn d)

/-- Add to the counter at an offset. -/
def countN (d : Dev) (off n : Nat) : Dev := if counts d off then { d with reg.cnt := tmod d.reg.cnt off 0 (· + n) } else d

/-- Increment the counter at an offset. -/
def count (d : Dev) (off : Nat) : Dev := countN d off 1

/-- Zero `n` counters from an offset on (R523). -/
def zeroCnts (d : Dev) (off n : Nat) : Dev := { d with reg.cnt := d.reg.cnt.filter fun e => e.1 < off || off + 8 * n ≤ e.1 }

/-- Read a counter without clearing it: low word, and high word with OVF (R177). -/
def cntLow (d : Dev) (off : Nat) : Word := BitVec.ofNat 32 (tgetD d.reg.cnt off 0)

def cntHigh (d : Dev) (off : Nat) : Word :=
  let v := tgetD d.reg.cnt off 0
  BitVec.ofNat 32 (fld v 32 16 + (if v ≥ 2 ^ 48 then 0x80000000 else 0))

/-! ### Sticky W1C bits (R13) -/

/-- Set sticky bits of the register at an offset. -/
def setSticky (d : Dev) (off bit : Nat) : Dev :=
  { d with reg.sticky := tmod d.reg.sticky off 0 (· ||| BitVec.ofNat 32 (1 <<< bit)) }

/-- The sticky bits of the register at an offset. -/
def stickyOf (d : Dev) (off : Nat) : Word := tgetD d.reg.sticky off 0

/-! ### The event log (R291, R542) -/

/-- Note an entry that is overwritten before PD `n` has read it (R291, R298). -/
def noteMissed (d : Dev) (e : LogEntry) (n : Nat) : Dev :=
  if isEventAttn e.attn && cursorOf d n ≤ e.seq && entryVisible d n e
  then { d with log.missed := tmod d.log.missed n 0 (setBit · e.attn) } else d

/-- Is the event log powered? It is not in OFF, RESET and HALT (R85, R151). -/
def logPowered (d : Dev) : Bool := d.glb.st != .off && d.glb.st != .reset && d.glb.st != .halt

/-- Append an entry to the event log; the oldest of 4,096 is overwritten. Entries are numbered without end here; SEQ shows the number
modulo 2^32 (R291). -/
def logAppend (d : Dev) (e : LogEntry) : Dev :=
  let e := { e with time := d.time, seq := d.log.seq }
  let d := match d.log.entries with
    | o :: rest => if d.log.entries.length ≥ 4096 then
        let d := (List.range 4096).foldl (fun d n => noteMissed d o n) d
        { d with log.entries := rest }
      else d
    | [] => d
  { d with log.entries := d.log.entries ++ [e], log.seq := d.log.seq + 1 }

/-- Log an event with its attention value, topic and DETAIL bytes from byte 24 on (R542). -/
def logEvent (d : Dev) (event attn : Nat) (topic : Topic) (detail : List Byte) : Dev :=
  if logPowered d then logAppend d { event, attn, topic, detail } else d

/-- Log an event that names a command: its tag, its status and the PD of its SQ (R298). -/
def logCmdEvent (d : Dev) (event attn : Nat) (topic : Topic) (detail : List Byte) (tag : Word) (pd : Option Nat) : Dev :=
  if logPowered d then logAppend d { event, attn, topic, detail, tag, pd } else d

/-! ### Denials (R150) -/

/-- Record a denial, counted for its PD (R523): `target` 0 configuration, 1 region, 2 volume, 3 key page, 4 counter set; event 0x0501 at most once per
master per millisecond (R150). -/
def deny (d : Dev) (m : Master) (target wher right : Nat) : Dev :=
  let dm := m.toNat + (target <<< 16) + (right <<< 20)
  let d := { d with acc.denyCount := min (d.acc.denyCount + 1) 0xFFFFFFFF,
                    acc.denyMaster := BitVec.ofNat 32 dm,
                    acc.denyWhere := BitVec.ofNat 32 wher,
                    acc.denyTime := BitVec.ofNat 32 d.time }
  let d := if isHost m then count d (0xC80000 + 128 * mNumber m + 120) else d
  if (tget d.acc.denyLogged m.toNat).all (fun t => t + 1000000 ≤ d.time) then
    let d := { d with acc.denyLogged := tset d.acc.denyLogged m.toNat d.time }
    logEvent d 0x0501 0x1 (.denial m) (le 4 dm ++ le 4 wher ++ le 4 d.time)
  else d

/-! ### Device states (R112, R113) -/

/-- GLB_STATE.STATE code (R123). -/
def stCode : DevSt → Nat
  | .off => 0 | .reset => 1 | .boot => 2 | .plan => 3 | .selftest => 4 | .train => 5
  | .recovery => 6 | .service => 7 | .takeover => 8 | .maint => 9 | .halt => 10

/-- Enter a device state (R123). -/
def enter (d : Dev) (st : DevSt) : Dev :=
  { d with glb.prev := stCode d.glb.st, glb.st := st, glb.transitions := (d.glb.transitions + 1) % 65536,
           glb.entered := d.time }

/-- From BOOT on, except HALT (R113). -/
def running (d : Dev) : Bool := d.glb.st != .off && d.glb.st != .reset && d.glb.st != .halt

/-- A floor plan has been applied and self-test is past: TRAIN on, or MAINT with the plan applied. -/
def planned (d : Dev) : Bool :=
  !d.glb.shutdown && match d.glb.st with
  | .train | .recovery | .service | .takeover => true
  | .maint => d.glb.planApplied
  | _ => false

/-- Commands are admitted and connections accepted: SERVICE, TAKEOVER (paused by its own rules) and MAINT, while the storage engine and
the command slots of PD_CMD0 are powered (R79, R112). -/
def serving (d : Dev) : Bool :=
  !d.glb.shutdown && domOn d 59 && match d.glb.st with
  | .service | .takeover => true
  | .maint => d.glb.planApplied
  | _ => false

/-! ### Outcomes -/

/-- Log a change of one volume's state; a volume that becomes CRITICAL clears its PAUSE (R336, R406). -/
def noteVol (d : Dev) (v : Nat) : Dev :=
  let n := volState d v
  match tget d.sto.volSt v with
  | some o =>
    if o == n then d
    else
      let d := logEvent { d with sto.volSt := tset d.sto.volSt v n } 0x0B03 (if n == 2 || n == 3 then 0xC else 0) (.volume v)
        (le 2 v ++ le 1 n)
      if n == 3 then modVol d v fun x => { x with pause := false } else d
  | none => { d with sto.volSt := tset d.sto.volSt v n }

/-- Log every change of a volume's state (R336). -/
def noteVols (d : Dev) : Dev :=
  let d := (tkeys d.sto.vols).foldl noteVol d
  { d with sto.volSt := d.sto.volSt.filter fun e => thas d.sto.vols e.1 }

/-! ### Counter mode (R528, R529) -/

/-- The counter unit is in top-down mode in SERVICE while no extended self-test runs, else in window mode (R528). -/
def windowMode (d : Dev) : Bool := d.glb.st != .service || d.adm.tests.any fun t => t.code == 2 && t.result == 3

/-- CTR_WINDOW_US, which a window takes at its start (R529, R534). -/
def windowCfg (d : Dev) : Nat := ((tget d.reg.live 0xC00030).getD 1000).toNat

/-- Publish a window: its byte counts, its number and its length; the next one starts (R529). -/
def publish (d : Dev) (ns : Nat) (bytes : Nat → Nat) : Dev :=
  { d with
    ctr.windowUs := windowCfg d,
    reg.cnt := (List.range 126).foldl (fun t i => tset t (0xC02000 + 8 * i) (bytes i % 2 ^ 48)) d.reg.cnt,
    ctr.windowSeq := (d.ctr.windowSeq + 1) % 2 ^ 32, ctr.windowNs := ns % 2 ^ 32, ctr.windowAt := d.time }

/-- Level-two counters of a level-one class of the slot taxonomy (R527). -/
def tdClass (i : Nat) : List Nat :=
  if i == 1 then [6, 7, 8, 9] else if i == 2 then [10, 11, 12] else if i == 3 then [13, 14] else if i == 4 then [15, 16, 17]
  else [18, 19, 20, 21, 22, 23, 24]

/-- The counters of set 7 at a capture. Slots are counted in every clock cycle, which the commands do not show: how far each level-two
counter has risen is free, each level-one counter rises by the sum of its class, and TOTAL_SLOTS by the sum of all (R527). -/
def tdDraw (d : Dev) : Dev :=
  if !domOn d 61 then d else
  let n := d.free
  let sum := fun (l : List Nat) => (l.map fun i => Config.freeNat (n + i)).foldl (· + ·) 0
  let v := fun (i : Nat) => if i == 0 then sum ((List.range 19).map (6 + ·)) else if i < 6 then sum (tdClass i) else sum [i]
  (List.range 25).foldl (fun d i => countN d (0xC01000 + 8 * i) (v i)) { d with free := n + 25 }

/-- Follow the mode: entering window mode freezes set 7 and starts a window; leaving it publishes the running one with its actual length and with
byte counts that the commands so far do not tell. -/
def modeRefresh (d : Dev) : Dev :=
  if windowMode d != d.ctr.topDown then d
  else if windowMode d then { tdDraw d with ctr.topDown := false, ctr.windowAt := d.time, ctr.windowUs := windowCfg d }
  else
    let (n, d) := draw d
    let d := if domOn d 61 then publish d (d.time - d.ctr.windowAt) fun i => Config.freeNat (n + i) else d
    { d with free := n + 126, ctr.topDown := true }

/-- What follows from every command: volume states logged, attention numbers and the counter mode brought up to date. -/
def settle (d : Dev) : Dev := modeRefresh (attnRefresh (noteVols d))

/-- The outcome of a command: the device changed by `f`, the queue as it stands. -/
def act (s : State) (f : Dev → Dev) : Host.Outcome State Fault Refusal :=
  .next { s with dev := settle (f s.dev) }

/-- A command that acts only where `p` holds, and otherwise changes nothing. -/
def actIf (p : Dev → Bool) (s : State) (f : Dev → Dev) : Host.Outcome State Fault Refusal :=
  if p s.dev then act s f else .next s

end Sys2Proof.Machine
end

