-- ==== Sys2Proof/Machine/Domains.lean ====
section
/-! DEFINITION. Power domains: their numbers, what each requires, and the queue of requests to switch them (R79 to R85, R117). -/

namespace Sys2Proof.Machine

/-! ### Domain numbers (R79) -/

def pdE (m : Nat) : Nat := m
def pdD (n : Nat) : Nat := 8 + n
def pdPW : Nat := 32
def pdHBM0 : Nat := 33
def pdHBM1 : Nat := 34
def pdBUF (b : Nat) : Nat := 35 + b
def pdTRS (t : Nat) : Nat := 43 + t
def pdECE (e : Nat) : Nat := 47 + e
def pdITG (i : Nat) : Nat := 51 + i
def pdCPU (c : Nat) : Nat := 55 + c
def pdCMD0 : Nat := 59
def pdCMD1 : Nat := 60
def pdCTR : Nat := 61
def pdDBG : Nat := 62
def pdBST : Nat := 63

/-- The domains that domain `n` requires (table "Power domains", R79). -/
def domRequires (n : Nat) : List Nat :=
  if n < 8 then [35]
  else if n < 32 then [59]
  else if n == 32 then [35]
  else if n < 36 then []
  else if n < 43 then [35]
  else if n == 43 then [35, 33, 34]
  else if n < 47 then [35, 33, 34, 43]
  else if n < 51 then [33, 34]
  else if n == 51 then []
  else if n < 55 then [51]
  else if n < 60 then [33, 34]
  else if n == 60 then [59]
  else []

/-- The domains that require domain `n`. -/
def domUsers (n : Nat) : List Nat := (List.range 64).filter fun k => (domRequires k).contains n

def domPhase (d : Dev) (n : Nat) : DomPhase := tgetD d.pwr.dom n .off

def setDom (d : Dev) (n : Nat) (p : DomPhase) : Dev := { d with pwr.dom := tset d.pwr.dom n p }

/-- The domains that are ready, bit per domain (PWR_DOMAIN_ON, R103). -/
def domMask (d : Dev) : Nat := maskOf ((List.range 64).filter (domOn d))

/-- The state a domain has, is moving to, or is last asked to take (R82). -/
def domTarget (d : Dev) (n : Nat) : Bool :=
  match (d.pwr.reqs.filter (·.d == n)).getLast? with
  | some r => r.on
  | none => match domPhase d n with
    | .on | .rising => true
    | _ => false

/-- Can a waiting request start now (R81, R82)? -/
def reqReady (d : Dev) (r : DomReq) : Bool :=
  if r.on then
    domPhase d r.d == .off && (domRequires r.d).all (domOn d) && d.pwr.onAt.all (· + 2000 ≤ d.time)
  else
    domPhase d r.d == .on && (domUsers r.d).all (fun k => domPhase d k == .off) && d.pwr.offAt.all (· + 2000 ≤ d.time)

/-- Domains that stay on: CPU0, HBM0 and HBM1 from PLAN on, CMD0 too but in deep idle, and ITG0 while a key page is loaded; a
shutdown has cleared the key pages and switches all of them off (R83, R85, R101). -/
def mustStay (d : Dev) (n : Nat) : Bool :=
  !d.glb.shutdown
    && ((d.glb.st != .boot && ([pdCPU 0, pdHBM0, pdHBM1].contains n || (n == pdCMD0 && d.pwr.idle.isNone)))
      || (n == pdITG 0 && !d.itg.pages.isEmpty))

/-- Start a request (R81). A switch-off of a domain that has to stay on by then is dropped (R83). -/
def startReq (d : Dev) (r : DomReq) : Dev :=
  let d := { d with pwr.reqs := d.pwr.reqs.erase r }
  if !r.on && mustStay d r.d then d
  else if r.on then { setDom d r.d .rising with pwr.onAt := some d.time }
  else { setDom d r.d .falling with pwr.offAt := some d.time }

/-- Start what can start: at most one switch-on and one switch-off in any 2 µs, the first in order of arrival that can start,
requests of a take-over before all others (R81, R82). -/
def domServe (d : Dev) : Dev :=
  let go (d : Dev) (on : Bool) : Dev :=
    match d.pwr.reqs.find? (fun r => r.on == on && r.takeover && reqReady d r) with
    | some r => startReq d r
    | none => match d.pwr.reqs.find? (fun r => r.on == on && reqReady d r) with
      | some r => startReq d r
      | none => d
  go (go d true) false

/-- Ask for a domain to be switched on. A held-off domain is ignored and logged as 0x0303 (R83); a request for the state
the domain has or is moving to has no effect (R82). -/
def domRequestOn (d : Dev) (n : Nat) (takeover : Bool) : Dev :=
  if n ≥ 64 then d
  else if bitAt d.pwr.heldOff.toNat n then logEvent d 0x0303 0 .none (le 1 n)
  else if domTarget d n then d
  else domServe { d with pwr.reqs := d.pwr.reqs ++ [{ d := n, on := true, takeover }] }

/-- Ask for a domain to be switched off (R81, R82), with no check of what must stay on. -/
def domQueueOff (d : Dev) (n : Nat) (takeover : Bool) : Dev :=
  if n ≥ 64 || !domTarget d n then d
  else domServe { d with pwr.reqs := d.pwr.reqs ++ [{ d := n, on := false, takeover }] }

/-- The order in which firmware requests domains (R117): at each turn the lowest-numbered that is not on, not held off, wanted,
and has all it requires. -/
def planOrder (heldOff : Nat) (want : Nat → Bool) : Nat → List Nat → List Nat
  | 0, _ => []
  | f + 1, on =>
    match (List.range 64).find? (fun n => !on.contains n && !bitAt heldOff n && want n
        && (domRequires n).all on.contains) with
    | some n => n :: planOrder heldOff want f (on ++ [n])
    | none => []

/-- The domains on or rising. -/
def domsUp (d : Dev) : List Nat := (List.range 64).filter fun n => domPhase d n == .on || domPhase d n == .rising

/-- Is a domain on with nothing asked of it, or not asked to be on? -/
def domAtRest (d : Dev) (n : Nat) : Bool := !domTarget d n || (domOn d n && !d.pwr.reqs.any (·.d == n))

/-- The next turn of a sequence that switches domains on one at a time: the lowest-numbered that is not on, not held off, and has
all it requires ready (R117). Once none is left the sequence is over, and in PLAN the device enters SELFTEST_BOOT (R113). -/
def turnStep (d : Dev) : Dev :=
  match d.pwr.turn with
  | none => d
  | some want =>
    let l := bitList want.toNat 64
    if !l.all (domAtRest d) then d
    else
      match l.find? fun n => !domTarget d n && !bitAt d.pwr.heldOff.toNat n && (domRequires n).all (domOn d) with
      | some n => domRequestOn d n false
      | none =>
        let d := { d with pwr.turn := none }
        if d.glb.st == .plan then enter d .selftest else d

/-- Switch domains on one at a time in the order of R117. -/
def turnOn (d : Dev) (want : Dword) : Dev := turnStep { d with pwr.turn := some want }

end Sys2Proof.Machine
end

