-- ==== Sys2Proof/Machine/Registers.lean ====
section
/-! DEFINITION. The registers of configuration space: what kind each is, which bits it holds, its ranges, its commit group and
its reset value (R13, R32, R33 and the register tables of every chapter). -/

namespace Sys2Proof.Machine

/-- Access types (R13). `rc` is the low word of a 48-bit counter and `rcHi` its high word (R177); `own` marks a register whose
write has a meaning of its own. -/
inductive RegKind where
  | ro | rw | rws | rc | rcHi | w1c | wo | own
  deriving DecidableEq, Repr

/-- One register. -/
structure RegInfo where
  kind : RegKind := .ro
  /-- writable bits, or the W1C bits -/
  mask : Nat := 0xFFFFFFFF
  /-- reset value of an RW register -/
  reset : Nat := 0
  /-- commit group of an RWS register (R138) -/
  group : Nat := 64
  /-- field ranges: (lsb, width, least, greatest) -/
  ranges : List (Nat × Nat × Nat × Nat) := []
  /-- where an out-of-range write of an RW register is reported: register offset and bit -/
  reject : Option (Nat × Nat) := none
  deriving DecidableEq, Repr

/-- Logical ports that a macro's breakout creates (R21, R152). -/
def macroPorts (mp : MacroPlan) : Nat := if !mp.present then 0 else match mp.breakout with | 0 => 1 | 1 => 2 | _ => 4

/-- Does switch port `p` exist (R20, R21)? -/
def swPortExists (d : Dev) (p : Nat) : Bool :=
  if p < 32 then (d.pln.plan.macros[p / 4]?).any fun mp => p % 4 < macroPorts mp
  else if p == 32 then d.pln.plan.pwEn
  else p < 36

/-- Base of the register window of macro `m`, 8 for PW (R176). -/
def ethBase (m : Nat) : Nat := if m < 8 then 0x100000 + m * 0x10000 else 0x180000

def info (kind : RegKind) : RegInfo := { kind }
def rwIn (mask reset : Nat) (ranges : List (Nat × Nat × Nat × Nat)) (rej : Nat × Nat) : RegInfo :=
  { kind := .rw, mask, reset, ranges, reject := some rej }
def rwsIn (group mask : Nat) (ranges : List (Nat × Nat × Nat × Nat)) : RegInfo := { kind := .rws, mask, group, ranges }

/-- Registers of pages 0 to 3: global, power, plan and access windows (R68, R103, R123, R142, R149). -/
def regLow (o : Nat) : Option RegInfo :=
  if o ≤ 0xFFFF then
    if o == 0x20 || o == 0x24 || o == 0x2C then some (info .ro)
    else if o == 0x28 then some { kind := .w1c, mask := 0x3F }
    else if o == 0x30 || o == 0x34 then some (info .own)
    else none
  else if o ≤ 0x1FFFF then
    let a := o - 0x10000
    if a == 0 || a == 0x30 || a == 0x48 then some (info .own)
    else if a == 4 then some { kind := .w1c, mask := 0x300 }
    else if a == 8 || a == 0x10 || a == 0x14 || a == 0x20 || a == 0x24 || a == 0x34 || a == 0x40 || a == 0x44 then some (info .ro)
    else if a == 0x18 || a == 0x38 then some (info .rc)
    else if 0x100 ≤ a && a < 0x180 then some (info .ro)
    else none
  else if 0x30000 ≤ o && o ≤ 0x37FFF then
    let a := o - 0x30000
    if a ≤ 0x18 then some (info .ro)
    else if 0x100 ≤ a && a < 0x300 then some (info .own)
    else none
  else if 0x38000 ≤ o && o ≤ 0x3FFFF then
    let a := o - 0x38000
    if a < 64 * 224 then some (info .own)
    else if a == 0x4000 then some (info .rc)
    else if 0x4004 ≤ a && a ≤ 0x4018 then some (info .ro)
    else none
  else none

/-- Registers of a macro window at offset `a` from its base, macro `m`, 8 for PW (R176, R177). -/
def regEth (d : Dev) (m a : Nat) : Option RegInfo :=
  let g := 11 + m
  let sw := fun s => if m < 8 then 4 * m + s else 32
  let okp := fun s => (m < 8 || s == 0) && swPortExists d (sw s)
  if a == 0 || a == 4 || a == 8 || a == 0x204 || a == 0x208 then some (info .ro)
  else if a == 0x10 then some (info .own)
  else if a == 0x200 then some (info .rc)
  else if 0x100 ≤ a && a < 0x110 then
    if okp ((a - 0x100) / 4) then some (rwsIn g (if m < 8 then 0xFF01 else 0x7F00) []) else none
  else if 0x110 ≤ a && a < 0x120 then
    if okp ((a - 0x110) / 4) then some (rwsIn g 0xFFFFFFFF [(20, 11, 1, 1000), (0, 20, 100, 1000000)]) else none
  else if 0x120 ≤ a && a < 0x130 then
    if okp ((a - 0x120) / 4) then some (rwsIn g 0xFFFF [(0, 16, 0, 50000)]) else none
  else if 0x1000 ≤ a && a < 0x2000 then
    let i := (a % 0x400) / 8
    if i < 66 then some (info (if a % 8 == 0 then .rc else .rcHi)) else none
  else if 0x3000 ≤ a && a < 0x3400 then
    let i := (a % 0x100) / 8
    if i < 5 then some (info (if a % 8 == 0 then .rc else .rcHi)) else none
  else none

/-- Registers of the switch core window (R200). -/
def regSwc (d : Dev) (a : Nat) : Option RegInfo :=
  let port := fun p => swPortExists d p
  if a == 0 || a == 4 || a == 8 || a == 0x10 || a == 0x14 || a == 0x18 then some (info .ro)
  else if a == 0xC then some { kind := .rw }
  else if a == 0x1C then some (info .own)
  else if 0x40 ≤ a && a < 0xD0 then
    if port ((a - 0x40) / 4) then some { kind := .rw, mask := 0x18000, reset := 0x18000 } else none
  else if 0x100 ≤ a && a < 0x190 then
    if port ((a - 0x100) / 4) then some (rwsIn 0 0x7FFF []) else none
  else if 0x200 ≤ a && a < 0x680 then
    if port ((a - 0x200) / 0x20) then some (rwsIn 1 0x0FFF000F [(0, 4, 0, 9)]) else none
  else if 0x700 ≤ a && a < 0xB80 then
    if port ((a - 0x700) / 0x20) then some (rwsIn 2 0xC0000FFF [(30, 2, 0, 2)]) else none
  else if 0xC00 ≤ a && a < 0x1500 then
    if port ((a - 0xC00) / 0x40) then some (rwsIn 1 0xFFFF000F [(0, 4, 0, 9)]) else none
  else if 0x1800 ≤ a && a < 0x2800 then
    let w := (a % 16) / 4
    some (rwsIn 0 (if w == 0 then 0xE0000FFF else if w == 2 then 0x00000F0F else 0xFFFFFFFF) [])
  else if 0x2800 ≤ a && a < 0x2880 then some (rwsIn 0 0x80000001 [])
  else if 0x2900 ≤ a && a < 0x3100 then some (rwsIn 0 0x80000FFF [(0, 6, 0, 32)])
  else if 0x3100 ≤ a && a < 0x3300 then some (rwsIn 0 (if a % 8 == 0 then 0xFFFFFFFF else 0x0FFFFFFF) [])
  else if 0x3400 ≤ a && a < 0x3480 then
    let w := (a % 0x20) / 4
    let mask := if w == 0 then 0xFFFFFFFF else if w == 1 then 0xFFFFFFFF else if w == 2 then 0xF
      else if w == 3 then 0x80FF8FFF else if w == 4 then 0x00FFFFFF else 0
    some (rwsIn 3 mask (if w == 0 then [(4, 2, 0, 2)] else []))
  else if 0x3800 ≤ a && a < 0x4800 then some (rwsIn 2 (if a % 16 < 8 then 0x1FFFFF else 0xFFFFFF) [])
  else if 0x4800 ≤ a && a < 0x5800 then some (rwsIn 2 0xFFFFFFFF [])
  else if 0x5800 ≤ a && a < 0x6A00 then
    let p := (a - 0x5800) / 0x80
    let i := (a % 0x80) / 8
    if i == 15 || (i == 14 && p < 33) || !port p then none else some (info (if a % 8 == 0 then .rc else .rcHi))
  else none

/-- Registers of the scheduler window (R200). -/
def regSch (d : Dev) (a : Nat) : Option RegInfo :=
  let port := fun p => swPortExists d p
  if a < 0x900 then
    if port (a / 0x40) && 2 ≤ (a % 0x40) / 4 then some (rwsIn 5 0x1FFFFF [(0, 21, 256, 1048576)]) else none
  else if 0x1000 ≤ a && a < 0x2200 then
    if port ((a - 0x1000) / 0x80) && 1 ≤ (a % 0x80) / 8 then
      some (if a % 8 == 0 then rwsIn 4 0x1FFFFF [(0, 21, 0, 1600000)] else rwsIn 4 0xFFFFFF [(0, 24, 9216, 16777215)]) else none
  else if 0x2400 ≤ a && a < 0x2520 then
    if port ((a - 0x2400) / 8) then
      some (if a % 8 == 0 then rwsIn 4 0x1FFFFF [(0, 21, 0, 1600000)] else rwsIn 4 0xFFFFFF [(0, 24, 9216, 16777215)]) else none
  else if 0x2800 ≤ a && a < 0x2890 then if port ((a - 0x2800) / 4) then some (info .ro) else none
  else if 0x3000 ≤ a && a < 0x5400 then
    if !port ((a - 0x3000) / 0x100) then none
    else match (a % 16) / 4 with
      | 0 => some (info .ro)
      | 2 => some (info .rc)
      | 3 => some (info .rcHi)
      | _ => none
  else none

/-- Registers of the Trestle window (R247, R273). -/
def regTrs (a : Nat) : Option RegInfo :=
  let rej := (0x300000, 15)
  if a == 0 then some { kind := .w1c, mask := 0x8000 }
  else if a == 4 || a == 8 || a == 0xC then some (info .ro)
  else if a == 0x10 then some (rwIn 0xFFFFFFFF 0x40000 [(0, 32, 16384, 16777216)] rej)
  else if a == 0x14 then some (rwIn 0x1F1FFF 0x100FA0 [(0, 13, 0, 4000), (16, 5, 1, 16)] rej)
  else if a == 0x18 then some (rwIn 0xFFFFFFFF 0x3E8 [(0, 32, 100, 10000)] rej)
  else if a == 0x1C then some (rwIn 0xFFFFFFFF 0x7D0 [(0, 32, 100, 60000)] rej)
  else if a == 0x20 then some (rwIn 0xFF 0x10 [(0, 8, 1, 64)] rej)
  else if a == 0x40 || a == 0x44 then some (rwsIn 6 0xFFFFFFFF [(0, 32, 20, 10000)])
  else if a == 0x60 || a == 0x6C then some (info .own)
  else if a == 0x64 || a == 0x68 then some (info .own)
  else if a == 0x70 then some { kind := .rw, mask := 0xFFFFF }
  else if a == 0x74 || a == 0x78 || a == 0x80 || a == 0x90 then some (info .ro)
  else if a == 0x84 then some (info .rc)
  else if a == 0x88 then some (rwIn 0x7FF 0x40 [(0, 11, 8, 1024)] rej)
  else if a == 0x8C then some (rwIn 0x3FFF 0 [(0, 14, 0, 10000)] rej)
  else if (0x100 ≤ a && a < 0x1B8) || (0x200 ≤ a && a < 0x278) then some (info (if a % 8 == 0 then .rc else .rcHi))
  else none

/-- Registers of the command engine window (R313). -/
def regCmd (a : Nat) : Option RegInfo :=
  let rej := (0x400000, 18)
  if a == 0 then some { kind := .w1c, mask := 0x40000 }
  else if a == 4 || (0x10 ≤ a && a < 0x24) || (0x30 ≤ a && a < 0x44) || a == 0x64 then some (info .ro)
  else if a == 0x50 then some (rwIn 0x1FFFF 0x3E8 [(0, 17, 0, 100000)] rej)
  else if a == 0x54 then some (rwIn 0xFFFFF 0 [(0, 20, 0, 600000)] rej)
  else if a == 0x58 then some (rwIn 0xFFFFF 0x2710 [(0, 20, 0, 600000)] rej)
  else if a == 0x5C || a == 0x60 || a == 0x140 then some (info .own)
  else if a == 0x80 then some (rwsIn 7 0xFFFFFF [(0, 8, 1, 255), (8, 8, 1, 255), (16, 8, 1, 255)])
  else if 0x100 ≤ a && a < 0x140 then some { kind := .rw }
  else if 0x160 ≤ a && a < 0x180 then some (info .ro)
  else if 0x200 ≤ a && a < 0x280 then some (info (if a % 8 == 0 then .rc else .rcHi))
  else none

/-- Registers of the storage window (R343, R377, R410). -/
def regSto (a : Nat) : Option RegInfo :=
  let rej := (0x500000, 31)
  if a == 0 then some { kind := .w1c, mask := 0x80000000 }
  else if 0x10 ≤ a && a < 0x70 then if a % 16 == 12 then none else some (info .ro)
  else if 0x100 ≤ a && a < 0x160 then some (info .ro)
  else if a == 0x200 then some (rwIn 0xFFFF 0x3E8 [(0, 16, 10, 60000)] rej)
  else if a == 0x204 || (0x210 ≤ a && a < 0x270) || (0x280 ≤ a && a < 0x28C) then some (info .ro)
  else if 0x300 ≤ a && a < 0x380 then some (info (if a % 8 == 0 then .rc else .rcHi))
  else if a == 0x400 then some (rwsIn 8 0x03FF007F [(0, 7, 5, 95), (16, 10, 0, 1000)])
  else if a == 0x404 || a == 0x480 then some { kind := .rw, mask := 0xFFF }
  else if a == 0x408 || (0x410 ≤ a && a < 0x470) || (0x484 ≤ a && a < 0x490) then some (info .ro)
  else if 0x500 ≤ a && a < 0x540 then some (info (if a % 8 == 0 then .rc else .rcHi))
  else none

/-- Registers of the common drive window (R410). -/
def regDrv (a : Nat) : Option RegInfo :=
  if a == 0 then some (rwsIn 20 0x7FFF [(0, 15, 100, 30000)])
  else if a == 4 then some (rwsIn 20 0x7F7F07 [(0, 3, 0, 7), (8, 7, 1, 64), (16, 7, 1, 64)])
  else if a == 8 then some (rwsIn 20 0xFFFF [(0, 16, 1000, 60000)])
  else if a == 0xC then some (rwsIn 20 0x1FFF [(0, 13, 1, 4096)])
  else none

/-- Registers of the integrity window (R481). -/
def regItg (a : Nat) : Option RegInfo :=
  if a == 0 then some { kind := .w1c, mask := 0x80000600 }
  else if a == 4 || a == 8 || a == 0x14 || a == 0x18 || a == 0x1C || a == 0x44 then some (info .ro)
  else if a == 0x10 || (0x20 ≤ a && a < 0x40) then some (info .own)
  else if a == 0x40 then some (rwsIn 9 0x10F [(0, 4, 0, 8)])
  else if 0x100 ≤ a && a < 0x140 then some (info (if a % 8 == 0 then .rc else .rcHi))
  else none

/-- Registers of the memory window (R518). -/
def regMem (a : Nat) : Option RegInfo :=
  if a == 0 then some { kind := .w1c, mask := 0x80000000 }
  else if a == 4 || a == 8 || a == 0xC then some (info .ro)
  else if a == 0x10 then some (rwsIn 22 0xFF [(0, 8, 1, 168)])
  else if 0x100 ≤ a && a < 0x130 then some (info (if a % 8 == 0 then .rc else .rcHi))
  else none

/-- Registers of the partywall window (R443). -/
def regPar (a : Nat) : Option RegInfo :=
  if a == 0 then some (rwsIn 10 0x0FFF0001 [(16, 12, 10, 3600)])
  else if 4 ≤ a && a ≤ 0x20 then some (info .ro)
  else if 0x100 ≤ a && a < 0x178 then some (info (if a % 8 == 0 then .rc else .rcHi))
  else none

/-- Registers of the viaduct window (R465). -/
def regVia (a : Nat) : Option RegInfo :=
  let rej := (0xA00000, 31)
  if a == 0 then some { kind := .w1c, mask := 0x80000000 }
  else if a == 8 || a == 0xC then some (info .ro)
  else if a == 0x10 then some (rwIn 0x1FFFF 0x7D0 [(0, 17, 200, 100000)] rej)
  else if a == 0x14 then some (rwIn 0xFFFF 0x7D0 [(0, 16, 0, 60000)] rej)
  else if a == 0x18 then some (rwIn 0x3FFFFF 0xEA60 [(0, 22, 0, 3600000)] rej)
  else if 0x100 ≤ a && a < 0x500 then
    let w := (a % 16) / 4
    if w == 3 then none
    else some { kind := .rw, mask := if w == 0 then 0xFFFFFFFF else if w == 1 then 0x0FFFFFFF else 0x8000007F }
  else if 0x800 ≤ a && a < 0x840 then some (info (if a % 8 == 0 then .rc else .rcHi))
  else none

/-- Registers of the BIST window (R518). -/
def regBst (a : Nat) : Option RegInfo :=
  let rej := (0xB0000C, 31)
  if a == 0 then some { kind := .rw, mask := 1, reset := 1 }
  else if a == 4 then some (rwIn 0x1FFF 0xFA [(0, 13, 10, 5000)] rej)
  else if a == 8 then some (rwIn 0xFFFF 0xA [(0, 16, 1, 60000)] rej)
  else if a == 0xC then some { kind := .w1c, mask := 0x80000000 }
  else if (0x10 ≤ a && a ≤ 0x1C) || a == 0x24 then some (info .ro)
  else if a == 0x20 then some (info .own)
  else if 0x100 ≤ a && a < 0x138 then some (info (if a % 8 == 0 then .rc else .rcHi))
  else none

/-- Registers of the counter window (R534). -/
def regCtr (a : Nat) : Option RegInfo :=
  let rej := (0xC00000, 31)
  if a == 0 then some { kind := .w1c, mask := 0x8000000C }
  else if a == 0x10 then some (rwsIn 21 0x3FFFFFF [(0, 26, 0, 60000000)])
  else if a == 0x14 then some (rwsIn 21 0xFFF [])
  else if a == 0x18 || a == 0x1C || a == 0x20 || a == 0x24 then some (rwsIn 21 0xFFFFFFFF [])
  else if a == 0x28 || a == 0x2C || a == 0x34 || a == 0x38 then some (info .ro)
  else if a == 0x30 then some (rwIn 0xFFFFF 0x3E8 [(0, 20, 1, 1000000)] rej)
  else if a == 0x40 then some (rwIn 0xFF 0 [(1, 5, 0, 24)] rej)
  else if a == 0x44 then some { kind := .rw, mask := 0x0FFF0FFF }
  else if a == 0x50 then some (info .own)
  else if 0x54 ≤ a && a ≤ 0x60 then some (info .ro)
  else if (0x1000 ≤ a && a < 0x10C8) || (0x2000 ≤ a && a < 0x23F0) || (0x3000 ≤ a && a < 0x3020) then some (info .ro)
  else if 0x10000 ≤ a && a < 0x10800 then some (info .own)
  else if 0x40000 ≤ a && a < 0x80000 then some (info .ro)
  else if 0x80000 ≤ a && a < 0x100000 then some (info .ro)
  else none

/-- Registers of the management window (R70). -/
def regMgt (a : Nat) : Option RegInfo :=
  if a == 0x100 || a == 0x104 then some { kind := .rw, mask := 0xFFFF }
  else if a == 0x108 || a == 0x10C then some (info .own)
  else if a == 0x110 then some (info .ro)
  else if a == 0x114 then some { kind := .rw, reset := 0xFFFF }
  else none

/-- The register at an offset, where some block implements it (R32, R33). -/
def regInfo (d : Dev) (o : Nat) : Option RegInfo :=
  if o % 4 != 0 then none
  else if o < 0x100000 then regLow o
  else if o < 0x190000 then regEth d ((o - 0x100000) / 0x10000) (o % 0x10000)
  else if o < 0x200000 then none
  else if o < 0x210000 then regSwc d (o - 0x200000)
  else if o < 0x300000 then regSch d (o - 0x210000)
  else if o < 0x400000 then regTrs (o - 0x300000)
  else if o < 0x500000 then regCmd (o - 0x400000)
  else if o < 0x580000 then regSto (o - 0x500000)
  else if o < 0x620000 then none
  else if o < 0x630000 then regDrv (o - 0x620000)
  else if o < 0x700000 then none
  else if o < 0x800000 then regItg (o - 0x700000)
  else if o < 0x900000 then regMem (o - 0x800000)
  else if o < 0xA00000 then regPar (o - 0x900000)
  else if o < 0xB00000 then regVia (o - 0xA00000)
  else if o < 0xC00000 then regBst (o - 0xB00000)
  else if o < 0xD00000 then regCtr (o - 0xC00000)
  else if o < 0xD10000 then regMgt (o - 0xD00000)
  else none

/-- The live offset of a staged copy, where `o` lies in the upper half of a page that holds RWS registers (R32). -/
def stagedOf (d : Dev) (o : Nat) : Option (Nat × RegInfo) :=
  if o % 0x10000 < 0x8000 || o < 0x100000 then none
  else match regInfo d (o - 0x8000) with
    | some i => if i.kind == .rws then some (o - 0x8000, i) else none
    | none => none

/-- Live value of an RW or RWS register. -/
def liveReg (d : Dev) (o : Nat) : Word :=
  match tget d.reg.live o with
  | some v => v
  | none => BitVec.ofNat 32 (((regInfo d o).map (·.reset)).getD 0)

/-- Live value as a number. -/
def liveN (d : Dev) (o : Nat) : Nat := (liveReg d o).toNat

/-- Staged value of an RWS register (R13). -/
def stagedReg (d : Dev) (o : Nat) : Word := (tget d.reg.staged o).getD (liveReg d o)

/-- Do all fields of a value lie in their ranges? -/
def inRanges (l : List (Nat × Nat × Nat × Nat)) (v : Nat) : Bool :=
  l.all fun r => r.2.2.1 ≤ fld v r.1 r.2.1 && fld v r.1 r.2.1 ≤ r.2.2.2

/-- Write an RW register: its bits, unless a field is out of range, which changes nothing and sets the block's reject bit. -/
def writeRw (d : Dev) (o : Nat) (i : RegInfo) (v : Word) : Dev :=
  let v := v.toNat &&& i.mask
  if inRanges i.ranges v then { d with reg.live := tset d.reg.live o (BitVec.ofNat 32 v) }
  else match i.reject with
    | some (ro, b) => setSticky d ro b
    | none => d

/-- An access to a register of configuration page `page`: `f` runs when the master holds WRITE there, else it is a denial. -/
def writeAccess (d : Dev) (m : Master) (off : Nat) (f : Dev → Dev) : Dev :=
  if pageHas d m (off / 0x10000) rWRITE then f d else deny d m 0 off rWRITE

end Sys2Proof.Machine
end

