-- ==== Sys2Proof/Machine/Ports.lean ====
section
/-! DEFINITION. Logical ports, lanes, flow control and the pause watchdog: the operations behind the Ethernet port commands
(R152 to R167, R176, R177). -/

namespace Sys2Proof.Machine

/-! ### Ports and lanes -/

def macroOf (p : Nat) : Nat := if p < 32 then p / 4 else 8
def subOf (p : Nat) : Nat := if p < 32 then p % 4 else 0
def portDomain (p : Nat) : Nat := if p < 32 then p / 4 else pdPW

def portOf (d : Dev) (p : Nat) : Port := tgetD d.eth.ports p {}
def modPort (d : Dev) (p : Nat) (f : Port → Port) : Dev := { d with eth.ports := tmod d.eth.ports p {} f }
def laneOf (d : Dev) (m l : Nat) : Lane := tgetD d.eth.lanes (m * 4 + l) {}
def modLane (d : Dev) (m l : Nat) (f : Lane → Lane) : Dev := { d with eth.lanes := tmod d.eth.lanes (m * 4 + l) {} f }

/-- The port's planned lanes (R152). -/
def plannedLanes (d : Dev) (p : Nat) : List Nat :=
  if p ≥ 32 then [0, 1, 2, 3]
  else match (d.pln.plan.macros[p / 4]?).map (·.breakout) with
    | some 0 => [0, 1, 2, 3]
    | some 1 => [2 * (p % 4), 2 * (p % 4) + 1]
    | _ => [p % 4]

/-- Mbit/s of the port's current form (R152, R161, R175). -/
def portRate (d : Dev) (p : Nat) : Nat :=
  let per := if p ≥ 32 then 200000
    else if (d.pln.plan.macros[p / 4]?).any (·.rate212) then 200000 else 100000
  per * (portOf d p).lanes.length

/-- MAX_FRAME of the port (R154, R175). -/
def maxFrameOf (d : Dev) (p : Nat) : Nat :=
  if p ≥ 32 then 9216
  else (((d.pln.plan.macros[p / 4]?).bind fun mp => mp.maxFrame[p % 4]?).getD 1518)

/-- Count the port statistic with index `i` (R177). -/
def ethStatN (d : Dev) (p i n : Nat) : Dev := countN d (ethBase (macroOf p) + 0x1000 + 0x400 * subOf p + 8 * i) n
def ethStat (d : Dev) (p i : Nat) : Dev := ethStatN d p i 1
/-- Count the lane statistic with index `i` (R177). -/
def laneStat (d : Dev) (m l i : Nat) : Dev := count d (ethBase m + 0x3000 + 0x100 * l + 8 * i)

/-- ETH_FC_CFG of a port (R176); PAUSE_EN and PFC_EN bit 7 of PW read 0 (R175). -/
def fcCfg (d : Dev) (p : Nat) : Nat := liveN d (ethBase (macroOf p) + 0x100 + 4 * subOf p)
def pauseEn (d : Dev) (p : Nat) : Bool := p < 32 && bitAt (fcCfg d p) 0
def pfcEn (d : Dev) (p r : Nat) : Bool := bitAt (fcCfg d p) (8 + r) && !(p == 32 && r == 7)
def pwdCfg (d : Dev) (p : Nat) : Nat := liveN d (ethBase (macroOf p) + 0x110 + 4 * subOf p)
def linkHold (d : Dev) (p : Nat) : Nat := fld (liveN d (ethBase (macroOf p) + 0x120 + 4 * subOf p)) 0 16

/-- SCH_TC_MAP of a port (R196); on PW priority 7 is queue Q0 and priority 6 queue Q1 (R175). -/
def tcMapWord (d : Dev) (p : Nat) : Nat :=
  let w := (tgetD d.pln.plan.tcMap p 0).toNat
  if p == 32 then w % 2 ^ 24 + 2 ^ 24 else w

/-- Queue of priority `r` at port `p` (R196). -/
def tcQueue (d : Dev) (p r : Nat) : Nat := fld (tcMapWord d p) (4 * r) 4

/-! ### Link loss, retrain and re-formation (R158 to R162, R191) -/

/-- The pause watchdog's instances stop and end their ACTION at link down (R165). -/
def pwdClear (d : Dev) (p : Nat) : Dev := modPort d p fun x => { x with pwd := [] }

/-- Up to loss of link: the port goes down and its queues stop; LINK_HOLD is taken at this moment (R191). -/
def linkLost (d : Dev) (p : Nat) : Dev :=
  let h := linkHold d p
  let d := modPort d p fun x => { x with up := false, attempt := none, down := some (d.time, h), holdDone := false }
  let d := (portOf d p).lanes.foldl (fun d l => modLane d (macroOf p) l fun x => { x with lock := false }) d
  ethStat (pwdClear d p) p 61

/-- The narrower form after a lane's retirement (table "Re-formation", R160). -/
def reformed (lanes : List Nat) (l : Nat) : List Nat :=
  match lanes with
  | [a, b, c, e] => if l == a || l == b then [c, e] else [a, b]
  | [a, b] => if l == a then [b] else [a]
  | _ => []

/-- Retire a lane and re-form the port that uses it: event 0x0601, attention 0x8 (R159 to R161). -/
def retireLane (d : Dev) (p l : Nat) : Dev :=
  let m := macroOf p
  let d := modLane d m l fun x => { x with retired := true, lock := false, idle := false }
  let d := laneStat d m l 4
  let d := logEvent d 0x0601 0x8 .none (le 1 m ++ le 1 l)
  let old := (portOf d p).lanes
  if !old.contains l then d else
  let new := reformed old l
  let d := modPort d p fun x => { x with lanes := new, reformed := true }
  let d := (old.filter fun k => !new.contains k && k != l).foldl
    (fun d k => modLane d m k fun x => if x.retired then x else { x with idle := true, lock := false }) d
  ethStat d p 62

/-- Failed retrains charged to a lane in the last 60 s (R159). -/
def recentFails (d : Dev) (x : Lane) : List Nat := x.fails.filter fun t => d.time ≤ t + 60000000000

/-- Charge a failed retrain to a lane; the third within 60 s retires it (R159). -/
def chargeLane (d : Dev) (p l : Nat) : Dev :=
  let m := macroOf p
  if (laneOf d m l).retired then d
  else
    let d := modLane d m l fun x => { x with fails := recentFails d x ++ [d.time] }
    let d := laneStat d m l 3
    if (laneOf d m l).fails.length ≥ 3 then retireLane d p l else d

/-- The FEC counters of a port or a lane: codewords 63 to 65, symbols 0 (R177). -/
def isFecCtr (o : Nat) : Bool :=
  let a := o % 0x10000
  0x100000 ≤ o && o < 0x190000 && ((0x1000 ≤ a && a < 0x2000 && 63 ≤ a % 0x400 / 8 && a % 0x400 / 8 ≤ 65)
    || (0x3000 ≤ a && a < 0x3400 && a % 0x100 / 8 == 0))

/-- What the FEC has counted since these counters were last looked at: a free value for each (R177). -/
def fecDraw (d : Dev) (offs : List Nat) : Dev :=
  (offs.filter isFecCtr).foldl (fun d o => let (n, d) := draw d; countN d o (Config.freeNat n)) d

/-- Start a bring-up attempt (R157). -/
def startAttempt (d : Dev) (p : Nat) : Dev :=
  let x := portOf d p
  let d := if x.lanes.isEmpty && !x.reformed then modPort d p fun x => { x with lanes := plannedLanes d p } else d
  let x := portOf d p
  if x.lanes.isEmpty then d
  else
    let d := if x.retrain then x.lanes.foldl (fun d l => laneStat d (macroOf p) l 2) d else d
    modPort d p fun x => { x with attempt := some d.time }

/-- ETH_LANE_STATUS (R176). -/
def laneStatus (d : Dev) (m : Nat) : Nat :=
  (List.range 4).foldl (fun r l =>
    let x := laneOf d m l
    let fails := if x.retired then 3 else min 3 (recentFails d x).length
    r + ((b2n x.lock + 2 * b2n x.retired + 4 * b2n x.idle + 8 * fails) <<< (8 * l))) 0

/-- ETH_PORT_STATUS (R176). -/
def portStatus (d : Dev) (m : Nat) : Nat :=
  (List.range 4).foldl (fun r s =>
    let p := if m < 8 then 4 * m + s else 32
    if (m == 8 && s != 0) || !swPortExists d p then r
    else
      let x := portOf d p
      let width := if !x.up then 0 else match x.lanes.length with | 1 => 1 | 2 => 2 | 4 => 3 | _ => 0
      let v := b2n x.up + 2 * b2n (x.pwd.any fun e => e.2.st == .held) + 4 * b2n (x.pwd.any fun e => e.2.st == .recover)
        + 8 * width + 32 * b2n x.reformed
      r + (v <<< (8 * s))) 0

/-! ### Pause and priority flow control (R163 to R167) -/

def pwdOf (d : Dev) (p inst : Nat) : Pwd := tgetD (portOf d p).pwd inst {}
def setPwd (d : Dev) (p inst : Nat) (w : Pwd) : Dev := modPort d p fun x => { x with pwd := tset x.pwd inst w }

/-- ns that `quanta` of 512 bit times last at the port's rate (R163). -/
def quantaNs (d : Dev) (p quanta : Nat) : Nat := if portRate d p == 0 then 0 else quanta * 512000 / portRate d p

/-- A received pause for an enabled instance (table "Pause watchdog", R165). -/
def pwdPause (d : Dev) (p inst quanta : Nat) : Dev :=
  let w := pwdOf d p inst
  match w.st with
  | .open =>
    if quanta == 0 then d
    else setPwd d p inst { w with st := .held, quantaAt := d.time + quantaNs d p quanta, watchAt := d.time }
  | .held =>
    if quanta == 0 then setPwd d p inst { w with st := .open }
    else setPwd d p inst { w with quantaAt := d.time + quantaNs d p quanta }
  | .recover => ethStat d p 57

/-- Is queue `q` of port `p` halted by a received pause (R163, R165)? -/
def queueHalted (d : Dev) (p q : Nat) : Bool :=
  (portOf d p).pwd.any fun e => e.2.st == .held && (e.1 == 8 || tcQueue d p e.1 == q)

/-- Is a frame of priority `r` for port `p` to be drained (R166)? -/
def draining (d : Dev) (p r : Nat) : Bool :=
  (portOf d p).pwd.any fun e => e.2.st == .recover && e.2.drain && (e.1 == 8 || e.1 == r)

/-- A MAC control frame counts as any frame: 64 bytes to a multicast address; `i` is 0 received, 30 sent (R177). -/
def macControl (d : Dev) (p i : Nat) : Dev := ethStat (ethStatN (ethStat d p i) p (i + 1) 64) p (i + 3)

/-- Send pause (priority 8) or PFC from a port with quanta (R164): index 35 counts TX_PAUSE, 36 + r TX_PFC. -/
def sendPfc (d : Dev) (p r quanta : Nat) : Dev :=
  ethStat (macControl (emit d (.pfc p r quanta)) p 30) p (if r == 8 then 35 else 36 + r)

/-- The lossless key of (ingress port, priority): with PAUSE_EN all priorities share one (R189). -/
def losslessKey (d : Dev) (s r : Nat) : Option Nat :=
  if s > 32 then none
  else if pauseEn d s then some (264 + s)
  else if pfcEn d s r then some (s * 8 + r) else none

/-- Port, and priority with 8 for Annex 31B pause, of a lossless key. -/
def keyPort (k : Nat) : Nat := if k < 264 then k / 8 else k - 264
def keyPrio (k : Nat) : Nat := if k < 264 then k % 8 else 8

end Sys2Proof.Machine
end

