-- ==== Sys2Proof/Machine/Crc.lean ====
section
/-! DEFINITION. CRC-32C (reflected polynomial 0x82F63B78), used by the Trestle trailer (R202, R204), the flow hash (R186) and the
checks of records and images. -/

namespace Sys2Proof.Machine

/-- One bit of the CRC-32C register. -/
def crcBit (c : Nat) : Nat := if c % 2 == 1 then (c / 2) ^^^ 0x82F63B78 else c / 2

/-- One byte of the CRC-32C register. -/
def crcByte (c : Nat) (b : Byte) : Nat :=
  crcBit (crcBit (crcBit (crcBit (crcBit (crcBit (crcBit (crcBit (c ^^^ b.toNat))))))))

/-- The CRC register run over a byte string from a start value. -/
def crcRun (c : Nat) (bs : List Byte) : Nat := bs.foldl crcByte c

/-- CRC-32C of a byte string. -/
def crc32c (bs : List Byte) : Word := BitVec.ofNat 32 (crcRun 0xFFFFFFFF bs ^^^ 0xFFFFFFFF)

end Sys2Proof.Machine
end

