-- ==== Sys2Proof/Machine/Wire.lean ====
section
/-! DEFINITION. Bytes on the wire: a Trestle packet with its trailer, the IP and UDP header fields that the device computes, and
the segments of a super-frame (R10, R168 to R170, R172, R202 to R207). -/

namespace Sys2Proof.Machine

/-! ### Trestle packets (R202 to R207) -/

def pkVer (p : Pkt) : Nat := fld p.verOp.toNat 4 4
def pkOp (p : Pkt) : Nat := fld p.verOp.toNat 0 4
def pkPath (p : Pkt) : Nat := fld p.path.toNat 0 6
def fTRIGGER (p : Pkt) : Bool := bitAt p.flags.toNat 7
def fFENCE (p : Pkt) : Bool := bitAt p.flags.toNat 6
def fNOTIFY (p : Pkt) : Bool := bitAt p.flags.toNat 5
def fACKNOW (p : Pkt) : Bool := bitAt p.flags.toNat 4

/-- The 40 header bytes of a packet (R206). -/
def pktHeader (p : Pkt) : List Byte :=
  [p.verOp, p.flags] ++ be 2 p.path.toNat ++ be 4 p.dstConn.toNat ++ be 4 p.psn.toNat ++ be 4 p.msn.toNat
    ++ be 4 p.msgLen.toNat ++ be 4 p.msgOffset.toNat ++ be 8 p.addr.toNat ++ be 4 p.key.toNat ++ be 4 p.tag.toNat

/-- The trailer computed over the header and the data or body (R204). -/
def pktCrc (p : Pkt) : Word := crc32c (pktHeader p ++ p.body)

/-- A packet with its trailer. -/
def sealPkt (p : Pkt) : Pkt := { p with crc := pktCrc p }

/-- The trailer's 4 bytes, most significant first (R10, R204). -/
def pktTrailer (p : Pkt) : List Byte := be 4 p.crc.toNat

/-- A packet's bytes: the payload of its UDP datagram (R202). -/
def pktBytes (p : Pkt) : List Byte := pktHeader p ++ p.body ++ pktTrailer p

/-! ### IP and UDP headers (R172, R203) -/

/-- One's complement sum of 16 bits. -/
def onesAdd (a b : Nat) : Nat := if a + b < 0x10000 then a + b else a + b - 0xFFFF

/-- One's complement sum of the 16-bit words of a byte string. -/
def onesSum : List Byte → Nat
  | [] => 0
  | [a] => 256 * a.toNat
  | a :: b :: r => onesAdd (256 * a.toNat + b.toNat) (onesSum r)

/-- The internet checksum of a byte string. -/
def checksum (bs : List Byte) : Half := BitVec.ofNat 16 (0xFFFF - onesSum bs)

/-- An address that does not fit 32 bits is an IPv6 address. -/
def isV6 (ip : Nat) : Bool := decide (2 ^ 32 ≤ ip)

/-- The 20 bytes of an IPv4 header with DF set and no option. -/
def ipv4Header (h : IpHdr) (len : Nat) (id ck : Half) : List Byte :=
  be 1 0x45 ++ be 1 (4 * h.dscp + h.ecn) ++ be 2 len ++ be 2 id.toNat ++ be 2 0x4000 ++ be 1 h.ttl ++ be 1 17 ++ be 2 ck.toNat
    ++ be 4 h.src ++ be 4 h.dst

/-- Bytes that the UDP checksum covers besides the datagram. -/
def udpPseudo (h : IpHdr) (len : Nat) : List Byte :=
  if h.v6 then be 16 h.src ++ be 16 h.dst ++ be 4 len ++ be 4 17 else be 4 h.src ++ be 4 h.dst ++ be 2 17 ++ be 2 len

/-- The UDP checksum of a datagram; a sum of 0 is sent as 0xFFFF. -/
def udpChecksum (h : IpHdr) (payload : List Byte) : Half :=
  let n := 8 + payload.length
  let c := checksum (udpPseudo h n ++ be 2 h.sport ++ be 2 h.dport ++ be 2 n ++ be 2 0 ++ payload)
  if c == 0 then 0xFFFF else c

/-- What the device computes for a UDP datagram: lengths, DF and both checksums (R172, R203). -/
def udpWire (h : IpHdr) (id : Half) (payload : List Byte) : IpWire :=
  let n := 8 + payload.length
  if h.v6 then { src := h.src, len := n, df := false, udpLen := n, udpCk := udpChecksum h payload }
  else { src := h.src, len := 20 + n, id, ck := checksum (ipv4Header h (20 + n) id 0), udpLen := n, udpCk := udpChecksum h payload }

/-- A Trestle packet on its way; its TTL, DSCP, ECN, flow label and identification, which the spec leaves open, are free values. -/
def trsEmit (src dst sport dport : Nat) (p : Pkt) : Emit :=
  let b := pktBytes p
  let h : IpHdr := { v6 := isV6 dst, src, dst, sport, dport, ttl := Config.originTtl b % 256, dscp := Config.originTos b % 64,
                     ecn := Config.originTos b / 64 % 4, flow := Config.originFlow b % 0x100000 }
  .trs dst sport dport p (udpWire h (BitVec.ofNat 16 (Config.originId b)) b)

/-! ### Super-frames (R168 to R170) -/

/-- Segments of a super-frame. -/
def segCount (s : Super) : Nat := if s.payload == 0 then 0 else (s.bytes + s.payload - 1) / s.payload
/-- Payload bytes of segment `i`. -/
def segPayload (s : Super) (i : Nat) : Nat := min s.payload (s.bytes - i * s.payload)

/-- What may be handed over as a super-frame: WRITE or READ_RESP from port 33 or 34, at most 262,144 bytes in at most 64 packets of
4,096 or 8,192 bytes (R168); PATH_MASK is never 0 (R170). -/
def superOk (src : Nat) (s : Super) : Bool :=
  (src == 33 || src == 34) && (pkOp s.pkt == 1 || pkOp s.pkt == 3) && (s.payload == 4096 || s.payload == 8192)
    && 1 ≤ s.bytes && s.bytes ≤ 262144 && segCount s ≤ 64 && s.pathMask != 0 && s.start < 64

/-- Frame bytes of a segment besides its payload: Ethernet, tag, IP, UDP and Trestle headers, trailer and FCS (R169). -/
def segOver (f : Frame) : Nat :=
  14 + (if f.tag.isSome then 4 else 0) + (if f.ip.any (·.v6) then 40 else 20) + 8 + 40 + 4 + 4
/-- Frame bytes of segment `i`. -/
def segBytes (f : Frame) (s : Super) (i : Nat) : Nat := segPayload s i + segOver f

/-- The path ids a super-frame is spread over: set bits rotated to begin at the first at or above START (R170). -/
def pathRing (s : Super) : List Nat :=
  let l := bitList s.pathMask.toNat 64
  l.filter (s.start ≤ ·) ++ l.filter (· < s.start)

/-- Path of segment `i` (R170). -/
def segPath (s : Super) (i : Nat) : Nat := (pathRing s).getD (i % (pathRing s).length) 0

/-- Payload bytes of segment `i`. -/
def segData (s : Super) (i : Nat) : List Byte :=
  let n := segPayload s i
  let b := (s.data.drop (i * s.payload)).take n
  b ++ zeros (n - b.length)

/-- The packet of segment `i` (table "Segment fields", R169): ACK_NOW stays on the last segment only. -/
def segPkt (s : Super) (i : Nat) : Pkt :=
  let p := i * s.payload
  sealPkt { s.pkt with
    flags := if i + 1 == segCount s then s.pkt.flags else s.pkt.flags &&& 0xEF
    path := BitVec.ofNat 16 (segPath s i)
    psn := s.pkt.psn + BitVec.ofNat 32 i
    msgOffset := s.pkt.msgOffset + BitVec.ofNat 32 p
    addr := s.pkt.addr + BitVec.ofNat 64 p
    body := segData s i }

/-- The headers of segment `i` below Trestle: copied, but for the UDP source port (R169). -/
def segFrame (f : Frame) (s : Super) (i : Nat) : Frame :=
  { f with len := segBytes f s i, ip := f.ip.map fun h => { h with sport := (s.portBase + BitVec.ofNat 16 (segPath s i)).toNat } }

/-- What is computed for segment `i` (R169). -/
def segWire (f : Frame) (s : Super) (i : Nat) : IpWire :=
  udpWire (((segFrame f s i).ip).getD {}) (s.ipId + BitVec.ofNat 16 i) (pktBytes (segPkt s i))

end Sys2Proof.Machine
end

