-- ==== Sys2Proof/Machine/Switch.lean ====
section
/-! DEFINITION. The switch core and the egress scheduler: lookup, shared buffer, policers, mirrors and the picking of frames
(R178 to R201). -/

namespace Sys2Proof.Machine

/-! ### Addresses, VLANs and groups -/

/-- Word of a switch core register (R200). -/
def swcReg (d : Dev) (a : Nat) : Nat := (tgetD d.reg.live (0x200000 + a) 0).toNat
def schReg (d : Dev) (a : Nat) : Nat := (tgetD d.reg.live (0x210000 + a) 0).toNat

def stationBase : Nat := Config.macBase
/-- Is an Ethernet address one of the device's station addresses: the OTP base address plus the port (R180), after a take-over
those of the partner (R432), or the pair group address (R421)? -/
def isStation (d : Dev) (a : Nat) : Bool :=
  (stationBase ≤ a && a < stationBase + 36)
    || (d.par.lost && !d.par.adopted.isEmpty && d.par.partnerAddr ≤ a && a < d.par.partnerAddr + 36)
    || (!d.pln.plan.unpaired && a == d.pln.plan.pairGroup)
def isMulticast (a : Nat) : Bool := bitAt a 40
def isBroadcast (a : Nat) : Bool := a == 0xFFFFFFFFFFFF

/-- The VLAN table entry of a VID (R178). -/
def vlanEntry (d : Dev) (vid : Nat) : Option Nat :=
  (List.range 256).find? fun v => let w := swcReg d (0x1800 + 16 * v); bitAt w 31 && fld w 0 12 == vid

def vlanMember (d : Dev) (v p : Nat) : Bool :=
  if p < 32 then bitAt (swcReg d (0x1804 + 16 * v)) p else bitAt (swcReg d (0x1808 + 16 * v)) (p - 32)
def vlanUntag (d : Dev) (v p : Nat) : Bool :=
  if p < 32 then bitAt (swcReg d (0x180C + 16 * v)) p else bitAt (swcReg d (0x1808 + 16 * v)) (8 + p - 32)

/-- VID and priority of a received frame (R178 step 3). -/
def frameVlan (d : Dev) (p : Nat) (f : Frame) : Nat × Nat :=
  match f.tag with
  | some t => (t.1 % 4096, t.2 % 8)
  | none => let w := swcReg d (0x100 + 4 * p); (fld w 0 12, fld w 12 3)

/-- Is a port a member of LAG group `g` (R185)? -/
def inLag (d : Dev) (g p : Nat) : Bool :=
  let w := swcReg d (0x2800 + 4 * g)
  bitAt w 31 && bitAt w 0 && (List.range 16).any fun k =>
    let mb := swcReg d (0x2900 + 0x40 * g + 4 * k); bitAt mb 31 && fld mb 0 6 == p

/-- The first LAG group that a port is a member of (R178, R185). -/
def lagOf (d : Dev) (p : Nat) : Option Nat := (List.range 32).find? fun g => inLag d g p

/-- Is a switch port up? Ports 33 to 35 have no link. -/
def portUp (d : Dev) (p : Nat) : Bool := if p ≤ 32 then (portOf d p).up else swPortExists d p

/-- The selectable members of a group, in ascending slot order; a group that is not VALID has none (R185, R186; DEDUCED, log
entry 86). -/
def selectable (d : Dev) (g : Nat) : List Nat :=
  if !bitAt (swcReg d (0x2800 + 4 * g)) 31 then []
  else (List.range 16).filter fun k =>
    let mb := swcReg d (0x2900 + 0x40 * g + 4 * k)
    bitAt mb 31 && swPortExists d (fld mb 0 6) && portUp d (fld mb 0 6)

/-- The key bytes of the flow hash: each field as in the frame, the VID as two bytes (R186; DESIGN CHOICE, log entry 87). -/
def hashKey (f : Frame) (vid : Nat) : List Byte :=
  match f.ip with
  | some h =>
    let n := if h.v6 then 16 else 4
    let l4 := h.proto == 6 || h.proto == 17
    be n h.src ++ be n h.dst ++ be 1 h.proto ++ be 2 (if l4 then h.sport else 0) ++ be 2 (if l4 then h.dport else 0)
  | none => be 6 f.dst ++ be 6 f.src ++ be 2 vid ++ be 2 f.etype

/-- The 32-bit hash of a flow: the CRC-32C with SWC_HASH_SEED as its initial value (R186, R204). -/
def flowHash (d : Dev) (f : Frame) (vid : Nat) : Nat := crcRun (liveN d 0x20000C) (hashKey f vid) ^^^ 0xFFFFFFFF

/-- Pick one of `n` members by a hash (R186). -/
def hashPick (h n : Nat) : Nat := (fld h 16 16 * n) >>> 16

/-- The member of a group that a flow takes, as its register word (R186). -/
def groupPick (d : Dev) (g : Nat) (f : Frame) (vid : Nat) : Option Nat :=
  let l := selectable d g
  if l.isEmpty then none
  else (l[hashPick (flowHash d f vid) l.length]?).map fun k => swcReg d (0x2900 + 0x40 * g + 4 * k)

/-- The neighbour address and VID that an ECMP member puts into a frame; none for a LAG member (R185). -/
def memberHop (d : Dev) (g w : Nat) : Option (Nat × Nat) :=
  if bitAt (swcReg d (0x2800 + 4 * g)) 0 then none
  else
    let n := fld w 6 6
    let hi := swcReg d (0x3100 + 8 * n + 4)
    some (swcReg d (0x3100 + 8 * n) + (fld hi 0 16 <<< 32), fld hi 16 12)

/-- A frame with another 802.1Q tag, or without one; its length follows. -/
def withTag (f : Frame) (t : Option (Nat × Nat)) : Frame :=
  { f with tag := t, len := f.len + (if t.isSome then 4 else 0) - (if f.tag.isSome then 4 else 0) }

/-! ### Counters and the shared buffer (R187 to R190) -/

def swcCnt (d : Dev) (p i : Nat) : Dev := count d (0x205800 + 0x80 * p + 8 * i)
def qDrop (d : Dev) (p q : Nat) : Dev := count d (0x213008 + 0x100 * p + 16 * q)

def queueOf (d : Dev) (p q : Nat) : Queue := tgetD d.swc.queues (p * 16 + q) {}
def modQueue (d : Dev) (p q : Nat) (f : Queue → Queue) : Dev :=
  { d with swc.queues := tmod d.swc.queues (p * 16 + q) {} f }
def egressOf (d : Dev) (p : Nat) : Egress := tgetD d.swc.egress p {}
def modEgress (d : Dev) (p : Nat) (f : Egress → Egress) : Dev := { d with swc.egress := tmod d.swc.egress p {} f }

/-- Frames of a queue, the one being sent included. -/
def heldFrames (d : Dev) (p q : Nat) : List QFrame :=
  (match (egressOf d p).tx with | some t => if t.q == q then [t.f] else [] | none => []) ++ (queueOf d p q).frames

def sumOf (l : List Nat) : Nat := l.foldl (· + ·) 0

/-- SCH_QDEPTH: cells a queue holds (R200). -/
def queueCells (d : Dev) (p q : Nat) : Nat := sumOf ((heldFrames d p q).map (·.cells))

def reserveOf (d : Dev) (p q : Nat) : Nat := fld (swcReg d (0xC00 + 0x40 * p + 4 * q)) 16 16
/-- The cells of each frame of a list that lie beyond `left` cells: the first cells count against the reserve, any beyond as shared
(R188). Cells in headroom count as neither. -/
def beyondReserve : Nat → List QFrame → List (QFrame × Nat)
  | _, [] => []
  | left, f :: l =>
    if f.inHead then (f, 0) :: beyondReserve left l
    else (f, f.cells - left) :: beyondReserve (left - f.cells) l

/-- The shared cells of each frame of a queue (R188). -/
def sharedCells (d : Dev) (p q : Nat) : List (QFrame × Nat) := beyondReserve (reserveOf d p q) (heldFrames d p q)
def queueShared (d : Dev) (p q : Nat) : Nat := sumOf ((sharedCells d p q).map (·.2))

def alphaOf (d : Dev) (p q : Nat) : Nat := fld (swcReg d (0xC00 + 0x40 * p + 4 * q)) 0 4
def headroomOf (d : Dev) (s r : Nat) : Nat := 16 * fld (swcReg d (0x200 + 0x20 * s + 4 * r)) 16 12
def xoffAlphaOf (d : Dev) (s r : Nat) : Nat := fld (swcReg d (0x200 + 0x20 * s + 4 * r)) 0 4

/-- Is the bank's domain ready and not held by a BIST slice (R187, R190)? -/
def bankIn (d : Dev) (b : Nat) : Bool := b < d.pln.plan.banks && domOn d (pdBUF b) && d.bst.active != some (pdBUF b)
  && !d.bst.held.any fun u => u.1 == pdBUF b
def banksIn (d : Dev) : Nat := ((List.range 8).filter (bankIn d)).length

/-- Existing switch ports. -/
def existing (d : Dev) : List Nat := (List.range 36).filter (swPortExists d)

/-- Σ reserves + Σ headroom over the existing switch ports (R187). -/
def reservedCells (d : Dev) : Nat :=
  sumOf ((existing d).map fun p => sumOf ((List.range 16).map (reserveOf d p)))
  + sumOf (((existing d).filter (· < 33)).map fun s => sumOf ((List.range 8).map fun r =>
      if pauseEn d s then (if r == 0 then headroomOf d s 0 else 0)
      else if pfcEn d s r then headroomOf d s r else 0))

/-- *S*: the shared pool in cells (R187). -/
def sharedSize (d : Dev) : Nat := 49152 * banksIn d - reservedCells d

/-- Shared cells in use: an unlisted queue holds none. -/
def sharedUsed (d : Dev) : Nat := sumOf ((tkeys d.swc.queues).map fun k => queueShared d (k / 16) (k % 16))

/-- Shared cells held by frames with a lossless key (R189). -/
def ingressShared (d : Dev) (key : Nat) : Nat :=
  sumOf ((tkeys d.swc.queues).map fun k => sumOf ((sharedCells d (k / 16) (k % 16)).map fun e =>
    if (tgetD d.swc.store e.1.id {}).key == some key then e.2 else 0))

/-- *F*: the shared cells free (R187). -/
def sharedFree (d : Dev) : Nat := sharedSize d - sharedUsed d

/-- floor(2^(a - 6) × f ÷ div) (R188, R189). -/
def alphaLimit (a f div : Nat) : Nat := 2 ^ a * f / (64 * div)

/-- Cells that a frame of `n` cells would take from the shared pool in a queue, whose headroom cells leave its reserve alone (R188;
DESIGN CHOICE, log entry 89). -/
def sharedTake (d : Dev) (p q n : Nat) : Nat :=
  let used := sumOf ((heldFrames d p q).map fun f => if f.inHead then 0 else f.cells)
  n - min n (reserveOf d p q - used)

/-- ceil(L ÷ 256) (R187). -/
def cellsOf (bytes : Nat) : Nat := (bytes + 255) / 256

/-- Headroom cells and XOFF limit of a lossless key; Annex 31B pause uses the settings of priority 0 (R189). -/
def keyHeadroom (d : Dev) (k : Nat) : Nat := headroomOf d (keyPort k) (keyPrio k % 8)
def keyLimit (d : Dev) (k : Nat) : Nat := alphaLimit (xoffAlphaOf d (keyPort k) (keyPrio k % 8)) (sharedFree d) 1

/-- A frame becomes the last of a queue; a queue that becomes non-empty joins the DWRR list (R196). -/
def enqueue (d : Dev) (p q : Nat) (f : QFrame) : Dev :=
  let was := (queueOf d p q).frames.isEmpty
  let d := modQueue d p q fun x => { x with frames := x.frames ++ [f] }
  if was && 2 ≤ q then
    modEgress (modQueue d p q fun x => { x with deficit := 0, fresh := true }) p fun x => { x with active := addNew x.active q }
  else d

/-- What admission decides for one copy. -/
inductive Admit where
  | shared
  /-- into the headroom of the ingress port and priority -/
  | headroom
  | refuse
  | full
  deriving DecidableEq, Repr

/-- Buffer admission of `n` cells into a queue (R188, R189): `yellow` halves the limit; `key` is the lossless accounting key. After
XOFF a pair's frames go into its headroom until XON. -/
def admitJudge (d : Dev) (p q n : Nat) (yellow : Bool) (key : Option Nat) : Admit :=
  let f := sharedFree d
  let x := sharedTake d p q n
  match key with
  | none =>
    if x ≤ f && queueShared d p q + x ≤ alphaLimit (alphaOf d p q) f (if yellow then 2 else 1) then .shared else .refuse
  | some k =>
    if !d.swc.xoff.contains k && x ≤ f && ingressShared d k + x ≤ keyLimit d k then .shared
    else if tgetD d.swc.headroom k 0 + n ≤ keyHeadroom d k then .headroom
    else .full

/-- Send XOFF for a lossless pair unless it is XOFF already (R189). -/
def sendXoff (d : Dev) (k : Nat) : Dev :=
  if d.swc.xoff.contains k then d
  else sendPfc { d with swc.xoff := d.swc.xoff ++ [k] } (keyPort k) (keyPrio k) 0xFFFF

/-- Has the condition of a pair that is XOFF ended: its headroom is empty and its shared cells are at least 72 below the limit, or
it is lossless no more (R164, R189)? -/
def xoffOver (d : Dev) (k : Nat) : Bool :=
  losslessKey d (keyPort k) (keyPrio k % 8) != some k
    || (tgetD d.swc.headroom k 0 == 0 && decide (ingressShared d k + 72 ≤ keyLimit d k))

/-- Send XON for a pair whose condition has ended (R164, R189). -/
def sendXon (d : Dev) (k : Nat) : Dev :=
  if d.swc.xoff.contains k && xoffOver d k then
    sendPfc { d with swc.xoff := d.swc.xoff.filter (· != k) } (keyPort k) (keyPrio k) 0
  else d

/-- XON for every pair whose condition has ended (R164). -/
def xonAll (d : Dev) : Dev := d.swc.xoff.foldl sendXon d

/-- Put an admitted copy into its queue. -/
def placeCopy (d : Dev) (p q : Nat) (f : QFrame) (a : Admit) (key : Option Nat) : Dev :=
  match a, key with
  | .shared, _ => enqueue d p q f
  | .headroom, some k =>
    let d := { d with swc.headroom := tmod d.swc.headroom k 0 (· + f.cells) }
    enqueue { d with swc.store := tmod d.swc.store f.id {} fun s => { s with headroom := s.headroom + f.cells } } p q
      { f with inHead := true }
  | _, _ => d

/-- Count a drop at a port's counter and at the destination queue's DROPS (R199). -/
def dropAt (d : Dev) (p q i : Nat) : Dev := qDrop (swcCnt d p i) p q

/-- A watchdog DRAIN drop (R166, R199). -/
def dropDrain (d : Dev) (p q : Nat) : Dev := if p ≤ 32 then ethStat (dropAt d p q 9) p 56 else dropAt d p q 9

/-- Free one copy's cells: the last copy frees the stored frame and its headroom, and XON may follow (R189, R193). -/
def freeCopy (d : Dev) (f : QFrame) : Dev :=
  let s := tgetD d.swc.store f.id {}
  xonAll (if s.copies ≤ 1 then
      let d := { d with swc.store := tdel d.swc.store f.id }
      match s.key with
      | some k => { d with swc.headroom := tmod d.swc.headroom k 0 (· - s.headroom) }
      | none => d
    else { d with swc.store := tset d.swc.store f.id { s with copies := s.copies - 1 } })

/-- A queue that has become empty leaves the DWRR list (R196). -/
def leaveIfEmpty (d : Dev) (p q : Nat) : Dev :=
  if (queueOf d p q).frames.isEmpty then
    modEgress (modQueue d p q fun x => { x with deficit := 0 }) p fun x => { x with active := x.active.filter (· != q) }
  else d

/-- Discard the frames of a queue that `sel` selects, counting each at drop counter `i`. -/
def discardFrames (d : Dev) (p q i : Nat) (sel : QFrame → Bool) : Dev :=
  let gone := (queueOf d p q).frames.filter sel
  let d := modQueue d p q fun x => { x with frames := x.frames.filter fun f => !sel f }
  let d := gone.foldl (fun d f => freeCopy (if i == 9 then dropDrain d p q else dropAt d p q i) f) d
  leaveIfEmpty d p q

/-- The frame as it leaves egress port `p` under a VLAN entry: tagged or untagged (R200); PW always carries a tag (R175). -/
def retag (d : Dev) (p : Nat) (v : Option Nat) (vid prio : Nat) (f : Frame) : Frame :=
  withTag f <| if p == 32 then some (0, prio)
    else match v with
      | some v => if vlanUntag d v p then none else some (vid, prio)
      | none => f.tag

/-- Offer one copy to egress port `p` (R178 step 7): the link and the watchdog first, then the buffer. Returns whether it was
taken. -/
def offerCopy (d : Dev) (p : Nat) (f : QFrame) (yellow flooded : Bool) : Bool × Dev :=
  let q := tcQueue d p f.prio
  if p ≤ 32 && !(portOf d p).up && (portOf d p).holdDone then (false, dropAt d p q 7)
  else if draining d p f.prio then (false, dropDrain d p q)
  else
    let key := (tgetD d.swc.store f.id {}).key
    let a := admitJudge d p q f.cells yellow key
    let d := match a, key with
      | .headroom, some k | .full, some k => sendXoff d k
      | _, _ => d
    match a with
    | .refuse => (false, dropAt d p q (if flooded then 6 else if yellow then 5 else 4))
    | .full => (false, if flooded then dropAt d p q 6 else qDrop (swcCnt d f.src 2) p q)
    | a => (true, placeCopy d p q f a key)

/-- Store a frame as received and offer its copies in ascending port order; a copy is charged to its scheduler at its own length,
and a frame that no destination accepts is freed at once (R187, R193; DESIGN CHOICE, log entry 88). -/
def storeFrame (d : Dev) (f : QFrame) (ports : List (Nat × Frame)) (yellow flooded : Bool) : Dev :=
  let id := d.swc.nextId
  let d := { d with swc.nextId := id + 1,
                    swc.store := tset d.swc.store id
                      { cells := f.cells, copies := 0, src := f.src, prio := f.prio, key := losslessKey d f.src f.prio } }
  let d := ports.foldl (fun d pf =>
    let bytes := if f.super.isSome then f.bytes else pf.2.len
    let r := offerCopy d pf.1 { f with id, bytes, frame := pf.2, copy := flooded } yellow flooded
    if r.1 then { r.2 with swc.store := tmod r.2.swc.store id {} fun s => { s with copies := s.copies + 1 } } else r.2) d
  if (tgetD d.swc.store id {}).copies == 0 then { d with swc.store := tdel d.swc.store id } else d

/-! ### Policers (R198) -/

inductive Colour where
  | green | yellow | red
  deriving DecidableEq, Repr

/-- Profile of a policer: CIR, PIR, CBS, PBS (R200). -/
def policerProfile (d : Dev) (pol : Nat) : Nat × Nat × Nat × Nat :=
  let i := fld (swcReg d (0x4800 + 4 * (pol / 4))) (8 * (pol % 4)) 8
  let w := fun k => swcReg d (0x3800 + 16 * i + 4 * k)
  (fld (w 0) 0 21, fld (w 1) 0 21, fld (w 2) 0 24, fld (w 3) 0 24)

/-- Judge a frame of `b` bytes and charge the policer (R198); tokens in 1/1024 byte. -/
def policeJudge (d : Dev) (pol b : Nat) : Colour × Dev :=
  let (cir, pir, cbs, pbs) := policerProfile d pol
  let x := tgetD d.swc.police pol { tc := 1024 * cbs, tp := 1024 * pbs, time := d.time }
  let dt := d.time - x.time
  let tc := min (1024 * cbs) (x.tc + cir * 1024 * dt / 8000)
  let tp := min (1024 * pbs) (x.tp + pir * 1024 * dt / 8000)
  let put := fun tc tp => { d with swc.police := tset d.swc.police pol { tc, tp, time := d.time } }
  if tp < 1024 * b then (.red, put tc tp)
  else if tc < 1024 * b then (.yellow, put tc (tp - 1024 * b))
  else (.green, put (tc - 1024 * b) (tp - 1024 * b))

/-- The policer of (ingress port, priority), when enabled (R198). -/
def policerOf (d : Dev) (p r vid : Nat) : Option Nat :=
  let w := swcReg d (0x700 + 0x20 * p + 4 * r)
  match fld w 30 2 with
  | 1 => some (fld w 0 12)
  | 2 => some vid
  | _ => none

/-! ### Mirror sessions (R194, R195) -/

/-- Does a session select a frame seen at port `p`, received (`inbound`) or sent (R194)? -/
def mirrorSelects (d : Dev) (s p vid : Nat) (inbound : Bool) (f : Frame) : Bool :=
  let w := fun k => swcReg d (0x3400 + 0x20 * s + 4 * k)
  let port := if p < 32 then bitAt (w 1) p else bitAt (w 2) (p - 32)
  let l4 := (f.ip.filter fun h => h.proto == 6 || h.proto == 17).map (·.dport)
  bitAt (w 0) 0 && bitAt (w 0) (if inbound then 1 else 2) && port &&
    (!bitAt (w 0) 3 ||
      ((!bitAt (w 3) 15 || fld (w 3) 0 12 == vid)
        && (!bitAt (w 3) 31 || f.ip.any fun h => h.proto == fld (w 3) 16 8)
        && (!bitAt (w 4) 16 || l4 == some (fld (w 4) 0 16))
        && (!bitAt (w 4) 23 || f.ip.any fun h => h.dscp == fld (w 4) 17 6)))

/-- Copy a selected frame: one in SAMPLE + 1 by the session's LFSR, truncated with a recomputed FCS, as a lossy green frame into
DEST_QUEUE of DEST_PORT (R194, R195). The LFSR's draw and its next value are free values. A copy has no priority of its own: to the
pause watchdog it is one of priority 0 (R166; DESIGN CHOICE, log entry 85). -/
def mirrorOne (s p vid : Nat) (inbound : Bool) (f : Frame) (d : Dev) : Dev :=
  if !mirrorSelects d s p vid inbound f then d
  else
    let w0 := swcReg d (0x3400 + 0x20 * s)
    let (n, d) := draw d
    let d := { d with swc.lfsr := tset d.swc.lfsr s ((Config.free64 n).setWidth 32) }
    if fld w0 16 16 != 0 && !Config.freeBool n then d
    else
      let trunc := match fld w0 4 2 with | 1 => 128 | 2 => 256 | _ => 0
      let dp := fld w0 6 6
      let f := retag d dp none vid 0 { f with len := if trunc != 0 && trunc < f.len then trunc + 4 else f.len }
      let len := f.len
      let q := fld w0 12 4
      let cells := cellsOf len
      if draining d dp 0 then dropDrain d dp q
      else match if swPortExists d dp && !(dp ≤ 32 && !(portOf d dp).up && (portOf d dp).holdDone)
            then admitJudge d dp q cells false none else .refuse with
      | .shared =>
        let id := d.swc.nextId
        let d := { d with swc.nextId := id + 1,
                          swc.store := tset d.swc.store id { cells, copies := 1, src := 64, prio := 0 } }
        enqueue d dp q { id, bytes := len, cells, src := 64, time := d.time, frame := f, mirrored := true }
      | _ => dropAt d dp q 10

/-- Evaluate every mirror session for a frame. -/
def mirrorAll (d : Dev) (p vid : Nat) (inbound : Bool) (f : Frame) : Dev :=
  (List.range 4).foldl (fun d s => mirrorOne s p vid inbound f d) d

/-! ### Learning (R181) -/

def fdbFind (d : Dev) (vid addr : Nat) : Option FdbEnt := d.swc.fdb.find? fun e => e.vid == vid && e.addr == addr

/-- Learn (VID, source address) against the ingress port or its LAG group (R178 step 5, R181). -/
def learn (d : Dev) (p vid addr : Nat) : Dev :=
  if isMulticast addr || !bitAt (liveN d (0x200040 + 4 * p)) 16 then d
  else
    let port := match lagOf d p with | some g => 64 + g | none => p
    if (fdbFind d vid addr).isSome then
      { d with swc.fdb := d.swc.fdb.map fun e =>
          if e.vid == vid && e.addr == addr then { e with port, via := p, seen := d.time } else e }
    else if d.swc.fdb.length ≥ 32768 then swcCnt d p 12
    else { d with swc.fdb := d.swc.fdb ++ [{ vid, addr, port, via := p, seen := d.time }] }

/-- Remove the entries of a port, those learned on it against its LAG group included (R181). -/
def fdbDropPort (d : Dev) (p : Nat) : Dev := { d with swc.fdb := d.swc.fdb.filter (·.via != p) }

/-- A group 0 commit removes the entries whose port is no longer a member of the VLAN (R181). -/
def fdbCheckVlans (d : Dev) : Dev :=
  { d with swc.fdb := d.swc.fdb.filter fun e => (match vlanEntry d e.vid with
      | some v => vlanMember d v e.via | none => false) }

/-! ### Super-frames (R168) -/

/-- Frame bytes and cells of a super-frame: the sum over its segments (R168, R187). -/
def superBytes (f : Frame) (s : Super) : Nat := sumOf ((List.range (segCount s)).map (segBytes f s))
def superCells (f : Frame) (s : Super) : Nat := sumOf ((List.range (segCount s)).map fun i => cellsOf (segBytes f s i))

/-! ### Egress scheduling (R196, R197) -/

/-- Tokens of a shaper brought up to now, in 1/1024 byte: RATE_MBPS up to BURST (R197). -/
def tokensNow (d : Dev) (rate burst : Nat) (t : Int) (at_ : Nat) : Int :=
  min (1024 * (burst : Int)) (t + (rate * 1024 * (d.time - at_) / 8000 : Nat))

def qRate (d : Dev) (p q : Nat) : Nat := fld (schReg d (0x1000 + 0x80 * p + 8 * q)) 0 21
def qBurst (d : Dev) (p q : Nat) : Nat := fld (schReg d (0x1004 + 0x80 * p + 8 * q)) 0 24
def pRate (d : Dev) (p : Nat) : Nat := fld (schReg d (0x2400 + 8 * p)) 0 21
def pBurst (d : Dev) (p : Nat) : Nat := fld (schReg d (0x2404 + 8 * p)) 0 24
def quantumOf (d : Dev) (p q : Nat) : Nat := fld (schReg d (0x40 * p + 4 * q)) 0 21

def queueTokens (d : Dev) (p q : Nat) : Int :=
  tokensNow d (qRate d p q) (qBurst d p q) (queueOf d p q).tokens (queueOf d p q).tokensAt
def portTokens (d : Dev) (p : Nat) : Int :=
  tokensNow d (pRate d p) (pBurst d p) (egressOf d p).tokens (egressOf d p).tokensAt

/-- shaper_ok (R196). -/
def shaperOk (d : Dev) (p q : Nat) : Bool := qRate d p q == 0 || decide (0 ≤ queueTokens d p q)

/-- A queue is ready when it holds a frame and is not halted (R196). -/
def queueReady (d : Dev) (p q : Nat) : Bool := !(queueOf d p q).frames.isEmpty && !(p ≤ 32 && queueHalted d p q)

/-- dwrr_pick over the DWRR list (R196); `skipped` counts the entries passed over since the last visit. -/
def dwrrPick (d : Dev) (p : Nat) : Nat → Nat → Option Nat × Dev
  | 0, _ => (none, d)
  | fuel + 1, skipped =>
    let l := (egressOf d p).active
    match l with
    | [] => (none, d)
    | q :: rest =>
      if l.length ≤ skipped then (none, d)
      else
        let rot := fun (d : Dev) => modEgress d p fun x => { x with active := rest ++ [q] }
        if !queueReady d p q || !shaperOk d p q then dwrrPick (rot d) p fuel (skipped + 1)
        else
          let d := if (queueOf d p q).fresh then
              modQueue d p q fun x => { x with deficit := x.deficit + quantumOf d p q, fresh := false } else d
          let n := ((queueOf d p q).frames.head?.map (·.bytes)).getD 0
          if n ≤ (queueOf d p q).deficit then (some q, modQueue d p q fun x => { x with deficit := x.deficit - n })
          else dwrrPick (rot (modQueue d p q fun x => { x with fresh := true })) p fuel 0

/-- pick (R196): a bound on the visits is enough for one frame of any size at the least quantum. -/
def pickQueue (d : Dev) (p : Nat) : Option Nat × Dev :=
  if !portUp d p then (none, d)
  else if queueReady d p 0 then (some 0, d)
  else if pRate d p != 0 && decide (portTokens d p < 0) then (none, d)
  else if queueReady d p 1 && shaperOk d p 1 then (some 1, d)
  else dwrrPick d p 32768 0

/-- On frame start: port and queue tokens pay its bytes, Q0's queue none (R196). -/
def payTokens (d : Dev) (p q n : Nat) : Dev :=
  let pt := portTokens d p - 1024 * (n : Int)
  let qt := queueTokens d p q - 1024 * (n : Int)
  let d := modEgress d p fun x => { x with tokens := pt, tokensAt := d.time }
  if q == 0 then d else modQueue d p q fun x => { x with tokens := qt, tokensAt := d.time }

/-- Emit what is on the wire: a frame, or the next segment of a super-frame; egress mirror copies are taken as sent (R194). -/
def startWire (d : Dev) (p : Nat) (t : Tx) : Dev :=
  let d := match t.f.super with
    | some s => emit d (.segment p t.seg (segFrame t.f.frame s t.seg) (segPkt s t.seg) (segWire t.f.frame s t.seg))
    | none => emit d (.frame p t.f)
  if t.f.mirrored || p > 35 then d
  else
    let vid := (t.f.frame.tag.map (·.1)).getD 0
    let f := match t.f.super with
      | some s => segFrame t.f.frame s t.seg
      | none => t.f.frame
    mirrorAll d p vid false f

/-- The head frame of a queue goes on the wire. -/
def startFrom (d : Dev) (p q : Nat) : Dev :=
  match (queueOf d p q).frames with
  | [] => d
  | f :: rest =>
    let d := modQueue d p q fun x => { x with frames := rest }
    let t : Tx := { q, f, seg := f.seg, time := d.time }
    let d := payTokens (modEgress d p fun x => { x with tx := some t }) p q f.bytes
    startWire (leaveIfEmpty d p q) p t

/-- Discard the aged frames at the head of a queue (R192). -/
def ageHeads (d : Dev) (p q : Nat) : Dev :=
  let old := (queueOf d p q).frames.takeWhile fun f => f.time + 10000000 < d.time
  if old.isEmpty then d
  else
    let d := modQueue d p q fun x => { x with frames := x.frames.drop old.length }
    leaveIfEmpty (old.foldl (fun d f => freeCopy (dropAt d p q 8) f) d) p q

/-- The smaller statistics of a sent frame: count, bytes, kind, stomp (R177). -/
def txStats (d : Dev) (p : Nat) (f : QFrame) (bytes : Nat) : Dev :=
  if p > 32 then d
  else
    let d := ethStatN (ethStat d p 30) p 31 bytes
    let d := ethStat d p (if isBroadcast f.frame.dst then 34 else if isMulticast f.frame.dst then 33 else 32)
    if f.stomp then ethStat d p 44 else d

/-- Segments of a super-frame that are not started any more: each counts in TX_SEG_ABORT and in the queue's DROPS (R171, R199). -/
def abortSegs (d : Dev) (p q n : Nat) : Dev := countN (ethStatN d p 47 n) (0x213008 + 0x100 * p + 16 * q) n

/-- The link of an egress port goes down: the segments of a super-frame not yet started are lost, those of one set aside between two
segments included (R171); what is on the wire is lost as a frame of a link that is down (R199; DEDUCED, log entry 92). -/
def abortTx (d : Dev) (p : Nat) : Dev :=
  let d := match (egressOf d p).tx with
    | none => d
    | some t =>
      let d := modEgress d p fun x => { x with tx := none }
      let d := if t.sending then dropAt d p t.q 7 else d
      let d := match t.f.super with
        | some s => abortSegs d p t.q (segCount s - (t.seg + if t.sending then 1 else 0))
        | none => d
      freeCopy d t.f
  (List.range 16).foldl (fun d q =>
    let part := fun (f : QFrame) => f.super.isSome && f.seg != 0
    let gone := (queueOf d p q).frames.filter part
    if gone.isEmpty then d
    else
      let d := modQueue d p q fun x => { x with frames := x.frames.filter fun f => !part f }
      leaveIfEmpty (gone.foldl (fun d f =>
        freeCopy (abortSegs d p q ((f.super.map segCount).getD 0 - f.seg)) f) d) p q) d

/-- Step 3b of R191: every frame queued for the port is discarded as DROP_LINKDOWN and its FDB entries are removed. -/
def holdExpired (d : Dev) (p : Nat) : Dev :=
  let d := (List.range 16).foldl (fun d q => discardFrames d p q 7 fun _ => true) d
  fdbDropPort (modPort d p fun x => { x with holdDone := true }) p

/-- A port's link is lost (R171, R191); with LINK_HOLD 0, step 3b follows at once. -/
def portDown (d : Dev) (p : Nat) : Dev :=
  let d := abortTx (linkLost d p) p
  if linkHold d p == 0 then holdExpired d p else d

/-- Restart a port's bring-up, as a retrain or not (R158, R162). -/
def restartPort (d : Dev) (p : Nat) (retrain : Bool) : Dev :=
  let d := if (portOf d p).up then portDown d p else d
  startAttempt (modPort d p fun x => { x with retrain, attempt := none }) p

/-- The logical port of macro `m` that holds lane `l` in its current form. -/
def portOfLane (d : Dev) (m l : Nat) : Option Nat :=
  if m ≥ 8 then (if (portOf d 32).lanes.contains l then some 32 else none)
  else (List.range 4).map (4 * m + ·) |>.find? fun p => swPortExists d p && (portOf d p).lanes.contains l

/-- The logical port of macro `m` planned on lane `l`. -/
def portPlannedOn (d : Dev) (m l : Nat) : Option Nat :=
  if m ≥ 8 then (if d.pln.plan.pwEn then some 32 else none)
  else (List.range 4).map (4 * m + ·) |>.find? fun p => swPortExists d p && (plannedLanes d p).contains l

/-- RESTORE of lane `l` (R162): its retirement and failure count clear, the IDLE lanes of its port become usable, and the port
comes up again at its planned form. -/
def restoreLane (d : Dev) (m l : Nat) : Dev :=
  let d := modLane d m l fun x => { x with retired := false, fails := [], idle := false }
  match portPlannedOn d m l with
  | none => d
  | some p =>
    let d := (plannedLanes d p).foldl (fun d k => modLane d m k fun x => { x with idle := false }) d
    let d := if (portOf d p).up then portDown d p else d
    let d := modPort d p fun x => { x with lanes := plannedLanes d p, reformed := false, attempt := none, retrain := false }
    startAttempt d p

/-- ETH_LANE_CTRL: RESTORE bits [3:0], RETRAIN bits [7:4] (R158, R162, R176). -/
def laneCtrl (d : Dev) (m : Nat) (v : Word) : Dev :=
  let d := (List.range 4).foldl (fun d l => if bitAt v.toNat l then restoreLane d m l else d) d
  let ports := ((List.range 4).filter fun l => bitAt v.toNat (4 + l)).filterMap (portOfLane d m)
  ports.eraseDups.foldl (fun d p => restartPort d p true) d

/-- SWC_FDB_FLUSH (R181, R200). -/
def fdbFlush (d : Dev) (v : Word) : Dev :=
  if bitAt v.toNat 0 then { d with swc.fdb := [] }
  else if bitAt v.toNat 1 then fdbDropPort d (fld v.toNat 2 6)
  else d

/-- The read of ETH_PTP_TS_LO: the oldest timestamp leaves the FIFO, its high word and id are latched (R176). -/
def ptpRead (d : Dev) (m : Nat) : Word × Dev :=
  match tgetD d.eth.ptp m [] with
  | [] => (0, { d with eth.ptpLatch := tset d.eth.ptpLatch m (0, 0) })
  | t :: rest =>
    let id := t.seqId % 65536 + (t.port <<< 16) + 0x80000000
    (BitVec.ofNat 32 t.time,
     { d with eth.ptp := tset d.eth.ptp m rest,
              eth.ptpLatch := tset d.eth.ptpLatch m (BitVec.ofNat 32 (t.time / 2 ^ 32), BitVec.ofNat 32 id) })

/-- A transmit timestamp enters the macro's FIFO of 16, or counts in PTP_TS_OVERFLOW (R173, R174). -/
def ptpPush (d : Dev) (p seqId time : Nat) : Dev :=
  let m := macroOf p
  let l := tgetD d.eth.ptp m []
  if l.length ≥ 16 then ethStat d p 60
  else ethStat { d with eth.ptp := tset d.eth.ptp m (l ++ [{ time, seqId, port := subOf p }]) } p 59

end Sys2Proof.Machine
end

