-- ==== Sys2Proof/Machine/Mirror.lean ====
section
/-! DEFINITION. Frames to the partner and the mirror: items sent while PAIRED, what waits for their acknowledgement (R417 to R420). -/

namespace Sys2Proof.Machine

/-- Is the device PAIRED, so that its changes are mirrored (R417, R420)? -/
def paired (d : Dev) : Bool := d.par.st == .paired

/-- Is PW up (R175, R419)? -/
def pwUp (d : Dev) : Bool := (portOf d 32).up

/-- Is the device in a pair that exchanges items? -/
def inPair (d : Dev) : Bool := (d.par.st == .syncing || d.par.st == .paired) && !d.par.lost

/-! ### Pair frames (R421) -/

/-- TYPE of a pair frame. -/
def PairMsg.type : PairMsg → Nat
  | .heartbeat _ => 1
  | .health _ => 2
  | .partnerHalted => 3
  | .powerFail => 4
  | .join .. => 5
  | .handover .. => 6
  | .mirror .. | .key .. => 0x10
  | .mirrorAck _ => 0x11

/-- The 16 header bytes of a pair frame. -/
def pairHead (d : Dev) (type seq : Nat) : List Byte :=
  [1, BitVec.ofNat 8 type, BitVec.ofNat 8 (b2n d.glb.side), BitVec.ofNat 8 (stCode d.glb.st)] ++ be 4 seq ++ be 8 d.time

/-- SEQ of the next frame of a type on a path. -/
def pairSeq (d : Dev) (type : Nat) (pathB : Bool) : Nat := tgetD d.par.txSeq (2 * type + b2n pathB) 0

/-- The tag of a pair frame: on PW VID 0 with priority 7 for heartbeats and health reports and 6 for the rest; on path B the heartbeat
VLAN and its priority (R175, R422). -/
def pairTci (d : Dev) (pathB : Bool) (type : Nat) : Half :=
  if pathB then BitVec.ofNat 16 (d.pln.plan.hbPrio * 8192 + d.pln.plan.hbVlan) else if type == 1 || type == 2 then 0xE000 else 0xC000

/-- Destination: on PW the partner's station address of port 32 once a join has told it, else the pair group address. -/
def pairDst (d : Dev) (pathB : Bool) : Nat :=
  if pathB || d.par.partnerAddr == 0 then d.pln.plan.pairGroup else d.par.partnerAddr + 32

/-- The ports of a path that are up: PW, or those that the PAIR section lists for path B. -/
def pathPorts (d : Dev) (pathB : Bool) : List Nat := if pathB then d.pln.plan.hbPorts.filter (portUp d) else if pwUp d then [32] else []

/-- Is a path up, so that frames can leave on it? -/
def pathLive (d : Dev) (pathB : Bool) : Bool := !(pathPorts d pathB).isEmpty

/-- Send a pair frame on every port of a path; each path has its own SEQ for each type. -/
def pairOn (d : Dev) (pathB : Bool) (m : PairMsg) : Dev :=
  let ports := pathPorts d pathB
  if ports.isEmpty then d
  else
    let seq := pairSeq d m.type pathB
    let f : PairFrame := { dst := pairDst d pathB, tci := pairTci d pathB m.type, head := pairHead d m.type seq }
    emits { d with par.txSeq := tset d.par.txSeq (2 * m.type + b2n pathB) ((seq + 1) % 2 ^ 32) }
      (ports.map fun p => .pair { f with port := p } m)

/-- Send a pair frame on PW, or on path B while PW is down (R419, R426). -/
def pairSend (d : Dev) (m : PairMsg) : Dev := pairOn d (!pwUp d) m

/-- Send a pair frame on every path (R431). -/
def pairAll (d : Dev) (m : PairMsg) : Dev := pairOn (pairOn d false m) true m

/-! ### Mirror items -/

/-- Can a frame leave on either path? -/
def anyPath (d : Dev) : Bool := pathLive d false || pathLive d true

/-- Queue a mirror item: while PAIRED it is sent at once and `act` waits for its acknowledgement; while SYNCING it is sent behind
the snapshot and gates nothing (R417, R420, R440); otherwise nothing is kept. -/
def mirrorQueue (d : Dev) (item : MirrorItem) (a : OnAck) : Dev :=
  if paired d then
    let m : Mirrored := { mseq := d.par.nextMseq, item, act := a, sentAt := d.time, pathB := !pwUp d, left := anyPath d }
    let d := { d with par.items := d.par.items ++ [m], par.nextMseq := d.par.nextMseq + 1 }
    if d.par.lost then d else count (pairSend d (.mirror m.mseq item)) 0x900140
  else if d.par.st == .syncing then
    let m : Mirrored := { mseq := d.par.nextMseq, item, sentAt := d.time, pathB := !pwUp d, left := anyPath d }
    let d := { d with par.items := d.par.items ++ [m], par.nextMseq := d.par.nextMseq + 1 }
    if d.par.lost then d else count (pairSend d (.mirror m.mseq item)) 0x900140
  else d

/-- Items that PW has not had acknowledged go again on path B (R419). -/
def resendB (d : Dev) : Dev :=
  if d.par.lost || !pathLive d true then d
  else
    let goes := fun (i : Mirrored) => !i.pathB || !i.left
    let d := (d.par.items.filter goes).foldl (fun (d : Dev) i => count (pairOn d true (.mirror i.mseq i.item)) 0x900148) d
    { d with par.items := d.par.items.map fun i => if goes i then { i with pathB := true, left := true, sentAt := d.time } else i }

/-- Items that found no path up leave on PW, which is up again. -/
def sendLeft (d : Dev) : Dev :=
  if d.par.lost || !pwUp d then d
  else
    let d := (d.par.items.filter fun i => !i.left).foldl (fun (d : Dev) i => pairOn d false (.mirror i.mseq i.item)) d
    { d with par.items := d.par.items.map fun i => if i.left then i else { i with pathB := false, left := true, sentAt := d.time } }

/-- Key page items go, and go again, on PW while it is up (R419). -/
def sendKeys (d : Dev) : Dev :=
  if d.par.lost then d else d.par.keyItems.foldl (fun (d : Dev) k => pairOn d false (.key k.page k.key)) d

/-- Does a write of a drive wait: for a mirror item that has not left an UP path (R418), or in a take-over until the partner's key is
preempted there (R430)? -/
def writeWaits (d : Dev) (key : Nat) : Bool :=
  (paired d && !d.par.lost && d.par.items.any fun i => !i.left)
    || (d.glb.st != .train && (d.par.step == .arbitrate || (d.par.step == .fence && (tget d.sto.drives key).any (·.fencing))))

/-- Mirror an item whose acknowledgement nothing waits for. -/
def mirror (d : Dev) (item : MirrorItem) : Dev := mirrorQueue d item .nothing

/-- Mirror an item; what `a` names waits for its acknowledgement while PAIRED, and `now` is done at once otherwise (R418). -/
def mirrorThen (d : Dev) (item : MirrorItem) (a : OnAck) (now : Dev → Dev) : Dev :=
  if paired d then mirrorQueue d item a else now (mirror d item)

/-- MSEQ that the next item takes. -/
def nextMseq (d : Dev) : Option Nat := if paired d then some d.par.nextMseq else none

/-- Has the partner acknowledged the item of this MSEQ (R419)? -/
def mseqAcked (d : Dev) (m : Option Nat) : Bool := m.all fun n => !d.par.items.any (·.mseq == n)

/-- Is admission held for the mirror: too many items unacknowledged, or too little room at the partner by its health report (R420,
R426)? -/
def mirrorHolds (d : Dev) : Bool :=
  paired d && (d.par.items.length > 4096 || d.par.health.any fun h => h.1.mirrorFree.toNat < 16)

end Sys2Proof.Machine
end

