-- ==== Sys2Proof/Machine/Relay.lean ====
section
/-! DEFINITION. Where a frame goes: the device's own traffic, the viaduct relay table, flooding and the forwarding database
(R179, R182, R183, R447 to R450). -/

namespace Sys2Proof.Machine

/-- Index and generation of a DST_CONN (R208, R448): index in [31:8], of which [19:14] is the pier on a viaduct. -/
def connIdx (w : Word) : Nat := fld w.toNat 8 24
def connGen (w : Word) : Nat := fld w.toNat 0 8

/-- Own pier number and the VIADUCT section, where the plan has one (R446). -/
def viaPlan (d : Dev) : Option ViaPlan := if d.pln.plan.pier == 255 then none else d.pln.plan.viaduct

/-- This pier's own inner address (R446). -/
def ownInner (d : Dev) (ip : Nat) : Bool := (viaPlan d).any fun v => (v.piers[d.pln.plan.pier]?).any (·.1 == ip)

/-- Is an IP destination this device's own: a shelf address of a role it holds (R411), one it has adopted (R432), or its inner address
(R446)? -/
def ownIp (d : Dev) (ip : Nat) : Bool :=
  (d.par.roleA == d.glb.side && d.pln.plan.shelfA.contains ip) || (d.par.roleB == d.glb.side && d.pln.plan.shelfB.contains ip)
    || d.par.adopted.contains ip || ownInner d ip

def isEndpoint (d : Dev) (ip : Nat) : Bool := (viaPlan d).any fun v => v.endpoints.contains ip

/-- The pier whose inner address an IP is (R449). -/
def innerPier (d : Dev) (ip : Nat) : Option Nat :=
  (viaPlan d).bind fun v => (List.range 64).find? fun n => (v.piers[n]?).any fun t => t.1 == ip && n != d.pln.plan.pier

def pierUp (d : Dev) (n : Nat) : Bool := bitAt d.via.up.toNat n

/-- Where step 6 sends a frame. -/
inductive Dest where
  | none | pair
  | local (p : Nat)
  | relayTo (pier : Nat)
  | noRoute
  | flood (v : Nat)
  | port (p : Nat)
  deriving DecidableEq, Repr

/-- Port 33 or 34 by bit 0 of the connection index; CONNECT goes to 33 (R22). -/
def trsPort (op : Nat) (conn : Word) : Nat := if op == 10 then 33 else 33 + connIdx conn % 2

/-- The relay table's decision for a Trestle frame to an endpoint address (R449). -/
def relayDecide (d : Dev) (op : Nat) (conn : Word) : Dest :=
  let own := d.pln.plan.pier
  let g := fld (connIdx conn) 14 6
  if op == 10 then
    if d.via.gate && d.glb.st == .service then .local 33
    else match (List.range 64).find? fun n => n != own && pierUp d n && bitAt d.via.gates.toNat n with
      | some n => .relayTo n
      | none => .noRoute
  else if g == own then .local (trsPort op conn)
  else if pierUp d g then .relayTo g
  else if pierUp d (g ^^^ 1) then .relayTo (g ^^^ 1)
  else .noRoute

/-- Is a frame a Trestle frame by its UDP destination port (R179)? -/
def isTrestle (d : Dev) (h : IpHdr) : Bool := h.proto == 17 && h.dport == d.pln.plan.udpPort

/-- Destination of a frame to one of the device's station addresses (R179 item 1). -/
def stationDest (d : Dev) (f : Frame) : Dest :=
  if f.etype == 0x88B5 then .pair
  else match f.ip with
    | some h =>
      if ownIp d h.dst then .local (if isTrestle d h then trsPort h.trOp h.trConn else 35)
      else if isTrestle d h && isEndpoint d h.dst then relayDecide d h.trOp h.trConn
      else match innerPier d h.dst with
        | some n => .relayTo n
        | none => .local 35
    | none => .local 35

/-- Destination of a received frame (R179 items 1 to 4, R182). -/
def destOf (d : Dev) (p : Nat) (v : Nat) (vid : Nat) (f : Frame) : Dest :=
  if isStation d f.dst then stationDest d f
  else if isMulticast f.dst then .flood v
  else match fdbFind d vid f.dst with
    | some e =>
      if e.port ≥ 64 then
        match groupPick d (e.port - 64) f vid with
        | some w => if fld w 0 6 == p then .none else .port (fld w 0 6)
        | none => .none
      else if e.port == p || !swPortExists d e.port then .none
      else .port e.port
    | none => if bitAt (swcReg d (0x1800 + 16 * v)) 30 then .none else .flood v

/-- Members of a flood set (R179 item 2, R182). -/
def floodPorts (d : Dev) (p v : Nat) : List Nat :=
  (List.range 36).filter fun k =>
    swPortExists d k && k != p && (vlanMember d v k || (k == 35 && bitAt (swcReg d (0x1800 + 16 * v)) 29))
      && !(List.range 32).any fun g => inLag d g p && inLag d g k

/-- Mbit/s of a switch port (R20). -/
def egressRate (d : Dev) (k : Nat) : Nat := if k ≤ 32 then portRate d k else if k == 35 then 100000 else 1600000

/-- Does a unicast frame cut through to port `k` (R183)? A port is halted while any pause instance of it is held (DEDUCED, log entry 90). -/
def cutsThrough (d : Dev) (p k : Nat) (prio : Nat) : Bool :=
  let q := tcQueue d k prio
  bitAt (liveN d (0x200040 + 4 * p)) 15 && egressRate d k ≤ portRate d p && (queueOf d k q).frames.isEmpty
    && (egressOf d k).tx.isNone && portUp d k
    && !(portOf d k).pwd.any (fun e => e.2.st == .held)
    && shaperOk d k q && (pRate d k == 0 || decide (0 ≤ portTokens d k))

/-- Deliver a unicast frame to one port, cutting through where R183 allows it. -/
def deliverUnicast (d : Dev) (p k vid prio : Nat) (v : Option Nat) (f : Frame) (yellow stomp : Bool) : Dev :=
  let cut := cutsThrough d p k prio
  if stomp && !cut then d
  else
    let out := retag d k v vid prio f
    let qf : QFrame := { bytes := out.len, cells := cellsOf f.len, src := p, prio, time := d.time, frame := out, cut, stomp }
    let d := storeFrame d qf [(k, out)] yellow false
    if cut && !(queueOf d k (tcQueue d k prio)).frames.isEmpty then startFrom (swcCnt d k 13) k (tcQueue d k prio) else d

/-- VIA_ROUTE word `w` of a pier (R465). -/
def viaRoute (d : Dev) (n w : Nat) : Nat := liveN d (0xA00100 + 16 * n + 4 * w)

/-- Port, next-hop address and VID of the route to a pier; an ECMP member's neighbour takes the place of the route's own (R185,
R450, R465). A route never leads to an absent port or back to the ingress port (R21, R182). -/
def relayHop (d : Dev) (p n : Nat) (f : Frame) : Option (Nat × Nat × Nat) :=
  let w2 := viaRoute d n 2
  let vid := fld (viaRoute d n 1) 16 12
  let na := viaRoute d n 0 + (fld (viaRoute d n 1) 0 16 <<< 32)
  let hop := if bitAt w2 6 then
      (groupPick d (fld w2 0 5) f vid).map fun w => (fld w 0 6, (memberHop d (fld w2 0 5) w).getD (na, vid))
    else some (fld w2 0 6, na, vid)
  hop.filter fun h => swPortExists d h.1 && h.1 != p

/-- The IPv4 header checksum after the TTL has fallen by 1, updated incrementally (R450; RFC 1624). -/
def ttlChecksum (ck : Half) (ttl proto : Nat) : Half :=
  let m := ttl * 256 + proto
  let n := (65535 - ck.toNat) + (65535 - m) + (m - 256)
  let n := n % 65536 + n / 65536
  BitVec.ofNat 16 (65535 - (n % 65536 + n / 65536))

/-- The header of a relayed datagram (R450). -/
def relayHdr (h : IpHdr) : IpHdr := { h with ttl := h.ttl - 1, hdrCk := if h.v6 then h.hdrCk else ttlChecksum h.hdrCk h.ttl h.proto }

/-- Relay a frame to a pier (R450): next hop, station source address, VID, TTL and header checksum are rewritten; a TTL of 1 or 0, or a route
that is not VALID, ends it. -/
def relayFrame (d : Dev) (p n prio : Nat) (f : Frame) (yellow stomp : Bool) : Dev :=
  match f.ip with
  | none => d
  | some h =>
    if !bitAt (viaRoute d n 2) 31 then count d 0xA00808
    else if h.ttl ≤ 1 then count d 0xA00810
    else match relayHop d p n f with
      | none => swcCnt d p 3
      | some (k, na, vid) =>
        let f := { f with dst := na, src := stationBase + k, tag := some (vid, prio),
                          len := (withTag f (some (vid, prio))).len, ip := some (relayHdr h) }
        let d := count (emit d (.relay n f)) 0xA00800
        deliverUnicast d p k vid prio none f yellow stomp

/-- Steps 6 and 7 of the lookup (R178, R179); an IP fragment to the Trestle port counts in MALFORMED_DROP (R203). -/
def forward (d : Dev) (p v vid prio : Nat) (f : Frame) (yellow stomp : Bool) : Dev :=
  match destOf d p v vid f with
  | .none => swcCnt d p 3
  | .noRoute => count d 0xA00808
  | .pair => emit d (.toPair f)
  | .local k =>
    if k != 35 && f.ip.any (·.frag) then count d 0x300148
    else
      let d := match f.ptp with
        | some sq => if k == 35 then ethStat (emit d (.ptpRx p sq d.time)) p 58 else d
        | none => d
      deliverUnicast d p k vid prio (some v) f yellow stomp
  | .port k => deliverUnicast d p k vid prio (some v) f yellow stomp
  | .relayTo n => relayFrame d p n prio f yellow stomp
  | .flood v =>
    let ports := (floodPorts d p v).map fun k => (k, retag d k (some v) vid prio f)
    if ports.isEmpty then swcCnt d p 3
    else storeFrame d { bytes := f.len, cells := cellsOf f.len, src := p, prio, time := d.time, frame := f } ports yellow true

/-- Receive statistics index of a frame size (R177). -/
def sizeIndex (n : Nat) : Nat :=
  if n ≤ 64 then 0 else if n ≤ 127 then 1 else if n ≤ 255 then 2 else if n ≤ 511 then 3 else if n ≤ 1023 then 4
  else if n ≤ 1518 then 5 else if n ≤ 2047 then 6 else if n ≤ 4095 then 7 else if n ≤ 8191 then 8 else 9

/-- Is a frame to a station address one that the viaduct relays (R449)? -/
def isRelayed (d : Dev) (f : Frame) : Bool :=
  match stationDest d f with
  | .relayTo _ | .noRoute => true
  | _ => false

/-- Does a frame addressed to the device pass the checksum checks (R172)? Relayed frames are not checked, and the UDP checksum of a
fragment cannot be. -/
def l3l4Ok (d : Dev) (f : Frame) : Bool :=
  !isStation d f.dst || isRelayed d f || (match f.ip with
    | some h => (h.v6 || h.hdrCkOk) && (h.proto != 17 || h.frag || h.udpCk == 1 || (h.udpCk == 2 && !h.v6))
    | none => true)

/-- Steps 2 to 7 of the lookup for an accepted frame (R178). -/
def lookup (d : Dev) (p : Nat) (f : Frame) (stomp : Bool) : Dev :=
  let (vid, prio) := frameVlan d p f
  let d := mirrorAll d p vid true f
  match vlanEntry d vid with
  | none => swcCnt d p 0
  | some v =>
    if !vlanMember d v p then swcCnt d p 0
    else
      let (col, d) := match policerOf d p prio vid with
        | some pol => policeJudge d pol f.len
        | none => (.green, d)
      if col == .red then swcCnt d p 1
      else
        let d := if stomp then d else learn d p vid f.src
        forward d p v vid prio f (col == .yellow) stomp

/-- The statistics of a frame's receive errors, each that it has (R154, R177). -/
def rxErrors (d : Dev) (p : Nat) (f : Frame) : List Nat :=
  (if f.len < 64 then [16] else []) ++ (if maxFrameOf d p < f.len then [17] else []) ++ (if f.fcsOk then [] else [15])
    ++ (if f.pcsOk then [] else [18])

/-- Would a frame be leaving cut-through before its end has arrived (R183)? -/
def leaving (d : Dev) (p : Nat) (f : Frame) : Bool :=
  let (vid, prio) := frameVlan d p f
  match vlanEntry d vid with
  | none => false
  | some v => match destOf d p v vid f with
    | .port k | .local k => cutsThrough d p k prio
    | .relayTo n => (relayHop d p n f).any fun h => cutsThrough d p h.1 prio
    | _ => false

/-- MAC acceptance (R154, R172) and the lookup. A frame may already be leaving cut-through when its receive error is found (R154):
whether it is, is a free value; it is then sent with its FCS inverted. -/
def ingress (d : Dev) (p : Nat) (f : Frame) : Dev :=
  let d := if 64 ≤ f.len && f.len ≤ maxFrameOf d p then ethStat d p (20 + sizeIndex f.len) else d
  let errors := rxErrors d p f
  if !errors.isEmpty then
    let (n, d) := draw (errors.foldl (fun d i => ethStat d p i) d)
    if f.etype != 0x8808 && leaving d p f && Config.freeBool n then lookup d p f true else d
  else if !l3l4Ok d f then ethStat d p 19
  else
    let d := ethStatN (ethStat d p 0) p 1 f.len
    let d := ethStat d p (if isBroadcast f.dst then 4 else if isMulticast f.dst then 3 else 2)
    if f.etype == 0x8808 then ethStat d p 14 else lookup d p f false

end Sys2Proof.Machine
end

