-- ==== Sys2Proof/Machine/Trestle.lean ====
section
/-! DEFINITION. Trestle packets and connections: the wire image of a packet, the context cache, acknowledgements, the sending of
messages within windows, credit and paths, and closing (R202 to R242, R265 to R272). -/

namespace Sys2Proof.Machine

/-! ### Opcodes and their bodies (R205 to R207) -/

def isSequenced (op : Nat) : Bool := op == 1 || op == 2 || op == 3 || op == 0xC

/-- Body length of an opcode with a fixed body (R207). -/
def bodyLen (op : Nat) : Option Nat :=
  match op with
  | 2 => some 16 | 5 => some 16 | 6 => some 16 | 7 => some 48 | 8 => some 32 | 9 => some 0 | 0xA => some 48
  | 0xB => some 56 | 0xC => some 8 | _ => none

/-- Reserved bytes and bits of a body: (byte, mask) (R206). -/
def bodyReserved (op : Nat) : List (Nat × Nat) :=
  match op with
  | 2 => [12, 13, 14, 15].map ((·, 0xFF))
  | 4 => [29, 30, 31].map ((·, 0xFF))
  | 5 => [10, 11].map ((·, 0xFF))
  | 6 => [8, 9, 10, 11, 12, 13, 14, 15].map ((·, 0xFF))
  | 7 => (15, 0xFE) :: [44, 45, 46, 47].map ((·, 0xFF))
  | 8 => [2, 3].map ((·, 0xFF))
  | 0xB => (1, 0xFE) :: [3, 10, 11, 48, 49, 50, 51, 52, 53, 54, 55].map ((·, 0xFF))
  | 0xC => [1, 2, 3, 4, 5, 6, 7].map ((·, 0xFF))
  | _ => []

/-- Byte offset of the first bad field of a packet, at a payload size (R205, R206). -/
def badField (p : Pkt) (payload : Nat) : Option Nat :=
  let op := pkOp p
  let n := p.body.length
  if p.flags.toNat % 8 != 0 then some 1
  else if fld p.path.toNat 6 10 != 0 then some 2
  else if op == 1 && n == 0 && p.msgLen != 0 then some 16
  else if op == 3 && n == 0 then some 40
  else if (op == 1 || op == 3) && payload < n then some 40
  else if op == 4 then
    if n < 32 then some 40
    else if 8 < byteAt p.body 28 then some 68
    else match (bodyReserved 4).find? (fun r => byteAt p.body r.1 != 0) with
      | some r => some (40 + r.1)
      | none => if n != 32 + 8 * byteAt p.body 28 then some 40 else none
  else match bodyLen op with
    | some l => if n != l then some 40 else
      ((bodyReserved op).find? (fun r => byteAt p.body r.1 &&& r.2 != 0)).map (40 + ·.1)
    | none => none

/-! ### Serial arithmetic (R214, R235) -/

/-- Is `a` below `b` modulo 2^32 (R214)? -/
def below32 (a b : Nat) : Bool := a % 2 ^ 32 != b % 2 ^ 32 && (b + 2 ^ 32 - a % 2 ^ 32) % 2 ^ 32 < 2 ^ 31

/-- (a − b) mod 2^32. -/
def sub32 (a b : Nat) : Nat := (a + 2 ^ 32 - b % 2 ^ 32) % 2 ^ 32
def sub64 (a b : Nat) : Nat := (a + 2 ^ 64 - b % 2 ^ 64) % 2 ^ 64

/-- Is edge `e1` beyond `e0` (R235)? -/
def beyond (e1 e0 : Nat) : Bool := let x := sub64 e1 e0; 1 ≤ x && x < 2 ^ 63

/-! ### Counters and connections -/

def trsCnt (d : Dev) (i : Nat) : Dev := count d (0x300100 + 8 * i)
def trsCntN (d : Dev) (i n : Nat) : Dev := countN d (0x300100 + 8 * i) n
def ctxCnt (d : Dev) (i : Nat) : Dev := count d (0x300200 + 8 * i)
def ctxCntN (d : Dev) (i n : Nat) : Dev := countN d (0x300200 + 8 * i) n
/-- Tenant counter `i` of a PD (R523). -/
def pdCnt (d : Dev) (pd i n : Nat) : Dev := countN d (0xC80000 + 128 * pd + 8 * i) n

def connOf (d : Dev) (c : Nat) : Option Conn := tget d.trs.conns c
def modConn (d : Dev) (c : Nat) (f : Conn → Conn) : Dev := { d with trs.conns := tupd d.trs.conns c f }
def setConn (d : Dev) (c : Nat) (x : Conn) : Dev := { d with trs.conns := tset d.trs.conns c x }

/-! ### Free values, paths and source ports -/

/-- A free value for a field the spec calls random, of 2^n values. -/
def drawBits (d : Dev) (n : Nat) : Nat × Dev :=
  let (i, d) := draw d
  ((Config.free64 i).toNat % 2 ^ n, d)

/-- A random source-port base: a multiple of 64 from 0xC000 to 0xFFC0 (R210). -/
def drawPortBase (d : Dev) : Nat × Dev :=
  let (i, d) := drawBits d 8
  (0xC000 + 64 * i, d)

/-- Every id of a mask, OPEN (R233). -/
def pathTab (mask : Nat) : Tab PathRec := (bitList mask 64).map fun i => (i, {})

/-- TRS_RTO_MIN and TRS_RTO_MAX in ns (R247). -/
def rtoMin (d : Dev) : Nat := 1000 * liveN d 0x300040
def rtoMax (d : Dev) : Nat := 1000 * liveN d 0x300044
def creditWindow (d : Dev) : Nat := liveN d 0x300010
def readSlots (d : Dev) : Nat := fld (liveN d 0x300020) 0 8
def ackTime (d : Dev) : Nat := fld (liveN d 0x300014) 0 13
def ackEvery (d : Dev) : Nat := fld (liveN d 0x300014) 16 5

/-- A connection that packets may name: ESTABLISHED, CLOSING or RESUMING (R217 step 2). -/
def connLive (x : Conn) : Bool := x.st == .established || x.st == .closing || x.st == .resuming

/-- DEV_CONN of local index `c` (R208, R448): bits [19:14] hold the pier for connections accepted on an endpoint address. -/
def devConn (d : Dev) (c : Nat) (x : Conn) : Nat :=
  let i := if isEndpoint d x.r.localIp then d.pln.plan.pier * 16384 + c else c
  i * 256 + x.r.gen

/-- The connection a DST_CONN names, by local index, with the generation right. -/
def findConn (d : Dev) (w : Word) : Option (Nat × Conn) :=
  let c := connIdx w % 16384
  match connOf d c with
  | some x => if connLive x && devConn d c x == w.toNat then some (c, x) else none
  | none => none

/-! ### The context cache (R265 to R272) -/

/-- Resident slots of the powered quarters that no slice holds (R265, R505). -/
def ctxSlots (d : Dev) : Nat :=
  512 * ((List.range 4).filter fun q => domOn d (pdTRS q) && d.bst.active != some (pdTRS q)
    && !d.bst.held.any fun u => u.1 == pdTRS q).length

/-- Is a super-frame of the connection under way at an egress port, or set aside there between two segments (R163, R168)? -/
def sendsSuper (d : Dev) (x : Conn) : Bool :=
  let mine := fun (f : QFrame) => f.super.any (fun s => s.pkt.dstConn == x.r.srcConn) && f.frame.ip.any fun h => h.dst == x.r.hostIp
  d.swc.egress.any (fun e => e.2.tx.any fun t => mine t.f)
    || d.swc.queues.any fun e => e.2.frames.any fun f => f.seg != 0 && mine f

/-- Is a resident context pinned (R267)? -/
def ctxPinned (d : Dev) (c : Nat) : Bool :=
  match connOf d c with
  | some x => x.st == .resuming || !x.held.isEmpty || sendsSuper d x || decide (d.time < tgetD d.trs.residentAt c 0 + 2000)
  | none => false

def isResident (d : Dev) (c : Nat) : Bool := d.trs.resident.contains c

/-- Mark a context most recently used. -/
def touch (d : Dev) (c : Nat) : Dev := { d with trs.resident := (d.trs.resident.erase c) ++ [c] }

/-- SACK blocks: the received ranges above CUM_PSN, ascending, at most `n` (R226). -/
def sackBlocks (cum : Nat) (got : List Nat) (n : Nat) : List (Nat × Nat) :=
  let has := fun o => got.contains ((cum + o) % 2 ^ 32)
  let starts := (List.range 4096).filter fun o => o != 0 && has o && !has (o - 1)
  (starts.take n).map fun o =>
    let e := ((List.range 4097).find? fun k => o < k && !has k).getD 4096
    ((cum + o) % 2 ^ 32, (cum + e) % 2 ^ 32)

/-- CUM_PSN and the PSNs that an ACK may show: a placed ring packet is left out until the partner has its RING item (R418). -/
def ackView (x : Conn) : Nat × List Nat :=
  let wait := x.ringWait.map (·.1)
  let cum := match ((List.range 4096).reverse.map fun o => (x.cum + 2 ^ 32 - 1 - o) % 2 ^ 32).find? wait.contains with
    | some p => p
    | none => x.cum
  let after := (List.range (sub32 x.cum cum)).map fun o => (cum + o) % 2 ^ 32
  (cum, (after.filter fun p => !wait.contains p) ++ x.got.filter fun p => !wait.contains p)

/-- ACK body (R226). -/
def ackBody (x : Conn) (probe : Nat) : List Byte :=
  let v := ackView x
  let s := sackBlocks v.1 v.2 8
  be 4 v.1 ++ be 4 x.completed ++ be 8 x.edge ++ be 8 x.failMask.toNat ++ be 4 probe ++ [BitVec.ofNat 8 s.length, 0, 0, 0]
    ++ s.flatMap fun b => be 4 b.1 ++ be 4 b.2

/-- Send one packet of a connection (R202). -/
def sendPkt (d : Dev) (x : Conn) (p : Pkt) : Dev :=
  let p := sealPkt { p with dstConn := x.r.srcConn }
  let d := trsCnt d 2
  let d := if pkOp p == 1 || pkOp p == 3 then
      pdCnt (trsCntN d 3 p.body.length) x.r.pd 13 p.body.length else d
  emit d (trsEmit x.r.localIp x.r.hostIp (x.portBase + pkPath p) x.r.hostPort p)

/-- Header byte 0 of an opcode. -/
def verOp (op : Nat) : Byte := BitVec.ofNat 8 (16 + op)

/-- Send an ACK on a path and forget what was coalesced (R228); every ACK advertises the edge (R237). -/
def sendAck (d : Dev) (c path probe : Nat) : Dev :=
  match connOf d c with
  | none => d
  | some x =>
    let d := sendPkt d x { verOp := verOp 4, path := BitVec.ofNat 16 path, body := ackBody x probe }
    modConn d c fun x => { x with ackPend := 0, advertised := x.edge }

/-- Send a CREDIT (R237). -/
def sendCredit (d : Dev) (c : Nat) : Dev :=
  match connOf d c with
  | none => d
  | some x =>
    let d := sendPkt d x { verOp := verOp 6, path := BitVec.ofNat 16 x.ackPath, body := be 8 x.edge ++ zeros 8 }
    modConn d c fun x => { x with advertised := x.edge }

/-- A CREDIT is due: the edge has moved by a quarter window since it was last advertised, and no ACK is due within 1 µs (R237). -/
def creditDue (d : Dev) (x : Conn) : Bool :=
  x.window ≤ 4 * sub64 x.edge x.advertised && (x.ackPend == 0 || d.time + 1000 < x.ackSince + ackTime d)

/-- Send a CREDIT that is due. -/
def creditIfDue (d : Dev) (c : Nat) : Dev :=
  match connOf d c with
  | some x => if creditDue d x then sendCredit d c else d
  | none => d

/-- Move a context to the writeback buffer, sending what was coalesced for it (R267). -/
def evict (d : Dev) (c : Nat) : Dev :=
  let d := match connOf d c with
    | some x => creditIfDue (if x.ackPend != 0 then sendAck d c x.ackPath 0 else d) c
    | none => d
  ctxCnt { d with trs.resident := d.trs.resident.erase c, trs.writeback := d.trs.writeback ++ [c] } 1

/-- Free a resident slot where none is free: evict the least recently used context that is not pinned (R267). -/
def makeRoom (d : Dev) : Bool × Dev :=
  if d.trs.resident.length < ctxSlots d then (true, d)
  else if 32 ≤ d.trs.writeback.length + d.trs.reclaim.length then (false, d)
  else match d.trs.resident.find? fun c => !ctxPinned d c with
    | some c => (true, evict d c)
    | none => (false, d)

/-- Make a context resident now (R268). -/
def makeResident (d : Dev) (c : Nat) : Dev :=
  { d with trs.resident := (d.trs.resident.erase c) ++ [c], trs.residentAt := tset d.trs.residentAt c d.time }

/-- Ask for a context: resident ones are touched; one in the writeback buffer is reclaimed, its writeback cancelled, and stays in the
buffer while no slot is free; any other is fetched (R268). -/
def wantCtx (d : Dev) (c : Nat) : Bool × Dev :=
  if isResident d c then (true, touch d c)
  else if d.trs.reclaim.contains c then (false, d)
  else if d.trs.writeback.contains c then
    let d := ctxCnt { d with trs.writeback := d.trs.writeback.erase c } 2
    let (ok, d) := makeRoom d
    if ok then (true, makeResident d c) else (false, { d with trs.reclaim := d.trs.reclaim ++ [c] })
  else if d.trs.fetching.contains c then (false, d)
  else (false, ctxCnt { (makeRoom d).2 with trs.fetching := addNew d.trs.fetching c } 0)

/-! ### Sending messages (R215, R216, R230, R233, R236, R242) -/

/-- Ids of the OPEN paths, ascending (R233). -/
def openPaths (x : Conn) : List Nat := (x.paths.filter fun e => e.2.st == .open).map (·.1)

/-- The next OPEN path at or after the rotation's position, and the position after it (R170, R233). -/
def nextOpen (x : Conn) : Option Nat :=
  let o := openPaths x
  match o.find? (x.nextPath ≤ ·) with
  | some p => some p
  | none => o.head?

/-- The SUSPECT path with the fewest timeouts (R233). -/
def suspectPath (x : Conn) : Option Nat :=
  ((x.paths.filterMap fun e => match e.2.st with | .suspect n => some (n, e.1) | _ => none).foldl
    (fun (b : Option (Nat × Nat)) e => match b with | some q => if e.1 < q.1 then some e else b | none => some e) none).map (·.2)

/-- The path of a retransmission at an RTO: an OPEN path other than the last, else the last where it is OPEN, else the SUSPECT path
with the fewest timeouts; with every path CLOSED none (R231, R233). -/
def retryPath (x : Conn) (last : Nat) : Option Nat :=
  ((openPaths x).find? (· != last)).or (if (openPaths x).contains last then some last else suspectPath x)

/-- The path of a fast retransmission: an OPEN one, else as for any retransmission (R232, R233). -/
def fastPath (x : Conn) : Option Nat := (nextOpen x).or (suspectPath x)

/-- Path and order of a packet's last transmission (R230). -/
def lastPath (t : TxPkt) : Nat := (t.sent.headD (0, 0)).1
def lastOrder (t : TxPkt) : Nat := (t.sent.headD (0, 0)).2

/-- Bytes of a partition: 1 submission rings, 2 the pantry (R25). -/
def partBytes (d : Dev) (part off n : Nat) : List Byte := memReads (if part == 1 then d.trs.rings else d.trs.pantry) off n

/-- May the message at this place of the queue send its next packet? WRITE data is sent in order; other messages may pass a WRITE
that waits for credit (R216, R236, R241). -/
def canSend (x : Conn) (m : OutMsg) (firstWrite : Bool) : Bool :=
  let psnOk := sub32 x.psn x.peerCum < 4096
  let msnOk := m.msn.isSome || sub32 x.msn x.peerDone < 64
  psnOk && (match m.kind with
  | .write => firstWrite && msnOk
      && sub64 x.peerEdge (x.sent + min (m.len - m.off) x.r.payload) < 2 ^ 63
  | .readReq => msnOk && x.reads.length < x.r.hostReadSlots
  | .readResp | .close => true)

/-- The next message that may send, by its place in the queue. -/
def pickMsg (x : Conn) : List OutMsg → Bool → Nat → Option (Nat × OutMsg)
  | [], _, _ => none
  | m :: rest, first, i =>
    if canSend x m (first && m.kind == .write) then some (i, m)
    else pickMsg x rest (first && m.kind != .write) (i + 1)

/-- The packet of a message at its offset. -/
def msgPacket (d : Dev) (x : Conn) (m : OutMsg) (psn msn path : Nat) : Pkt :=
  let n := min (m.len - m.off) x.r.payload
  let base : Pkt := { path := BitVec.ofNat 16 path, psn := BitVec.ofNat 32 psn, msn := BitVec.ofNat 32 msn }
  let again := if m.retry then 0x08 else 0
  match m.kind with
  | .write =>
    let last := m.len ≤ m.off + n
    let fl := (if m.fence then 0x40 else 0) + (if m.notify then 0x20 else 0) + (if last then 0x10 else 0) + again
    { base with verOp := verOp 1, flags := BitVec.ofNat 8 fl, msgLen := BitVec.ofNat 32 m.len,
                msgOffset := BitVec.ofNat 32 m.off, addr := BitVec.ofNat 64 (m.addr + m.off), key := BitVec.ofNat 32 m.key,
                body := (m.data.drop m.off).take n }
  | .readReq => { base with verOp := verOp 2, flags := BitVec.ofNat 8 (0x10 + again), msgLen := BitVec.ofNat 32 m.len, addr := BitVec.ofNat 64 m.addr,
                            key := BitVec.ofNat 32 m.key, tag := BitVec.ofNat 32 m.tag,
                            body := be 8 m.src ++ be 4 m.region ++ zeros 4 }
  | .readResp =>
    { base with verOp := verOp 3, flags := if m.len ≤ m.off + n then 0x10 else 0, msgLen := BitVec.ofNat 32 m.len,
                msgOffset := BitVec.ofNat 32 m.off, addr := BitVec.ofNat 64 (m.addr + m.off), key := BitVec.ofNat 32 m.key,
                tag := BitVec.ofNat 32 m.tag, body := if m.part == 0 then (m.data.drop m.off).take n else partBytes d m.part (m.src + m.off) n }
  | .close => { base with verOp := verOp 0xC, flags := 0x10, msn := 0, body := BitVec.ofNat 8 m.reason :: zeros 7 }

/-- The command whose transfer a message carries, with the bound of R38 that its waits meet, in ns. -/
def useCmd (u : Use) : Option (Nat × Nat) :=
  match u with
  | .pull c _ => some (c, 1200)
  | .data c | .relay c _ => some (c, 1500)
  | _ => none

/-- Charge `ns` of a wait to a command under a delay reason; beyond the bound the command is DELAYED (R238, R269). -/
def chargeWait (d : Dev) (u : Use) (reason ns : Nat) : Dev :=
  match useCmd u with
  | some (c, bound) => if ns == 0 then d
    else { d with cmd.slots := tupd d.cmd.slots c fun s => { s with
      stalls := tmod s.stalls reason 0 (· + ns), slow := if bound < ns then addNew s.slow reason else s.slow } }
  | none => d

/-- A completion entry that has waited beyond the bound of R38 since its generation: DELAYED with this reason, unless a longer wait
stands in it already (R238, R297). -/
def lateEntry (e : List Byte) (shown reason ns : Nat) : List Byte :=
  if ns ≤ 1500 || ns < shown || (ns == shown && reason < fld (leAt e 14 2) 2 4) then e
  else putAt e 14 (le 2 (leAt e 14 2 % 2 + 2 + 4 * reason))

/-- ns that a message has waited for its context and for the peer's edge. -/
def msgWaits (d : Dev) (m : OutMsg) : Nat × Nat :=
  ((m.ctxSince.map fun t => m.creditSince.getD d.time - t).getD 0, (m.creditSince.map fun t => d.time - t).getD 0)

/-- A message as it leaves: an entry shows the waits it has had. -/
def leaving_ (d : Dev) (m : OutMsg) : OutMsg :=
  let w := msgWaits d m
  match m.use with
  | .entry .. => { m with data := lateEntry (lateEntry m.data m.wait 6 w.1) (max m.wait w.1) 7 w.2 }
  | _ => m

/-- Charge a message's waits to its command. -/
def chargeMsg (d : Dev) (m : OutMsg) : Dev :=
  let w := msgWaits d m
  chargeWait (chargeWait d m.use 6 w.1) m.use 7 w.2

/-- Send the next packet of the message at place `i` on path `path`. -/
def sendOne (d : Dev) (c : Nat) (x : Conn) (i : Nat) (m : OutMsg) (path : Nat) : Dev :=
  let d := chargeMsg d m
  let m := { leaving_ d m with ctxSince := none, creditSince := none }
  let takes := (m.kind == .write || m.kind == .readReq) && m.msn.isNone
  let msn := m.msn.getD x.msn
  let p := msgPacket d x m x.psn msn path
  let n := if m.kind == .write || m.kind == .readResp then min (m.len - m.off) x.r.payload else m.len
  let m' := { m with msn := some msn, off := m.off + n }
  let fin := m.len ≤ m'.off || m.kind == .close || m.kind == .readReq
  let t : TxPkt := { psn := x.psn, pk := p, sent := [(path, x.order)], time := d.time,
                     src := if m.kind == .readResp && m.part != 0 then some (m.part, m.src + m.off, m.region) else none }
  let d := modConn d c fun x => { x with
    psn := (x.psn + 1) % 2 ^ 32,
    msn := if takes then (x.msn + 1) % 2 ^ 32 else x.msn,
    sent := if m.kind == .write then (x.sent + p.body.length) % 2 ^ 64 else x.sent,
    sendQ := if fin then x.sendQ.eraseIdx i else x.sendQ.set i m',
    unacked := x.unacked ++ [t], order := x.order + 1,
    nextPath := (path + 1) % 64,
    outMsgs := if m.kind == .write && takes then x.outMsgs ++ [(msn, m)] else x.outMsgs,
    reads := if m.kind == .readReq then
        x.reads ++ [{ id := m.tag, msn, len := m.len, addr := m.src, key := m.region, srcAddr := m.addr, srcKey := m.key, use := m.use }]
      else x.reads,
    closeSent := x.closeSent || m.kind == .close,
    deadAt := match x.deadAt with | some t => some t | none => some d.time }
  sendPkt d x p

/-- Send what may be sent, packet after packet. -/
def pumpGo (c : Nat) : Nat → Dev → Dev
  | 0, d => d
  | f + 1, d =>
    match connOf d c with
    | none => d
    | some x =>
      match nextOpen x, pickMsg x x.sendQ true 0 with
      | some path, some (i, m) => pumpGo c f (sendOne d c x i m path)
      | _, _ => d

/-- Packets that the queue of a connection holds. -/
def pumpFuel (x : Conn) : Nat := x.sendQ.foldl (fun n m => n + m.len / 4096 + 2) 0

/-- Is a message a completion entry? -/
def isEntry (m : OutMsg) : Bool := match m.use with | .entry .. => true | _ => false

/-- The first WRITE of a queue begins to wait for the edge, where nothing else holds it back, and with it every entry behind it
(R236, R238). -/
def markStall (t : Nat) (x : Conn) : List OutMsg → List OutMsg
  | [] => []
  | m :: rest =>
    if m.kind != .write then m :: markStall t x rest
    else if (nextOpen x).isSome && canSend { x with peerEdge := x.sent + min (m.len - m.off) x.r.payload } m true then
      { m with creditSince := some (m.creditSince.getD t) } :: rest.map fun m =>
        if isEntry m then { m with creditSince := some (m.creditSince.getD t) } else m
    else m :: rest

/-- Send what a connection may send; a context that is not resident is fetched first (R265), and what stays behind waits. -/
def pump (d : Dev) (c : Nat) : Dev :=
  match connOf d c with
  | none => d
  | some x =>
    if x.sendQ.isEmpty || !(x.st == .established || x.st == .closing) then d
    else
      let (ok, d) := wantCtx d c
      if ok then modConn (pumpGo c (pumpFuel x) d) c fun x => { x with sendQ := markStall d.time x x.sendQ }
      else modConn d c fun x => { x with sendQ := x.sendQ.map fun m => { m with ctxSince := some (m.ctxSince.getD d.time) } }

/-- Queue a message and send what may be sent. -/
def sendMsg (d : Dev) (c : Nat) (m : OutMsg) : Dev := pump (modConn d c fun x => { x with sendQ := x.sendQ ++ [m] }) c

/-- Queue a READ_REQ: RESP_ADDR, RESP_KEY and the request id are values that the spec leaves to the device, free ones here, the
id made unique among the outstanding reads (R239, R241, R242). -/
def sendRead (d : Dev) (c : Nat) (addr key len : Nat) (u : Use) : Dev :=
  match connOf d c with
  | none => d
  | some x =>
    let (n, d) := draw d
    let (a, d) := draw d
    let used := x.reads.map (·.id) ++ (x.sendQ.filter (·.kind == .readReq)).map (·.tag)
    let id0 := (Config.free64 n).toNat % 2 ^ 32
    let id := ((List.range 512).map (fun i => (id0 + i) % 2 ^ 32)).find? (fun i => !used.contains i)
    sendMsg d c { kind := .readReq, len, addr, key, tag := id.getD id0, src := (Config.free64 a).toNat,
                  region := fld (Config.free64 n).toNat 32 32, use := u }

/-! ### NACKs and closing (R213, R229) -/

def nackClass (code : Nat) : Nat :=
  if code ≤ 3 then 2 else if code == 4 || code == 5 || code == 6 || code == 0xB then 0 else 1

/-- NACK body (R229). -/
def nackBody (psn msn code detail : Nat) : List Byte :=
  be 4 psn ++ be 4 msn ++ [BitVec.ofNat 8 code, BitVec.ofNat 8 (nackClass code), 0, 0] ++ be 4 detail

/-- Send a NACK for a packet, at most one per connection and PSN in 10 µs (R229). -/
def sendNack (d : Dev) (c : Nat) (p : Pkt) (code detail : Nat) : Dev :=
  match connOf d c with
  | none => d
  | some x =>
    if (tget x.nackAt p.psn.toNat).any fun t => d.time < t + 10000 then d
    else
      let d := trsCnt (sendPkt d x { verOp := verOp 5, path := BitVec.ofNat 16 (pkPath p),
                                     body := nackBody p.psn.toNat p.msn.toNat code detail }) 10
      modConn d c fun x => { x with nackAt := (x.nackAt.filter fun e => d.time < e.2 + 10000) ++ [(p.psn.toNat, d.time)] }

/-- NACK BAD_CONN to the source of a packet, at most once per millisecond and source address (R213), from a source port of the
device's own (R202). -/
def nackBadConn (d : Dev) (net : Net) (p : Pkt) : Dev :=
  let d := trsCnt d 19
  if (tget d.trs.badConnAt net.srcIp).any fun t => d.time < t + 1000000 then d
  else
    let q := sealPkt { verOp := verOp 5, path := BitVec.ofNat 16 (pkPath p),
                       body := nackBody p.psn.toNat p.msn.toNat 3 p.dstConn.toNat }
    let (base, d) := drawPortBase { d with trs.badConnAt := tset d.trs.badConnAt net.srcIp d.time }
    trsCnt (trsCnt (emit d (trsEmit net.dstIp net.srcIp (base + pkPath p) net.srcPort q)) 2) 10

/-- Mark a slot's host transfer as failed (R281, R296). -/
def failUse (d : Dev) (u : Use) (code : Nat) : Dev :=
  let mark := fun cmd => { d with cmd.slots := tupd d.cmd.slots cmd fun s =>
    if s.xferFail.isNone then { s with xferFail := some code } else s }
  match u with
  | .pull cmd _ | .data cmd | .relay cmd _ => mark cmd
  | .cqHead q => { d with cmd.cqs := tupd d.cmd.cqs q fun r => { r with reading := false } }
  | .frag n => { d with via.frags := tdel d.via.frags n }
  | .fragBack t => { d with via.sent := tdel d.via.sent t }
  | _ => d

/-- COMPLETED_MSN moves over finished messages; FAIL_MASK says which of them failed (R216, R226). -/
def settleMsgs : Nat → Conn → Conn
  | 0, x => x
  | f + 1, x => match tget x.msgs x.completed with
    | some m => if m.complete || m.failed then
        settleMsgs f { x with completed := (x.completed + 1) % 2 ^ 32, msgs := tdel x.msgs x.completed,
                              failMask := (x.failMask <<< 1) ||| BitVec.ofNat 64 (b2n m.failed) }
      else x
    | none => x

/-- Fail every open message and read of a connection (R212, R213, R270). -/
def failOpen (d : Dev) (c : Nat) (code : Nat) : Dev :=
  match connOf d c with
  | none => d
  | some x =>
    let uses := x.outMsgs.map (·.2.use) ++ x.reads.map (·.use) ++ x.sendQ.map (·.use)
    let d := uses.foldl (fun d u => failUse d u code) d
    modConn d c fun x => settleMsgs 64 { x with
      msgs := x.msgs.map fun e => (e.1, { e.2 with failed := !e.2.complete || e.2.failed }),
      outMsgs := [], reads := [], sendQ := x.sendQ.filter (·.kind == .close), held := [] }

/-- The CQs of a connection become DETACHED (R281). -/
def detachCqs (d : Dev) (c : Nat) : Dev :=
  (d.cmd.cqs.filter fun e => e.2.conn == c && !e.2.detached).foldl (fun d e =>
    { d with cmd.cqs := tupd d.cmd.cqs e.1 fun r => { r with detached := true, reading := false },
             cmd.detachedAt := tset d.cmd.detachedAt e.1 d.time }) d

/-- A connection is lost to the directory of inner connections (R453). -/
def innerLost (d : Dev) (x : Conn) : Dev :=
  match x.r.inner with
  | some n => { d with via.inner := tdel d.via.inner n }
  | none => d

/-- Enter TIME_WAIT: contexts are released, CQs DETACHED, the closure mirrored (R210, R212, R281). -/
def enterTimeWait (d : Dev) (c : Nat) : Dev :=
  match connOf d c with
  | none => d
  | some x =>
    let d := failOpen d c 0
    let d := modConn d c fun x => { x with st := .timeWait, since := d.time, sendQ := [], unacked := [], deadAt := none,
                                           ackPend := 0, held := [] }
    let d := { d with trs.resident := d.trs.resident.erase c, trs.writeback := d.trs.writeback.erase c,
                      trs.reclaim := d.trs.reclaim.erase c, trs.fetching := d.trs.fetching.erase c, trs.porch := d.trs.porch.filter (·.1 != c),
                      trs.timers := d.trs.timers.filter (·.1 != c) }
    let d := detachCqs (innerLost d x) c
    mirror d (.st (.conn c none))

/-- CLOSING ends when the own CLOSE is acknowledged and the peer's has been received (R212). -/
def closingDone (d : Dev) (c : Nat) : Dev :=
  match connOf d c with
  | some x =>
    if x.st == .closing && x.peerClosed && x.closeSent && !x.unacked.any (fun t => pkOp t.pk == 0xC) then enterTimeWait d c else d
  | none => d

/-- Close a connection locally with a reason (R212, R213); one that is RESUMING closes when it is ESTABLISHED (R251). -/
def closeConn (d : Dev) (c reason : Nat) : Dev :=
  match connOf d c with
  | some x =>
    if x.st == .established then
      let d := failOpen d c 0
      let d := modConn d c fun x => { x with st := .closing, since := d.time }
      sendMsg d c { kind := .close, reason, len := 8 }
    else if x.st == .resuming then modConn d c fun x => { x with closeLater := some (x.closeLater.getD reason) }
    else d
  | none => d

end Sys2Proof.Machine
end

