-- ==== Sys2Proof/Machine/Paths.lean ====
section
/-! DEFINITION. The sender's side of acknowledgement: retiring packets, the RTO estimator, loss, paths and probes, and the timers of
a connection (R226 to R234, R237, R266). -/

namespace Sys2Proof.Machine

def modPath (d : Dev) (c p : Nat) (f : PathRec → PathRec) : Dev :=
  modConn d c fun x => { x with paths := tupd x.paths p f }

/-- Send a PROBE with a new tag on a path (R233). -/
def sendProbe (d : Dev) (c p : Nat) : Dev :=
  match connOf d c with
  | none => d
  | some x =>
    let tag := d.trs.probeSeq % 0xFFFFFFFF + 1
    let d := { d with trs.probeSeq := d.trs.probeSeq + 1 }
    let d := modPath d c p fun r => { r with tag, probing := true, time := d.time }
    let d := modConn d c fun x => { x with deadAt := some (x.deadAt.getD d.time) }
    sendPkt d x { verOp := verOp 9, path := BitVec.ofNat 16 p, tag := BitVec.ofNat 32 tag }

/-- Charge a timeout to a path (R231, R233). -/
def chargePath (d : Dev) (c p : Nat) : Dev :=
  match (connOf d c).bind fun x => tget x.paths p with
  | none => d
  | some r =>
    match r.st with
    | .open => sendProbe (modPath d c p fun r => { r with st := .suspect 1 }) c p
    | .suspect n =>
      if 3 ≤ n + 1 then trsCnt (modPath d c p fun r => { r with st := .closed, time := d.time }) 15
      else sendProbe (modPath d c p fun r => { r with st := .suspect (n + 1) }) c p
    | .closed => d

/-- Does a region still stand under the KEY it had (R254, R257)? -/
def keyStands (d : Dev) (key : Nat) : Bool := (tget d.trs.regions (key / 4096)).any fun r => r.gen == key % 4096

/-- Transmit a packet again: same PSN and fields, RETRY set; a READ_RESP reads its source again while its region stands
(R230, R240, R257). -/
def resend (d : Dev) (c : Nat) (t : TxPkt) (path : Nat) : Dev :=
  match connOf d c with
  | none => d
  | some x =>
    let body := match t.src with
      | some (part, o, key) => if keyStands d key then partBytes d part o t.pk.body.length else t.pk.body
      | none => t.pk.body
    let p := { t.pk with flags := t.pk.flags ||| 0x08, path := BitVec.ofNat 16 path, body }
    let d := modConn d c fun x => { x with order := x.order + 1, unacked := x.unacked.map fun u =>
      if u.psn == t.psn then { u with time := d.time, sent := (path, x.order) :: u.sent } else u }
    pdCnt (trsCnt (sendPkt d x p) 4) x.r.pd 14 1

/-- A round-trip sample (R231, RFC 6298 with gains 1/8 and 1/4). -/
def rttSample (d : Dev) (c r : Nat) : Dev :=
  modConn d c fun x =>
    let (s, v) := match x.srtt with
      | none => (r, r / 2)
      | some s => ((7 * s + r) / 8, (3 * x.rttvar + (if s < r then r - s else s - r)) / 4)
    { x with srtt := some s, rttvar := v, backoff := 0 }

/-- The RTO by the live bounds: the estimator's value, or min(4 × MIN, MAX) before the first sample, doubled by each expiry since
(R231). -/
def rtoOf (d : Dev) (x : Conn) : Nat :=
  let base := match x.srtt with
    | none => min (4 * rtoMin d) (rtoMax d)
    | some s => min (max (s + 4 * x.rttvar) (rtoMin d)) (rtoMax d)
  min (base * 2 ^ x.backoff) (rtoMax d)

/-- PSNs an ACK covers: below CUM_PSN or within a block (R230). -/
def ackCovers (cum : Nat) (blocks : List (Nat × Nat)) (psn : Nat) : Bool :=
  below32 psn cum || blocks.any fun b => !below32 psn b.1 && below32 psn b.2

/-- A WRITE message is known to be finished: a completion entry is covered by a HOSTACK, a failure is charged to its transfer
(R227, R417). -/
def msgDone (d : Dev) (u : Use) (failed : Bool) (code : Nat) : Dev :=
  match u with
  | .entry q slot => mirror d (.hostack q slot)
  | _ => if failed then failUse d u code else d

/-- Retire the messages that COMPLETED_MSN passes (R227). -/
def retireMsgs (d : Dev) (c done mask : Nat) : Dev :=
  match connOf d c with
  | none => d
  | some x =>
    let fin := x.outMsgs.filter fun m => below32 m.1 done
    let d := fin.foldl (fun d m =>
      let i := sub32 done m.1 - 1
      msgDone d m.2.use (i < 64 && bitAt mask i) 0) d
    let d := (x.reads.filter fun r => below32 r.msn done && bitAt mask (sub32 done r.msn - 1)).foldl
      (fun d r => failUse d r.use 0) d
    modConn d c fun x => { x with
      peerDone := if below32 x.peerDone done then done else x.peerDone,
      outMsgs := x.outMsgs.filter fun m => !below32 m.1 done,
      reads := x.reads.filter fun r => !(below32 r.msn done && bitAt mask (sub32 done r.msn - 1)) }

/-- Take an edge that is beyond the one held (R237). -/
def takeEdge (d : Dev) (c edge : Nat) : Dev :=
  modConn d c fun x => if beyond edge x.peerEdge then { x with peerEdge := edge } else x

/-- An answered PROBE or an acknowledged packet returns a SUSPECT path to OPEN; only the latest PROBE's tag reopens a CLOSED one
(R233). -/
def pathEvidence (d : Dev) (c p : Nat) (tag : Nat) : Dev :=
  match (connOf d c).bind fun x => tget x.paths p with
  | none => d
  | some r =>
    let hit := tag != 0 && r.tag == tag
    let d := if hit then modPath d c p fun r => { r with probing := false } else d
    match r.st with
    | .open => d
    | .suspect _ => if tag == 0 || hit then modPath d c p fun r => { r with st := .open } else d
    | .closed => if hit then trsCnt (modPath d c p fun r => { r with st := .open }) 16 else d

/-- Is acknowledgement awaited (R234)? -/
def awaitsAck (x : Conn) : Bool := !x.unacked.isEmpty || x.paths.any fun e => e.2.probing

/-- A received ACK (R227, R231 to R234, R237). -/
def takeAck (d : Dev) (c : Nat) (p : Pkt) : Dev :=
  match connOf d c with
  | none => d
  | some x =>
    let cum := beAt p.body 0 4
    let blocks := (List.range (byteAt p.body 28)).map fun i => (beAt p.body (32 + 8 * i) 4, beAt p.body (36 + 8 * i) 4)
    let cov := x.unacked.filter fun t => ackCovers cum blocks t.psn
    let rest := x.unacked.filter fun t => !ackCovers cum blocks t.psn
    let d := modConn d c fun x => { x with
      unacked := rest,
      peerCum := if below32 x.peerCum cum then cum else x.peerCum }
    let d := (cov.filter (·.sent.length == 1)).foldl (fun d t => rttSample d c (d.time - t.time)) d
    let d := ((cov.flatMap fun t => t.sent.map (·.1)).eraseDups).foldl (fun d p => pathEvidence d c p 0) d
    let tag := beAt p.body 24 4
    let d := if tag != 0 then x.paths.foldl (fun d e => if e.2.tag == tag then pathEvidence d c e.1 tag else d) d else d
    let d := retireMsgs d c (beAt p.body 4 4) (beAt p.body 16 8)
    let d := takeEdge d c (beAt p.body 8 8)
    -- R232: overtaken on its own path, at most once per RTO
    let rto := ((connOf d c).map (rtoOf d)).getD 0
    let lost := rest.filter fun t => (t.fastAt.all fun a => a + rto ≤ d.time)
      && cov.any fun u => u.sent.any fun e => e.1 == lastPath t && lastOrder t < e.2
    let d := lost.foldl (fun d t => match (connOf d c).bind fastPath with
      | some path =>
        let d := modConn d c fun x => { x with unacked := x.unacked.map fun u =>
          if u.psn == t.psn then ({ u with fastAt := some d.time } : TxPkt) else u }
        trsCnt (resend d c t path) 6
      | none => d) d
    let d := modConn d c fun x => { x with deadAt := (if awaitsAck x then some d.time else none) }
    pump (closingDone d c) c

/-- One RTO without acknowledgement (R231). -/
def rtoGo (d : Dev) (c : Nat) : Dev :=
  match connOf d c with
  | none => d
  | some x =>
    let due := x.unacked.filter fun t => t.time + rtoOf d x ≤ d.time
    if due.isEmpty then d
    else
      let d := due.foldl (fun d t =>
        match (connOf d c).bind fun x => retryPath x (lastPath t) with
        | some path => resend d c t path
        | none => d) (trsCnt d 5)
      let d := (due.map lastPath).eraseDups.foldl (fun d p => chargePath d c p) d
      modConn d c fun x => { x with backoff := x.backoff + 1 }

/-- The dead timer reaches TRS_DEAD_MS (R212, R234). -/
def deadGo (d : Dev) (c : Nat) : Dev :=
  match connOf d c with
  | some x => if x.st == .established && awaitsAck x then trsCnt (enterTimeWait d c) 22 else d
  | none => d

/-- A PROBE of a CLOSED path falls due (R233). -/
def probeGo (d : Dev) (c p : Nat) : Dev :=
  match (connOf d c).bind fun x => tget x.paths p with
  | some r => if r.st == .closed then sendProbe d c p else d
  | none => d

/-- Coalesced acknowledgements fall due (R228). -/
def ackGo (d : Dev) (c : Nat) : Dev :=
  match connOf d c with
  | some x => if x.ackPend != 0 then sendAck d c x.ackPath 0 else d
  | none => d

/-- Probe every OPEN path of an inner connection (R453). -/
def idleProbeGo (d : Dev) (c : Nat) : Dev :=
  match connOf d c with
  | some x => if x.est then (openPaths x).foldl (fun (d : Dev) p => sendProbe d c p) d else d
  | none => d

/-- Run a timer action (R266). -/
def timerGo (d : Dev) (c : Nat) (t : CtxTimer) : Dev :=
  match t with
  | .rto => rtoGo d c
  | .ack => ackGo d c
  | .dead => deadGo d c
  | .probe p => probeGo d c p
  | .credit => creditIfDue d c
  | .idleProbe => idleProbeGo d c

/-- Do something that needs a connection's context: at once where it is resident, else when it has been fetched (R265, R266). -/
def ctxDo (d : Dev) (c : Nat) (t : CtxTimer) : Dev :=
  let (ok, d) := wantCtx d c
  if ok then timerGo d c t else { d with trs.timers := if d.trs.timers.contains (c, t) then d.trs.timers else d.trs.timers ++ [(c, t)] }

/-- A deadline falls due: at once where the context is resident, else when it has been fetched (R266). -/
def timerDue (d : Dev) (c : Nat) (t : CtxTimer) : Dev :=
  match connOf d c with
  | none => d
  | some x => if x.st == .established || x.st == .closing then ctxDo d c t else d

def execRtoExpire (c : Nat) (s : State) : Host.Outcome State Fault Refusal := actIf planned s fun d => timerDue d c .rto
def execPathProbeTimer (c : Nat) (path : Nat) (s : State) : Host.Outcome State Fault Refusal :=
  actIf planned s fun d => timerDue d c (.probe path)
def execAckCoalesceExpire (c : Nat) (s : State) : Host.Outcome State Fault Refusal := actIf planned s fun d => timerDue d c .ack
def execDeadTimerExpire (c : Nat) (s : State) : Host.Outcome State Fault Refusal := actIf planned s fun d => timerDue d c .dead

/-- 4 × TRS_RTO_MAX in CLOSING (R212). -/
def execClosingTimeout (c : Nat) (s : State) : Host.Outcome State Fault Refusal :=
  actIf planned s fun d => if (connOf d c).any (·.st == .closing) then enterTimeWait d c else d

/-- 10 ms in TIME_WAIT: the index is FREE (R212). -/
def execTimeWaitExpire (c : Nat) (s : State) : Host.Outcome State Fault Refusal :=
  actIf planned s fun d => if (connOf d c).any (·.st == .timeWait) then
    { d with trs.conns := tdel d.trs.conns c, trs.connFreed := d.trs.connFreed ++ [(c, d.time)] } else d

/-- Send a RESUME, each on the next id of the mask (R243, R245). -/
def sendResume (d : Dev) (c : Nat) : Dev :=
  match connOf d c with
  | none => d
  | some x =>
    let ids := tkeys x.paths
    let path := ids.getD (x.resumes % max ids.length 1) 0
    let body := be 8 x.r.nonce.toNat ++ be 4 (devConn d c x) ++ be 2 x.portBase ++ [BitVec.ofNat 8 x.slots, BitVec.ofNat 8 (b2n x.planned)]
      ++ be 4 x.psn ++ be 8 x.rcvd ++ be 8 x.edge ++ be 8 x.r.pathMask.toNat ++ zeros 4
    let d := trsCnt (sendPkt d x { verOp := verOp 7, path := BitVec.ofNat 16 path, tag := BitVec.ofNat 32 x.id, body }) 20
    modConn d c fun x => { x with resumes := x.resumes + 1 }

/-- No RESUME_REPLY: send again, or after the 8th close with RESUME_FAILED (R245, R212). -/
def resumeAgain (d : Dev) (c : Nat) : Dev :=
  match connOf d c with
  | some x =>
    if x.st != .resuming then d
    else if x.resumes < 8 then sendResume d c
    else
      let d := trsCnt (sendPkt d x { verOp := verOp 0xC, psn := BitVec.ofNat 32 x.psn, body := 5 :: zeros 7 }) 21
      enterTimeWait d c
  | none => d

def execResumeRetry (c : Nat) (s : State) : Host.Outcome State Fault Refusal := actIf planned s fun d => resumeAgain d c

/-- The planned connection count (R208). -/
def connLimit (d : Dev) : Nat := d.pln.plan.connCount

/-- The index an accepted connection takes: the lowest never used since cold reset, else the one FREE longest, at least 10 ms
(R212). -/
def freeConn (d : Dev) : Option Nat :=
  if d.trs.connFresh < connLimit d then some d.trs.connFresh
  else (d.trs.connFreed.find? fun e => e.1 < connLimit d && e.2 + 10000000 ≤ d.time).map (·.1)

/-- Take a connection index with its next generation (R212). -/
def takeConn (d : Dev) (c : Nat) (x : Conn) : Dev :=
  let gen := match tget d.trs.connGen c with | some g => if g == 255 then 1 else g + 1 | none => 1
  let d := { d with
    trs.connFresh := if c == d.trs.connFresh then c + 1 else d.trs.connFresh,
    trs.connFreed := d.trs.connFreed.filter (·.1 != c),
    trs.connGen := tset d.trs.connGen c gen }
  let d := setConn d c { x with r.gen := gen, since := d.time }
  let (ok, d) := makeRoom d
  if ok then makeResident d c else { d with trs.fetching := addNew d.trs.fetching c }

end Sys2Proof.Machine
end

