-- ==== Sys2Proof/Machine/Records.lean ====
section
/-! DEFINITION. What lies on the drives beside data: the metadata space and a volume's extents in it, and the bytes of member headers,
group records, volume records and ownership blocks (R319 to R321, R413, R544 to R547). -/

namespace Sys2Proof.Machine

/-- State code of STO_MEMBER_n (R343). -/
def memberCode : MemberSt → Nat
  | .absent => 0 | .present => 1 | .ok => 2 | .suspect => 3 | .failed => 4 | .spare => 5 | .rebuilding => 6 | .retired => 7

/-- Reservation key of a side of this device (R414). -/
def reservationKey (side : Bool) : Nat := 0xC5 * 2 ^ 56 + b2n side * 2 ^ 48 + Config.macBase % 2 ^ 48

/-- Own shelf in a viaduct (R445). -/
def ownShelf (d : Dev) : Nat := d.pln.plan.pier / 2

/-- Owning pier of a volume, 0xFF without a viaduct (R341). -/
def volPier (d : Dev) (vol : Volume) : Nat :=
  if (viaPlan d).isNone then 0xFF
  else if vol.lay.group < 64 then (if ownsVol d vol then d.pln.plan.pier else d.pln.plan.pier ^^^ 1)
  else ((tget d.via.groups (vol.lay.group - 64)).map (·.home)).getD 0xFF

/-- Volume descriptor (R341). -/
def descriptor (d : Dev) (v : Nat) (vol : Volume) : List Byte :=
  let l := vol.lay
  let red := redundancyLeft d v vol
  let flags := b2n vol.readOnly + 2 * b2n vol.verifyReads + 128 * b2n (decide (laySurvive l < l.shelfCap))
  fit 128 (le 2 v ++ le 1 (volState d v) ++ le 1 l.scheme ++ le 1 l.k ++ le 1 l.m ++ le 1 l.chunk ++ le 1 (if l.group < 64 then l.group else 0xFF)
    ++ le 1 l.spareCols ++ le 1 vol.tagSize ++ le 1 vol.granule ++ le 2 vol.keyPage ++ le 1 vol.awu ++ le 2 vol.dirtyRegion ++ le 1 vol.share
    ++ le 1 flags ++ le 1 (red % 256).toNat ++ le 1 (groupN d l.group)
    ++ le 4 (l.slabs.length + (vol.newLay.map (·.slabs.length)).getD 0) ++ le 8 l.blocks ++ le 8 (256 * vol.alloc.length)
    ++ le 8 (vol.lost.foldl (fun n e => n + e.count) 0) ++ le 8 l.seed.toNat
    ++ le 1 (if d.pln.plan.unpaired then 0xFF else if l.group < 64 then b2n (d.par.owner.getLsbD l.group)
        else volPier d vol % 2) ++ le 1 (volPier d vol))

/-! ### The metadata space (R320, R547) -/

/-- Layout of the metadata space of a group (R547). -/
def metaLayout (d : Dev) (g : Nat) : Layout :=
  { scheme := 3, k := min 5 (groupN d g), m := 0, chunk := 4, group := g, seed := (groupOf d g).metaSeed, slabs := [0, 1] }

/-- MU_COUNT = 32 × Q (R547). -/
def muCount (d : Dev) (g : Nat) : Nat := 32 * layQ (metaLayout d g) (groupN d g)

/-- Metadata units of a structure of this many bytes (R547). -/
def unitsFor (bytes : Nat) : Nat := (bytes + 65535) / 65536

/-- Bytes of a layout's structures by KIND (R547): slab map, allocation map, dirty bitmap. -/
def layBytes (l : Layout) (dirtyRegion kind : Nat) : Nat :=
  match kind with
  | 1 => 4 * l.slabs.length
  | 2 => (l.blocks + 2047) / 2048
  | 3 => 4096 * (((l.blocks + max (layD l) 1 - 1) / max (layD l) 1 / max dirtyRegion 1) / 32768 + 1)
  | _ => 0

/-- Units of a structure of a volume in a group's metadata space. -/
def structUnits (vol : Volume) (g kind : Nat) : Nat :=
  (vol.extents.filter fun e => e.kind == kind && e.group == g).foldl (fun n e => n + e.count) 0

/-- The metadata unit that holds byte `b` of a structure: its extents lie one after the other. -/
def unitAt : List Extent → Nat → Option Nat
  | [], _ => none
  | e :: rest, u => if u < e.count then some (e.first + u) else unitAt rest (u - e.count)

/-- Byte of the metadata space at which byte `b` of a structure lies. -/
def structByte (vol : Volume) (g kind b : Nat) : Option Nat :=
  (unitAt (vol.extents.filter fun e => e.kind == kind && e.group == g) (b / 65536)).map fun u => u * 65536 + b % 65536

/-- Runs of units in use in a group's metadata space: first and count, ascending. -/
def usedRuns (d : Dev) (g : Nat) : List (Nat × Nat) :=
  sortBy (fun (a b : Nat × Nat) => decide (a.1 ≤ b.1))
    ((d.sto.vols ++ d.sto.making).flatMap fun e => (e.2.extents.filter (·.group == g)).map fun x => (x.first, x.count))

/-- Runs of free units between the runs in use, from unit `lo` on. -/
def freeRuns (limit : Nat) : Nat → List (Nat × Nat) → List (Nat × Nat)
  | lo, [] => if lo < limit then [(lo, limit - lo)] else []
  | lo, r :: rest => (if lo < r.1 then [(lo, r.1 - lo)] else []) ++ freeRuns limit (max lo (r.1 + r.2)) rest

/-- Take `n` units from runs of free units, the lowest first: what is taken, and what is left. -/
def takeUnits : List (Nat × Nat) → Nat → Option (List (Nat × Nat) × List (Nat × Nat))
  | free, 0 => some ([], free)
  | [], _ + 1 => none
  | r :: rest, n + 1 =>
    if n + 1 < r.2 then some ([(r.1, n + 1)], (r.1 + (n + 1), r.2 - (n + 1)) :: rest)
    else (takeUnits rest (n + 1 - r.2)).map fun x => (r :: x.1, x.2)

/-- Extents in a group for structures that need more units: kind and units. None where they do not fit. Which free units are taken
the spec leaves to firmware: the lowest (log entry 40). -/
def newExtents (g : Nat) : List (Nat × Nat) → List (Nat × Nat) → Option (List Extent)
  | [], _ => some []
  | (kind, n) :: rest, free =>
    match takeUnits free n with
    | none => none
    | some (got, free) => (newExtents g rest free).map fun l =>
        (got.map fun r => ({ kind, group := g, first := r.1, count := r.2 } : Extent)) ++ l

/-- A volume with the units that its structures need in a group, as (kind, bytes); none where the unit map or the 480 extents of a
record have no room. -/
def growStructs (d : Dev) (vol : Volume) (g : Nat) (needs : List (Nat × Nat)) : Option Volume :=
  let more := needs.map fun e => (e.1, unitsFor e.2 - structUnits vol g e.1)
  match newExtents g more (freeRuns (muCount d g) 0 (usedRuns d g)) with
  | none => none
  | some l => if (vol.extents.filter (·.group == g)).length + l.length ≤ 480 then some { vol with extents := vol.extents ++ l } else none

/-- What a layout's slab map, allocation map and dirty bitmap need. -/
def layNeeds (vol : Volume) (l : Layout) : List (Nat × Nat) := [1, 2, 3].map fun k => (k, layBytes l vol.dirtyRegion k)

/-- Pack bits into bytes, bit 0 of byte 0 first. -/
def packBits (bit : Nat → Bool) (bytes : Nat) : List Byte :=
  (List.range bytes).map fun i => BitVec.ofNat 8 (maskOf ((List.range 8).filter fun j => bit (8 * i + j)))

/-! ### Records (R544 to R546) -/

/-- A block or record with its own CRC-32C in its field (R544). -/
def withCrc (len off : Nat) (bs : List Byte) : List Byte :=
  let b := putAt (fit len bs) off (le 4 0)
  putAt b off (le 4 (crc32c b).toNat)

/-- An ownership block of 4 KiB. -/
def ownershipBlock (epoch owner : Nat) (roleA roleB : Bool) : List Byte :=
  let body := fun (crc : Nat) => le 4 0x52574F51 ++ le 4 epoch ++ le 4 crc ++ le 1 owner ++ le 1 (b2n roleA + 2 * b2n roleB)
  fit 4096 (body (crc32c (fit 4096 (body 0))).toNat)

/-- The block of a member header (R544). -/
def headerBlock (d : Dev) (k kind flags epoch gid group pos slabs : Nat) : List Byte :=
  withCrc 4096 16 (le 4 0x4D485451 ++ le 2 1 ++ le 1 kind ++ le 1 flags ++ le 8 epoch ++ zeros 8 ++ le 8 gid ++ le 1 group ++ le 1 pos
    ++ le 1 (k % 64) ++ le 1 (if (viaPlan d).isNone then 0 else if k < 64 then ownShelf d else k / 64 - 1) ++ le 4 slabs
    ++ le 8 (driveOf d k).id.eui64.toNat ++ le 8 (reservationKey (!d.pln.plan.unpaired && d.glb.side)) ++ le 8 d.time)

/-- The group record of a group (R545). -/
def groupRec (x : Group) : GroupRec :=
  { id := x.id, epoch := x.epoch, slots := x.slots, slabs := x.slabs, metaSeed := x.metaSeed, copies := x.journal.copies,
    live := x.journal.live, failed := x.failed }

/-- The 64 KiB of a group record (R545). -/
def groupBytes (d : Dev) (g : Nat) : List Byte :=
  let x := groupOf d g
  let used := usedRuns d g
  withCrc 65536 8 (fit 1024 (fit 576 (fit 64 (le 8 x.id.toNat ++ zeros 4 ++ le 1 (groupN d g) ++ le 1 (min d.pln.plan.journalCopies (groupN d g))
      ++ le 1 (maskOf x.journal.live) ++ le 1 x.failed.length ++ le 4 x.slabs ++ le 4 (muCount d g) ++ le 8 x.metaSeed.toNat
      ++ (List.range 4).flatMap (fun i => le 1 (tgetD x.journal.copies i 0xFF)) ++ le 1 (if g < 64 then 0 else 1) ++ le 1 (g % 64))
      ++ x.slots.flatMap fun k => le 1 (k % 64) ++ le 1 (if g < 64 then 0 else if k < 64 then ownShelf d else k / 64 - 1)
        ++ le 1 (memberCode (driveOf d k).st) ++ zeros 5 ++ le 8 (driveOf d k).id.eui64.toNat)
      ++ x.failed.flatMap fun f => le 1 f.1 ++ le 1 ((f.2.map (· % 64)).getD 0xFF) ++ zeros 2)
    ++ packBits (fun u => used.any fun r => r.1 ≤ u && u < r.1 + r.2) ((muCount d g + 7) / 8))

/-- The 8 KiB of a volume record as a group's members hold it: it names the extents in that group (R545). -/
def volumeBytes (d : Dev) (g v : Nat) (vol : Volume) : List Byte :=
  let nl := vol.newLay.map fun l => le 1 l.scheme ++ le 1 l.k ++ le 1 l.m ++ le 1 l.chunk ++ le 1 (if l.group < 64 then l.group else 0xFF)
    ++ le 1 l.spareCols ++ zeros 2 ++ le 8 l.blocks ++ le 8 l.seed.toNat
  let ow := match vol.op with
    | some o => if vol.sanitizing && o.op == 1 && o.action == 1 then le 1 o.pass ++ zeros 3 ++ le 4 o.slabsDone else zeros 8
    | none => zeros 8
  let ext := sortBy (fun (a b : Extent) => decide (a.kind ≤ b.kind)) (vol.extents.filter (·.group == g))
  let order := fun (e : Extent × Nat) => ((ext.take e.2).filter (·.kind == e.1.kind)).length
  withCrc 8192 128 (fit 512 (fit 192 (fit 128 (descriptor d v vol) ++ zeros 4 ++ le 1 1 ++ zeros 3 ++ fit 8 vol.kcv
      ++ nl.getD (zeros 24) ++ ow ++ le 4 vol.lost.length ++ le 4 ext.length)
      ++ vol.access.flatMap fun e => le 4 e.w0.toNat ++ le 4 e.w1.toNat)
    ++ ext.zipIdx.flatMap fun e => le 1 e.1.kind ++ le 1 0 ++ le 2 (order e) ++ le 4 e.1.first ++ le 4 e.1.count ++ zeros 4)

end Sys2Proof.Machine
end

