-- ==== Sys2Proof/Machine/Store.lean ====
section
/-! DEFINITION. Drive submissions, the metadata space, the journal, dirty regions and stripe locks (R331, R346, R348, R350 to R363,
R387, R547). -/

namespace Sys2Proof.Machine

def stoCnt (d : Dev) (i : Nat) : Dev := count d (0x500300 + 8 * i)
def stoCntN (d : Dev) (i n : Nat) : Dev := countN d (0x500300 + 8 * i) n
def rbCnt (d : Dev) (i : Nat) : Dev := count d (0x500500 + 8 * i)
/-- Tenant counter `i` of a volume (R523). -/
def volCnt (d : Dev) (v i n : Nat) : Dev := countN d (0xC40000 + 64 * v + 8 * i) n

/-- The drive key of a slot on a shelf: below 24 on the own shelf, 64 × (shelf + 1) + slot elsewhere. -/
def memberKey (d : Dev) (slot shelf : Nat) : Nat := if shelf == ownShelf d then slot else 64 * (shelf + 1) + slot

/-- The 128 bytes of an inner record (R452). -/
def innerBytes (kind : Nat) (r : InnerRec) : List Byte :=
  [BitVec.ofNat 8 kind, r.flags, BitVec.ofNat 8 r.gateShelf, 0] ++ le 4 r.seq ++ le 4 r.gateTag.toNat ++ le 2 r.hostPd ++ [0, 0]
    ++ le 4 r.epoch ++ le 4 r.stageKey.toNat ++ le 8 r.stageAddr.toNat ++ fit 32 r.kindFields ++ fit 64 r.payload

/-- Send an inner record to a pier (R452). -/
def innerSend (d : Dev) (pier kind : Nat) (r : InnerRec) : Dev := emit d (.inner pier (innerBytes kind r))

/-- The proxy of a shelf's drives: the pier that holds the side-A role there (R457). -/
def proxyPier (d : Dev) (shelf : Nat) : Nat :=
  if shelf == ownShelf d then 2 * shelf + b2n d.par.roleA else if pierUp d (2 * shelf) then 2 * shelf else 2 * shelf + 1

/-- A drive access: at the own root ports, or for a viaduct group as a FRAG_REQ to the proxy of the member's shelf, with what its
FRAG_DONE is for; write data is staged for the proxy to pull (R452, R457). -/
def driveGo (d : Dev) (g key : Nat) (c : DriveCmd) (use : FragUse) : Dev :=
  let proxy := proxyPier d (keyShelf d key)
  if g < 64 || proxy == d.pln.plan.pier then emit d (.drive key c)
  else
    let (addr, n, rd, pay) := match c with
      | .read l n => (4096 * l, n, true, [])
      | .write l b => (4096 * l, b.length / 4096, false, b)
      | .shadow a b => (a, 0, false, b)
      | .fill a n p => (a, n / 4096, false, (List.range (n / 4)).flatMap fun _ => le 4 p.toNat)
      | _ => (0, 0, false, [])
    let (i, d) := draw d
    let (j, d) := draw d
    let k := Config.free64 i
    let a := Config.free64 j
    let d := if pay.isEmpty then d else { d with via.staged := d.via.staged ++ [(k.toNat % 2 ^ 32, a.toNat, pay)] }
    let tag := d.via.nextSent
    let d := { d with via.sent := tset d.via.sent tag { pier := proxy, use, count := n }, via.nextSent := tag + 1 }
    innerSend d proxy 4
      { flags := BitVec.ofNat 8 (b2n rd), gateTag := BitVec.ofNat 32 tag, epoch := ((tget d.via.groups (g - 64)).map (·.epoch)).getD 0,
        stageKey := BitVec.ofNat 32 (k.toNat % 2 ^ 32), stageAddr := a,
        kindFields := [BitVec.ofNat 8 (key % 64)] ++ zeros 7 ++ le 8 (addr / 4096) ++ le 4 n ++ le 4 (addr % 4096) ++ le 4 pay.length }

/-- Does a drive command write? -/
def DriveCmd.writes : DriveCmd → Bool
  | .write .. | .shadow .. | .fill .. => true
  | _ => false

/-- A drive access; a write that has to wait is kept, behind those that wait already (R418, R430). -/
def driveSendFor (d : Dev) (g key : Nat) (c : DriveCmd) (use : FragUse) : Dev :=
  if c.writes && writeWaits d key then { d with par.gated := d.par.gated ++ [(g, key, c, use)] } else driveGo d g key c use

def driveSend (d : Dev) (g key : Nat) (c : DriveCmd) : Dev := driveSendFor d g key c .none

/-- Submit, in order, what need not wait any longer. -/
def gatedGo (d : Dev) : Dev :=
  d.par.gated.foldl (fun d e => driveSendFor d e.1 e.2.1 e.2.2.1 e.2.2.2) { d with par.gated := [] }

/-- A drive is no longer available: what waits for it is not submitted. -/
def dropGated (d : Dev) (k : Nat) : Dev := { d with par.gated := d.par.gated.filter fun e => e.2.1 != k }

/-- Do something at a byte of the metadata space, on every copy that is available (R353, R547). -/
def metaDo (d : Dev) (g at_ : Nat) (c : Nat → DriveCmd) : Dev :=
  let l := metaLayout d g
  let cell := locate l (groupN d g) (at_ / 1048576)
  (List.range (layW l)).foldl (fun d col =>
    let p := cell.pos.getD col 0
    if posOk d g p then driveSend d g (memberAt d g p) (c (chunkAddr l cell.slab (cell.rows.getD col 0) + at_ % 1048576)) else d) d

/-- Write bytes of a volume's structure, a unit at a time. -/
def structWrite (d : Dev) (v g kind b : Nat) (bs : List Byte) : Dev :=
  match volOf d v with
  | none => d
  | some vol => (pieces 65536 (bs.length / 65536 + 1) bs).zipIdx.foldl (fun d e =>
      match if e.1.isEmpty then none else structByte vol g kind (b + 65536 * e.2) with
      | some at_ => metaDo d g at_ fun a => .write (a / 4096) (fit ((e.1.length + 4095) / 4096 * 4096) e.1)
      | none => d) d

/-- Write zeros over every unit of a volume's structure. -/
def structZero (d : Dev) (v g kind : Nat) : Dev :=
  match volOf d v with
  | none => d
  | some vol => (List.range (structUnits vol g kind)).foldl (fun d u =>
      match structByte vol g kind (65536 * u) with
      | some at_ => metaDo d g at_ fun a => .fill a 65536 0
      | none => d) d

/-- Write the allocation map block that holds an allocation unit (R332, R361). -/
def writeAllocBlock (d : Dev) (v au : Nat) : Dev :=
  match volOf d v with
  | some vol =>
    let b := au / 32768
    structWrite d v vol.lay.group 2 (4096 * b) (packBits (fun i => auSet vol (32768 * b + i)) 4096)
  | none => d

/-- Write a whole structure, with zeros beyond its length to the end of its units (R547). -/
def structPut (d : Dev) (v g kind : Nat) (bs : List Byte) : Dev :=
  structWrite d v g kind 0 (fit (65536 * (((volOf d v).map fun x => structUnits x g kind).getD 0)) bs)

/-- Write the lost-extent list, in the layout of log 0x02 (R394, R547). -/
def writeLost (d : Dev) (v : Nat) : Dev :=
  match volOf d v with
  | some vol => structPut d v vol.lay.group 4 (vol.lost.flatMap fun e => le 8 e.lba ++ le 4 e.count ++ le 1 e.cause ++ le 1 e.slot ++ zeros 2)
  | none => d

/-- Write every structure of a volume to the units that it has in its group (R547). -/
def writeStructs (d : Dev) (v : Nat) : Dev :=
  match volOf d v with
  | none => d
  | some vol =>
    let g := vol.lay.group
    let d := structPut d v g 1 (vol.lay.slabs.flatMap (le 4))
    let d := structZero (structZero d v g 2) v g 3
    let d := ((vol.alloc.map (· / 32768)).eraseDups).foldl (fun d b => writeAllocBlock d v (32768 * b)) d
    let bit := fun r => match dirtyOf vol r with
      | .setting | .dirty => true
      | _ => false
    let d := ((vol.dirty.map (·.1 / 32768)).eraseDups).foldl (fun d b =>
      structWrite d v g 3 (4096 * b) (packBits (fun i => bit (32768 * b + i)) 4096)) d
    writeLost d v

/-! ### Member headers and records (R321, R544, R545) -/

/-- First block of the header copy of a drive that is not current: the one that the next update writes. -/
def copyBase (d : Dev) (k : Nat) : Nat := if (driveOf d k).id.hdr.copy1 then 0 else 8192

/-- The header block of a member of a group. -/
def memberHeader (d : Dev) (g k epoch : Nat) : List Byte :=
  let x := groupOf d g
  let pos := (x.slots.findIdx? (· == k)).getD 0
  let arb := k < 64 && d.pln.plan.arbiters.contains k
  let journal := x.journal.copies.any fun e => e.2 == pos
  let flags := b2n (driveOf d k).id.hdr.sanitizePending + 2 * b2n arb + 4 * b2n journal
  headerBlock d k 1 flags epoch x.id.toNat (if g < 64 then g else 128 + g % 64) pos x.slabs

/-- Write a member's header block into a copy, with the ownership block of an arbiter drive. -/
def writeHead (d : Dev) (g k epoch : Nat) : Dev :=
  let d := driveSend d g k (.write (copyBase d k) (memberHeader d g k epoch))
  if k < 64 && d.pln.plan.arbiters.contains k && d.par.epoch != 0 then
    driveSend d g k (.write (copyBase d k + 1) (ownershipBlock d.par.epoch d.par.owner.toNat d.par.roleA d.par.roleB)) else d

/-- Write the volume records of a copy; the slots beyond them hold no volume. -/
def writeVols (d : Dev) (g k : Nat) (vols : List (List Byte)) : Dev :=
  let first := copyBase d k + 256
  let d := vols.zipIdx.foldl (fun d e => driveSend d g k (.write (first + 2 * e.2) e.1)) d
  driveSend d g k (.fill (4096 * (first + 2 * vols.length)) (8192 * (1024 - vols.length)) 0)

/-- The copy just written of a member's header is its current one. -/
def headWritten (d : Dev) (g k epoch : Nat) : Dev :=
  let x := groupOf d g
  let pos := (x.slots.findIdx? (· == k)).getD 0
  modDrive d k fun y => { y with id.hdr := { y.id.hdr with
    kind := 1, groupId := x.id, position := pos, journal := x.journal.copies.any fun e => e.2 == pos, epoch, copy1 := !y.id.hdr.copy1 } }

/-- The group's records are written to every available member, with the next EPOCH, into the copy that is not current there (R544): the
group record before the volume records, or after them where units come free (R547). -/
def writeRecordsFor (d : Dev) (g : Nat) (shrink : Bool) : Dev :=
  let d := modGroup d g fun x => { x with epoch := x.epoch + 1 }
  let d := mirror d (.st (.group g (groupRec (groupOf d g))))
  let e := (groupOf d g).epoch
  let grp := groupBytes d g
  let vols := (d.sto.vols.filter fun v => v.2.lay.group == g || v.2.newLay.any (·.group == g)).map fun v => volumeBytes d g v.1 v.2
  let up := (groupOf d g).slots.filter fun k => (driveOf d k).st == .ok
  let heads := fun d => up.foldl (fun d k => writeHead d g k e) d
  let groups := fun d => up.foldl (fun d k => driveSend d g k (.write (copyBase d k + 16) grp)) d
  let volumes := fun d => up.foldl (fun d k => writeVols d g k vols) d
  let d := if shrink then groups (volumes (heads d)) else volumes (groups (heads d))
  up.foldl (fun d k => headWritten d g k e) d

def writeRecords (d : Dev) (g : Nat) : Dev := writeRecordsFor d g false

/-- A drive that belongs to no group gets a header of another kind: 2 SPARE, 3 ARBITER; with its ownership block where it is an arbiter
(R491, R544). -/
def writeHeader (d : Dev) (k kind : Nat) : Dev :=
  let d := modDrive d k fun x => { x with id.hdr := { x.id.hdr with kind, groupId := 0, position := 0, journal := false, epoch := x.id.hdr.epoch + 1 } }
  let h := (driveOf d k).id.hdr
  let arb := k < 64 && d.pln.plan.arbiters.contains k
  let base := copyBase d k
  let d := driveSend d 0 k (.write base (headerBlock d k kind (b2n h.sanitizePending + 2 * b2n arb) h.epoch 0 0 0 0))
  let d := if arb && d.par.epoch != 0 then
    driveSend d 0 k (.write (base + 1) (ownershipBlock d.par.epoch d.par.owner.toNat d.par.roleA d.par.roleB)) else d
  modDrive d k fun x => { x with id.hdr := { x.id.hdr with copy1 := !h.copy1 } }

/-! ### The journal (R358 to R363) -/

/-- Type code of a journal record (R363, R407). -/
def jType : JBody → Nat
  | .data .. | .fullImage .. => 1
  | .alloc .. => 2
  | .checkpoint .. => 3
  | .memberEvent .. => 4
  | .pad .. => 5
  | .claim .. => 0x10
  | .progress .. => 0x11
  | .lostExtent .. => 0x12
  | .lostClear .. => 0x13
  | .reshapeCursor .. => 0x14
  | .reshapeSwitch .. => 0x15
  | .journalCopy .. => 0x16

/-- Pad to a multiple of 64 bytes. -/
def pad64 (bs : List Byte) : List Byte := bs ++ zeros ((64 - bs.length % 64) % 64)

/-- Type fields, from byte 40 (R363, R407). -/
def jFields (b : JBody) : List Byte :=
  fit 24 (match b with
  | .data lba n stripe _ _ => le 8 lba ++ le 4 n ++ [0, 0, 0, 0] ++ le 8 stripe
  | .fullImage lba n stripe im => le 8 lba ++ le 4 n ++ [1, BitVec.ofNat 8 im.length, 0, 0] ++ le 8 stripe
  | .alloc es => le 4 es.length
  | .checkpoint h o => le 8 h ++ le 4 o
  | .memberEvent s n r => [BitVec.ofNat 8 s, BitVec.ofNat 8 n, 0, 0] ++ le 4 r.length
  | .pad _ => []
  | .claim s p k sp i => [BitVec.ofNat 8 s, BitVec.ofNat 8 p, BitVec.ofNat 8 k, BitVec.ofNat 8 sp] ++ le 4 i
  | .progress lv w e bd f => [BitVec.ofNat 8 lv, BitVec.ofNat 8 w, 0, 0] ++ le 4 e ++ le 4 bd ++ le 4 f
  | .lostExtent lba n c s => le 8 lba ++ le 4 n ++ [BitVec.ofNat 8 c, BitVec.ofNat 8 s]
  | .lostClear lba n => le 8 lba ++ le 4 n
  | .reshapeCursor lba dir => le 8 lba ++ le 1 dir
  | .reshapeSwitch seed => le 8 seed.toNat
  | .journalCopy s a j => [BitVec.ofNat 8 s, BitVec.ofNat 8 a] ++ zeros 6 ++ le 8 j)

/-- Body after byte 63 (R363). -/
def jBody (b : JBody) : List Byte :=
  match b with
  | .data _ _ _ bytes tags => bytes ++ pad64 tags
  | .fullImage _ _ _ im =>
    im.flatMap (fun i => [BitVec.ofNat 8 i.column, 0, 0, 0] ++ le 4 i.firstBlock ++ le 4 (i.data.length / 4096) ++ le 4 i.shadow.length)
      ++ im.flatMap fun i => pad64 (i.data ++ i.shadow)
  | .alloc es => pad64 (es.flatMap fun e => le 8 (e.1 + (if e.2 then 2 ^ 63 else 0)))
  | .memberEvent _ _ r => pad64 (r.flatMap fun e => le 8 (e.1 + e.2 * 65536))
  | .pad n => zeros (n - 64)
  | _ => []

/-- Header bytes 0 to 63 with a CRC field (R363). -/
def jHeader (r : JRec) (len : Nat) (crc : Nat) : List Byte :=
  le 4 0x4C4E524A ++ [BitVec.ofNat 8 (jType r.body), 0] ++ le 2 r.volume ++ le 8 r.jseq ++ le 4 len ++ le 4 crc ++ le 8 r.time
    ++ le 4 r.cmdTag.toNat ++ le 2 r.part ++ le 2 r.lastPart ++ jFields r.body

/-- The bytes of a record (R363). -/
def recBytes (r : JRec) : List Byte :=
  let b := jBody r.body
  let len := 64 + b.length
  jHeader r len (crc32c (jHeader r len 0 ++ b)).toNat ++ b

/-- Ring bytes of a journal (R359). -/
def ringBytes : Nat := 4294967296

/-- Bytes in use in the ring: each record takes one journal write of whole 4 KiB blocks. -/
def jUsed (j : Journal) : Nat := j.recs.foldl (fun n r => n + (r.len + 4095) / 4096 * 4096) 0
def jFree (j : Journal) : Nat := ringBytes - jUsed j

/-- The position that holds a copy. -/
def copyDrive (d : Dev) (g i : Nat) : Nat := memberAt d g (tgetD (groupOf d g).journal.copies i 0xFF)

/-- Bytes of the largest record (R363), and the bounds of R362. -/
def holdLow : Nat := 67108864 + 8388608
def holdHigh : Nat := 134217728

/-- Hold or resume write-class admission for journal space (R362). -/
def journalHold (d : Dev) (g : Nat) : Dev :=
  let j := (groupOf d g).journal
  if j.held then (if holdHigh < jFree j then modGroup d g fun x => { x with journal.held := false } else d)
  else if jFree j < holdLow then stoCnt (modGroup d g fun x => { x with journal.held := true }) 12
  else d

/-- Place a record at the tail and submit its journal write to every live copy and every copy being re-mirrored; its JOURNAL item
goes first (R359, R360, R387, R418). -/
def jPlace (d : Dev) (g : Nat) (r : JRec) (len off : Nat) (bs : List Byte) : Dev :=
  let d := mirror d (.journal g off r)
  let j := (groupOf d g).journal
  let fin := off + (len + 4095) / 4096 * 4096
  let d := journalHold (modGroup d g fun x => { x with journal := { x.journal with
    next := x.journal.next + 1, tail := fin % ringBytes,
    passed := x.journal.passed.filter fun e => e.2.1 + e.2.2 ≤ off || fin ≤ e.2.1,
    recs := x.journal.recs ++ [{ r, len, off, pend := x.journal.live, durable := x.journal.live.isEmpty }] } }) g
  (j.live ++ j.remirror.map (·.1)).foldl (fun d i =>
    driveSendFor d g (copyDrive d g i) (.write ((64 * 1048576 + off) / 4096) (fit ((bs.length + 4095) / 4096 * 4096) bs))
      (.journal g i r.jseq)) d

/-- Append a record; a PAD record fills the ring's end where the record would wrap (R359). The JSEQ it takes comes with it. -/
def jAppend (d : Dev) (g vol : Nat) (tag : Word) (part last : Nat) (body : JBody) : Nat × Dev :=
  let mk := fun (d : Dev) (b : JBody) (v : Nat) (t : Word) (p l : Nat) =>
    ({ jseq := (groupOf d g).journal.next, volume := v, cmdTag := t, part := p, lastPart := l, time := d.time, body := b } : JRec)
  let r := mk d body vol tag part last
  let len := 64 + (jBody body).length
  let off := (groupOf d g).journal.tail
  let (d, r, off) :=
    if ringBytes < off + len then
      let p := mk d (.pad (ringBytes - off)) 0xFFFF 0 0 0
      let d := jPlace d g p (ringBytes - off) off (recBytes p)
      (d, mk d body vol tag part last, 0)
    else (d, r, off)
  (r.jseq, jPlace d g r len off (recBytes r))

/-- Append a record that no command waits for. -/
def jLog (d : Dev) (g vol : Nat) (body : JBody) : Dev := (jAppend d g vol 0 0 0 body).2

/-- Is a record durable, or already below the head (R360)? -/
def jDurable (d : Dev) (g jseq : Nat) : Bool :=
  (groupOf d g).journal.recs.all fun r => r.r.jseq != jseq || r.durable

/-- Mark records as having no further use (R361). -/
def jDone (d : Dev) (g : Nat) (l : List Nat) : Dev :=
  modGroup d g fun x =>
    let recs := x.journal.recs.map fun r => if l.contains r.r.jseq then { r with done := true } else r
    { x with journal.recs := recs }

/-- Blocks a VESTIBULE record covers. -/
def recRange (r : JRec) : Option (Nat × Nat) :=
  match r.body with
  | .data lba n .. => some (lba, n)
  | .fullImage lba n .. => some (lba, n)
  | _ => none

/-! ### Dirty regions (R350 to R354) -/

/-- Submit the write of a bitmap block with the working copy as it stands; it waits where one is outstanding (R353). -/
def bmSubmit (d : Dev) (v b : Nat) : Dev :=
  match volOf d v with
  | none => d
  | some vol =>
    if (d.sto.bmOut.any fun w => w.vol == v && w.block == b) then
      if d.sto.bmWait.contains (v, b) then d else { d with sto.bmWait := d.sto.bmWait ++ [(v, b)] }
    else
      let mine := vol.dirty.filter fun e => e.1 / 32768 == b
      let regions := (mine.filter fun e => e.2 == .setting || e.2 == .clearing || e.2 == .clearingReset).map (·.1)
      let d := { d with sto.bmOut := d.sto.bmOut ++ [{ vol := v, block := b, regions }] }
      let d := mine.foldl (fun d e => if regions.contains e.1 then mirror d (.dirty v e.1 e.2) else d) d
      let bit := fun i => match dirtyOf vol (32768 * b + i) with
        | .setting | .dirty => true
        | _ => false
      structWrite d v vol.lay.group 3 (4096 * b) (packBits bit 4096)

def setDirty (d : Dev) (v r : Nat) (s : DirtySt) : Dev :=
  modVol d v fun x => { x with dirty := if s == .clean then tdel x.dirty r else tset x.dirty r s }

/-- An update needs a region (R352). -/
def needRegion (d : Dev) (v r : Nat) : Dev :=
  match (volOf d v).map fun x => dirtyOf x r with
  | some .clean => bmSubmit (stoCnt (setDirty d v r .setting) 5) v (r / 32768)
  | some .clearing => setDirty d v r .clearingReset
  | _ => d

/-- Is a region's bit durable (R353)? -/
def regionReady (d : Dev) (v r : Nat) : Bool := ((volOf d v).map fun x => dirtyOf x r) == some .dirty

/-! ### Stripe locks (R348) -/

/-- Does an earlier request for the stripe stand in the way? -/
def lockBlocked (earlier : List LockReq) (q : LockReq) : Bool :=
  earlier.any fun e => e.vol == q.vol && e.stripe == q.stripe && !(e.vol == q.vol && e.cmd == q.cmd) && (e.excl || q.excl)

/-- Grant in arrival order; a command's requests are granted together, so that it never holds one lock while it waits for
another. -/
def lockGrant (l : List LockReq) : List LockReq :=
  let blocked := fun (c : Nat) => l.zipIdx.any fun e => e.1.cmd == c && !e.1.granted && lockBlocked (l.take e.2) e.1
  l.map fun q => if q.granted || blocked q.cmd then q else { q with granted := true }

/-- Request locks of several stripes of a volume at once. -/
def lockAsk (d : Dev) (v cmd : Nat) (stripes : List Nat) (excl : Bool) : Dev :=
  let new := stripes.filter fun s => !d.sto.locks.any fun q => q.vol == v && q.stripe == s && q.cmd == cmd
  if new.isEmpty then d
  else
    let l := lockGrant (d.sto.locks ++ new.map fun s => { vol := v, stripe := s, cmd, excl })
    let waits := (l.filter fun q => q.cmd == cmd && !q.granted && new.contains q.stripe).length
    stoCntN { d with sto.locks := l } 13 waits

def lockHas (d : Dev) (v cmd stripe : Nat) : Bool :=
  d.sto.locks.any fun q => q.vol == v && q.stripe == stripe && q.cmd == cmd && q.granted

/-- Release a command's lock of a stripe and grant what waited (R348). -/
def lockDrop (d : Dev) (v cmd stripe : Nat) : Dev :=
  { d with sto.locks := lockGrant (d.sto.locks.filter fun q => !(q.vol == v && q.stripe == stripe && q.cmd == cmd)) }

/-- Release every lock of a command. -/
def lockDropAll (d : Dev) (cmd : Nat) : Dev := { d with sto.locks := lockGrant (d.sto.locks.filter (·.cmd != cmd)) }

/-! ### Lost extents (R394, R395, R408) -/

/-- Insert an extent, keeping the list ascending with nothing overlapping or adjacent (R408). -/
def lostInsert (l : List LostExt) (x : LostExt) : List LostExt :=
  let near := l.filter fun (e : LostExt) => e.lba ≤ x.lba + x.count && x.lba ≤ e.lba + e.count
  let lo := near.foldl (fun m (e : LostExt) => min m e.lba) x.lba
  let hi := near.foldl (fun m (e : LostExt) => max m (e.lba + e.count)) (x.lba + x.count)
  sortBy (fun (a b : LostExt) => decide (a.lba ≤ b.lba))
    ((l.filter fun (e : LostExt) => !(e.lba ≤ x.lba + x.count && x.lba ≤ e.lba + e.count)) ++ [{ x with lba := lo, count := hi - lo }])

/-- Remove a range from the list. -/
def lostRemove (l : List LostExt) (lba n : Nat) : List LostExt :=
  l.flatMap fun e =>
    if e.lba + e.count ≤ lba || lba + n ≤ e.lba then [e]
    else (if e.lba < lba then [{ e with count := lba - e.lba }] else [])
      ++ (if lba + n < e.lba + e.count then [{ e with lba := lba + n, count := e.lba + e.count - (lba + n) }] else [])

/-- Distance between two extents that do not overlap. -/
def lostDist (x e : LostExt) : Nat := if e.lba + e.count ≤ x.lba then x.lba - (e.lba + e.count) else e.lba - (x.lba + x.count)

/-- Insert into a list that holds at most `room` entries: where it is full, the nearest entry is widened to cover both. -/
def lostAdd (room : Nat) (l : List LostExt) (x : LostExt) : List LostExt :=
  match l with
  | e0 :: es =>
    if l.length < room then lostInsert l x
    else
      let e := es.foldl (fun (b e : LostExt) => if lostDist x e < lostDist x b then e else b) e0
      let lo := min x.lba e.lba
      lostInsert l { x with lba := lo, count := max (x.lba + x.count) (e.lba + e.count) - lo }
  | [] => [x]

/-- Put an extent in a volume's lost-extent list, and the list on the drives. A list that cannot grow in the metadata space is full
(R395, R547). -/
def putLost (d : Dev) (v : Nat) (x : LostExt) : Dev :=
  match volOf d v with
  | none => d
  | some vol =>
    let g := vol.lay.group
    let grown := growStructs d vol g [(4, 16 * (vol.lost.length + 1))]
    let room := if grown.isSome then 1048576 else vol.lost.length
    let d := modVol d v fun y => { y with
      extents := (grown.map (·.extents)).getD y.extents,
      lost := lostAdd room y.lost x }
    let d := writeLost d v
    if grown.any fun y => y.extents != vol.extents then writeRecords d g else d

/-- Record a lost extent: its record, the list, event 0x0D07 with attention 0xD (R394). -/
def recordLost (d : Dev) (v lba n cause slot : Nat) : Dev :=
  match volOf d v with
  | none => d
  | some vol =>
    let g := vol.lay.group
    let d := putLost (jLog d g v (.lostExtent lba n cause slot)) v { lba, count := n, cause, slot }
    rbCnt (logEvent d 0x0D07 0xD (.volume v)
      (le 2 v ++ [BitVec.ofNat 8 slot, 0, BitVec.ofNat 8 g, BitVec.ofNat 8 cause, 0, 0] ++ le 8 lba)) 3

/-- Is a block in a lost extent (R336)? -/
def isLost (vol : Volume) (lba : Nat) : Bool := vol.lost.any fun e => e.lba ≤ lba && lba < e.lba + e.count

end Sys2Proof.Machine
end

