-- ==== Sys2Proof/Machine/Slots.lean ====
section
/-! DEFINITION. Command slots: the capsule's fields, statuses, answering a command, overlap order, and a command's transfers to and
from the host (R284 to R310, R242, R476). -/

namespace Sys2Proof.Machine

def cmdCnt (d : Dev) (i : Nat) : Dev := count d (0x400200 + 8 * i)
def itgCntN (d : Dev) (i n : Nat) : Dev := countN d (0x700100 + 8 * i) n

/-! ### Statuses: TYPE × 256 + CODE (R293, R296) -/

def stSUCCESS : Nat := 0
def stOPCODE : Nat := 0x001
def stFIELD : Nat := 0x002
def stACCESS : Nat := 0x003
def stABORTED : Nat := 0x004
def stABSAN : Nat := 0x005
def stNOTREADY : Nat := 0x006
def stDATALOST : Nat := 0x201
def stMISMATCH : Nat := 0x202
def stUNREAD : Nat := 0x203
def stWFAULT : Nat := 0x204
def stNOTOWNER : Nat := 0x301
def stSLOTS : Nat := 0x401
def stQUOTA : Nat := 0x402
def stPOWER : Nat := 0x403
def stSANITIZE : Nat := 0x404
def stREADONLY : Nat := 0x405

/-! ### The capsule (R284) -/

def Slot.op (s : Slot) : Nat := byteAt s.cap 0
def Slot.flags (s : Slot) : Nat := byteAt s.cap 1
def Slot.vol (s : Slot) : Nat := leAt s.cap 4 2
def Slot.lba (s : Slot) : Nat := leAt s.cap 8 6
def Slot.count (s : Slot) : Nat := leAt s.cap 16 4
def Slot.hostKey (s : Slot) : Nat := leAt s.cap 20 4
def Slot.hostAddr (s : Slot) : Nat := leAt s.cap 24 8
def Slot.trig (s : Slot) : Nat := leAt s.cap 32 4
def Slot.fHOLD (s : Slot) : Bool := bitAt s.flags 1
def Slot.fVERIFY (s : Slot) : Bool := bitAt s.flags 2
def Slot.fTAGS (s : Slot) : Bool := bitAt s.flags 3
/-- DATA_LEN of an admin command with a block (R288). -/
def Slot.dataLen (s : Slot) : Nat := leAt s.cap 16 4
/-- CMD_TAG (R293). -/
def Slot.cmdTag (s : Slot) : Word := BitVec.ofNat 32 (s.sq * 65536 + s.cid)
/-- The PD that owns the command; none for a management submission. -/
def Slot.ownerPd (s : Slot) : Option Nat := if s.msub then none else some s.pd

/-- SQ by which the mirror names a command: for one forwarded here, by its gate shelf too (R455, R456). -/
def mirrorSq (s : Slot) : Nat := match s.from_ with
  | some (_, shelf, _) => (shelf + 1) * 65536 + s.sq
  | none => s.sq

/-- CMD item of a command (R417, R456). -/
def cmdItem (s : Slot) (held released : Bool) : MirrorItem :=
  .cmd (mirrorSq s) s.cap s.adm held released (match s.from_ with
    | some (pier, _, seq, _) => some (pier, seq)
    | none => s.to_)

/-- Read-class commands (R286). -/
def isReadOp (op : Nat) : Bool := op == 1 || op == 6 || op == 7
/-- Write-class I/O commands (R96). -/
def isWriteOp (op : Nat) : Bool := op == 2 || op == 3 || op == 4
/-- Admin commands that write drives: VOLUME_CREATE, VOLUME_DELETE, VOLUME_RESHAPE and SET_ACCESS, SANITIZE, FORMAT, MEMBER_CONTROL and
VIADUCT_CONTROL, each by its opcode, which is all that admission has of it (R96; DEDUCED, log entry 83). -/
def isMediaAdmin (op : Nat) : Bool := [0x85, 0x86, 0x87, 0x8C, 0x8D, 0x91, 0x96].contains op
def isWriteClass (op : Nat) : Bool := isWriteOp op || isMediaAdmin op
/-- I/O commands that name a volume. -/
def isVolIo (op : Nat) : Bool := 1 ≤ op && op ≤ 7
/-- Admin commands that carry a parameter block pulled from the host (R288). -/
def hasBlock (op : Nat) : Bool :=
  [0x85, 0x87, 0x8A, 0x8C, 0x8D, 0x8F, 0x90, 0x91, 0x92, 0x95, 0x96].contains op

/-! ### Slots, milestones and log entries (R291, R532) -/

def slotOf (d : Dev) (c : Nat) : Option Slot := tget d.cmd.slots c
def modSlot (d : Dev) (c : Nat) (f : Slot → Slot) : Dev := { d with cmd.slots := tupd d.cmd.slots c f }

/-- Note a milestone's first time: 0 FETCH, 1 ADMIT, 2 RELEASE, 3 FIRST_SUBMIT, 4 DATA_LANDED, 5 DURABLE, 6 CMPL_GEN, 7
CMPL_SENT (R532). -/
def mile (t i : Nat) (s : Slot) : Slot := if thas s.miles i then s else { s with miles := tset s.miles i t }

/-- Drive commands are issued for a command. -/
def driveIssued (d : Dev) (c n : Nat) : Dev :=
  if n == 0 then d else modSlot d c fun s => mile d.time 3 { s with driveCmds := s.driveCmds + n }

/-- A command acts under the rights it was found to hold at admission (R24). -/
def actFor (d : Dev) (c : Nat) : Dev :=
  { d with acc.acting := (slotOf d c).bind fun s => if s.rights.isEmpty then none else some (s.master, s.rights) }

/-- Run a step of a command under its rights; the log entries that it appends name the command (R291), and its entry will say so
(R293). -/
def forCmd (d : Dev) (c : Nat) (f : Dev → Dev) : Dev :=
  let n := d.log.seq
  let was := d.acc.acting
  let d := { f (actFor d c) with acc.acting := was }
  match slotOf d c with
  | some s =>
    if d.log.seq == n then d
    else
      let k := d.log.seq - n
      let st := (s.result.map (·.1)).getD 0
      let fresh := (d.log.entries.drop (d.log.entries.length - k)).map fun (e : LogEntry) =>
        { e with tag := s.cmdTag, status := BitVec.ofNat 16 st, pd := s.ownerPd }
      modSlot { d with log.entries := d.log.entries.take (d.log.entries.length - k) ++ fresh } c fun s => { s with more := true }
  | none => d

/-- Decide a command's status and results; the first decision stands (R295). -/
def answer (d : Dev) (c st r0 r1 : Nat) : Dev :=
  modSlot d c fun s => if s.result.isSome then s else { s with result := some (st, r0, r1), phase := .answered }

/-- Answer with SUCCESS. -/
def succeed (d : Dev) (c r0 r1 : Nat) : Dev := answer d c stSUCCESS r0 r1

/-- Results of a status that names a block: LBA [31:0], then [47:32] (R296). -/
def answerLba (d : Dev) (c st lba : Nat) : Dev := answer d c st (lba % 2 ^ 32) (lba / 2 ^ 32 % 65536)

/-- Answer when an item mirrored for the command is acknowledged; at once where nothing is mirrored (R418). -/
def answerAfter (d : Dev) (c : Nat) (item : MirrorItem) (st r0 r1 : Nat) : Dev :=
  if paired d then
    let d := modSlot d c fun s => { s with waitFor := true, result := some (st, r0, r1) }
    mirrorQueue d item (.answer c)
  else answer (mirror d item) c st r0 r1

/-- What waited is done: the answer stands (R418). -/
def answerGo (d : Dev) (c : Nat) : Dev := modSlot d c fun s =>
  if s.waitFor then { s with waitFor := false, phase := .answered } else s

/-- Is a command running under an execution command of its opcode? -/
def atWork (d : Dev) (c op : Nat) : Bool :=
  match slotOf d c with
  | some s => s.op == op && (s.phase == .admitted || s.phase == .running) && s.result.isNone
  | none => false

/-- An admin command starts its execution: its point of no return (R309). -/
def adminStart (d : Dev) (c op : Nat) : Option (Slot × Dev) :=
  match slotOf d c with
  | some s => if s.op == op && s.phase == .admitted && s.result.isNone
      then some (s, modSlot d c fun s => { s with phase := .running, pnr := true }) else none
  | none => none

/-- The block of an admin command is the one pulled into staging; a management submission, which pulls nothing, takes the
operand (R285, R314). -/
def blockOk (s : Slot) (blk : List Byte) : Bool :=
  s.msub || (blk.length == s.dataLen && s.landed == s.dataLen && s.data == blk)

/-! ### Overlap order (R301 to R304, R306) -/

/-- Is a command done for ordering (R301)? -/
def slotDone (s : Slot) : Bool :=
  if isReadOp s.op then s.staged || s.phase == .answered || s.phase == .generated else s.phase == .generated

/-- Do LBA ranges intersect? -/
def meets (a n b m : Nat) : Bool := a < b + m && b < a + n

/-- Do two I/O commands on one volume overlap (R301)? Two writes that share a clear allocation unit are taken to overlap too,
because each zero-fills it (DEDUCED from R333 and R311, log entry 70). -/
def overlaps (d : Dev) (a b : Slot) : Bool :=
  isVolIo a.op && isVolIo b.op && a.vol == b.vol
    && ((a.op == 5 && isWriteOp b.op) || (b.op == 5 && isWriteOp a.op)
      || ((isWriteOp a.op || isWriteOp b.op) && meets a.lba a.count b.lba b.count)
      || (isWriteOp a.op && isWriteOp b.op
        && meets (a.lba / 256) ((a.lba + a.count - 1) / 256 + 1 - a.lba / 256) (b.lba / 256) ((b.lba + b.count - 1) / 256 + 1 - b.lba / 256)
        && (volOf d a.vol).any fun v => [a.lba / 256, (a.lba + a.count - 1) / 256, b.lba / 256, (b.lba + b.count - 1) / 256].any
          fun u => !auSet v u))

/-- Does command `a` come before command `b`: by submission within an SQ, by place across SQs and after a release (R302, R303,
R306)? -/
def precedes (a b : Slot) : Bool :=
  if a.sq == b.sq && !a.held && !b.held && !a.msub && a.from_.isNone && b.from_.isNone then a.order < b.order
  else match a.place, b.place with
    | some x, some y => x < y
    | _, _ => false

/-- A fenced capsule that waits unadmitted ahead of a command of its SQ, and overlaps it (R302, R304). -/
def fencedAhead (d : Dev) (s : Slot) : Bool :=
  !s.held && s.from_.isNone && d.cmd.bufs.any fun b => b.2.any fun f =>
    f.sq == s.sq && f.order < s.order && bitAt (byteAt f.cap 1) 0 && !bitAt (byteAt f.cap 1) 1
      && overlaps d { s with cap := f.cap } s

/-- Is it a command's turn in overlap order? -/
def inTurn (d : Dev) (c : Nat) (s : Slot) : Bool :=
  s.place.isSome && !fencedAhead d s
    && d.cmd.slots.all fun e => e.1 == c || e.2.place.isNone || slotDone e.2 || !precedes e.2 s || !overlaps d e.2 s

/-- A held command that was released and has not taken its place: PWR_FAIL or the cap holds it (R96, R538). -/
def releasedWaits (s : Slot) : Bool := s.held && s.phase == .admitted && s.place.isNone && s.result.isNone

/-! ### Transfers (R285, R242) -/

/-- The connection of an SQ's completion queue. -/
def sqConn (d : Dev) (q : Nat) : Option Nat :=
  (tget d.cmd.sqs q).bind fun r => (tget d.cmd.cqs r.cq).map (·.conn)

/-- Where a command's data moves: the connection of its CQ, or the inner connection to the gate that forwarded it (R282,
R455). -/
def xferConn (d : Dev) (s : Slot) : Option Nat :=
  match s.from_ with
  | some (pier, _) => tget d.via.inner pier
  | none => if s.msub || s.orphan then none else sqConn d s.sq

/-- Key and address of a command's host buffer, by its own capsule or as staged at the gate. -/
def xferKey (s : Slot) : Nat := match s.from_ with | some (_, _, _, k, _) => k | none => s.hostKey
def xferAddr (s : Slot) : Nat := match s.from_ with | some (_, _, _, _, a) => a | none => s.hostAddr

/-- Host data that a command pulls, in bytes. -/
def pullBytes (s : Slot) : Nat :=
  if s.op == 2 then 4096 * s.count else if hasBlock s.op && !s.msub then s.dataLen else 0

/-- Pull host data with READ_REQs of at most 1 MiB (R242). A transfer with no connection to run on fails (R281). -/
def pullData (d : Dev) (c : Nat) : Dev :=
  match slotOf d c with
  | none => d
  | some s =>
    let n := pullBytes s
    if n == 0 || s.asked != 0 then d
    else
      let d := modSlot d c fun s => { s with asked := n }
      match xferConn d s with
      | none => failUse d (.pull c 0) 0
      | some k => (List.range ((n + 1048575) / 1048576)).foldl (fun d i =>
          sendRead d k (xferAddr s + 1048576 * i) (xferKey s) (min 1048576 (n - 1048576 * i)) (.pull c (1048576 * i))) d

/-- Bytes of a pull arrive in staging. -/
def landData (d : Dev) (c off : Nat) (bs : List Byte) : Dev :=
  modSlot d c fun s => if s.phase == .answered || s.phase == .generated then s else
    let s := { s with data := putAt (fit (pullBytes s) s.data) off bs, landed := s.landed + bs.length }
    if s.landed == pullBytes s then mile d.time 4 s else s

/-- Is every data byte in staging? -/
def landedAll (s : Slot) : Bool := s.landed == pullBytes s

/-- Send bytes to the host buffer of a command, in messages of at most 16 MiB (R202); for a forwarded command they are kept for the
gate to pull (R452). -/
def sendHost (d : Dev) (c : Nat) (addr : Nat) (bs : List Byte) : Dev :=
  match slotOf d c with
  | none => d
  | some s =>
    if bs.isEmpty then d
    else if s.from_.isSome then modSlot d c fun s => { s with back := s.back ++ [(addr, bs)] }
    else match xferConn d s with
      | none => failUse d (.data c) 0
      | some k => sendMsg d k { kind := .write, len := bs.length, addr, key := xferKey s, data := bs, use := .data c }

/-- Has every data packet of a command been sent (R42)? -/
def dataSent (d : Dev) (c : Nat) : Bool :=
  d.trs.conns.all fun e => e.2.sendQ.all fun m => match m.use with | .data x => x != c | _ => true

/-- Drop what a caught command still has to ask for (R310). -/
def dropTransfers (d : Dev) (c : Nat) : Dev :=
  let mine := fun (u : Use) => match u with | .pull x _ => x == c | .data x => x == c | _ => false
  { d with trs.conns := d.trs.conns.map fun e =>
      (e.1, { e.2 with sendQ := e.2.sendQ.filter fun m => !mine m.use || (m.kind == .write && m.off != 0) }) }

/-! ### Keys (R476) -/

/-- The bound key page of a volume where it is usable (R476). -/
def usableKey (d : Dev) (vol : Volume) : Option KeyPage :=
  match tget d.itg.pages vol.keyPage with
  | some k => if kcvOf k == vol.kcv then some k else none
  | none => none

/-- Does a command verify tags (R369)? -/
def isVerified (vol : Volume) (s : Slot) : Bool :=
  s.op == 6 || (s.op == 1 && (s.fVERIFY || vol.verifyReads))

/-- Does a command need a usable key (R476)? -/
def needsKey (vol : Volume) (s : Slot) : Bool := isWriteOp s.op || isVerified vol s || (s.op == 1 && s.fTAGS)

end Sys2Proof.Machine
end

