-- ==== Sys2Proof/Machine/Reset.lean ====
section
/-! DEFINITION. Resets and the shutdown into HALT: what each clears and what survives (R83, R101, R108, R109, R111, R512). -/

namespace Sys2Proof.Machine

/-- Words of AON: the global, power and management windows (R80, R108). -/
def aonWord (o : Nat) : Bool := o / 0x10000 == 0 || o / 0x10000 == 1 || o / 0x10000 == 0xD0

/-- The register file after a warm reset. -/
def regWarm (r : Reg) : Reg :=
  { live := tfilter r.live fun o _ => aonWord o, staged := [], cnt := tfilter r.cnt fun o _ => aonWord o,
    latch := tfilter r.latch fun o _ => aonWord o, sticky := tfilter r.sticky fun o _ => aonWord o, readVal := r.readVal }

/-- A volume as its record on the drives holds it. -/
def volDurable (v : Volume) : Volume := { v with dirty := [], pause := false, creating := false }

/-- A group as its record on the drives holds it; the journal's records are read again by the scan (R371). -/
def groupDurable (g : Group) : Group :=
  { g with journal := { g.journal with recs := [], remirror := [], held := false,
                                       copies := g.journal.copies.filter fun e => g.journal.live.contains e.1 }, claims := [], restoring := none,
           redo := [], passes := 0, level := 0, rate := 0, left := 0 }

/-- What the drives keep of the storage state. -/
def stoDurable (s : Sto) : Sto :=
  { groups := s.groups.map fun e => (e.1, groupDurable e.2), vols := s.vols.map fun e => (e.1, volDurable e.2) }

/-- What lies on the arbiter drives of the pair's state: the ownership record (R413). -/
def parDurable (p : Par) : Par := { epoch := p.epoch, owner := p.owner, roleA := p.roleA, roleB := p.roleB }

/-- What the drives of a viaduct keep: the groups and the epochs (R457, R461). -/
def viaDurable (v : Via) : Via := { groups := v.groups.map fun e => (e.1, { e.2 with claim := none, granted := none, homeAt := 0, acks := [], lost := none }) }

/-- Flash contents: images that passed their check, and the copy owed after a boot with LOAD_FIRST (R499 to R502); and the
operations whose progress the drives keep (R493 to R495, R503). -/
def admDurable (a : Adm) : Adm := { ops := a.ops, checked := a.checked, copyOwed := a.copyOwed }

/-- Index allocation of connections and regions counts from the cold reset (R212, R254): indices in use at a warm reset become
free then. -/
def trsWarm (d : Dev) : Trs :=
  { regionGen := d.trs.regionGen, regionFresh := d.trs.regionFresh,
    regionFreed := d.trs.regionFreed ++ (tkeys d.trs.regions).map fun k => (k, d.time),
    connFresh := d.trs.connFresh, connFreed := d.trs.connFreed ++ (tkeys d.trs.conns).map fun k => (k, d.time),
    connGen := d.trs.connGen, probeSeq := d.trs.probeSeq }

/-- The entries in force: those of the fuses, and the soft ones that are not fused (R512). -/
def repairsNow (b : Bst) : List RepairEntry := b.fuses ++ b.soft.drop b.fused

/-- The pseudo-channels that the fuses and the soft-repair entries retire (R512, R517). -/
def repairsRetired (l : List RepairEntry) : List Nat :=
  (l.filterMap fun e => match e with | .channel pc => some pc | _ => none).eraseDups

/-- A burn that loses power: the entries burned so far, whose number is a free value, are valid, and the one under way occupies its
slot with no valid bit (R513). -/
def burnLost (d : Dev) : Dev :=
  if !d.bst.burning then d
  else
    let all := min (d.bst.soft.length - d.bst.fused) (1024 - d.bst.fuseUsed)
    let (x, d) := draw d
    let n := Config.freeNat x % (all + 1)
    { d with bst.burning := false, bst.fuses := d.bst.fuses ++ (d.bst.soft.drop d.bst.fused).take n, bst.fused := d.bst.fused + n,
             bst.fuseUsed := min 1024 (d.bst.fuseUsed + n + 1) }

/-- Soft repairs, retirements and row spares are held in AON, fuses for good; a unit held out stays out until a cold reset (R511,
R512, R517). -/
def bstWarm (b : Bst) : Bst :=
  { soft := b.soft, fused := b.fused, fuseUsed := b.fuseUsed, fuses := b.fuses, held := b.held,
    retired := repairsRetired (repairsNow b) }

/-- Fuses survive a cold reset, and their entries are applied (R512, R517). -/
def bstCold (b : Bst) : Bst := { fuseUsed := b.fuseUsed, fuses := b.fuses, retired := repairsRetired b.fuses }

/-- Clear everything outside AON (R108, R109). -/
def clearVolatile (d : Dev) : Dev :=
  { d with
    glb := { d.glb with shutdown := false, tried := [], bootOrder := [], underLoad := false, mgmtWait := false, fwSource := 3, fwVersion := 0, planTried := [],
                        planAccepted := false, planApplied := false, joinDone := false, joinWait := false },
    pwr := { d.pwr with dom := [], reqs := [], turn := none, heldOff := 0, idle := none,
                        heldAt := none, holdAttn := false },
    reg := regWarm d.reg,
    pln := { seq := d.pln.seq, attempt := d.pln.attempt }, acc := { tap := d.acc.tap, dbgFails := d.acc.dbgFails }, eth := {}, swc := {}, trs := trsWarm d, cmd := {},
    sto := stoDurable d.sto, par := { parDurable d.par with unfit := d.par.unfit, barred := d.par.barred, lostAttn := d.par.barred, takeovers := d.par.takeovers },
    via := viaDurable d.via, itg := {}, adm := admDurable d.adm,
    bst := bstWarm d.bst, ctr := { clears := d.ctr.clears, seq := d.ctr.seq, windowSeq := d.ctr.windowSeq, traceSeq := d.ctr.traceSeq } }

/-- Clear everything outside AON and enter RESET (R108, R109). -/
def warmClear (d : Dev) : Dev := enter (clearVolatile (burnLost d)) .reset

/-- The partner-halted message leaves on the partywall where it is up (R101, R109, R424). -/
def haltNotice (d : Dev) : Dev := pairOn d false .partnerHalted

/-- A warm reset: admission stops, the partner is told, the load falls and every domain goes off (R109). -/
def warmReset (d : Dev) (causeBit : Nat) : Dev :=
  let d := { d with glb.cause := d.glb.cause ||| BitVec.ofNat 6 (1 <<< causeBit) }
  warmClear (haltNotice d)

/-- A self-fence: PARTNER_HALTED on every path, event 0x0E03, and a warm reset with no cause bit of its own (R113, R431). -/
def selfFence (d : Dev) : Dev := warmClear (count (logEvent (pairAll d .partnerHalted) 0x0E03 0 .none []) 0x900170)

/-- A cold reset (R108): everything, AON too; fuses, OTP, flash and drives survive, and GLB_RESET_CAUSE while VDD_AON holds. -/
def coldReset (d : Dev) (cause : BitVec 6) : Dev :=
  let d := burnLost d
  { free := d.free, out := d.out,
    glb := { cause, otpFw := d.glb.otpFw, otpPlan := d.glb.otpPlan, porst := true },
    acc := { tap := d.acc.tap },
    sto := stoDurable d.sto, par := parDurable d.par, via := viaDurable d.via, adm := admDurable d.adm,
    bst := bstCold d.bst }

/-- Ask for every domain but PD_DBG to be switched off, users before what they require (R81, R101). -/
def allOff (d : Dev) : Dev :=
  ((planOrder 0 (fun _ => true) 64 []).reverse.filter (· != pdDBG)).foldl (fun d n => domQueueOff d n false) d

/-- Shutdown into HALT (R101): admission stops, partner-halted leaves, every key page is cleared, then domains go off. -/
def shutdown (d : Dev) : Dev :=
  if d.glb.shutdown || !running d then d
  else
    let d := haltNotice d
    let d := { d with glb.shutdown := true, itg.pages := [], itg.clearing := [] }
    allOff { d with bst.active := none }

end Sys2Proof.Machine
end

