-- ==== Sys2Proof/Machine/Member.lean ====
section
/-! DEFINITION. Member drives: judging a drive, faults, failures, claims of spare space, and the copies of the journal (R315, R316,
R360, R364, R379 to R388). -/

namespace Sys2Proof.Machine

/-- Events 0x0D01 to 0x0D0B (R409). -/
def rbEvent (d : Dev) (ev attn : Nat) (t : Topic) (vol slot pos g kind lba : Nat) : Dev :=
  logEvent d ev attn t (le 2 vol ++ [BitVec.ofNat 8 slot, BitVec.ofNat 8 pos, BitVec.ofNat 8 g, BitVec.ofNat 8 kind, 0, 0] ++ le 8 lba)

/-- Events 0x0C01 to 0x0C06 (R378). -/
def stoEvent (d : Dev) (ev vol lba slot : Nat) (t : Topic) : Dev := logEvent d ev 0 t (le 2 vol ++ le 6 lba ++ le 1 slot)

/-- Set a member's state, mirrored to the partner (R316). -/
def setMember (d : Dev) (k : Nat) (st : MemberSt) : Dev :=
  let d := if (driveOf d k).st == st then d else modDrive d k fun x => { x with st, since := d.time }
  mirror d (.st (.member k (memberCode st)))

/-- The group and position that a slot has by the records, with the slot in that group's member list. -/
def slotPos (d : Dev) (k : Nat) : Option (Nat × Nat) :=
  (d.sto.groups.filterMap fun e => (e.2.slots.findIdx? (· == k)).map fun i => (e.1, i)).head?

/-- The layout group of a slot in the floor plan, formed or not (R317). -/
def planGroup (d : Dev) (k : Nat) : Option Nat := (List.range 6).find? fun g => (d.pln.plan.groups.getD g []).contains k

/-- The layout group of a slot: of the member or the replacement in it by the records, else by the floor plan. -/
def slotGroup (d : Dev) (k : Nat) : Option Nat :=
  match slotPos d k with
  | some (g, _) => some g
  | none => match d.sto.groups.find? fun e => e.2.failed.any (·.2 == some k) with
    | some e => some e.1
    | none => planGroup d k

/-- Does this device decide the member state of a slot: it owns the slot's layout group, or the slot is in none (R316, R412)? -/
def decides (d : Dev) (k : Nat) : Bool := (slotGroup d k).all (ownsGroup d)

/-! ### Registrations and reservations (R414) -/

/-- Every drive that the pair uses: members, dedicated spares, arbiters. -/
def pairDrives (d : Dev) : List Nat :=
  ((List.range 6).flatMap (planSlots d) ++ d.pln.plan.spares ++ d.pln.plan.arbiters).eraseDups

/-- Has this device registered on the pair's drives: a join has reached SYNCING? -/
def registers (d : Dev) : Bool := !d.pln.plan.unpaired && (inPair d || d.par.lost)

/-- The slots of a group's members, replacements among them. -/
def memberSlots (d : Dev) (g : Nat) : List Nat := (groupOf d g).slots ++ (groupOf d g).failed.filterMap (·.2)

/-- The owner reserves a drive that is a member. -/
def reserveOn (d : Dev) (k : Nat) : Dev := if registers d && k < 64 then emit d (.drive k .reserve) else d

/-- A drive that comes up later is registered on, and reserved where it is a member of an own group. -/
def registerOn (d : Dev) (k : Nat) : Dev :=
  if !registers d || !(pairDrives d).contains k then d
  else
    let d := emit d (.drive k .register)
    if (List.range 6).any fun g => ownsGroup d g && (memberSlots d g).contains k then reserveOn d k else d

/-! ### Journal copies (R360, R387, R388) -/

/-- The copy held at a position. -/
def copyAt (d : Dev) (g pos : Nat) : Option Nat := ((groupOf d g).journal.copies.find? fun e => e.2 == pos).map (·.1)

/-- May a new journal copy go to a position: an OK member that holds none; in a viaduct group, on a shelf that holds no live copy
(R387, R457). -/
def copyMay (d : Dev) (g p : Nat) : Bool :=
  let sh := fun q => keyShelf d (memberAt d g q)
  posOk d g p && (copyAt d g p).isNone
    && (g < 64 || (groupOf d g).journal.live.all fun i => (tget (groupOf d g).journal.copies i).all fun q => sh q != sh p)

/-- Start a new copy in place of copy `i` on the member of lowest position that may hold it, from the live copies (R387). -/
def remirrorStart (d : Dev) (g i : Nat) : Dev :=
  let n := groupN d g
  match if (groupOf d g).journal.live.isEmpty then none
      else (List.range n).find? (copyMay d g) with
  | none => d
  | some p =>
    let r := jAppend d g 0xFFFF 0 0 0 (.journalCopy (memberAt d g p) 0 0)
    let d := modGroup r.2 g fun x =>
      { x with journal := { x.journal with copies := tset x.journal.copies i p, remirror := x.journal.remirror ++ [(i, r.1)] } }
    rbCnt d 7

/-- Start what copies are missing: none could take them before, or a reset ended their re-mirroring. -/
def remirrorMissing (d : Dev) (g : Nat) : Dev :=
  ((List.range (min d.pln.plan.journalCopies (groupN d g))).filter fun i =>
    let j := (groupOf d g).journal
    !j.live.contains i && !j.remirror.any (·.1 == i)).foldl (fun d i => remirrorStart d g i) d

/-- A copy stops being live: what waited on it alone is durable, the group record is updated, a new copy starts (R360, R387,
R388). -/
def dropCopy (d : Dev) (g i : Nat) : Dev :=
  let j := (groupOf d g).journal
  if !j.live.contains i && !j.remirror.any (·.1 == i) then d
  else
    let slot := copyDrive d g i
    let recs := j.recs.map fun r =>
      let pend := r.pend.erase i
      { r with pend, durable := r.durable || (pend.isEmpty && !(j.live.erase i).isEmpty) }
    let d := modGroup d g fun x => { x with journal := { x.journal with
      live := j.live.erase i, remirror := j.remirror.filter (·.1 != i), copies := tdel j.copies i, recs := recs } }
    let d := stoEvent d 0x0C04 0xFFFF 0 slot .none
    remirrorStart (writeRecords d g) g i

/-! ### Suspicion (R364, R379, R381) -/

/-- Regions with an update in them on a stripe that includes the member: volume, region (R364). -/
def inFlight (d : Dev) (g k : Nat) : List (Nat × Nat) :=
  (d.cmd.slots.flatMap fun e =>
    match volOf d e.2.vol with
    | some v =>
      if e.2.phase != .running || e.2.regions.isEmpty then []
      else (e.2.works.filter fun w =>
          let (l, s) := layoutOf v w.stripe
          l.group == g && w.frags.any (fun f => f.st == .waiting || f.st == .sent || w.frags.isEmpty)
            && (locate l (groupN d g) s).pos.any fun p => memberAt d g p == k).map fun w => (e.2.vol, regionOf v w.stripe)
    | none => []).eraseDups

/-- The MEMBER_EVENT record of a state change (R364, R383). During RECOVERY every region still dirty joins the uncertain set of a
member that becomes unavailable (R375). -/
def memberEvent (d : Dev) (g k st : Nat) (regions : List (Nat × Nat)) : Dev :=
  let r := jAppend d g 0xFFFF 0 0 0 (.memberEvent k st regions)
  let d := modDrive r.2 k fun x => { x with event := some r.1, behind := (x.behind ++ regions).eraseDups }
  if st == 2 then d
  else { d with sto.recovery := tupd d.sto.recovery g fun (x : Recovery) =>
    { x with uncertain := x.uncertain ++ x.dirty.map fun e => (k, e.1, e.2) } }

/-- Forget the reads outstanding at a member, so that they are asked again of other columns (R381). -/
def dropReads (d : Dev) (k : Nat) : Dev :=
  let fix := fun (s : Slot) => match volOf d s.vol with
    | some v => { s with works := s.works.map fun w =>
        let (l, st) := layoutOf v w.stripe
        let c := locate l (groupN d l.group) st
        { w with asked := w.asked.filter fun a => memberAt d l.group (c.pos.getD a.1 0) != k } }
    | none => s
  { d with cmd.slots := d.cmd.slots.map fun e => (e.1, fix e.2) }

/-- An OK member becomes SUSPECT, or its slot ABSENT with the position handled as SUSPECT (R379, R381). -/
def loseMember (d : Dev) (k : Nat) (st : MemberSt) : Dev :=
  if !decides d k then d
  else match slotPos d k with
  | none => setMember d k st
  | some (g, pos) =>
    let regions := inFlight d g k
    let d := dropGated d k
    let d := rbEvent (setMember d k st) 0x0D01 0 .none 0xFFFF k pos g 0 0
    let d := dropReads (memberEvent d g k (memberCode st) regions) k
    let d := modDrive d k fun x => { x with catching := false }
    match copyAt d g pos with
    | some i => dropCopy d g i
    | none => d

/-- R381 starts again for a member in catch-up: its MEMBER_EVENT record first (R383). -/
def suspectAgain (d : Dev) (k : Nat) : Dev :=
  if !(driveOf d k).catching then d
  else
    let d := modDrive d k fun x => { x with catching := false, since := d.time }
    match slotPos d k with
    | some (g, _) => memberEvent d g k (memberCode .suspect) (inFlight d g k)
    | none => d

/-- A fault report (R379): an OK member goes SUSPECT and its queues are reset; one in catch-up starts R381 again (R383). -/
def suspect (d : Dev) (k : Nat) : Dev :=
  if !decides d k then d
  else if (driveOf d k).st == .ok then emit (loseMember d k .suspect) (.drive k .queueReset)
  else if (driveOf d k).st == .suspect then emit (suspectAgain d k) (.drive k .queueReset)
  else d

/-! ### Failure and claims (R382, R385, R386) -/

/-- A spare drive that can take a failed position: in the failed slot, else the lowest dedicated spare with enough slabs
(R385). -/
def slabsOf (bytes : Nat) : Nat := (min bytes 256000000000000 - 8 * 2 ^ 30) / (2 ^ 30 + 4 * 2 ^ 20)

def findReplacement (d : Dev) (g pos : Nat) : Option Nat :=
  let fits := fun k => (driveOf d k).st == .spare && (groupOf d g).slabs ≤ slabsOf (driveOf d k).id.capacity
  let own := memberAt d g pos
  if fits own then some own else (sortN d.pln.plan.spares).find? fits

/-- Does some band of a volume of the group find no source for a failed position (R385)? -/
def needsSource (d : Dev) (g pos : Nat) : Bool :=
  d.sto.vols.any fun e => (layoutsOf e.1 e.2).any fun kl => kl.2.group == g && (List.range kl.2.slabs.length).any fun en =>
    (List.range (layBands kl.2 (groupN d g))).any fun b =>
      (bandClaims d kl.2 (bandPattern kl.2 (groupN d g) en b)).contains (pos, .none)

/-- Give a failed position its replacement, which becomes REBUILDING_INTO (R386). -/
def takeReplacement (d : Dev) (g pos k : Nat) : Dev :=
  let d := modGroup d g fun x => { x with failed := x.failed.map fun f => if f.1 == pos then (f.1, some k) else f }
  reserveOn (setMember (modDrive d k fun x => { x with group := g, pos }) k .rebuilding) k

/-- Record the claims of a failure: CLAIM record, group record, event 0x0D04, or 0x0D08 where nothing can be claimed (R385,
R386). -/
def claimSpace (d : Dev) (g pos : Nat) : Dev :=
  let failedSlot := memberAt d g pos
  let idx := (groupOf d g).failed.findIdx fun f => f.1 == pos
  let (kind, spare, d) :=
    if needsSource d g pos then match findReplacement d g pos with
      | some k => (if k == failedSlot then 2 else 1, k, takeReplacement d g pos k)
      | none => (0, 0xFF, d)
    else (0, 0xFF, d)
  let r := jAppend d g 0xFFFF 0 0 0 (.claim failedSlot pos kind spare idx)
  let d := writeRecords (modGroup r.2 g fun x => { x with claims := x.claims ++ [r.1] }) g
  let d := rbCnt (rbEvent d 0x0D04 0x7 (.group g) 0xFFFF failedSlot pos g kind 0) 2
  if needsSource d g pos then
    rbEvent (modGroup d g fun x => { x with stalled := true }) 0x0D08 0 .none 0xFFFF failedSlot pos g 0 0 else d

/-- A member becomes FAILED (R382, R386). -/
def failMember (d : Dev) (k cause : Nat) : Dev :=
  if !decides d k then d else
  let d := modDrive (dropGated d k) k fun x => { x with cause, catching := false }
  match slotPos d k with
  | none => rbEvent (setMember d k .failed) 0x0D03 0 .none 0xFFFF k 0xFF 0xFF cause 0
  | some (g, pos) =>
    let regions := if (driveOf d k).st == .ok then inFlight d g k else []
    let d := rbEvent (setMember d k .failed) 0x0D03 0 .none 0xFFFF k pos g cause 0
    let d := dropReads (memberEvent d g k 4 regions) k
    let d := match copyAt d g pos with
      | some i => dropCopy d g i
      | none => d
    if (groupOf d g).failed.any (·.1 == pos) then d
    else claimSpace (modGroup d g fun x => { x with failed := x.failed ++ [(pos, none)], restoring := none }) g pos

/-- Times of a list within a window that ends now. -/
def recent (d : Dev) (l : List Nat) (ns : Nat) : List Nat := l.filter fun t => d.time < t + ns

def drvRetrainLimit (d : Dev) : Nat := fld (liveN d 0x620004) 8 7
def drvTimeoutLimit (d : Dev) : Nat := fld (liveN d 0x620004) 16 7
def drvMediaLimit (d : Dev) : Nat := fld (liveN d 0x62000C) 0 13

/-- Is the condition of a failure cause met (R382)? -/
def causeMet (d : Dev) (k cause : Nat) : Bool :=
  let x := driveOf d k
  let held := x.st == .ok || x.st == .suspect
  match cause with
  | 1 => x.st == .suspect && !x.catching
  | 2 => held && drvRetrainLimit d < (recent d x.retrains 60000000000).length
  | 3 => held && drvTimeoutLimit d < (recent d x.timeouts 60000000000).length
  | 4 => held && drvMediaLimit d < (recent d x.media 86400000000000).length
  | 5 => held && x.id.critWarning.toNat &&& 0x1E != 0
  | 6 => x.st == .suspect && x.resetAt.any fun t => d.time < t + 60000000000
  | 8 => x.st == .absent && (slotPos d k).any fun e => !(groupOf d e.1).failed.any (·.1 == e.2)
  | 9 => held
  | _ => false

/-- Fail a member whose count has crossed its limit (R382). -/
def overLimit (d : Dev) (k cause : Nat) : Dev := if causeMet d k cause then failMember d k cause else d

/-- A presence loss: the slot is ABSENT and its position handled as SUSPECT (R316, R379). -/
def slotAbsent (d : Dev) (k : Nat) : Dev :=
  let d := modDrive d k fun x => { x with bring := .down, async := false, catching := false }
  if (driveOf d k).st == .absent || !decides d k then d
  else if (driveOf d k).st == .ok then loseMember d k .absent
  else setMember d k .absent

/-! ### Judging a drive (R315, R316, R384, R544) -/

/-- The first drive requirement that is not met (R315). -/
def failsReq (d : Dev) (i : DriveIdent) : Option Nat :=
  if !(i.nvm && 16 ≤ i.queuePairs) then some 1
  else if !i.lba4096 then some 2
  else if !(d.pln.plan.unpaired || i.dualShared) then some 3
  else if !i.reservations then some 4
  else if !i.noVwc then some 5
  else if i.awupf == 0 then some 6
  else if i.capacity < 64000000000 then some 7
  else if i.critWarning != 0 then some 8
  else if !(1 ≤ i.linkRate && (i.linkWidth == 1 || i.linkWidth == 2)) then some 9
  else none

/-- May a drive without a member header become a spare in this slot (R316)? -/
def spareSlot (d : Dev) (k : Nat) : Bool :=
  d.pln.plan.spares.contains k
    || ((viaPlan d).any fun v => bitAt v.offered.toNat k)
    || (match slotPos d k with
      | some (g, pos) => (groupOf d g).failed.any (·.1 == pos)
      | none => (planGroup d k).any fun g => !(groupOf d g).formed)

/-- A drive becomes SPARE: its header is written, and a failure that waits for it claims it (R316, R385, R396). -/
def becomeSpare (d : Dev) (k : Nat) : Dev :=
  let d := writeHeader d k 2
  let d := setMember (modDrive d k fun x => { x with group := 7, pos := 0, event := none, behind := [] }) k .spare
  let wants := d.sto.groups.flatMap fun e => (e.2.failed.filter fun f => f.2 == some k || (f.2.isNone
    && (memberAt d e.1 f.1 == k || (d.pln.plan.spares.contains k && needsSource d e.1 f.1))
    && findReplacement d e.1 f.1 == some k)).map fun f => (e.1, f.1)
  match wants with
  | (g, pos) :: _ =>
    writeRecords (takeReplacement (modGroup d g fun x => { x with stalled := false }) g pos k) g
  | [] => d

/-! ### The drive sanitize (R491, R493) -/

/-- The shelf's drive sanitize, while it runs. -/
def sanShelf (d : Dev) : Option AdmOp := d.adm.ops.find? fun o => o.op == 1 && o.state == 0 && (o.action == 2 || o.action == 3)

/-- Change the shelf operation. -/
def modShelf (d : Dev) (f : AdmOp → AdmOp) : Dev := { d with adm.ops := d.adm.ops.map f }

/-- Issue the NVMe Sanitize command to a drive (R491). -/
def sanIssue (d : Dev) (k : Nat) (o : AdmOp) : Dev :=
  let cmd : DriveCmd := if o.action == 2 then .sanitizeBlockErase else .sanitizeOverwrite o.passes o.invert o.pattern
  if d.pwr.fail then d else emit (modDrive d k fun x => { x with sanitize := true }) (.drive k cmd)

/-- A drive is done: blank, or failed for good (R492, R493). -/
def sanDone (d : Dev) (k : Nat) (failed : Bool) : Dev :=
  modShelf (modDrive d k fun x => { x with sanitize := false, id.hdr := { lastSanitizeOk := !failed } }) fun o =>
    { o with missed := o.missed - (if bitAt o.missed k then 2 ^ k else 0), failedSlots := if failed then setBit o.failedSlots k else o.failedSlots }

/-- A drive's sanitize has failed: issued again, and given up after 3 failures (R493). -/
def sanFail (d : Dev) (k : Nat) (o : AdmOp) : Dev :=
  let d := modDrive d k fun x => { x with sanFails := x.sanFails + 1 }
  if (driveOf d k).sanFails < 3 then sanIssue d k o else sanDone d k true

/-- A drive of the shelf found after a reset (table "Drive sanitize resumption"). -/
def sanResume (d : Dev) (k : Nat) (o : AdmOp) : Dev :=
  let h := (driveOf d k).id.hdr
  if h.sanitizeRunning then modDrive d k fun x => { x with sanitize := true }
  else if h.sanitizePending || h.kind != 0 then sanIssue d k o
  else if h.lastSanitizeOk then sanDone d k false
  else sanFail d k o

/-- Is a drive that came up after the join still without the partner's registration (R414)? -/
def unregistered (d : Dev) (k : Nat) : Bool := inPair d && (driveOf d k).late

/-- Judge a PRESENT drive by its identify data and header (R315, R316). Before the pair join nothing is written (R120), and in a pair the
owner of the slot's layout group judges alone, once both devices have registered on it (R414). -/
def judgeDrive (d : Dev) (k : Nat) : Dev :=
  if !decides d k || unregistered d k then d else
  let x := driveOf d k
  match (sanShelf d).filter fun o => bitAt o.missed k, failsReq d x.id with
  | some o, _ => if x.sanitize || !d.glb.joinDone then d else sanResume d k o
  | none, some r => logEvent d 0x0B01 0 .none [BitVec.ofNat 8 k, BitVec.ofNat 8 r]
  | none, none =>
    let h := x.id.hdr
    if h.kind == 1 then
      match d.sto.groups.find? fun e => e.2.formed && e.2.id == h.groupId with
      | none => logEvent d 0x0B01 0 .none [BitVec.ofNat 8 k, 0]
      | some (g, gr) =>
        if gr.slots.getD h.position 0xFFFF != k then d
        else if gr.failed.any (·.1 == h.position) then (if d.glb.joinDone then becomeSpare d k else d)
        else
          let d := modDrive d k fun x => { x with group := if g < 6 then g else 7, pos := h.position }
          if x.event.isSome || !x.behind.isEmpty then setMember (modDrive d k fun x => { x with catching := true }) k .suspect
          else setMember d k .ok
    else if h.kind != 1 && spareSlot d k && d.glb.joinDone then becomeSpare d k
    else d

/-- A drive that is ready is PRESENT and judged, where this device decides (R316). -/
def admitDrive (d : Dev) (k : Nat) : Dev := if decides d k then judgeDrive (setMember d k .present) k else d

/-- After the join, and when groups change owner, drives that are ready and not yet judged are judged. -/
def judgeAll (d : Dev) : Dev :=
  (List.range 24).foldl (fun d k =>
    if (driveOf d k).st == .present || ((driveOf d k).st == .absent && (driveOf d k).bring == .ready) then admitDrive d k else d) d

end Sys2Proof.Machine
end

