-- ==== Sys2Proof/Machine/Plan.lean ====
section
/-! DEFINITION. What a command does in each stripe: the rows it reads and writes, the update method, the columns that supply a row,
and the pieces that call for a vestibule record (R333, R341, R345 to R347, R355, R367, R401). -/

namespace Sys2Proof.Machine

/-! ### A stripe as a command sees it -/

/-- A stripe's layout, place, drives by column, and the volume's granules. -/
structure Geo where
  l : Layout := {}
  /-- stripe within its layout -/
  s : Nat := 0
  cell : Cell := {}
  /-- blocks per chunk and per granule, tag size, data columns, columns -/
  cb : Nat := 16
  gb : Nat := 4
  ts : Nat := 8
  kd : Nat := 1
  w : Nat := 1
  /-- slab count G of the group -/
  slabs : Nat := 0
  drv : List (Option Nat) := []
  deriving DecidableEq, Repr

/-- The number that restoration keeps a stripe's band under (R405). -/
def layKey (v : Nat) (vol : Volume) (stripe : Nat) : Nat := if stripe < 2 ^ 47 || vol.newLay.isNone then v else v + 4096

def geoOf (d : Dev) (v : Nat) (vol : Volume) (stripe : Nat) : Geo :=
  let (l, s) := layoutOf vol stripe
  let c := locate l (groupN d l.group) s
  { l, s, cell := c, cb := chunkBlocks l, gb := 2 ^ vol.granule, ts := vol.tagSize, kd := layKd l, w := layW l,
    slabs := (groupOf d l.group).slabs,
    drv := (List.range (layW l)).map fun k => colDrive d (layKey v vol stripe) l c k }

/-- Key of a block or granule of a column in a work's tables. -/
def ckey (col i : Nat) : Nat := col * 65536 + i

/-- First volume block of a data column's row. -/
def Geo.lba (g : Geo) (col row : Nat) : Nat := g.s * layD g.l + col * g.cb + row

/-- Does the range hold this row of a data column? -/
def Geo.has (g : Geo) (w : Work) (col row : Nat) : Bool := w.lba ≤ g.lba col row && g.lba col row < w.lba + w.count

/-- Rows of a data column in the range. -/
def Geo.rows (g : Geo) (w : Work) (col : Nat) : List Nat := (List.range g.cb).filter (g.has w col)

/-- Rows of a data column in the granules that the range touches. -/
def Geo.whole (g : Geo) (w : Work) (col : Nat) : List Nat :=
  (List.range g.cb).filter fun r => (List.range g.gb).any fun i => g.has w col (r / g.gb * g.gb + i)

/-- Rows in the range in any data column. -/
def Geo.union (g : Geo) (w : Work) : List Nat :=
  (List.range g.cb).filter fun r => (List.range g.kd).any fun c => g.has w c r

/-- Granules of rows, ascending. -/
def Geo.grans (g : Geo) (rows : List Nat) : List Nat := (rows.map (· / g.gb)).eraseDups

/-- Volume granules that a work touches (R369). -/
def Geo.volGrans (g : Geo) (w : Work) : List Nat :=
  if w.count == 0 then []
  else (List.range ((w.lba + w.count - 1) / g.gb + 1 - w.lba / g.gb)).map (w.lba / g.gb + ·)

/-- Column and granule within the chunk of a volume granule. -/
def Geo.granAt (g : Geo) (gr : Nat) : Nat × Nat :=
  let o := gr * g.gb - g.s * layD g.l
  (o / g.cb, o % g.cb / g.gb)

def Geo.avail (g : Geo) (col : Nat) : Bool := (g.drv.getD col none).isSome
def Geo.unavailable (g : Geo) : Nat := ((List.range g.w).filter fun c => !g.avail c).length

/-! ### Where a row is read from (R347, R367) -/

def Geo.usable (g : Geo) (w : Work) (col row : Nat) : Bool := g.avail col && !w.bad.contains (col, row)

/-- The columns that supply a row: the column itself, else the first kd that can, data columns first; none where too few can. -/
def Geo.sources (g : Geo) (w : Work) (col row : Nat) (avoid : List Nat) : List Nat :=
  if !avoid.contains col && g.usable w col row then [col]
  else
    let l := (List.range g.w).filter fun c => c != col && !avoid.contains c && g.usable w c row
    if g.kd ≤ l.length then l.take g.kd else []

/-- Column `col` of a row or granule of `n` bytes from what its sources hold. -/
def Geo.fromSources (g : Geo) (t : Tab (List Byte)) (src : List Nat) (col i n : Nat) : Option (List Byte) :=
  let known := src.filterMap fun c => (tget t (ckey c i)).map fun b => (c, b)
  if src.isEmpty || known.length != src.length then none
  else if src == [col] || g.kd == 1 then known.head?.map (·.2)
  else some (decodeCol g.kd n col known)

/-- A block's bytes, where its sources are known. -/
def Geo.block (g : Geo) (w : Work) (col row : Nat) (avoid : List Nat) : Option (List Byte) :=
  g.fromSources w.blk (g.sources w col row avoid) col row 4096

/-- A granule's shadow bytes, by the sources of its first row that is in the granule. -/
def Geo.shadow (g : Geo) (w : Work) (col gi : Nat) (avoid : List Nat) : Option (List Byte) :=
  let row := ((List.range g.gb).map (gi * g.gb + ·)).find? fun r => g.sources w col r avoid != [col]
  g.fromSources w.shd (g.sources w col (row.getD (gi * g.gb)) avoid) col gi g.ts

/-- A granule's data. -/
def Geo.granule (g : Geo) (w : Work) (col gi : Nat) (avoid : List Nat) : Option (List Byte) :=
  (List.range g.gb).foldl (fun acc i => match acc, g.block w col (gi * g.gb + i) avoid with
    | some a, some b => some (a ++ b)
    | _, _ => none) (some [])

/-! ### Update methods (R345, R346) -/

/-- Rows that RMW reads: the granules of the range, and the range's rows of every available check column. -/
def Geo.rmwReads (g : Geo) (w : Work) : List (Nat × Nat) :=
  ((List.range g.kd).flatMap fun c => (g.whole w c).map fun r => (c, r))
    ++ ((List.range g.w).drop g.kd |>.filter g.avail).flatMap fun c => (g.union w).map fun r => (c, r)

/-- Rows that RECON reads: the same rows outside the range in every data column, and the rest of the range's granules. -/
def Geo.reconReads (g : Geo) (w : Work) : List (Nat × Nat) :=
  let u := g.union w
  (List.range g.kd).flatMap fun c =>
    ((List.range g.cb).filter fun r => (u.contains r || (g.whole w c).contains r) && !g.has w c r).map fun r => (c, r)

/-- The rows read to supply wanted rows. -/
def Geo.expand (g : Geo) (w : Work) (l : List (Nat × Nat)) : List (Nat × Nat) :=
  (l.flatMap fun e => (g.sources w e.1 e.2 []).map fun c => (c, e.2)).eraseDups

/-- The update method of a stripe. -/
def Geo.method (g : Geo) (w : Work) : Method :=
  if g.l.scheme != 2 then .mirror
  else if w.lba == g.s * layD g.l && w.count == layD g.l then .full
  else if (g.expand w (g.rmwReads w)).length ≤ (g.expand w (g.reconReads w)).length then .rmw else .recon

/-- Rows that a work needs the bytes of before it can go on. -/
def Geo.wants (g : Geo) (vol : Volume) (s : Slot) (w : Work) : List (Nat × Nat) :=
  match w.method with
  | .read =>
    let whole := isVerified vol s
    (List.range g.kd).flatMap fun c =>
      ((if s.op == 7 then (g.whole w c).filter fun r => r % g.gb == 0
        else if whole then g.whole w c else g.rows w c).filter fun r => auSet vol (g.lba c r / 256)).map fun r => (c, r)
  | .mirror => ((g.whole w 0).filter fun r => !g.has w 0 r).map fun r => (0, r)
  | .full => []
  | .rmw => g.rmwReads w
  | .recon => g.reconReads w

/-! ### Splitting a range (R333, R345, R401) -/

/-- A range within one layout, cut at stripe boundaries. -/
def cutStripes (D base : Nat) : Nat → Nat → Nat → List Work
  | 0, _, _ => []
  | f + 1, lba, n =>
    if n == 0 then []
    else
      let m := min n (D - lba % max D 1)
      { stripe := base + lba / max D 1, lba, count := m } :: cutStripes D base f (lba + m) (n - m)

/-- A range cut at the reshape cursor and at stripe boundaries: blocks below the cursor lie in the new layout (R401). -/
def cutRange (vol : Volume) (lba n : Nat) : List Work :=
  let old := fun a k => cutStripes (layD vol.lay) 0 (k / 16 + 2) a k
  match vol.newLay with
  | none => old lba n
  | some nl =>
    let m := min n (vol.cursor - lba)
    cutStripes (layD nl) (2 ^ 47) (m / 16 + 2) lba m ++ old (lba + m) (n - m)

/-- Blocks of a volume rounded up to whole granules of any size. -/
def volEnd (vol : Volume) : Nat := (vol.lay.blocks + 15) / 16 * 16

/-- The range that a write puts in place: the allocation units at its ends are written whole where they are clear (R333). -/
def fillRange (vol : Volume) (lba n : Nat) : Nat × Nat :=
  let lo := if auSet vol (lba / 256) then lba else lba / 256 * 256
  let e := lba + n
  let hi := if auSet vol ((e - 1) / 256) then e else min (((e - 1) / 256 + 1) * 256) (max (volEnd vol) e)
  (lo, hi - lo)

/-- Allocation units that a range touches. -/
def ausOf (lba n : Nat) : List Nat :=
  if n == 0 then [] else (List.range ((lba + n - 1) / 256 + 1 - lba / 256)).map (lba / 256 + ·)

/-- Allocation units that a range covers whole, the volume's last one by the blocks it has. -/
def wholeAus (vol : Volume) (lba n : Nat) : List Nat :=
  (ausOf lba n).filter fun a => lba ≤ 256 * a && min (256 * a + 256) vol.lay.blocks ≤ lba + n

/-- The ranges that a command reads or writes in place. -/
def effective (vol : Volume) (s : Slot) : List (Nat × Nat) :=
  if s.op == 4 then
    let whole := wholeAus vol s.lba s.count
    ((ausOf s.lba s.count).filter fun a => !whole.contains a && auSet vol a).map fun a =>
      let lo := max s.lba (256 * a)
      (lo, min (s.lba + s.count) (256 * a + 256) - lo)
  else if isWriteOp s.op then [fillRange vol s.lba s.count]
  else [(s.lba, s.count)]

/-- The works of a command, with their methods. -/
def worksOf (d : Dev) (v : Nat) (vol : Volume) (s : Slot) : List Work :=
  ((effective vol s).flatMap fun r => cutRange vol r.1 r.2).map fun w =>
    if isWriteOp s.op then
      let m := (geoOf d v vol w.stripe).method w
      -- a write replayed after a take-over never runs RMW (R434)
      { w with method := if s.replay && m == .rmw then .recon else m }
    else w

/-- The new bytes of a block: the host's within the command's range, zeros in zero fill. -/
def newBlock (s : Slot) (lba : Nat) : List Byte :=
  if s.op == 2 && s.lba ≤ lba && lba < s.lba + s.count then (s.data.drop (4096 * (lba - s.lba))).take 4096 else zeros 4096

/-! ### Vestibule pieces (R355, R356, R401) -/

/-- AWU-aligned pieces of a range: first block and blocks. -/
def awuPieces (awu : Nat) : Nat → Nat → Nat → List (Nat × Nat)
  | 0, _, _ => []
  | f + 1, lba, n =>
    if n == 0 then []
    else
      let m := min n (awu - lba % max awu 1)
      (lba, m) :: awuPieces awu f (lba + m) (n - m)

/-- Does a piece call for a record, and of which kind (R355, R401)? -/
inductive Call where
  | no | data | image
  deriving DecidableEq, Repr

/-- Blocks of a range in a work. -/
def inWork (w : Work) (lba n : Nat) : Bool := meets w.lba w.count lba n

/-- Does a piece occupy more than one AWUPF unit on a member that holds it (R355, condition 2)? -/
def crossesAwupf (d : Dev) (g : Geo) (lba n : Nat) : Bool :=
  let o := lba - g.s * layD g.l
  let col := o / g.cb
  let cols := if g.l.scheme == 2 then [col] else List.range g.w
  cols.any fun c => match g.drv.getD c none with
    | some k =>
      let u := max (driveOf d k).id.awupf 1
      let a := chunkAddr g.l g.cell.slab (g.cell.rows.getD c 0) / 4096 + o % g.cb
      a / u != (a + n - 1) / u
    | none => false

/-- Is a range covered by a live vestibule record of the group (R355, condition 4)? -/
def coveredLive (d : Dev) (grp v lba n : Nat) : Bool :=
  (groupOf d grp).journal.recs.any fun r => r.r.volume == v && (recRange r.r).any fun x => meets x.1 x.2 lba n

def callsFor (d : Dev) (v : Nat) (vol : Volume) (s : Slot) (lba n : Nat) : Call :=
  let ws := s.works.filter fun w => inWork w lba n
  let gs := ws.map fun w => (w, geoOf d v vol w.stripe)
  let clear := (ausOf lba n).all fun a => !auSet vol a
  if gs.any fun e => 0 < e.2.unavailable then .image
  else if (match vol.newLay with | some _ => lba < vol.cursor && vol.cursor < lba + n | none => false) then .data
  else if coveredLive d vol.lay.group v lba n then .data
  else if clear then .no
  else if gs.any fun e =>
      let lo := max lba e.1.lba
      let hi := min (lba + n) (e.1.lba + e.1.count)
      let o := lo - e.2.s * layD e.2.l
      (1 < ws.length) || o / e.2.cb != (o + (hi - lo) - 1) / e.2.cb || crossesAwupf d e.2 lo (hi - lo) then .data
  else .no

/-- Pieces of a command's range with what each calls for. DEALLOCATE calls for none in the units it clears whole. -/
def piecesOf (d : Dev) (v : Nat) (vol : Volume) (s : Slot) : List (Nat × Nat × Call) :=
  let ranges := if s.op == 4 then effective vol s else [(s.lba, s.count)]
  ranges.flatMap fun r => (awuPieces (2 ^ vol.awu) (r.2 + 1) r.1 r.2).map fun p => (p.1, p.2, callsFor d v vol s p.1 p.2)

/-! ### Dirty regions of a command (R351) -/

/-- Does a work need its region DIRTY? Zero fill alone does not, but on a PARITY stripe that also holds a set allocation unit. -/
def needsDirty (vol : Volume) (s : Slot) (w : Work) : Bool :=
  let (l, st) := layoutOf vol w.stripe
  meets w.lba w.count s.lba s.count
    || (l.scheme == 2 && (ausOf (st * layD l) (layD l)).any fun a => auSet vol a)

end Sys2Proof.Machine
end

