-- ==== Sys2Proof/Machine/Exec.lean ====
section
/-! DEFINITION. A command at work on the drives: reads and their repair, verification, building the new columns, records, fragments
and the end of a command (R344 to R369, R394, R395). -/

namespace Sys2Proof.Machine

/-! ### Works -/

def modWork (d : Dev) (c stripe : Nat) (f : Work → Work) : Dev :=
  modSlot d c fun s => { s with works := s.works.map fun w => if w.stripe == stripe then f w else w }

def workOf (d : Dev) (c stripe : Nat) : Option Work := (slotOf d c).bind fun s => s.works.find? (·.stripe == stripe)

/-- Runs of consecutive rows: first and number. -/
def runsOf (l : List Nat) : List (Nat × Nat) :=
  l.foldl (fun acc r => match acc.getLast? with
    | some (a, n) => if a + n == r then acc.dropLast ++ [(a, n + 1)] else acc ++ [(r, 1)]
    | none => [(r, 1)]) []

/-- Is a row known or asked for? -/
def Work.covered (w : Work) (col row : Nat) : Bool :=
  (tget w.blk (ckey col row)).isSome || w.asked.any fun a => a.1 == col && a.2.1 ≤ row && row < a.2.1 + a.2.2

/-- Drive block of a row of a column. -/
def Geo.driveBlock (g : Geo) (col row : Nat) : Nat := chunkAddr g.l g.cell.slab (g.cell.rows.getD col 0) / 4096 + row

/-- Submit the drive reads of rows not yet known or asked for, in runs (R367). -/
def askRows (d : Dev) (c : Nat) (g : Geo) (w : Work) (need : List (Nat × Nat)) : Dev :=
  let fresh := need.filter fun e => !w.covered e.1 e.2
  (List.range g.w).foldl (fun d col =>
    let rows := sortN ((fresh.filter (·.1 == col)).map (·.2))
    (runsOf rows.eraseDups).foldl (fun d r =>
      match g.drv.getD col none with
      | some k =>
        let d := driveSendFor d g.l.group k (.read (g.driveBlock col r.1) r.2) (.read c w.stripe col r.1)
        driveIssued (modWork d c w.stripe fun w => { w with asked := w.asked ++ [(col, r.1, r.2)], begun := true }) c 1
      | none => d) d) d

/-! ### Locks of a band in restoration (R393) -/

/-- After four redo passes, new lock grants in the band wait. -/
def frozen (d : Dev) (v : Nat) (vol : Volume) (stripe : Nat) : Bool :=
  let g := geoOf d v vol stripe
  let gr := groupOf d g.l.group
  4 ≤ gr.passes && gr.restoring == some (layKey v vol stripe, g.cell.entry, g.cell.band)

/-- Ask for locks, unless a band holds its grants back; the command asks again when it goes on. -/
def lockWant (d : Dev) (v : Nat) (vol : Volume) (c : Nat) (stripes : List Nat) (excl : Bool) : Dev :=
  if stripes.any (frozen d v vol) then d else lockAsk d v c stripes excl

/-! ### Repairs (R368) -/

/-- Submit a repair once it holds its stripe's lock. -/
def repairGo (d : Dev) (r : Nat) : Dev :=
  match tget d.sto.repairs r with
  | none => d
  | some x =>
    match volOf d x.vol with
    | none => { d with sto.repairs := tdel d.sto.repairs r }
    | some vol =>
      if x.frag.st != .waiting || !lockHas d x.vol r x.stripe then d
      else
        let g := geoOf d x.vol vol x.stripe
        match g.drv.getD x.frag.col none with
        | none => lockDropAll { d with sto.repairs := tdel d.sto.repairs r } r
        | some k =>
          let d := { d with sto.repairs := tset d.sto.repairs r { x with frag := { x.frag with st := .sent } } }
          let a := shadowAddr g.l g.slabs g.cell.slab (g.cell.rows.getD x.frag.col 0)
          let d := x.frag.shadow.foldl (fun d b => driveSend d g.l.group k (.shadow (a + g.ts * b.1) b.2)) d
          let d := x.frag.rows.foldl (fun d b =>
            driveSendFor d g.l.group k (.write (g.driveBlock x.frag.col b.1) b.2) (.frag r x.stripe x.frag.col)) d
          stoCnt (stoEvent d 0x0C01 x.vol (g.lba x.frag.col ((x.frag.rows.head?.map (·.1)).getD 0)) k (.volume x.vol)) 8

/-- Rows of the chunk that a repair rewrites, or whose shadow bytes it rewrites. -/
def repairRows (g : Geo) (f : Frag) : List Nat :=
  f.rows.map (·.1) ++ f.shadow.flatMap fun b => (List.range g.gb).map (b.1 * g.gb + ·)

/-- Is a repair superseded? On PARITY by an update of its rows that holds or asks for the stripe's lock; on a mirror by a write-class
command on its rows that was admitted after the read that found them (R348, R368). -/
def superseded (d : Dev) (x : Repair) (g : Geo) : Bool :=
  let rows := repairRows g x.frag
  d.cmd.slots.any fun e => isWriteOp e.2.op && e.2.vol == x.vol &&
    (if g.l.scheme == 2 then
      (d.sto.locks.any fun q => q.vol == x.vol && q.stripe == x.stripe && q.excl && q.cmd == e.1)
        && e.2.works.any fun w => w.stripe == x.stripe && rows.any (g.union w).contains
    else x.adm < e.2.adm && rows.any fun r => meets e.2.lba e.2.count (g.lba 0 r) 1)

/-- Ask for a repair of rows or shadow bytes of one column; it is abandoned where it is superseded. -/
def repairAsk (d : Dev) (c v stripe col : Nat) (g : Geo) (rows shadow : List (Nat × List Byte)) : Dev :=
  let x : Repair := { vol := v, stripe, adm := ((slotOf d c).map (·.adm)).getD 0, frag := { col, rows, shadow } }
  if (rows.isEmpty && shadow.isEmpty) || superseded d x g then d
  else
    let r := d.sto.nextRepair
    repairGo (lockAsk { d with sto.repairs := tset d.sto.repairs r x, sto.nextRepair := r + 1 } v r [stripe] true) r

/-- Submit every repair whose lock has been granted. -/
def repairsGo (d : Dev) : Dev := (tkeys d.sto.repairs).foldl repairGo d

/-- Release a command's lock and submit what waited for it. -/
def unlock (d : Dev) (v c stripe : Nat) : Dev := repairsGo (lockDrop d v c stripe)

def unlockAll (d : Dev) (c : Nat) : Dev := repairsGo (lockDropAll d c)

/-- Rewrite at its member what a member reported unreadable while it stayed available (R368): rows that the work does not write
itself. -/
def repairBad (d : Dev) (c v : Nat) (g : Geo) (w : Work) : Dev :=
  let bad := w.bad.filter fun e => g.avail e.1 && (w.method == .read || !g.has w e.1 e.2)
  ((bad.map (·.1)).eraseDups).foldl (fun d col =>
    let rows := (bad.filter (·.1 == col)).map (·.2)
    repairAsk d c v w.stripe col g (rows.filterMap fun r => (g.block w col r []).map fun b => (r, b))
      ((g.grans rows).filterMap fun i => (g.shadow w col i []).map fun b => (i, b))) d

/-! ### Failing and ending -/

/-- A command ends with a status: what it holds is released, and what it has outstanding is forgotten. -/
def endWork (d : Dev) (c st lba : Nat) : Dev :=
  let d := answerLba d c st lba
  unlockAll (modSlot d c fun s => { s with works := [] }) c

/-! ### Lost data found by a read (R367, R394) -/

/-- Record blocks that too few columns can supply, as extents. -/
def loseBlocks (d : Dev) (v : Nat) (lbas : List Nat) (cause : Nat) : Dev :=
  let d := (runsOf (sortN lbas).eraseDups).foldl (fun d r => recordLost d v r.1 r.2 cause 0xFF) d
  stoCntN d 11 lbas.eraseDups.length

/-- Wanted rows that no columns can supply. -/
def unreadable (g : Geo) (vol : Volume) (s : Slot) (w : Work) : List (Nat × Nat) :=
  (g.wants vol s w).filter fun e => (g.sources w e.1 e.2 []).isEmpty

/-- Does a work decode: is a wanted row supplied by other columns? -/
def decodes (g : Geo) (vol : Volume) (s : Slot) (w : Work) : Bool :=
  (g.wants vol s w).any fun e => g.sources w e.1 e.2 [] != [e.1]

/-- Granules of a work that are under mismatch resolution, as column and granule of the chunk. -/
def mismOf (g : Geo) (s : Slot) (w : Work) : List (Nat × Nat) :=
  ((g.volGrans w).filter s.mism.contains).map g.granAt

/-- Rows that mismatch resolution reads: the first kd other columns, or every other copy of a mirror (R369). -/
def mismReads (g : Geo) (s : Slot) (w : Work) : List (Nat × Nat) :=
  (mismOf g s w).flatMap fun m => (List.range g.gb).flatMap fun i =>
    let row := m.2 * g.gb + i
    if g.l.scheme == 2 then (g.sources w m.1 row [m.1]).map fun c => (c, row)
    else ((List.range g.w).filter fun c => c != m.1 && g.usable w c row).map fun c => (c, row)

/-- Is everything that a read needs of a stripe known and decoded? -/
def readReady (g : Geo) (vol : Volume) (s : Slot) (w : Work) : Bool :=
  (g.expand w (g.wants vol s w) ++ mismReads g s w).all (fun e => (tget w.blk (ckey e.1 e.2)).isSome)
    && (g.l.scheme != 2 || w.computed || (!decodes g vol s w && (mismOf g s w).isEmpty))

/-- Take what a read still needs of a stripe one step on: the lock for a reconstruction of a PARITY stripe, then its reads
(R348, R367). -/
def readStep (d : Dev) (c v : Nat) (vol : Volume) (s : Slot) (w : Work) : Dev :=
  let g := geoOf d v vol w.stripe
  let wants := g.wants vol s w
  let direct := (wants.filter fun e => g.sources w e.1 e.2 [] == [e.1])
  let other := g.expand w (wants.filter fun e => g.sources w e.1 e.2 [] != [e.1]) ++ mismReads g s w
  let other := other.filter fun e => !w.covered e.1 e.2
  let d := askRows d c g w direct
  if other.isEmpty then d
  else if g.l.scheme != 2 || lockHas d v c w.stripe then
    askRows d c g ((workOf d c w.stripe).getD w) other
  else if d.sto.locks.any (·.cmd == c) then d
  else
    let stripes := (s.works.filter fun x => decodes (geoOf d v vol x.stripe) vol s x
      || !(mismOf (geoOf d v vol x.stripe) s x).isEmpty).map (·.stripe)
    let d := lockWant d v vol c stripes false
    if lockHas d v c w.stripe then askRows d c g ((workOf d c w.stripe).getD w) other else d

/-! ### Reads: delivery (R285, R287, R333, R367, R369) -/

/-- A block as the command delivers it: zeros in a clear allocation unit, else from its work. -/
def readBlock (d : Dev) (v : Nat) (vol : Volume) (s : Slot) (lba : Nat) : List Byte :=
  if !auSet vol (lba / 256) then zeros 4096
  else match s.works.find? fun w => w.lba ≤ lba && lba < w.lba + w.count with
    | some w =>
      let g := geoOf d v vol w.stripe
      let o := lba - g.s * layD g.l
      (g.block w (o / g.cb) (o % g.cb) []).getD (zeros 4096)
    | none => zeros 4096

/-- The stored tag of a granule; in a clear allocation unit the tag over zeros, a free value without the key (R333). -/
def storedTag (d : Dev) (v : Nat) (vol : Volume) (s : Slot) (gr : Nat) : List Byte :=
  let gb := 2 ^ vol.granule
  if !auSet vol (gr * gb / 256) then
    match s.key with
    | some k => granuleTag k.key vol.granule vol.tagSize v (gr * gb) (zeros (4096 * gb))
    | none => (List.range vol.tagSize).map (Config.freeByte d.free)
  else match s.works.find? fun w => w.lba < (gr + 1) * gb && gr * gb < w.lba + w.count with
    | some w =>
      let g := geoOf d v vol w.stripe
      let m := g.granAt gr
      (g.shadow w m.1 m.2 []).getD (zeros vol.tagSize)
    | none => zeros vol.tagSize

/-- Volume granules of a command's range. -/
def gransOf (vol : Volume) (s : Slot) : List Nat :=
  let gb := 2 ^ vol.granule
  if s.count == 0 then [] else (List.range ((s.lba + s.count - 1) / gb + 1 - s.lba / gb)).map (s.lba / gb + ·)

/-- Granules of a verified command that its lanes must check: those in set allocation units. -/
def gransToCheck (vol : Volume) (s : Slot) : List Nat :=
  (gransOf vol s).filter fun gr => auSet vol (gr * 2 ^ vol.granule / 256)

/-- A read-class command has all it needs: data is in staging, leaves for the host, and the result is decided (R286, R287,
R301). -/
def deliver (d : Dev) (c v : Nat) (vol : Volume) (s : Slot) : Dev :=
  let tags := (gransOf vol s).flatMap (storedTag d v vol s)
  let d := if s.key.isNone then (draw d).2 else d
  let data := if s.op == 1 then (List.range s.count).flatMap fun i => readBlock d v vol s (s.lba + i) else []
  let d := unlockAll (modSlot d c fun s => { s with staged := true, data, landed := data.length, works := [] }) c
  if s.op == 1 then
    let d := sendHost d c (xferAddr s) data
    let d := if s.fTAGS then sendHost d c (leAt s.cap 52 8) tags else d
    succeed d c 0 0
  else if s.op == 7 then succeed (sendHost d c (xferAddr s) tags) c tags.length 0
  else
    let first := (storedTag d v vol s (s.lba / 2 ^ vol.granule))
    if bitAt (byteAt s.cap 60) 0 && first != (s.cap.drop 36).take vol.tagSize then answerLba d c stMISMATCH s.lba
    else succeed d c (gransOf vol s).length 0

/-- The first granule in mismatch ends its command, once every granule before it has passed its check (R369). -/
def mismatchEnd (d : Dev) (c v : Nat) (vol : Volume) (s : Slot) (gr : Nat) : Dev :=
  let lba := gr * 2 ^ vol.granule
  let slot := ((s.works.find? fun w => meets w.lba w.count lba (2 ^ vol.granule)).bind fun w =>
    let g := geoOf d v vol w.stripe
    g.drv.getD (g.granAt gr).1 none).getD 0xFF
  let d := volCnt (stoCnt (stoEvent d 0x0C03 v lba slot (.volume v)) 10) v 6 1
  endWork d c stMISMATCH (max lba s.lba)

/-- A granule in mismatch before which no granule is left to be checked. -/
def mismatchDue (vol : Volume) (s : Slot) : Option Nat :=
  s.mismAt.filter fun gr => (gransToCheck vol s).all fun x => gr ≤ x || s.checked.contains x

/-- A read-class command goes on. -/
def advanceRead (d : Dev) (c : Nat) : Dev :=
  match slotOf d c with
  | none => d
  | some s => match volOf d s.vol with
    | none => d
    | some vol => match mismatchDue vol s with
    | some gr => forCmd d c fun d => mismatchEnd d c s.vol vol s gr
    | none =>
      let bad := s.works.flatMap fun w =>
        let g := geoOf d s.vol vol w.stripe
        (unreadable g vol s w).map fun e => g.lba e.1 e.2
      match sortN bad with
      | x :: _ => forCmd d c fun d => endWork (loseBlocks d s.vol bad 2) c stUNREAD (max x s.lba)
      | [] =>
        let d := s.works.foldl (fun d w => readStep d c s.vol vol s w) d
        match slotOf d c with
        | none => d
        | some s =>
          let ready := s.works.filter fun w => readReady (geoOf d s.vol vol w.stripe) vol s w
          let d := ready.foldl (fun d w =>
            if (mismOf (geoOf d s.vol vol w.stripe) s w).isEmpty && lockHas d s.vol c w.stripe then unlock d s.vol c w.stripe else d) d
          if ready.length == s.works.length
              && (!isVerified vol s || (gransToCheck vol s).all s.checked.contains) then
            deliver (ready.foldl (fun d w => repairBad d c s.vol (geoOf d s.vol vol w.stripe) w) d) c s.vol vol s
          else d

/-! ### Verification (R369) -/

/-- Put bytes known good in place of a granule's blocks as read. -/
def putGranule (g : Geo) (w : Work) (col gi : Nat) (data : List Byte) : Work :=
  { w with blk := (List.range g.gb).foldl (fun t i =>
      tset t (ckey col (gi * g.gb + i)) ((data.drop (4096 * i)).take 4096)) w.blk }

/-- A candidate's data or tag from another column: by reconstruction on PARITY, from copy `x` of a mirror. -/
def altData (g : Geo) (w : Work) (col gi x : Nat) : Option (List Byte) :=
  if g.l.scheme == 2 then g.granule w col gi [col]
  else (List.range g.gb).foldl (fun acc i => match acc, tget w.blk (ckey x (gi * g.gb + i)) with
    | some a, some b => some (a ++ b)
    | _, _ => none) (some [])

def altTag (g : Geo) (w : Work) (col gi x : Nat) : Option (List Byte) :=
  if g.l.scheme == 2 then g.shadow w col gi [col] else tget w.shd (ckey x gi)

/-- The alternatives of a granule: one reconstruction, or each other copy in column order. -/
def altCols (g : Geo) (col : Nat) : List Nat := if g.l.scheme == 2 then [g.w] else (List.range g.w).filter (· != col)

/-- A granule of a verified command is checked, and resolved where it fails, in the order of R369. -/
def resolveGranule (d : Dev) (c v : Nat) (vol : Volume) (s : Slot) (w : Work) (gr : Nat) (key : List Byte) : Dev :=
  let g := geoOf d v vol w.stripe
  let m := g.granAt gr
  let lba := gr * g.gb
  let tag := granuleTag key vol.granule vol.tagSize v lba
  let slot := (g.drv.getD m.1 none).getD 0xFF
  match g.granule w m.1 m.2 [], g.shadow w m.1 m.2 [] with
  | some data, some stored =>
    let pass := fun (d : Dev) => modSlot d c fun s => { s with checked := addNew s.checked gr, mism := s.mism.filter (· != gr) }
    let d := if s.mism.contains gr then d else itgCntN (itgCntN d 1 1) 3 (260 * g.gb + 1)
    if tag data == stored then pass d
    else if !s.mism.contains gr then
      modWork (modSlot (itgCntN d 2 1) c fun s => { s with mism := addNew s.mism gr }) c w.stripe fun w => { w with computed := false }
    else
      match (altCols g m.1).findSome? fun x => (altData g w m.1 m.2 x).bind fun a => if tag a == stored then some a else none with
      | some good =>
        let rows := (List.range g.gb).map fun i => (m.2 * g.gb + i, (good.drop (4096 * i)).take 4096)
        let d := modWork (pass d) c w.stripe fun w => putGranule g w m.1 m.2 good
        stoCnt (stoEvent (repairAsk d c v w.stripe m.1 g rows [(m.2, stored)]) 0x0C02 v lba slot (.volume v)) 9
      | none =>
        match (altCols g m.1).findSome? fun x => (altTag g w m.1 m.2 x).bind fun t => if tag data == t then some t else none with
        | some t =>
          let d := modWork (pass d) c w.stripe fun w => { w with shd := tset w.shd (ckey m.1 m.2) t }
          stoCnt (stoEvent (repairAsk d c v w.stripe m.1 g [] [(m.2, t)]) 0x0C02 v lba slot (.volume v)) 9
        | none => modSlot d c fun s => { s with mismAt := some (min (s.mismAt.getD gr) gr) }
  | _, _ => d

/-- The check of a granule; what it logs names the command. -/
def checkGranule (d : Dev) (c v : Nat) (vol : Volume) (s : Slot) (w : Work) (gr : Nat) (key : List Byte) : Dev :=
  forCmd d c fun d => resolveGranule d c v vol s w gr key

/-! ### Writes: new columns (R345, R346, R541) -/

/-- The tag of a granule as computed for the command, or the zero tag's place. -/
def newTag (s : Slot) (gr ts : Nat) : List Byte := tgetD s.tags gr (zeros ts)

/-- The bytes of a granule as it stands after the write: new blocks, and the rest as read. -/
def newGranule (g : Geo) (s : Slot) (w : Work) (gr : Nat) : Option (List Byte) :=
  let m := g.granAt gr
  (List.range g.gb).foldl (fun acc i =>
    let row := m.2 * g.gb + i
    let b := if g.has w m.1 row then some (newBlock s (g.lba m.1 row)) else g.block w m.1 row []
    match acc, b with
    | some a, some b => some (a ++ b)
    | _, _ => none) (some [])

/-- A data column's row after the write. -/
def newRow (g : Geo) (s : Slot) (w : Work) (col row : Nat) : List Byte :=
  if g.has w col row then newBlock s (g.lba col row) else (g.block w col row []).getD (zeros 4096)

/-- A data column's granule shadow after the write. -/
def newShadow (g : Geo) (s : Slot) (w : Work) (col gi : Nat) : List Byte :=
  if (List.range g.gb).any fun i => g.has w col (gi * g.gb + i) then newTag s (g.lba col (gi * g.gb) / g.gb) g.ts
  else (g.shadow w col gi []).getD (zeros g.ts)

/-- A check column's row or shadow after the write: old ⊕ the weighted changes under RMW, else encoded from the data columns. -/
def newCheck (c n : Nat) (rmw : Bool) (old : List Byte) (olds news : List (List Byte)) : List Byte :=
  if rmw then xorBytes old (encodeCheck c n (List.zipWith xorBytes olds news)) else encodeCheck c n news

/-- The fragment of a data column. -/
def dataFrag (g : Geo) (s : Slot) (w : Work) (col src : Nat) : Frag :=
  let rows := g.rows w src
  { col, rows := rows.map fun r => (r, newBlock s (g.lba src r)),
    shadow := (g.grans rows).map fun i => (i, newTag s (g.lba src (i * g.gb) / g.gb) g.ts) }

/-- The fragment of a check column. -/
def checkFrag (g : Geo) (s : Slot) (w : Work) (col : Nat) : Frag :=
  let ks := List.range g.kd
  let rmw := w.method == .rmw
  let rows := g.union w
  -- a column the update does not touch has the same bytes before and after
  let old := fun c r => if g.has w c r then (g.block w c r []).getD (zeros 4096) else if rmw then zeros 4096 else newRow g s w c r
  let new := fun c r => if g.has w c r || !rmw then newRow g s w c r else zeros 4096
  let touched := fun c i => (List.range g.gb).any fun j => g.has w c (i * g.gb + j)
  let oldS := fun c i => if touched c i || !rmw then (g.shadow w c i []).getD (zeros g.ts) else zeros g.ts
  let newS := fun c i => if touched c i || !rmw then newShadow g s w c i else zeros g.ts
  { col,
    rows := rows.map fun r => (r, newCheck (col - g.kd) 4096 rmw ((g.block w col r []).getD (zeros 4096))
      (ks.map (old · r)) (ks.map (new · r))),
    shadow := (g.grans rows).map fun i => (i, newCheck (col - g.kd) g.ts rmw ((g.shadow w col i []).getD (zeros g.ts))
      (ks.map (oldS · i)) (ks.map (newS · i))) }

/-- The data fragments of a work: the range in every data column or copy that is available. -/
def dataFrags (g : Geo) (s : Slot) (w : Work) : List Frag :=
  (((List.range g.w).filter g.avail).filterMap fun c =>
    if g.l.scheme != 2 then some (dataFrag g s w c 0)
    else if c < g.kd then some (dataFrag g s w c c) else none).filter fun f => !f.rows.isEmpty

/-- The check fragments of a work. -/
def checkFrags (g : Geo) (s : Slot) (w : Work) : List Frag :=
  if g.l.scheme != 2 then []
  else ((((List.range g.w).drop g.kd).filter g.avail).map (checkFrag g s w)).filter fun f => !f.rows.isEmpty

/-! ### Writes: records (R355, R356, R548, R361) -/

/-- Bytes of an image in a record. -/
def imageBytes (i : Image) : Nat := 16 + (i.data.length + i.shadow.length + 63) / 64 * 64

/-- Images in records of at most 36 descriptors and 8 MiB (R363). -/
def packImages (l : List Image) : List (List Image) :=
  l.foldl (fun acc i => match acc.getLast? with
    | some p => if p.length < 36 && 64 + p.foldl (fun n x => n + imageBytes x) 0 + imageBytes i ≤ 8388608
        then acc.dropLast ++ [p ++ [i]] else acc ++ [[i]]
    | none => [[i]]) []

/-- One image per run of rows of a fragment. -/
def imagesOf (g : Geo) (f : Frag) : List Image :=
  (runsOf (f.rows.map (·.1))).map fun r =>
    { column := f.col, firstBlock := r.1,
      data := (f.rows.filter fun b => r.1 ≤ b.1 && b.1 < r.1 + r.2).flatMap (·.2),
      shadow := (f.shadow.filter fun b => r.1 / g.gb ≤ b.1 && b.1 ≤ (r.1 + r.2 - 1) / g.gb).flatMap (·.2) }

/-- The bodies of a command's VESTIBULE set. -/
def vestibule (d : Dev) (v : Nat) (vol : Volume) (s : Slot) : List JBody :=
  let ps := piecesOf d v vol s
  let gb := 2 ^ vol.granule
  let data := (ps.filter (·.2.2 == .data)).map fun p =>
    JBody.data p.1 p.2.1 (((s.works.find? fun w => inWork w p.1 1).map (·.stripe % 2 ^ 47)).getD 0)
      ((List.range p.2.1).flatMap fun i => newBlock s (p.1 + i))
      (((List.range ((p.1 + p.2.1 - 1) / gb + 1 - p.1 / gb)).map (p.1 / gb + ·)).flatMap fun gr => newTag s gr vol.tagSize)
  let images := s.works.flatMap fun w =>
    let mine := ps.filter fun p => p.2.2 == .image && inWork w p.1 p.2.1
    if mine.isEmpty then []
    else
      let g := geoOf d v vol w.stripe
      let lo := max w.lba (mine.foldl (fun m p => min m p.1) (2 ^ 48))
      let hi := min (w.lba + w.count) (mine.foldl (fun m p => max m (p.1 + p.2.1)) 0)
      (packImages (w.frags.flatMap (imagesOf g))).map fun im => JBody.fullImage lo (hi - lo) (w.stripe % 2 ^ 47) im
  data ++ images

/-- Append a command's records of one set at consecutive JSEQ. -/
def appendSet (d : Dev) (g vol : Nat) (tag : Word) (bodies : List JBody) : List Nat × Dev :=
  bodies.zipIdx.foldl (fun a b =>
    let r := jAppend a.2 g vol tag b.2 (bodies.length - 1) b.1
    (a.1 ++ [r.1], stoCntN (stoCnt (volCnt r.2 vol 5 (64 + (jBody b.1).length)) 3) 4 (64 + (jBody b.1).length))) ([], d)

/-- Make a command's vestibule records when all they hold is known; with no live copy the command fails (R360). -/
def makeRecords (d : Dev) (c v : Nat) (vol : Volume) (s : Slot) : Dev :=
  let bodies := vestibule d v vol s
  if bodies.isEmpty then modSlot d c fun s => { s with recsMade := true }
  else if (groupOf d vol.lay.group).journal.live.isEmpty then endWork d c stWFAULT s.lba
  else
    let r := appendSet d vol.lay.group v s.cmdTag bodies
    modSlot r.2 c fun s => { s with recs := r.1, recsMade := true, pnr := true }

/-! ### Writes: fragments (R349, R365) -/

def modFrag (d : Dev) (c stripe col : Nat) (f : Frag → Frag) : Dev :=
  modWork d c stripe fun w => { w with frags := w.frags.map fun x => if x.col == col then f x else x }

/-- Submit a fragment: its blocks, and its shadow bytes (R346). -/
def sendFrag (d : Dev) (c : Nat) (g : Geo) (w : Work) (f : Frag) : Dev :=
  match g.drv.getD f.col none with
  | none => d
  | some k =>
    let a := shadowAddr g.l g.slabs g.cell.slab (g.cell.rows.getD f.col 0)
    let d := (runsOf (f.shadow.map (·.1))).foldl (fun d r =>
      driveSend d g.l.group k (.shadow (a + g.ts * r.1)
        ((f.shadow.filter fun b => r.1 ≤ b.1 && b.1 < r.1 + r.2).flatMap (·.2)))) d
    let d := (runsOf (f.rows.map (·.1))).foldl (fun d r =>
      driveSendFor d g.l.group k (.write (g.driveBlock f.col r.1)
        ((f.rows.filter fun b => r.1 ≤ b.1 && b.1 < r.1 + r.2).flatMap (·.2))) (.frag c w.stripe f.col)) d
    let d := driveIssued d c ((runsOf (f.rows.map (·.1))).length + (runsOf (f.shadow.map (·.1))).length)
    modSlot (modFrag d c w.stripe f.col fun x => { x with st := .sent }) c fun s => { s with pnr := true }

/-- Drop the fragments of members that are no longer available, once their MEMBER_EVENT is durable (R365). -/
def dropFrags (d : Dev) (c : Nat) (g : Geo) (w : Work) : Dev :=
  (w.frags.filter fun f => (f.st == .sent || f.st == .waiting) && !g.avail f.col).foldl (fun d f =>
    let k := memberAt d g.l.group (g.cell.pos.getD f.col 0)
    if (driveOf d k).event.all (jDurable d g.l.group) then modFrag d c w.stripe f.col fun x => { x with st := .dropped } else d) d

/-- Are a work's fragments all durable or dropped? -/
def workDone (w : Work) : Bool := w.computed && w.frags.all fun f => f.st == .durable || f.st == .dropped

/-- Columns of a stripe that hold the update: those that it left alone are taken as they are. -/
def heldCols (g : Geo) (w : Work) : Nat :=
  ((List.range g.w).filter fun c => g.avail c && !w.frags.any fun f => f.col == c && f.st != .durable).length

/-- Note a region as written while a member of the group is away (R383, R384). -/
def noteBehind (d : Dev) (grp : Nat) (g : Geo) (v region : Nat) : Dev :=
  g.cell.pos.foldl (fun d p =>
    let k := memberAt d grp p
    if (driveOf d k).st == .suspect || ((driveOf d k).st == .absent && !(groupOf d grp).failed.any (·.1 == p)) then
      modDrive d k fun x => { x with behind := if x.behind.contains (v, region) then x.behind else x.behind ++ [(v, region)] }
    else d) d

/-- Is a stripe's band being restored, or its region owed to a member in catch-up (R348, R393)? -/
def mirrorLocks (d : Dev) (v : Nat) (vol : Volume) (g : Geo) (stripe : Nat) : Bool :=
  (groupOf d g.l.group).restoring == some (layKey v vol stripe, g.cell.entry, g.cell.band)
    || g.cell.pos.any fun p =>
      let x := driveOf d (memberAt d g.l.group p)
      x.catching && x.behind.contains (v, regionOf vol stripe)

/-- Stripes whose lock a write takes before its first drive access. -/
def lockFirst (d : Dev) (v : Nat) (vol : Volume) (replay : Bool) (ws : List Work) : List Nat :=
  if replay || ws.any fun w => w.method == .rmw || w.method == .recon then
    (ws.filter fun w => w.method != .mirror || mirrorLocks d v vol (geoOf d v vol w.stripe) w.stripe).map (·.stripe)
  else []

/-- Stripes whose lock a write takes before its fragments. -/
def lockLate (d : Dev) (v : Nat) (vol : Volume) (ws : List Work) : List Nat :=
  (ws.filter fun w => w.method != .mirror || mirrorLocks d v vol (geoOf d v vol w.stripe) w.stripe).map (·.stripe)

/-- Count a stripe's update method (table "Path counters", R377). -/
def countMethod (d : Dev) (m : Method) : Dev :=
  match m with
  | .full => stoCnt d 0
  | .rmw => stoCnt d 1
  | .recon => stoCnt d 2
  | _ => d

/-- A member's update in a stripe that restoration has already passed marks the stripe for redo (R393). -/
def markRedo (d : Dev) (v : Nat) (vol : Volume) (g : Geo) (w : Work) : Dev :=
  let gr := groupOf d g.l.group
  if gr.restoring == some (layKey v vol w.stripe, g.cell.entry, g.cell.band) && !gr.redo.contains w.stripe then
    modGroup (rbCnt d 1) g.l.group fun x => { x with redo := x.redo ++ [w.stripe] } else d

/-- Every read that a write's stripe needs is in. -/
def writeReady (g : Geo) (vol : Volume) (s : Slot) (w : Work) : Bool :=
  (g.expand w (g.wants vol s w)).all fun e => (tget w.blk (ckey e.1 e.2)).isSome

/-- Are a work's tags computed? -/
def tagsReady (g : Geo) (s : Slot) (w : Work) : Bool := (g.volGrans w).all fun gr => thas s.tags gr

/-- Build the data columns of a stripe as soon as its data and tags are there. -/
def buildData (d : Dev) (c v : Nat) (vol : Volume) (s : Slot) (w : Work) : Dev :=
  let g := geoOf d v vol w.stripe
  if w.computed || !w.frags.isEmpty || !landedAll s || !writeReady g vol s w || !tagsReady g s w then d
  else modWork d c w.stripe fun w => { w with frags := dataFrags g s w }

/-- Build what is left of a stripe's columns: for a mirror as soon as its tags are there, for PARITY when the engines are done. -/
def buildFrags (d : Dev) (c v : Nat) (vol : Volume) (s : Slot) (w : Work) : Dev :=
  let g := geoOf d v vol w.stripe
  if w.computed || !landedAll s || !writeReady g vol s w || !tagsReady g s w then d
  else modWork (countMethod d w.method) c w.stripe fun w =>
    { w with computed := true, frags := (if w.frags.isEmpty then dataFrags g s w else w.frags) ++ checkFrags g s w }

/-- The records after the fragments: allocation units set or cleared, lost blocks that the command covers whole (R333, R349,
R395). -/
def makeAlloc (d : Dev) (c v : Nat) (vol : Volume) (s : Slot) : Dev :=
  let set := if s.op == 4 then [] else ((ausOf s.lba s.count).filter fun a => !auSet vol a).map fun a => (a, true)
  let clr := if s.op == 4 then ((wholeAus vol s.lba s.count).filter (auSet vol)).map fun a => (a, false) else []
  let entries := set ++ clr
  let lost := vol.lost.any fun e => meets e.lba e.count s.lba s.count
  let g := vol.lay.group
  if (!entries.isEmpty || lost) && (groupOf d g).journal.live.isEmpty then endWork d c stWFAULT s.lba
  else
    let (rs, d) := if entries.isEmpty then ([], d) else
      let r := jAppend d g v s.cmdTag 0 0 (.alloc entries)
      ([r.1], r.2)
    let (rs, d) := if !lost then (rs, d) else
      let r := jAppend d g v s.cmdTag 0 0 (.lostClear s.lba s.count)
      (rs ++ [r.1], r.2)
    modSlot d c fun s => { s with allocs := entries, allocRecs := rs, allocMade := true, pnr := s.pnr || !clr.isEmpty }

/-- Apply the change of the allocation map and write its blocks; the records have no further use (R361). -/
def applyAlloc (d : Dev) (v : Nat) (vol : Volume) (s : Slot) : Dev :=
  let d := modVol d v fun x => { x with
    alloc := (sortN ((x.alloc.filter fun a => !s.allocs.contains (a, false)) ++ ((s.allocs.filter (·.2)).map (·.1)))).eraseDups,
    lost := if vol.lost.any (fun e => meets e.lba e.count s.lba s.count) then lostRemove x.lost s.lba s.count else x.lost }
  let d := if vol.lost.any (fun e => meets e.lba e.count s.lba s.count) then writeLost d v else d
  let d := ((s.allocs.map (·.1 / 32768)).eraseDups).foldl (fun d b => writeAllocBlock d v (32768 * b)) d
  jDone d vol.lay.group (s.allocRecs ++ s.recs)

/-- The last update of a region, for its idle timer (R352). -/
def touchRegions (d : Dev) (v : Nat) (regions : List Nat) : Dev :=
  regions.foldl (fun d r => { d with sto.lastUpdate := tset d.sto.lastUpdate (v * 2 ^ 40 + r) d.time }) d

/-- A write ends its media work. -/
def finishWrite (d : Dev) (c v : Nat) (vol : Volume) (s : Slot) : Dev :=
  let short := s.works.find? fun w => let g := geoOf d v vol w.stripe; !w.frags.isEmpty && heldCols g w < g.kd
  let d := touchRegions d v s.regions
  match short with
  | some w => endWork (jDone d vol.lay.group s.recs) c stWFAULT (max w.lba s.lba)
  | none =>
    let d := applyAlloc d v vol s
    let tags := (gransOf vol s).flatMap fun gr => newTag s gr vol.tagSize
    let d := if s.op == 2 && s.fTAGS then sendHost d c (leAt s.cap 52 8) tags else d
    succeed (unlockAll (modSlot d c fun s => mile d.time 5 { s with works := [] }) c) c 0 0

/-- Data in staging: the CMD item leaves and the dirty regions are asked for, once (R349, R418). -/
def landedStep (d : Dev) (c v : Nat) (s : Slot) : Dev :=
  if !landedAll s || s.cmdItem.isSome || s.staged then d
  else
    let m := nextMseq d
    let d := mirror d (cmdItem s s.held s.held)
    let d := modSlot d c fun s => { s with cmdItem := m, staged := true }
    s.regions.foldl (fun d r => needRegion d v r) d

/-- Is what a command's records hold known: data and tags in staging, and for images the check data too (R349)? -/
def recsReady (d : Dev) (v : Nat) (vol : Volume) (s : Slot) : Bool :=
  landedAll s && (s.works.all fun w => tagsReady (geoOf d v vol w.stripe) s w)
    && (piecesOf d v vol s).all fun p => p.2.2 != .image || s.works.all fun w => w.computed || !inWork w p.1 p.2.1

/-- A write's works, the reads they still need (R349), and the columns that can be built without the engines. -/
def writeStep (d : Dev) (c v : Nat) (vol : Volume) (s : Slot) (w : Work) : Dev :=
  let g := geoOf d v vol w.stripe
  let d := if w.method == .rmw || w.method == .recon then
      (if lockHas d v c w.stripe then askRows d c g w (g.expand w (g.wants vol s w)) else d)
    else askRows d c g w (g.expand w (g.wants vol s w))
  match workOf d c w.stripe with
  | some w => if w.method == .mirror then buildFrags d c v vol s w else buildData d c v vol s w
  | none => d

/-- Fragments of one work that may go (R349). -/
def fragStep (d : Dev) (c v : Nat) (vol : Volume) (s : Slot) (w : Work) : Dev :=
  let g := geoOf d v vol w.stripe
  let region := regionOf vol w.stripe
  let ok := (!needsDirty vol s w || regionReady d v region)
    && s.recs.all (jDurable d vol.lay.group)
    && (!(lockLate d v vol [w]).contains w.stripe || lockHas d v c w.stripe)
  let d := if ok then
      (w.frags.filter (·.st == .waiting)).foldl (fun d f => sendFrag d c g w f)
        (if w.frags.any (·.st == .waiting) then noteBehind (markRedo d v vol g w) g.l.group g v region else d)
    else d
  match workOf d c w.stripe with
  | some w =>
    let d := dropFrags d c g w
    match workOf d c w.stripe with
    | some w => if workDone w && lockHas d v c w.stripe then unlock d v c w.stripe else d
    | none => d
  | none => d

/-- A write-class command goes on. -/
def advanceWrite (d : Dev) (c : Nat) : Dev :=
  match slotOf d c with
  | none => d
  | some s => match volOf d s.vol with
    | none => d
    | some vol =>
      let v := s.vol
      let bad := s.works.flatMap fun w =>
        let g := geoOf d v vol w.stripe
        if w.computed then [] else (unreadable g vol s w).map fun _ => max w.lba s.lba
      match sortN bad with
      | x :: _ => endWork d c stWFAULT x
      | [] =>
        let d := landedStep d c v s
        let d := lockWant d v vol c (lockFirst d v vol s.replay (s.works.filter fun w => !w.computed)) true
        let d := s.works.foldl (fun d w => match slotOf d c, workOf d c w.stripe with
          | some s, some w => if w.computed then d else writeStep d c v vol s w
          | _, _ => d) d
        let d := match slotOf d c with
          | some s => if !s.recsMade && s.result.isNone && recsReady d v vol s then makeRecords d c v vol s else d
          | none => d
        let d := match slotOf d c with
          | some s =>
            if s.recsMade && s.result.isNone then
              lockWant d v vol c (lockLate d v vol (s.works.filter fun w => w.frags.any (·.st == .waiting))) true
            else d
          | none => d
        let d := match slotOf d c with
          | some s => if s.recsMade then s.works.foldl (fun d w => match slotOf d c, workOf d c w.stripe with
              | some s, some w => fragStep d c v vol s w
              | _, _ => d) d else d
          | none => d
        match slotOf d c with
        | none => d
        | some s =>
          if s.result.isSome || !s.recsMade || !s.works.all workDone then d
          else if !s.allocMade then
            let d := makeAlloc (s.works.foldl (fun d w => repairBad d c v (geoOf d v vol w.stripe) w) d) c v vol s
            match slotOf d c with
            | some s => if s.result.isNone && s.allocRecs.all (jDurable d vol.lay.group) then finishWrite d c v vol s else d
            | none => d
          else if s.allocRecs.all (jDurable d vol.lay.group) then finishWrite d c v vol s else d

/-- A running command goes on. -/
def advance (d : Dev) (c : Nat) : Dev :=
  match slotOf d c with
  | some s =>
    if s.phase != .running || s.result.isSome || !s.planned then d
    else if isReadOp s.op then advanceRead d c
    else if isWriteOp s.op then advanceWrite d c
    else d
  | none => d

/-- Every running command goes on, in slot order; then what the locks released. -/
def advanceAll (d : Dev) : Dev := repairsGo ((tkeys d.cmd.slots).foldl advance d)

end Sys2Proof.Machine
end

