-- ==== Sys2Proof/Machine/Storage.lean ====
section
/-! DEFINITION. The I/O commands on media, and what completes under them: tags, check data, bitmap blocks, journal writes, fragments
and drive reads (R286, R333, R344 to R369). -/

namespace Sys2Proof.Machine

/-! ### Starting (R301 to R304, R349, R367) -/

/-- Does a reshape unit in flight hold a command back (R402)? -/
def unitBlocks (d : Dev) (v : Nat) (vol : Volume) (s : Slot) : Bool :=
  match vol.newLay with
  | some nl => d.sto.units.any fun u => u.1 == v && meets s.lba s.count u.2 (layD nl)
  | none => false

/-- May a command begin its drive access: it is admitted, of this opcode, and its turn has come? -/
def mayStart (d : Dev) (c op : Nat) : Option (Slot × Volume) :=
  match slotOf d c with
  | some s =>
    if s.op == op && s.phase == .admitted && s.result.isNone && inTurn d c s then
      match volOf d s.vol with
      | some vol =>
        let recovering := (tget d.sto.recovery vol.lay.group).any fun r => r.phase != 4
        if recovering || unitBlocks d s.vol vol s then none else some (s, vol)
      | none => none
    else none
  | none => none

/-- The first lost block of a range. -/
def firstLost (vol : Volume) (s : Slot) : Option Nat :=
  (sortN ((vol.lost.filter fun e => meets e.lba e.count s.lba s.count).map fun e => max e.lba s.lba)).head?

/-- A read-class command begins (R367): a lost block ends it, else its reads go out. -/
def startRead (d : Dev) (c op : Nat) : Dev :=
  match mayStart d c op with
  | none => d
  | some (s, vol) =>
    let d := modSlot d c fun s => { s with phase := .running }
    match firstLost vol s with
    | some x => answerLba d c stDATALOST x
    | none =>
      let ws := worksOf d s.vol vol s
      let degraded := (ws.filter fun w => decodes (geoOf d s.vol vol w.stripe) vol s w).length
      let d := volCnt (stoCntN d 7 degraded) s.vol 4 degraded
      advance (modSlot d c fun s => { s with planned := true, works := ws }) c

/-- A write-class command begins: each stripe gets its method, locks are asked for, reads go out (R345, R348, R349). -/
def startWrite (d : Dev) (c op : Nat) : Dev :=
  match mayStart d c op with
  | none => d
  | some (s, vol) =>
    let ws := worksOf d s.vol vol s
    let regions := ((ws.filter (needsDirty vol s)).map fun w => regionOf vol w.stripe).eraseDups
    let d := modSlot d c fun s => { s with phase := .running, planned := true, works := ws, regions }
    advance (lockWant d s.vol vol c (lockFirst d s.vol vol s.replay ws) true) c

/-- R367: READ. -/
def execReadCmd (cmd : Nat) (s : State) : Host.Outcome State Fault Refusal := actIf planned s fun d => startRead d cmd 1
/-- R345: WRITE. -/
def execWriteCmd (cmd : Nat) (s : State) : Host.Outcome State Fault Refusal := actIf planned s fun d => startWrite d cmd 2
/-- R333: WRITE_ZEROES writes zeros and sets the bits. -/
def execWriteZeroes (cmd : Nat) (s : State) : Host.Outcome State Fault Refusal := actIf planned s fun d => startWrite d cmd 3
/-- R333: DEALLOCATE clears whole allocation units and zeros partial ones. -/
def execDeallocate (cmd : Nat) (s : State) : Host.Outcome State Fault Refusal := actIf planned s fun d => startWrite d cmd 4
/-- R369: VERIFY. -/
def execVerifyCmd (cmd : Nat) (s : State) : Host.Outcome State Fault Refusal := actIf planned s fun d => startRead d cmd 6
/-- R287: READ_TAGS. -/
def execReadTags (cmd : Nat) (s : State) : Host.Outcome State Fault Refusal := actIf planned s fun d => startRead d cmd 7

/-- Write-class commands of the same PD on the volume that FLUSH still waits for (R286). -/
def flushWaits (d : Dev) (c : Nat) (s : Slot) : Bool :=
  d.cmd.slots.any fun e => e.1 != c && isWriteClass e.2.op && e.2.vol == s.vol && e.2.pd == s.pd && e.2.adm < s.adm
    && e.2.phase != .generated && e.2.phase != .held

/-- R286: FLUSH. -/
def execFlushCmd (cmd : Nat) (s : State) : Host.Outcome State Fault Refusal := actIf planned s fun d =>
  match mayStart d cmd 5 with
  | some (x, _) => if flushWaits d cmd x then d else succeed d cmd 0 0
  | none => d

/-! ### Engines (R345, R470) -/

/-- Every block of a granule lies in a command's range. -/
def granuleInside (vol : Volume) (s : Slot) (gr : Nat) : Bool :=
  let gb := 2 ^ vol.granule
  s.lba ≤ gr * gb && (gr + 1) * gb ≤ s.lba + s.count

/-- A write's tag of a granule, where its bytes are in staging; a held WRITE computes the granules it covers whole (R305). -/
def writeTag (d : Dev) (c : Nat) (vol : Volume) (s : Slot) (gr : Nat) : Dev :=
  let gb := 2 ^ vol.granule
  let data :=
    if s.phase == .running then
      (s.works.find? fun w => meets w.lba w.count (gr * gb) gb).bind fun w => newGranule (geoOf d s.vol vol w.stripe) s w gr
    else if s.op == 2 && (s.phase == .held || s.phase == .admitted) && granuleInside vol s gr then
      some ((List.range gb).flatMap fun i => newBlock s (gr * gb + i))
    else none
  match s.key, data with
  | some k, some b =>
    if thas s.tags gr || !landedAll s then d
    else
      let d := itgCntN (itgCntN d 0 1) 3 (260 * gb + 1)
      advance (modSlot d c fun s => { s with tags := tset s.tags gr (granuleTag k.key vol.granule vol.tagSize s.vol (gr * gb) b) }) c
  | _, _ => d

/-- A verified command's granule is checked once it is in staging. -/
def readTag (d : Dev) (c : Nat) (vol : Volume) (s : Slot) (gr : Nat) : Dev :=
  let gb := 2 ^ vol.granule
  match s.key, s.works.find? fun w => meets w.lba w.count (gr * gb) gb with
  | some k, some w =>
    if s.phase == .running && isVerified vol s && (gransToCheck vol s).contains gr && !s.checked.contains gr
        && readReady (geoOf d s.vol vol w.stripe) vol s w then
      advance (checkGranule d c s.vol vol s w gr k.key) c
    else d
  | _, _ => d

/-- R470: a granule's tag computation or check finishes. -/
def execTagComputeDone (cmd : Nat) (granule : Nat) (s : State) : Host.Outcome State Fault Refusal := actIf planned s fun d =>
  match slotOf d cmd with
  | some x => match volOf d x.vol with
    | some vol =>
      if x.result.isSome then d
      else if isWriteOp x.op then writeTag d cmd vol x granule else readTag d cmd vol x granule
    | none => d
  | none => d

/-- R345: the erasure engines finish a stripe's columns, encoding for a write, decoding for a read. -/
def execParityComputeDone (cmd : Nat) (stripe : Nat) (s : State) : Host.Outcome State Fault Refusal := actIf planned s fun d =>
  match slotOf d cmd, workOf d cmd stripe with
  | some x, some w => match volOf d x.vol with
    | some vol =>
      let g := geoOf d x.vol vol stripe
      if x.phase != .running || g.l.scheme != 2 then d
      else if isWriteOp x.op then advance (buildFrags d cmd x.vol vol x w) cmd
      else if readReady g vol x { w with computed := true } then
        advance (modWork d cmd stripe fun w => { w with computed := true }) cmd
      else d
    | none => d
  | _, _ => d

/-! ### Dirty-region bitmap (R352 to R354) -/

/-- One region of a bitmap write that every copy took (table "Dirty region states"). -/
def regionDone (d : Dev) (v r : Nat) : Dev :=
  match (volOf d v).map fun x => dirtyOf x r with
  | some .setting => setDirty d v r .dirty
  | some .clearing => setDirty d v r .clean
  | some .clearingReset => bmSubmit (stoCnt (setDirty d v r .setting) 5) v (r / 32768)
  | _ => d

/-- Is a running command still updating a region? -/
def regionBusy (d : Dev) (v r : Nat) : Bool :=
  d.cmd.slots.any fun e => e.2.vol == v && isWriteOp e.2.op && e.2.phase == .running && e.2.result.isNone && e.2.regions.contains r

/-- One region of a bitmap write that no copy took (R353). -/
def regionFailed (d : Dev) (v r : Nat) : Dev :=
  match (volOf d v).map fun x => (x, dirtyOf x r) with
  | some (vol, .setting) =>
    let d := stoEvent (setDirty d v r .clean) 0x0C06 v r vol.lay.group (.volume v)
    (d.cmd.slots.filter fun e => e.2.vol == v && isWriteOp e.2.op && e.2.phase == .running && e.2.result.isNone
        && e.2.regions.contains r).foldl (fun d e =>
      let first := sortN ((e.2.works.filter fun w => regionOf vol w.stripe == r).map (·.lba))
      endWork d e.1 stWFAULT (max (first.head?.getD 0) e.2.lba)) d
  | some (_, .clearing) => setDirty d v r .dirty
  | some (_, .clearingReset) => setDirty d v r .dirty
  | _ => d

/-- R353: a bitmap block write completes on every readable copy, or has failed on every one. -/
def bitmapDone (d : Dev) (vol region : Nat) (ok : Bool) : Dev :=
    let b := region / 32768
    match d.sto.bmOut.find? fun w => w.vol == vol && w.block == b with
    | none => d
    | some w =>
      let d := { d with sto.bmOut := d.sto.bmOut.erase w }
      let d := w.regions.foldl (fun d r => if ok then regionDone d vol r else regionFailed d vol r) d
      let d := if d.sto.bmWait.contains (vol, b) then bmSubmit { d with sto.bmWait := d.sto.bmWait.erase (vol, b) } vol b else d
      advanceAll d

def execBitmapWriteComplete (vol : Nat) (region : Nat) (ok : Bool) (s : State) : Host.Outcome State Fault Refusal :=
  actIf planned s fun d => bitmapDone d vol region ok

/-- A region that must stay DIRTY while a member of its group is away (R384). -/
def regionOwed (d : Dev) (v r : Nat) : Bool :=
  d.sto.drives.any fun e => e.2.behind.contains (v, r) && (e.2.st == .suspect || e.2.st == .absent)

/-- R352: a DIRTY region that no update has been in for STO_DIRTY_IDLE_MS starts clearing. -/
def execDirtyIdleExpire (vol : Nat) (region : Nat) (s : State) : Host.Outcome State Fault Refusal := actIf planned s fun d =>
  if regionReady d vol region && !regionBusy d vol region && !regionOwed d vol region then
    bmSubmit (stoCnt (setDirty d vol region .clearing) 6) vol (region / 32768)
  else d

/-! ### Journal (R360 to R362) -/

/-- With no live copy left, commands that need a record on the group fail (R360). -/
def journalLost (d : Dev) (g : Nat) : Dev :=
  if !(groupOf d g).journal.live.isEmpty then d
  else (d.cmd.slots.filter fun e => isWriteOp e.2.op && e.2.phase == .running && e.2.result.isNone
      && ((volOf d e.2.vol).any fun v => v.lay.group == g)
      && (e.2.recs ++ e.2.allocRecs).any fun j => !jDurable d g j).foldl (fun d e => endWork d e.1 stWFAULT e.2.lba) d

/-- The reshape cursor moves in unit order: to the latest cursor record with every earlier one durable (R402). -/
def takeCursor (d : Dev) (g v : Nat) : Dev :=
  let mine := (groupOf d g).journal.recs.filterMap fun e => match e.r.body with
    | .reshapeCursor lba dir => if e.r.volume == v then some (e.durable, lba, dir) else none
    | _ => none
  match (mine.takeWhile (·.1)).getLast? with
  | none => d
  | some (_, lba, dir) =>
    { modVol d v (fun x => { x with cursor := lba }) with
      sto.units := d.sto.units.filter fun u => u.1 != v || (if dir == 0 then lba ≤ u.2 else u.2 < lba) }

/-- What a record that has become durable brings about: a CHECKPOINT moves the head (R359, R361). -/
def recordDurable (d : Dev) (g : Nat) (r : JRec) : Dev :=
  match r.body with
  | .checkpoint h _ => modGroup d g fun x =>
    { x with journal := { x.journal with
      head := max x.journal.head h, recs := x.journal.recs.filter fun e => h ≤ e.r.jseq,
      passed := x.journal.passed ++ (x.journal.recs.filter fun e => e.r.jseq < h && isVestibule e.r).map fun e => (e.r.volume, e.off, e.len) } }
  | .claim .. => modGroup d g fun x => { x with claims := x.claims.filter (· != r.jseq) }
  | .reshapeCursor .. => takeCursor d g r.volume
  | _ => d

/-- R360: a journal write completes on one copy. -/
def journalDone (d : Dev) (g copy jseq : Nat) (ok : Bool) : Dev :=
  let j := (groupOf d g).journal
  match j.recs.find? fun r => r.r.jseq == jseq && r.pend.contains copy with
  | none => d
  | some r =>
    if !ok then
      let was := j.recs.filter fun x => !x.durable
      let d := journalLost (dropCopy d g copy) g
      advanceAll (was.foldl (fun d x => if jDurable d g x.r.jseq then recordDurable d g x.r else d) d)
    else
      let fin := (r.pend.erase copy).isEmpty
      let d := modGroup d g fun x =>
        let recs := x.journal.recs.map fun e => if e.r.jseq == jseq then { e with pend := e.pend.erase copy, durable := e.durable || fin } else e
        { x with journal.recs := recs }
      if fin then journalHold (advanceAll (recordDurable d g r.r)) g else d

/-- Records that became durable between two states without a journal write of their own, because a copy stopped being live
(R388). -/
def settleJournal (old d : Dev) : Dev :=
  (tkeys old.sto.groups).foldl (fun d g =>
    ((groupOf old g).journal.recs.filter fun r => !r.durable && jDurable d g r.r.jseq).foldl (fun d r => recordDurable d g r.r) d) d

/-- A change of members: what it made durable takes effect, and commands go on without the columns it took away. -/
def memberChange (d : Dev) (f : Dev → Dev) : Dev := advanceAll (settleJournal d (f d))

def execJournalWriteComplete (group : Nat) (copy : Nat) (jseq : Nat) (ok : Bool) (s : State) : Host.Outcome State Fault Refusal :=
  actIf planned s fun d => journalDone d group copy jseq ok

/-- A later durable record of the same volume that supersedes this one. -/
def supersededBy (l : List JLive) (r : JRec) (same : JBody → Bool) : Bool :=
  l.any fun e => r.jseq < e.r.jseq && e.r.volume == r.volume && e.durable && same e.r.body

/-- May the head advance past a record (R361)? The latest REBUILD_PROGRESS and RESHAPE_CURSOR records of a volume stay while their
work runs (R398, R401). -/
def headPasses (d : Dev) (g : Nat) (l : List JLive) (e : JLive) : Bool :=
  e.durable && match e.r.body with
  | .data .. | .fullImage .. | .alloc .. | .lostClear .. => e.done
  | .memberEvent _ _ regions => regions.all fun x => (volOf d x.1).all fun v => dirtyOf v x.2 == .clean
  | .progress .. => !restoring d g || supersededBy l e.r fun b => match b with | .progress .. => true | _ => false
  | .reshapeCursor .. => ((volOf d e.r.volume).all fun v => v.newLay.isNone)
    || supersededBy l e.r fun b => match b with | .reshapeCursor .. => true | _ => false
  | _ => true

/-- R361: a CHECKPOINT is written when the head can advance. -/
def execJournalCheckpoint (group : Nat) (s : State) : Host.Outcome State Fault Refusal := actIf planned s fun d =>
  let j := (groupOf d group).journal
  let rest := j.recs.dropWhile (headPasses d group j.recs)
  if rest.length == j.recs.length || j.live.isEmpty then d
  else
    let d := jLog d group 0xFFFF (match rest with | e :: _ => .checkpoint e.r.jseq (e.off / 64) | [] => .checkpoint j.next (j.tail / 64))
    modGroup d group fun x => { x with journal.checkAt := d.time }

/-! ### Fragments and drive reads (R365, R367, R368, R380) -/

/-- A media error counts toward DRV_MEDIA_LIMIT (R380, R382). -/
def mediaError (d : Dev) (k : Nat) : Dev :=
  overLimit (modDrive d k fun x => { x with media := recent d x.media 86400000000000 ++ [d.time] }) k 4

/-- The drive of a column in a work's stripe, available or not. -/
def fragDrive (d : Dev) (v : Nat) (vol : Volume) (stripe col : Nat) : Nat :=
  let g := geoOf d v vol stripe
  (g.drv.getD col none).getD (memberAt d g.l.group (g.cell.pos.getD col 0))

/-- A repair write completes (R368). -/
def repairDone (d : Dev) (n stripe col : Nat) (r : DriveResult) : Dev :=
  match tget d.sto.repairs n with
  | none => d
  | some x =>
    if x.stripe != stripe || x.frag.col != col || x.frag.st != .sent then d
    else match r with
      | .conflict => selfFence d
      | .ok _ _ => advanceAll (unlockAll { d with sto.repairs := tdel d.sto.repairs n } n)
      | .mediaError =>
        let d := match volOf d x.vol with
          | some vol => mediaError d (fragDrive d x.vol vol stripe col)
          | none => d
        advanceAll (unlockAll { d with sto.repairs := tdel d.sto.repairs n } n)

/-- A fragment of a write completes (R365, R379, R431). -/
def fragDone (d : Dev) (c stripe col : Nat) (r : DriveResult) : Dev :=
  match slotOf d c, workOf d c stripe with
  | some s, some w => match volOf d s.vol with
    | some vol =>
      if !(w.frags.any fun f => f.col == col && f.st == .sent) then d
      else match r with
        | .conflict => selfFence d
        | .ok _ _ => advanceAll (modFrag d c stripe col fun f => { f with st := .durable })
        | .mediaError => memberChange d fun d => suspect d (fragDrive d s.vol vol stripe col)
    | none => d
  | _, _ => d

/-- Acknowledge EPOCH records that waited for drive commands of lower epochs (R461). -/
def epochAcks (d : Dev) : Dev :=
  let ok := fun (e : Nat × Nat × Nat) => !d.via.frags.any fun f => f.2.group == e.2.1 && f.2.sent && f.2.epoch < e.2.2
  let d' := { d with via.epochWait := d.via.epochWait.filter fun e => !ok e }
  (d.via.epochWait.filter ok).foldl (fun (d : Dev) e =>
    innerSend d e.1 7 { epoch := e.2.2, kindFields := [BitVec.ofNat 8 e.2.1] }) d'

/-- FRAG_DONE: 0 done, 1 media error, 2 Reservation Conflict, 3 rejected for its epoch; read data is staged for the home pier (R452,
R461, R464). -/
def sendFragDone (d : Dev) (pier : Nat) (tag : Word) (status : Nat) (data : List Byte) : Dev :=
  let (k, d) := drawBits d 32
  let (a, d) := drawBits d 64
  let d := if data.isEmpty then d else { d with via.staged := d.via.staged ++ [(k, a, data)] }
  innerSend d pier 5 { gateTag := tag, stageKey := BitVec.ofNat 32 k, stageAddr := BitVec.ofNat 64 a,
                       kindFields := [BitVec.ofNat 8 status] ++ zeros 23 ++ le 4 data.length ++ zeros 4 }

/-- A proxy's drive command ends (R464). -/
def proxyDone (d : Dev) (n : Nat) (r : DriveResult) : Dev :=
  match tget d.via.frags n with
  | none => d
  | some f =>
    if !f.sent then d
    else
      let d := { d with via.frags := tdel d.via.frags n }
      epochAcks (match r with
        | .ok data shadow => sendFragDone d f.pier f.tag 0 (if f.read then data ++ shadow else [])
        | .mediaError => sendFragDone d f.pier f.tag 1 []
        | .conflict => sendFragDone d f.pier f.tag 2 [])

/-- The number of a proxy's drive command among fragments, and a bound no command or repair reaches. -/
def proxyBase : Nat := 1048576

/-- R365: a fragment write completes, of a command, of a repair, or of a fragment request. -/
def execFragmentWriteComplete (cmd : Nat) (stripe : Nat) (col : Nat) (r : DriveResult) (s : State) : Host.Outcome State Fault Refusal :=
  actIf planned s fun d => if proxyBase ≤ cmd then proxyDone d (cmd - proxyBase) r else if 131072 ≤ cmd then repairDone d cmd stripe col r else fragDone d cmd stripe col r

/-- Take the blocks and shadow bytes of a drive read into a work. -/
def takeRead (w : Work) (gb ts col first n : Nat) (data shadow : List Byte) : Work :=
  let gr := (List.range ((first + n - 1) / gb + 1 - first / gb)).map (first / gb + ·)
  { w with
    asked := w.asked.erase (col, first, n),
    blk := (List.range n).foldl (fun t i => tset t (ckey col (first + i)) ((data.drop (4096 * i)).take 4096)) w.blk,
    shd := gr.zipIdx.foldl (fun t g => tset t (ckey col g.1) ((shadow.drop (ts * g.2)).take ts)) w.shd }

/-- R367: a drive read completes. Bytes of another length than those asked for answer no read. -/
def readDone (d : Dev) (c stripe col first : Nat) (r : DriveResult) : Dev :=
  match slotOf d c, workOf d c stripe with
  | some s, some w => match volOf d s.vol, w.asked.find? fun a => a.1 == col && a.2.1 == first with
    | some vol, some a =>
      let n := a.2.2
      let gb := 2 ^ vol.granule
      match r with
      | .conflict => selfFence d
      | .ok data shadow =>
        if data.length == 4096 * n && shadow.length == vol.tagSize * ((first + n - 1) / gb + 1 - first / gb) then
          advance (modWork d c stripe fun w => takeRead w gb vol.tagSize col first n data shadow) c
        else d
      | .mediaError =>
        let d := modWork d c stripe fun w => { w with
          asked := w.asked.erase a, bad := w.bad ++ (List.range n).map fun i => (col, first + i), computed := false }
        memberChange d fun d => mediaError d (fragDrive d s.vol vol stripe col)
    | _, _ => d
  | _, _ => d

def execDriveReadComplete (cmd : Nat) (stripe : Nat) (col : Nat) (first : Nat) (r : DriveResult) (s : State) :
    Host.Outcome State Fault Refusal :=
  actIf planned s fun d => if proxyBase ≤ cmd then proxyDone d (cmd - proxyBase) r else readDone d cmd stripe col first r

end Sys2Proof.Machine
end

