-- ==== Sys2Proof/Machine/Faults.lean ====
section
/-! DEFINITION. Judging drive faults, failures, catch-up, restoration of bands, copy-back, journal re-mirroring and reshape
(R379 to R405). -/

namespace Sys2Proof.Machine

/-! ### Fault reports (R379) -/

/-- R379: a fault report of a drive. A link-down report counts a retrain (R381, R382). -/
def faultReport (d : Dev) (k : Nat) (r : FaultReport) : Dev :=
  match r with
  | .linkDown =>
    let d := modDrive (suspect d k) k fun x => { x with retrains := recent d x.retrains 60000000000 ++ [d.time] }
    overLimit (emit d (.drive k .retrain)) k 2
  | .pcieError => suspect d k
  | .writeFailed => suspect d k
  | .presenceLost => slotAbsent d k

def execDriveFaultReport (slot : Nat) (report : FaultReport) (s : State) : Host.Outcome State Fault Refusal :=
  actIf (fun d => planned d && decide (slot < 24)) s fun d => memberChange d fun d => faultReport d slot report

/-- CSTS.CFS is set: SUSPECT with a controller reset, or FAILED where one took place within 60 s (R381, R382). -/
def cfsSet (d : Dev) (k : Nat) : Dev :=
  let held := (driveOf d k).st == .ok || (driveOf d k).st == .suspect
  if !held then d
  else
    let d := suspect d k
    if (driveOf d k).resetAt.any fun t => d.time < t + 60000000000 then failMember d k 6
    else emit (modDrive d k fun x => { x with resetAt := some d.time }) (.drive k .ctrlReset)

/-- R379: the poll of CSTS. -/
def execCstsPoll (slot : Nat) (cfs : Bool) (s : State) : Host.Outcome State Fault Refusal :=
  actIf (fun d => planned d && decide (slot < 24)) s fun d => if cfs then memberChange d fun d => cfsSet d slot else d

/-- R379: a command outstanding for DRV_CMD_TIMEOUT_MS. -/
def execDriveCmdTimeout (slot : Nat) (s : State) : Host.Outcome State Fault Refusal :=
  actIf (fun d => planned d && decide (slot < 24)) s fun d => memberChange d fun d =>
    let d := modDrive (suspect d slot) slot fun x => { x with timeouts := recent d x.timeouts 60000000000 ++ [d.time] }
    overLimit d slot 3

/-- A SMART critical warning as read: a newly set bit is a fault report, and bits 1 to 4 fail the member (R379, R382). -/
def warningRead (d : Dev) (k : Nat) (w : Byte) : Dev :=
  let fresh := w &&& ~~~(driveOf d k).id.critWarning
  let d := modDrive d k fun x => { x with id.critWarning := w }
  let d := if fresh != 0 then suspect d k else d
  overLimit d k 5

/-- R379: the health log read every 60 s. -/
def execHealthLogPoll (slot : Nat) (warning : Byte) (s : State) : Host.Outcome State Fault Refusal :=
  actIf (fun d => planned d && decide (slot < 24)) s fun d => memberChange d fun d => warningRead d slot warning

/-- R379: the health log read on an asynchronous event, of which a drive gives notice once the notices are enabled on it (R120). -/
def execAsyncEventNotice (slot : Nat) (warning : Byte) (s : State) : Host.Outcome State Fault Refusal :=
  actIf (fun d => planned d && decide (slot < 24) && (driveOf d slot).async) s fun d =>
    memberChange d fun d => warningRead d slot warning

/-! ### Return and failure (R381 to R383) -/

/-- R381: a SUSPECT member answers, and catch-up starts. -/
def execMemberAnswer (slot : Nat) (s : State) : Host.Outcome State Fault Refusal :=
  actIf (fun d => planned d && decides d slot && (driveOf d slot).st == .suspect) s fun d =>
    modDrive d slot fun x => { x with catching := true }

/-- R382: a failure condition is met. -/
def execMemberFailTimeout (slot : Nat) (cause : Nat) (s : State) : Host.Outcome State Fault Refusal :=
  actIf (fun d => planned d && causeMet d slot cause) s fun d => memberChange d fun d => failMember d slot cause

/-- R383: catch-up is complete, and the member is OK. Its header takes the records it has missed (R321, R544), and a journal copy that had no
place starts on it. Catch-up runs in SERVICE (R384, R391). -/
def execCatchupComplete (slot : Nat) (s : State) : Host.Outcome State Fault Refusal :=
  actIf (fun d => d.glb.st == .service && !d.pwr.fail && planned d && decides d slot && (driveOf d slot).st == .suspect && (driveOf d slot).catching && (slotPos d slot).isSome) s fun d =>
    memberChange d fun d =>
      match slotPos d slot with
      | none => d
      | some (g, pos) =>
        let n := (driveOf d slot).behind.length
        let d := memberEvent d g slot 2 []
        let d := setMember (modDrive d slot fun x => { x with catching := false, behind := [], event := none }) slot .ok
        countN (remirrorMissing (writeRecords (rbEvent d 0x0D02 0 .none 0xFFFF slot pos g 0 0) g) g) 0x500520 n

/-- R387: a new journal copy holds every record and becomes live. -/
def execJournalRemirrorComplete (group : Nat) (copy : Nat) (s : State) : Host.Outcome State Fault Refusal :=
  actIf planned s fun d =>
    match (groupOf d group).journal.remirror.find? (·.1 == copy) with
    | none => d
    | some (i, j0) =>
      let slot := copyDrive d group i
      let d := jLog d group 0xFFFF (.journalCopy slot 1 j0)
      let d := modGroup d group fun x => { x with journal := { x.journal with
        live := sortN (x.journal.live ++ [i]), remirror := x.journal.remirror.filter (·.1 != i) } }
      rbEvent (writeRecords d group) 0x0D05 0 .none 0xFFFF slot (tgetD (groupOf d group).journal.copies i 0xFF) group 0 0

/-! ### Restoration (R389 to R396) -/

/-- Background work may run on a volume (R391). -/
def bgRuns (d : Dev) (v : Nat) : Bool :=
  d.glb.st == .service && !d.sto.bgPaused && !d.pwr.fail && (volOf d v).all fun x => !x.pause

/-- The volume number of a band's key. -/
def keyVol (k : Nat) : Nat := k % 4096

/-- The band that the sequencer takes next among volumes that are not paused (R389). -/
def nextToRestore (d : Dev) (g : Nat) : Option (Int × BandId) :=
  ((owedBands d g).filter fun b => bgRuns d (keyVol b.2.1)).foldl
    (fun r x => match r with | none => some x | some y => if x.1 < y.1 then some x else r) none

/-- A level as records and registers show it: bands with no set allocation unit come after every level. -/
def levelNum (x : Int) : Nat := if x < 0 then 0 else min x.toNat 7

/-- Write a REBUILD_PROGRESS record for a volume (R398, R407). -/
def progressRec (d : Dev) (g v work entry band : Nat) : Dev :=
  jLog d g v (.progress (groupOf d g).level work entry band (groupOf d g).failed.length)

/-- R392: a band is set RESTORING; a change of level writes its record (R398). -/
def execBandRestoreStart (group : Nat) (s : State) : Host.Outcome State Fault Refusal := actIf planned s fun d =>
  let gr := groupOf d group
  if gr.restoring.isSome || !gr.claims.isEmpty then d
  else match nextToRestore d group with
    | none => d
    | some (lv, b) =>
      let changed := gr.level != levelNum lv
      let d := modGroup d group fun x => { x with restoring := some b, redo := [], passes := 0, level := levelNum lv }
      if changed then progressRec d group (keyVol b.1) 0 b.2.1 b.2.2 else d

/-- The layout that a band's key names. -/
def keyLayout (d : Dev) (k : Nat) : Option (Volume × Layout) :=
  (volOf d (keyVol k)).bind fun v => if k < 4096 then some (v, v.lay) else v.newLay.map fun l => (v, l)

/-- Stripes of a band, as works number them. -/
def bandStripes (d : Dev) (b : BandId) (l : Layout) : List Nat :=
  let n := groupN d l.group
  let first := b.2.1 * layQ l n + b.2.2 * layP l n
  (List.range (layP l n)).map fun j => first + j + (if b.1 < 4096 then 0 else 2 ^ 47)

/-- Record what too few columns of a band's stripes can supply as lost (R394): the data blocks on columns that are not
available. -/
def bandLosses (d : Dev) (b : BandId) : Dev :=
  match keyLayout d b.1 with
  | none => d
  | some (vol, l) =>
    let set := setStripes vol l
    ((bandStripes d b l).filter fun s => set.contains (s % 2 ^ 47)).foldl (fun d s =>
      let g := geoOf d (keyVol b.1) vol s
      if g.kd ≤ g.w - g.unavailable then d
      else
        let lost := (List.range g.kd).flatMap fun c => if g.avail c then [] else (List.range g.cb).map (g.lba c)
        let lost := lost.filter fun x => auSet vol (x / 256)
        let slot := (((groupOf d l.group).failed.filter fun f => g.cell.pos.contains f.1).getLast?.map
          fun f => memberAt d l.group f.1 % 64).getD 0xFF
        (runsOf lost).foldl (fun d r => recordLost d (keyVol b.1) r.1 r.2 1 slot) d) d

/-- R393: the last stripe of a band is restored. Stripes marked for redo are restored again; the band becomes restored once no
stripe is marked and no update holds a lock in it. -/
def execBandRestoreComplete (group : Nat) (s : State) : Host.Outcome State Fault Refusal := actIf planned s fun d =>
  match (groupOf d group).restoring with
  | none => d
  | some b =>
    match keyLayout d b.1 with
    | none => modGroup d group fun x => { x with restoring := none }
    | some (_, l) =>
      let stripes := bandStripes d b l
      let busy := d.sto.locks.any fun q => q.vol == keyVol b.1 && q.granted && q.excl && stripes.contains q.stripe
      if !(groupOf d group).redo.isEmpty then modGroup d group fun x => { x with redo := [], passes := x.passes + 1 }
      else if busy then d
      else
        let d := bandLosses d b
        let pos := bandOwed d b.1 l b.2.1 b.2.2
        let d := rbCnt (modGroup d group fun x => { x with
          restored := x.restored ++ pos.map fun p => (p, b), restoring := none, passes := 0 }) 0
        let d := if (nextBand d group).isNone then rbEvent d 0x0D06 0 (.group group) 0xFFFF 0xFF 0xFF group 0 0 else d
        advanceAll d

/-- Bands of a group in which a failed position's cells are at a spare position. -/
def spareBands (d : Dev) (g pos : Nat) : Nat :=
  d.sto.vols.foldl (fun n e => (layoutsOf e.1 e.2).foldl (fun n kl =>
    if kl.2.group != g then n else n + ((List.range kl.2.slabs.length).flatMap fun en => (List.range (layBands kl.2 (groupN d g))).filter fun b =>
      (bandClaims d kl.2 (bandPattern kl.2 (groupN d g) en b)).any fun c => c.1 == pos && (match c.2 with | .spare _ => true | _ => false)).length) n) 0

/-- R396: every band of a failed position is restored and holds no claim for it; its replacement takes the position. -/
def execCopybackComplete (group : Nat) (position : Nat) (s : State) : Host.Outcome State Fault Refusal :=
  actIf (fun d => planned d && !d.pwr.fail) s fun d =>
  match (groupOf d group).failed.find? (·.1 == position) with
  | some (_, some k) =>
    if (driveOf d k).st != .rebuilding || (groupOf d group).restoring.isSome || !(owedBands d group).isEmpty || d.glb.st != .service then d
    else memberChange d fun d =>
      let old := memberAt d group position
      let n := spareBands d group position
      let d := if old == k then d else setMember d old .retired
      let d := modGroup d group fun x => { x with
        slots := x.slots.set position k, failed := x.failed.filter (·.1 != position),
        restored := x.restored.filter (·.1 != position) }
      let d := setMember (modDrive d k fun x => { x with group, pos := position, behind := [], event := none }) k .ok
      countN (remirrorMissing (rbEvent (writeRecords d group) 0x0D09 0 .none 0xFFFF k position group 0 0) group) 0x500528 n
  | _ => d

/-- The latest band restored of a volume. -/
def lastRestored (d : Dev) (g v : Nat) : Option BandId := ((groupOf d g).restored.filter fun e => keyVol e.2.1 == v).getLast?.map (·.2)

/-- R398: the records, and what the registers show of restoration. A record of catch-up or of copy-back shows band 0: how far they have
come the commands do not tell. -/
def execRebuildProgressTick (group : Nat) (mbps : Nat) (gibLeft : Nat) (s : State) : Host.Outcome State Fault Refusal :=
  actIf (fun d => planned d && !d.pwr.fail) s fun d =>
    if !restoring d group && !(groupOf d group).slots.any (fun k => (driveOf d k).catching)
        && !(groupOf d group).failed.any (·.2.isSome) then d
    else
      let d := modGroup d group fun x => { x with rate := mbps, left := gibLeft }
      let catching := (groupOf d group).slots.filter fun k => (driveOf d k).catching
      (d.sto.vols.filter fun e => e.2.lay.group == group || e.2.newLay.any (·.group == group)).foldl (fun d e =>
        if restoring d group then match lastRestored d group e.1 with
          | some b => progressRec d group e.1 0 b.2.1 b.2.2
          | none => d
        else if catching.any fun k => (driveOf d k).behind.any (·.1 == e.1) then progressRec d group e.1 1 0 0
        else if catching.isEmpty then progressRec d group e.1 2 0 0 else d) d

/-! ### Reshape (R401 to R405) -/

/-- Where copying stops: the first multiple of the unit at or above the old block count. -/
def reshapeEnd (vol : Volume) (nl : Layout) : Nat := (vol.lay.blocks + layD nl - 1) / max (layD nl) 1 * layD nl

/-- Does copying yield to restoration (R405)? -/
def yields (d : Dev) (vol : Volume) (nl : Layout) : Bool :=
  [vol.lay.group, nl.group].any fun g => restoring d g && !(groupOf d g).stalled

/-- R402: one unit is copied, and its RESHAPE_CURSOR record written. The unit waits where a running write overlaps it. -/
def execReshapeUnitCopy (vol : Nat) (s : State) : Host.Outcome State Fault Refusal := actIf planned s fun d =>
  match volOf d vol with
  | none => d
  | some x => match x.newLay with
    | none => d
    | some nl =>
      let u := layD nl
      let mine := (d.sto.units.filter (·.1 == vol)).map (·.2)
      let first := if x.abandoning then mine.foldl min x.cursor - u
        else mine.foldl (fun m a => max m (a + u)) x.cursor
      let ended := if x.abandoning then mine.foldl min x.cursor == 0 else reshapeEnd x nl ≤ first
      let busy := d.cmd.slots.any fun e => e.2.vol == vol && isVolIo e.2.op && e.2.phase == .running && e.2.result.isNone
        && meets e.2.lba e.2.count first u
      if ended || busy || 16 ≤ mine.length || yields d x nl || !bgRuns d vol then d
      else
        let d := { d with sto.units := d.sto.units ++ [(vol, first)] }
        let d := jLog (rbCnt d 6) x.lay.group vol (.reshapeCursor (if x.abandoning then first else first + u) (b2n x.abandoning))
        if (groupOf d x.lay.group).journal.live.isEmpty then takeCursor d x.lay.group vol else d

/-- After a switch the stripes of the new layout are the volume's: works, locks and repairs are numbered anew. -/
def renumber (d : Dev) (v : Nat) : Dev :=
  { d with
    cmd.slots := d.cmd.slots.map fun e => if e.2.vol == v then
      (e.1, { e.2 with works := e.2.works.map fun w => { w with stripe := w.stripe % 2 ^ 47 } }) else e,
    sto.locks := d.sto.locks.map fun q => if q.vol == v then { q with stripe := q.stripe % 2 ^ 47 } else q,
    sto.repairs := d.sto.repairs.map fun e => if e.2.vol == v then (e.1, { e.2 with stripe := e.2.stripe % 2 ^ 47 }) else e,
    sto.groups := d.sto.groups.map fun e => (e.1, { e.2 with
      restored := (e.2.restored.filter fun r => r.2.1 != v).map fun r => if r.2.1 == v + 4096 then (r.1, (v, r.2.2)) else r }) }

/-- The extents once the new layout alone is left: in its group, with the new slab map as the slab map (R403, R547). -/
def switchExtents (vol : Volume) (g : Nat) : List Extent :=
  if g == vol.lay.group then
    (vol.extents.filter (·.kind != 1)).map fun e => if e.kind == 5 then { e with kind := 1 } else e
  else vol.extents.filter fun e => e.group == g && e.kind != 5

/-- R403: the reshape switches over. -/
def execReshapeSwitch (vol : Nat) (s : State) : Host.Outcome State Fault Refusal :=
  actIf (fun d => planned d && !d.pwr.fail) s fun d => match volOf d vol with
  | none => d
  | some x => match x.newLay with
    | none => d
    | some nl =>
      if x.abandoning || x.cursor < reshapeEnd x nl || d.sto.units.any (·.1 == vol) then d
      else
        let d := jLog d x.lay.group vol (.reshapeSwitch nl.seed)
        let d := renumber (modVol d vol fun v => { v with lay := nl, newLay := none, cursor := 0, extents := switchExtents v nl.group }) vol
        let d := modVol d vol fun v => (growStructs d v nl.group [(4, 16 * v.lost.length)]).getD v
        let d := writeRecordsFor (writeStructs d vol) nl.group true
        let d := if x.lay.group == nl.group then d else writeRecordsFor d x.lay.group true
        rbEvent d 0x0D0A 0 (.volume vol) vol 0xFF 0xFF nl.group 0 nl.blocks

/-- R404: an abandoned reshape has reached LBA 0. -/
def execReshapeAbandonDone (vol : Nat) (s : State) : Host.Outcome State Fault Refusal :=
  actIf (fun d => planned d && !d.pwr.fail) s fun d =>
  match volOf d vol with
  | none => d
  | some x =>
    if !x.abandoning || x.cursor != 0 || d.sto.units.any (·.1 == vol) then d
    else
      let d := modVol d vol fun v => { v with
        newLay := none, abandoning := false,
        extents := v.extents.filter fun e => e.kind != 5 && e.group == v.lay.group }
      let d := { d with sto.groups := d.sto.groups.map fun e => (e.1, { e.2 with
        restored := e.2.restored.filter fun r => r.2.1 != vol + 4096 }) }
      let d := writeRecordsFor d x.lay.group true
      let d := match x.newLay with
        | some nl => if nl.group == x.lay.group then d else writeRecordsFor d nl.group true
        | none => d
      rbEvent d 0x0D0B 0 (.volume vol) vol 0xFF 0xFF x.lay.group 0 x.lay.blocks

end Sys2Proof.Machine
end

