-- ==== Sys2Proof/Machine/Image.lean ====
section
/-! DEFINITION. Images: the result of a firmware image, and a floor plan image: its layout in bytes, its signature, and every check of
R131 and R133 (R114, R124 to R133, R446, R543). -/

namespace Sys2Proof.Machine

/-- Result code of a firmware image: 1 accepted, 2 to 7 as R114. -/
def fwResult (d : Dev) (i : FwImage) : Nat :=
  if !i.responds then 2 else if !i.magicOk then 3 else if !i.lengthOk then 4 else if !i.crcOk then 5
  else if !i.sigOk then 6 else if i.version < d.glb.otpFw then 7 else 1

/-! ### The owner's signature (R130, R131, R151) -/

/-- Does a public key hash to the owner key hash in OTP, and does its signature over these bytes verify? -/
def ownerSigned (key sig msg : List Byte) : Bool := sha384 key == Config.ownerKeyHash && Config.ecdsaOk key sig msg

/-! ### The layout of a floor plan image (R124 to R126, R130) -/

/-- A little-endian field of the header. -/
def imgHdr (i : PlanImage) (off n : Nat) : Nat := leAt i.bytes off n

def imgLength (i : PlanImage) : Nat := imgHdr i 8 4
def imgTlvLength (i : PlanImage) : Nat := imgHdr i 40 4

/-- The TLV area. -/
def imgArea (i : PlanImage) : List Byte := (i.bytes.drop 64).take ((imgLength i) - 320)

/-- The signature block: the last 256 bytes. -/
def imgSigBlock (i : PlanImage) : List Byte := (i.bytes.drop ((imgLength i) - 256)).take 256

def imgPublicKey (i : PlanImage) : List Byte := ((imgSigBlock i).drop 8).take 97
def imgSignature (i : PlanImage) : List Byte := ((imgSigBlock i).drop 112).take 96

/-- What the signature covers: bytes 0 to LENGTH - 145. -/
def imgSigned (i : PlanImage) : List Byte := i.bytes.take ((imgLength i) - 144)

/-- The CRC-32C of the image with its own field taken as 0. -/
def imgCrc (i : PlanImage) : Nat :=
  (crc32c (i.bytes.take 12 ++ zeros 4 ++ (i.bytes.take (imgLength i)).drop 16)).toNat

/-- A TLV record (R126). -/
structure TlvRec where
  type : Nat := 0
  version : Nat := 1
  reserved : Nat := 0
  value : List Byte := []
  /-- the padding is zero -/
  padOk : Bool := true
  deriving DecidableEq, Repr

/-- The records that fill a TLV area exactly; none where they do not. -/
def tlvRecords : Nat → List Byte → Option (List TlvRec)
  | _, [] => some []
  | 0, _ => none
  | f + 1, bs =>
    let n := leAt bs 4 4
    let padded := (n + 7) / 8 * 8
    if bs.length < 8 + padded then none
    else
      let r : TlvRec := { type := leAt bs 0 2, version := byteAt bs 2, reserved := byteAt bs 3, value := (bs.drop 8).take n,
                          padOk := zeroAt bs (8 + n) (padded - n) }
      (tlvRecords f (bs.drop (8 + padded))).map (r :: ·)

def imgRecords (i : PlanImage) : List TlvRec := (tlvRecords ((imgArea i).length / 8) (imgArea i)).getD []

/-- The value of a section. -/
def imgValue (i : PlanImage) (t : Nat) : Option (List Byte) := ((imgRecords i).find? (·.type == t)).map (·.value)

/-! ### The VIADUCT section (R446) -/

/-- Record of pier `n` in the section: its address, VLAN and GATE. -/
def viaPier (b : List Byte) (n : Nat) : Nat × Nat × Bool :=
  let r := (b.drop (112 + 32 * n)).take 32
  (if bitAt (byteAt r 18) 1 then beAt r 0 16 else beAt r 12 4, leAt r 16 2 % 4096, bitAt (byteAt r 18) 0)

/-- The section's content; none where its length is not that of the layout. -/
def viaSection (b : List Byte) : Option ViaPlan :=
  if b.length != 2160 then none
  else some {
    id := BitVec.ofNat 64 (leAt b 0 8), token := BitVec.ofNat 64 (leAt b 8 8), gate := bitAt (byteAt b 18) 0,
    offered := BitVec.ofNat 24 (leAt b 20 3),
    endpoints := (List.range (byteAt b 16)).map (fun k => beAt b (24 + 4 * k) 4)
      ++ (List.range (byteAt b 17)).map (fun k => beAt b (40 + 16 * k) 16),
    pierMask := BitVec.ofNat 64 (leAt b 104 8), piers := (List.range 64).map (viaPier b) }

/-- Reserved bits of the section are 0. -/
def viaReserved (b : List Byte) : Bool :=
  byteAt b 18 < 2 && byteAt b 19 == 0 && byteAt b 23 == 0
    && (List.range 64).all fun n =>
      let r := (b.drop (112 + 32 * n)).take 32
      byteAt r 17 < 16 && byteAt r 18 < 4 && zeroAt r 19 13

/-- The section names a viaduct and at least one endpoint address. -/
def viaRanges (b : List Byte) : Bool :=
  leAt b 0 8 != 0 && byteAt b 16 ≤ 4 && byteAt b 17 ≤ 4 && 1 ≤ byteAt b 16 + byteAt b 17

/-- The floor plan that an image holds: identity from the header, VIADUCT from its bytes, the defaults of an absent MANAGEMENT
section, and the other sections as their values read. -/
def imgPlan (i : PlanImage) : Plan :=
  let p := { i.content with
    unpaired := bitAt (imgHdr i 6 2) 0, planId := BitVec.ofNat 64 (imgHdr i 16 8), pairPlanId := BitVec.ofNat 64 (imgHdr i 24 8),
    rollback := imgHdr i 32 2, viaduct := (imgValue i 0xD).bind viaSection, hasPair := (imgValue i 0xC).isSome }
  if (imgValue i 0xF).isSome then p else { p with mgmtAddr := 0x5C, pmbusKhz := 400, regulators := [] }

/-! ### The content checks (R133) -/

/-- The device as it would be with a plan's values live, for the checks that read registers. -/
def withPlan (d : Dev) (p : Plan) : Dev :=
  { d with pln.plan := p, pwr.heldOff := p.heldOff, reg.live := p.regs.foldl (fun t e => tset t e.1 e.2) d.reg.live }

/-- Does a switch port exist, with its domain not held off (R142, REFERENCE)? -/
def portNamed (d : Dev) (p : Nat) : Bool := swPortExists d p && !(p ≤ 32 && bitAt d.pwr.heldOff.toNat (portDomain p))

/-- Group 0: members exist (R138). `d` holds the new values. -/
def membersFail (d : Dev) (l : List Nat) : Option Nat :=
  let vlan := fun (v w : Nat) => liveN d (0x201800 + 16 * v + 4 * w)
  let vlanBad := fun (v : Nat) =>
    if !bitAt (vlan v 0) 31 then none
    else if (List.range 32).any fun p => bitAt (vlan v 1) p && !portNamed d p then some (0x201804 + 16 * v)
    else if (List.range 4).any fun p => bitAt (vlan v 2) p && !portNamed d (32 + p) then some (0x201808 + 16 * v)
    else none
  (l.filterMap fun o =>
    if 0x201800 ≤ o && o < 0x202800 then vlanBad ((o - 0x201800) / 16)
    else if 0x202900 ≤ o && o < 0x203100 && bitAt (liveN d o) 31 && !portNamed d (fld (liveN d o) 0 6) then some o
    else none).head?

/-- Data staging in MiB: what the partitions leave of 49,152 MiB, less 768 MiB for each retirement from the third on (R34, R36,
R515). -/
def stagingMiB (p : Plan) (retired : Nat) : Nat := 49152 - (8610 + p.dumpMiB + p.ringMiB + p.pantryMiB) - 768 * (retired - 2)


/-- Required sections (table "Floor plan sections", R128). -/
def requiredSections : List Nat := [1, 2, 3, 4, 5, 6, 7, 8, 9, 0xA, 0xB, 0xE]

/-- Ascending with no repeat. -/
def rising : List Nat → Bool
  | a :: b :: l => a < b && rising (b :: l)
  | _ => true

/-- Reserved fields of the header and the signature block are 0 (R125, R130). -/
def reservedZero (i : PlanImage) : Bool :=
  imgHdr i 6 2 < 2 && imgHdr i 46 2 == 0 && imgHdr i 56 8 == 0
    && leAt (imgSigBlock i) 6 2 == 0 && zeroAt (imgSigBlock i) 105 7 && zeroAt (imgSigBlock i) 208 48

/-- Check 1: the records fill the TLV area, in ascending TYPE, each section whole and of version 1, and what is reserved is 0 (R126,
R127, R543). The device ignores a TYPE from 0x8000 on. -/
def check1 (i : PlanImage) : Bool :=
  let types := (imgRecords i).map (·.type)
  (tlvRecords ((imgArea i).length / 8) (imgArea i)).isSome && rising types && types.all (fun t => 1 ≤ t && (t ≤ 0x10 || 0x8000 ≤ t))
    && (imgRecords i).length == imgHdr i 44 2 && (imgRecords i).all (fun r => r.padOk && r.reserved == 0 && (0x8000 ≤ r.type || r.version == 1))
    && requiredSections.all types.contains && i.left.isEmpty
    && ((imgValue i 0xD).all fun b => b.length == 2160 && viaReserved b) && reservedZero i

/-- Check 2: identity. -/
def check2 (d : Dev) (i : PlanImage) : Bool :=
  leAt (sha384 (imgArea i)) 0 8 == imgHdr i 16 8 && imgHdr i 34 2 == 0x2408 && imgHdr i 36 4 ≤ d.glb.fwVersion.toNat

/-- Check 3: breakouts, each of which is legal at both lane rates (R152), and what a pair needs. -/
def check3 (p : Plan) : Bool :=
  p.macros.length == 8 && p.macros.all (fun m => m.breakout < 3) && (p.unpaired || (p.pwEn && p.hasPair))

/-- Check 4: the held-off mask. -/
def check4 (p : Plan) : Bool :=
  let off := bitAt p.heldOff.toNat
  [35, 43, 59, 51, 55, 33, 34].all (fun n => !off n)
    && [47, 48, 49, 50].any (fun n => !off n)
    && (List.range 64).all fun n => off n || (domRequires n).all fun r => !off r

/-- Check 5: the partitions (R34, R35). -/
def check5 (p : Plan) : Bool :=
  [p.ringMiB, p.dumpMiB, p.pantryMiB].all (fun n => n % 16 == 0)
    && 256 ≤ p.ringMiB && p.ringMiB ≤ 16384 && 16 ≤ p.dumpMiB && p.dumpMiB ≤ 1024 && p.pantryMiB ≤ 16384
    && 8192 ≤ stagingMiB p 0

/-- Check 6: reserves and headroom against the cells of the banks. -/
def check6 (d : Dev) (p : Plan) : Bool := 2 * reservedCells (withPlan d p) ≤ 49152 * p.banks

/-- Check 7: what the sections name exists and is not held off: macros, banks, slots, ports, the members of VLANs and groups, the
destinations of mirror sessions, and the port of every register. Every policer number and every queue number of their fields exists. -/
def check7 (d : Dev) (p : Plan) : Bool :=
  let off := bitAt p.heldOff.toNat
  let slotOk := fun k => k < 24 && !off (8 + k)
  let w := withPlan d p
  (p.macros.zipIdx.all fun e => !e.1.present || !off e.2) && (!p.pwEn || !off 32)
    && 1 ≤ p.banks && p.banks ≤ 8 && (List.range p.banks).all (fun b => !off (35 + b))
    && p.groups.all (·.all slotOk) && p.spares.all slotOk && p.arbiters.all slotOk
    && (p.viaduct.all fun v => (bitList v.offered.toNat 24).all slotOk)
    && p.hbPorts.all (portNamed w) && (p.hbPorts.isEmpty || (1 ≤ p.hbVlan && p.hbVlan ≤ 4094))
    && p.tcMap.all (fun e => portNamed w e.1)
    && (membersFail w (tkeys p.regs)).isNone
    && (List.range 4).all (fun m =>
      let x := liveN w (0x203400 + 0x20 * m)
      !bitAt x 0 || portNamed w (fld x 6 6))
    && p.regs.all fun e => (regInfo w e.1).isSome

/-- Check 8: 8,192-byte payloads need frames of 9,216 bytes on every port that can carry Trestle. -/
def check8 (p : Plan) : Bool :=
  !p.payload8k || p.macros.all fun m => !m.present || (m.maxFrame.take (macroPorts m)).all fun n => 9216 ≤ n

/-- Check 9: storage. -/
def check9 (p : Plan) : Bool :=
  let all := p.groups.flatten
  let offered := ((p.viaduct.map fun v => bitList v.offered.toNat 24)).getD []
  p.groups.all (fun g => g.isEmpty || (4 ≤ g.length && g.length ≤ 24)) && all.eraseDups.length == all.length
    && p.spares.all (fun k => !all.contains k)
    && p.arbiters.length == 3 && p.arbiters.eraseDups.length == 3
    && (p.journalCopies == 3 || p.journalCopies == 4)
    && offered.all fun k => !all.contains k && !p.spares.contains k && !p.arbiters.contains k

/-- Ranges of the runtime values that are not in the register tables: PWR_CAP and PWR_THERM_CFG (R91, R104). -/
def ownRange (o v : Nat) : Bool :=
  if o == 0x10000 then 60 ≤ fld v 0 8 && fld v 0 8 ≤ 148 && fld v 16 8 ≤ 100
  else if o == 0x10030 then
    60 ≤ fld v 0 8 && fld v 0 8 ≤ 125 && 85 ≤ fld v 8 8 && fld v 8 8 ≤ 115 && 1 ≤ fld v 16 8 && fld v 16 8 ≤ 10
  else if 0xC00018 ≤ o && o ≤ 0xC00024 then v % 4096 == 0
  else true

/-- Runtime registers that 0 is out of range for: a plan that leaves one unlisted gives it 0. -/
def nonzeroRegs : List Nat :=
  [0x10000, 0x10030, 0x300040, 0x300044, 0x400080, 0x500400, 0x620000, 0x620004, 0x620008, 0x62000C, 0x800010]
    ++ (List.range 33).map (fun n => ethBase (n / 4) + 0x110 + 4 * (n % 4))
    ++ (List.range 36).flatMap fun n =>
      (0x212404 + 8 * n) :: ((List.range 14).map (fun q => 0x210000 + 64 * n + 4 * (q + 2))
        ++ (List.range 15).map fun q => 0x211000 + 128 * n + 8 * (q + 1) + 4)

/-- Check 10: every runtime value, and the counts and values that the sections bound (R59, R128, R154, R446). -/
def check10 (d : Dev) (p : Plan) : Bool :=
  let w := withPlan d p
  (nonzeroRegs.all fun o => thas p.regs o || !(regInfo w o).isSome)
    && (!p.hasPair || thas p.regs 0x900000) && (p.regs.all fun e => ownRange e.1 e.2.toNat && (regInfo w e.1).any fun i => inRanges i.ranges (e.2.toNat &&& i.mask))
    && liveN w 0x300040 ≤ liveN w 0x300044
    && 1 ≤ p.connCount && p.connCount ≤ 16384 && 1 ≤ p.keyPages && p.keyPages ≤ 4096
    && sumOf p.slotReserve ≤ 131072 && p.rollback ≤ 127 && [100, 400, 1000].contains p.pmbusKhz
    && p.macros.all fun m => m.maxFrame.all fun n => 1518 ≤ n && n ≤ 9216

/-- Check 11: the pier number (R445). -/
def check11 (p : Plan) : Bool :=
  (p.pier != 255) == p.viaduct.isSome && (p.pier == 255 || (p.pier < 64 && (p.pier % 2 == 1) == p.expSide))

/-- Check 12: the strap. -/
def check12 (d : Dev) (p : Plan) : Bool := p.unpaired || p.expSide == d.glb.side

/-- The content checks of the table "Floor plan content checks". -/
def contentOk (d : Dev) (i : PlanImage) : Bool :=
  let p := (imgPlan i)
  check1 i && check2 d i && check3 p && check4 p && check5 p && check6 d p && check7 d p && check8 p && check9 p && check10 d p
    && (imgValue i 0xD).all viaRanges && check11 p && check12 d p

/-- Result code of a floor plan image, in the order of R131; `signed` is what the signature check says. -/
def planJudge (d : Dev) (i : PlanImage) (signed : Bool) : Nat :=
  if !i.responds then 2
  else if !(imgHdr i 0 4 == 0x4C504651 && imgHdr i 4 2 == 1 && leAt (imgSigBlock i) 0 4 == 0x47534651 && leAt (imgSigBlock i) 4 2 == 1) then 3
  else if !(328 ≤ (imgLength i) && (imgLength i) ≤ 4194304 && (imgLength i) % 8 == 0 && (imgTlvLength i) + 320 == (imgLength i) && (imgLength i) ≤ i.flashBytes
      && (imgLength i) ≤ i.bytes.length) then 4
  else if (imgCrc i) != imgHdr i 12 4 then 5
  else if !signed then 6
  else if imgHdr i 32 2 < d.glb.otpPlan then 7
  else if !contentOk d i then 8 else 1

/-- Result code of a floor plan image. -/
def planResult (d : Dev) (i : PlanImage) : Nat := planJudge d i (ownerSigned (imgPublicKey i) (imgSignature i) (imgSigned i))

/-! ### What a floor plan gives a register (R14, R144, R175) -/

/-- Bits of an access entry's words that are not reserved (R144). -/
def entryMask0 : Word := 0x0FFFFFFF
def entryMask1 : Word := 0xBF

/-- The bits of a register that a floor plan gives: those that are not reserved. -/
def planBits (d : Dev) (o : Nat) : Nat :=
  if o == 0x10000 then 0xFF00FF
  else if o == 0x10030 then 0xFFFFFF
  else if (0x38000 ≤ o && o < 0x3C000) || (0xC10000 ≤ o && o < 0xC10800) then (if o % 8 == 4 then entryMask1 else entryMask0).toNat
  else ((regInfo d o).map (·.mask)).getD 0

/-- A plan's runtime values, without their reserved bits. -/
def planRegs (d : Dev) (p : Plan) : Tab Word :=
  let w := withPlan d p
  p.regs.map fun e => (e.1, BitVec.ofNat 32 (e.2.toNat &&& planBits w e.1))

/-- Access entries that lie in runtime values: base offset, number of entries. -/
def planEntries (regs : Tab Word) (base n : Nat) : Tab AccessEntry :=
  (List.range n).filterMap fun i =>
    match tget regs (base + 8 * i), tget regs (base + 8 * i + 4) with
    | none, none => none
    | a, b => some (i, { w0 := a.getD 0, w1 := b.getD 0 })

end Sys2Proof.Machine
end

