-- ==== Sys2Proof/Machine/Slices.lean ====
section
/-! DEFINITION. What the fault policy and the power manager share: fault events, soft-repair entries, retirement of a
pseudo-channel, the size of data staging, and ending a BIST slice early (R34 to R36, R509, R515, R517, R519). -/

namespace Sys2Proof.Machine

def memCnt (d : Dev) (i : Nat) : Dev := count d (0x800100 + 8 * i)
def bstCnt (d : Dev) (i : Nat) : Dev := count d (0xB00100 + 8 * i)

/-- DETAIL of events 0x1201 to 0x120A (R519). -/
def faultEvent (d : Dev) (ev attn dom unit what : Nat) : Dev :=
  logEvent d ev attn .none (le 1 dom ++ le 1 unit ++ le 2 d.bst.soft.length ++ zeros 4 ++ le 8 what)

/-- Events 0x1001 to 0x1006 (R483); where no key page is concerned the field's content is not stated. -/
def itgEvent (d : Dev) (ev : Nat) (page : Option Nat) (lane vol : Nat) : Dev :=
  match page with
  | some k => logEvent d ev 0x9 (.keyPage k) (le 2 k ++ le 1 lane ++ [0] ++ le 2 vol)
  | none =>
    let r := drawBits d 16
    logEvent r.2 ev 0x9 .keyPages (le 2 r.1 ++ le 1 lane ++ [0] ++ le 2 vol)

/-- A lane fails a known-answer test: out of service, KAT_FAILS, KAT_FAIL, event 0x1004 (R479, R481). -/
def laneFail (d : Dev) (lane : Nat) : Dev :=
  let d := { d with itg.lanesOut := addNew d.itg.lanesOut lane }
  itgEvent (setSticky (itgCntN d 6 1) 0x700000 9) 0x1004 none lane 0xFFFF

/-- Data staging of the device. -/
def stagingNow (d : Dev) : Nat := stagingMiB d.pln.plan d.bst.retired.length

/-! ### The place of an HBM word (R34, R36, R515) -/

/-- The retirement reserve: one pseudo-channel of each stack; which ones the spec leaves open (DESIGN CHOICE, log entry 79). -/
def hbmReserve : List Nat := [31, 63]

/-- The 62 pseudo-channels of the interleave: slice `s` of the address space lies in the `s`-th of them until it is retired. -/
def hbmSlices : List Nat := (List.range 64).filter fun c => !hbmReserve.contains c

/-- Where a retirement has put slices: the reserve that is left, and by slice the pseudo-channel that took it, 64 for space of data
staging. -/
structure Remap where
  free : List Nat := hbmReserve
  moved : Tab Nat := []
  deriving DecidableEq, Repr

/-- The pseudo-channel that holds a slice, 64 for data staging. -/
def Remap.channel (r : Remap) (s : Nat) : Nat := (tget r.moved s).getD (hbmSlices.getD s 64)

/-- The slice that a pseudo-channel holds; a reserve channel not in use holds none. -/
def Remap.slice (r : Remap) (c : Nat) : Option Nat := (List.range 62).find? fun s => r.channel s == c

/-- A pseudo-channel is retired: the slice it holds goes to a channel of the reserve, or else to the top of data staging. -/
def Remap.retire (r : Remap) (c : Nat) : Remap :=
  let free := r.free.erase c
  match r.slice c with
  | none => { r with free }
  | some s => match free with
    | t :: rest => { free := rest, moved := tset r.moved s t }
    | [] => { free, moved := tset r.moved s 64 }

/-- The remapping that the retirements so far have made, in their order. -/
def remapOf (d : Dev) : Remap := d.bst.retired.foldl Remap.retire {}

/-- The slice of an HBM address and the byte in it: 2 KiB at a time across the slices (R34). -/
def hbmSplit (a : Nat) : Nat × Nat := (a / 2048 % 62, a / 2048 / 62 * 2048 + a % 2048)

/-- The HBM address of a byte of a slice. -/
def hbmJoin (s off : Nat) : Nat := (off / 2048 * 62 + s) * 2048 + off % 2048

/-- The other copy of a twin partition's entry, half the partition away: it lies in another pseudo-channel, since half of every twin
partition is no multiple of 62 pieces of 2 KiB (R34). -/
def twinOther (base bytes a : Nat) : Nat := if a - base < bytes / 2 then a + bytes / 2 else a - bytes / 2

/-- Pseudo-channels whose copy is done (MEM_RETIRED, R515, R518). -/
def retiredMask (d : Dev) : Nat := maskOf (d.bst.retired.filter fun c => !d.bst.copying.contains c)

/-- Has the SRAM instance a spare left for the fault, of its 4 rows and 2 columns (R510)? -/
def spareLeft (d : Dev) (f : SramFault) : Bool :=
  ((repairsNow d.bst).filter (· == .sram f)).length < if f.column then 2 else 4

/-- Can a fault be repaired: a spare is left, and an entry of the table, which holds 4,096 (R510, R511)? -/
def repairable (d : Dev) (f : SramFault) : Bool := spareLeft d f && d.bst.soft.length < 4096

/-- Take an entry of the soft-repair table (R510, R517). -/
def softAdd (d : Dev) (e : RepairEntry) : Dev :=
  if d.bst.soft.length < 4096 then { d with bst.soft := d.bst.soft ++ [e] } else faultEvent d 0x1206 0 0xFF 0xFF 0

/-- Retire a pseudo-channel: event 0x1203, attention 0x8, and the copy of its slice begins (R514, R515). In boot training no entry
is needed (R517). -/
def retirePc (d : Dev) (pc addr : Nat) : Dev :=
  if d.bst.retired.contains pc then d
  else
    let d := if d.glb.st == .boot then { d with bst.bootRetired := d.bst.bootRetired ++ [pc] } else softAdd d (.channel pc)
    let d := memCnt (faultEvent d 0x1203 0x8 pc 0xFF addr) 3
    { d with bst.retired := d.bst.retired ++ [pc], bst.copying := d.bst.copying ++ [pc] }

/-- Drive readiness is settled: no slot that is present, on and in service is still being brought up (R113, R120). -/
def drivesSettled (d : Dev) : Bool :=
  (List.range 24).all fun k =>
    let x := driveOf d k
    !bitAt d.sense.present.toNat k || x.off || !domOn d (pdD k) || x.bring == .ready || x.bring == .failed

/-- TRAIN ends in RECOVERY once the join is done and drive readiness is settled (R113). -/
def maybeRecover (d : Dev) : Dev :=
  if d.glb.st == .train && d.glb.joinDone && drivesSettled d then enter d .recovery else d

/-- The unit under test is back in service (R507): a buffer bank's cells count again (R164, R190). -/
def sliceOver (d : Dev) : Dev := xonAll { d with bst.active := none, bst.lastEnd := some d.time }

/-- A take-over, a hand-over, PWR_FAIL or the start of thermal throttling stops the test at once; the unit is returned, and the
segment runs again at the unit's next turn (R509). -/
def sliceInterrupt (d : Dev) : Dev :=
  match d.bst.active with
  | some _ => bstCnt (sliceOver d) 2
  | none => d

/-- A unit that is not drained, or whose controller loses power, is returned without test (R79, R509). -/
def sliceAbandon (d : Dev) : Dev :=
  match d.bst.active with
  | some _ => bstCnt (sliceOver d) 1
  | none => d

end Sys2Proof.Machine
end

