-- ==== Sys2Proof/Machine/Power.lean ====
section
/-! DEFINITION. Power, resets, sensors and the power manager's governors: what each command of chapters 2 to 4 that concerns
AON does (R54 to R71, R78 to R113). -/

namespace Sys2Proof.Machine

/-! ### Power registers (R91, R103, R104) -/

/-- PWR_CAP; its reset value is 0x94. -/
def pwrCap (d : Dev) : Nat := ((tget d.reg.live 0x10000).getD 0x94).toNat
def capW (d : Dev) : Nat := fld (pwrCap d) 0 8
def refuseMs (d : Dev) : Nat := fld (pwrCap d) 16 8
/-- PWR_THERM_CFG; its reset value is 0x37369. -/
def thermCfg (d : Dev) : Nat := ((tget d.reg.live 0x10030).getD 0x37369).toNat
def warnC (d : Dev) : Int := fld (thermCfg d) 0 8
def throttleC (d : Dev) : Int := fld (thermCfg d) 8 8
def hystC (d : Dev) : Int := fld (thermCfg d) 16 8

/-- The effective cap in mW: the lower of CAP_W and the thermal cap (R92). -/
def effectiveCap (d : Dev) : Nat :=
  match d.pwr.thermalCap with
  | some t => min (1000 * capW d) t
  | none => 1000 * capW d

/-- PWR_STATUS without its W1C bits (R103). -/
def pwrStatus (d : Dev) : Nat :=
  b2n (decide (1000 * capW d ≤ d.pwr.estimate)) + 2 * b2n d.pwr.thermalCap.isSome + 4 * b2n d.pwr.fail
    + 8 * b2n d.pwr.governorHold + 16 * b2n d.pwr.idle.isSome

/-- Count the energy of the time that has passed: mW × ns are pJ (R103). -/
def energyNow (d : Dev) : Dev :=
  { d with pwr.energy := d.pwr.energy + d.pwr.powerMw * (d.time - d.pwr.energyAt), pwr.energyAt := d.time }

/-! ### AON (R64, R78, R107, R108, R113) -/

/-- R108: VDD_AON rises into tolerance. -/
def execAonPowerOn (s : State) : Host.Outcome State Fault Refusal :=
  actIf (fun d => d.glb.st == .off) s fun d => coldReset d 0x20

/-- R113: VDD_AON leaves tolerance. -/
def execAonPowerLoss (s : State) : Host.Outcome State Fault Refusal :=
  act s fun d => { coldReset d 0 with glb.st := .off }

/-- R64, R108: a cold reset by PORST_N; cause bits 0, 3 from HALT, 4 after THERMTRIP_N. -/
def execPorstAssert (s : State) : Host.Outcome State Fault Refusal :=
  actIf (fun d => d.glb.st != .off) s fun d =>
    coldReset d (d.glb.cause ||| BitVec.ofNat 6 (1 + 8 * b2n (d.glb.st == .halt) + 16 * b2n d.glb.thermtrip))

/-- Flashes in boot order: 0 A, 1 B; LOAD_FIRST reads the second first (R115, R501). -/
def flashOrder (src : BitVec 2) (loadFirst : Bool) : List Nat :=
  match src.toNat with
  | 0 => if loadFirst then [1, 0] else [0, 1]
  | 1 => if loadFirst then [0, 1] else [1, 0]
  | 2 => [0]
  | _ => []

/-- The BOOT_SRC straps as latched, BOOT_SRC1 the upper bit (R67). -/
def strapSrc (boot1 boot0 : Bool) : BitVec 2 := BitVec.ofNat 2 (2 * b2n boot1 + b2n boot0)

/-- R67, R113: PORST_N rises, or the warm reset hold ends: BOOT. The straps are latched on a cold reset, from whose end the presence
filter runs: a drive that is present is recognised 20 ms later, by its own command (R62). The domains of the boot steps are
requested. An instruction in the TAP stays there (DESIGN CHOICE, log entry 77). -/
def execResetRelease (pairSide boot1 boot0 : Bool) (s : State) : Host.Outcome State Fault Refusal :=
  actIf (fun d => d.glb.st == .reset) s fun d =>
    let d := if d.glb.porst then { d with glb.porst := false, glb.side := pairSide, glb.bootSrc := strapSrc boot1 boot0 } else d
    let order := flashOrder d.glb.bootSrc d.glb.loadFirst
    let d := enter { d with glb.bootStatus := 0xC0003, glb.bootOrder := order, glb.mgmtWait := order.isEmpty,
                            glb.underLoad := d.glb.loadFirst, glb.loadFirst := false } .boot
    [pdHBM0, pdHBM1, pdCPU 0].foldl (fun d n => domRequestOn d n false) d

/-- The setpoint's steps of 5 mV, from 700 to 780 (R78). -/
def setpoint (mv : Nat) : Nat := min 780 (max 700 ((mv + 4) / 5 * 5))

/-- R78: the first setting of a power cycle. -/
def execAvsInitialSet (marginMv : Nat) (s : State) : Host.Outcome State Fault Refusal :=
  actIf (fun d => d.glb.st == .boot && !d.sense.avsSet) s fun d =>
    { d with sense.avsMv := setpoint (Config.avsFuseMv + marginMv), sense.avsSet := true }

/-- R107: the monitors are read; a call for more margin raises the setpoint by 5 mV, or lowers the clocks at 0.78 V. -/
def execAgingMonitorRead (slowdown : Half) (marginPct : Byte) (more : Bool) (s : State) : Host.Outcome State Fault Refusal :=
  actIf (fun d => d.glb.st != .off && d.sense.avsSet) s fun d =>
    let d := { d with sense.slowdown := slowdown, sense.marginPct := marginPct }
    if !more then d
    else if d.sense.avsMv + 5 ≤ 780 then { d with sense.avsMv := d.sense.avsMv + 5 }
    else { d with sense.clockDrop := min 8 (d.sense.clockDrop + 1) }

/-! ### Power failure (R65, R96, R97) -/

/-- R65: PWR_FAIL_N is recognised. -/
def execPwrFailRecognise (s : State) : Host.Outcome State Fault Refusal :=
  actIf (fun d => d.glb.st != .off) s fun d =>
    let d := sliceInterrupt (count { d with pwr.fail := true } 0x10018)
    if running d then pairOn d false .powerFail else d

/-- R97: PWR_FAIL_N has been high for 10 ms. -/
def execPwrFailClear (s : State) : Host.Outcome State Fault Refusal :=
  actIf (fun d => d.pwr.fail) s fun d => { d with pwr.fail := false }

/-! ### Slots and pins (R59, R62, R71) -/

/-- R62, R316: a presence change that has held for 20 ms; a slot that empties goes ABSENT with its PERST_N low. -/
def execPresenceChange (slot : Nat) (present : Bool) (s : State) : Host.Outcome State Fault Refusal :=
  actIf (fun d => d.glb.st != .off && decide (slot < 24)) s fun d =>
    let m := if present then setBit d.sense.present.toNat slot else d.sense.present.toNat - 2 ^ slot * b2n (bitAt d.sense.present.toNat slot)
    let d := { d with sense.present := BitVec.ofNat 24 m }
    maybeRecover (if !present && planned d then memberChange d fun d => slotAbsent d slot else d)

/-- A write to a GPIO register: access first, then only FW_CORE changes anything (R70). -/
def gpioGo (d : Dev) (m : Master) (f : Word → Word) : Dev :=
  if isFw m then { d with reg.live := tset d.reg.live 0xD00104 (f (liveReg d 0xD00104)) } else d

/-- A write of one of them under its page's rights. -/
def gpioWrite (d : Dev) (m : Master) (off : Nat) (f : Word → Word) : Dev := writeAccess d m off fun d => gpioGo d m f

/-- R71: MGT_GPIO_OUT_SET. -/
def execMgtGpioOutSet (m : Master) (v : Word) (s : State) : Host.Outcome State Fault Refusal :=
  actIf (fun d => d.glb.st != .off) s fun d => gpioWrite d m 0xD00108 fun x => x ||| (v &&& 0xFFFF)

/-- R71: MGT_GPIO_OUT_CLR. -/
def execMgtGpioOutClr (m : Master) (v : Word) (s : State) : Host.Outcome State Fault Refusal :=
  actIf (fun d => d.glb.st != .off) s fun d => gpioWrite d m 0xD0010C fun x => x &&& ~~~(v &&& 0xFFFF)

/-- R59: PMB_ALERT_N is sampled; the regulator that raised it is polled by the next telemetry read. -/
def execPmbusAlert (rail : Nat) (s : State) : Host.Outcome State Fault Refusal :=
  actIf (fun d => d.glb.st != .off) s fun d => { d with sense.pmbAlert := some rail }

/-! ### Domains (R79, R81 to R85) -/

/-- R81, R83: a switch-on request. -/
def execDomainSwitchOnRequest (dom : Nat) (takeover : Bool) (s : State) : Host.Outcome State Fault Refusal :=
  actIf (fun d => running d && d.pwr.idle.isNone && !d.glb.shutdown) s fun d => domRequestOn d dom takeover

/-- R81, R83: a switch-off request. -/
def execDomainSwitchOffRequest (dom : Nat) (takeover : Bool) (s : State) : Host.Outcome State Fault Refusal :=
  actIf (fun d => running d && d.pwr.idle.isNone && !d.glb.shutdown && !mustStay d dom) s fun d => domQueueOff d dom takeover

/-- R79: a domain that is waking is ready; requests whose turn has come start. -/
def execDomainReady (dom : Nat) (s : State) : Host.Outcome State Fault Refusal :=
  actIf (fun d => domPhase d dom == .rising) s fun d => turnStep (domServe (setDom d dom .on))

/-- Links of a macro go down and its statistics read 0 (R79). -/
def macroDown (d : Dev) (m : Nat) : Dev :=
  let ports := if m < 8 then (List.range 4).map (4 * m + ·) else [32]
  let d := ports.foldl (fun d p => if (portOf d p).up then portDown d p else modPort d p fun x => { x with attempt := none }) d
  { d with reg.cnt := tfilter d.reg.cnt fun o _ => !(ethBase m ≤ o && o < ethBase m + 0x10000) }

/-- A buffer bank loses the frames that lie in it; which frames those are the spec leaves open (R79, R187). -/
def bankDown (d : Dev) : Dev :=
  let (n, d) := draw d
  let lost := (tkeys d.swc.store).filter fun i => Config.freeBool (n + i)
  let d := { d with free := n + 1 + d.swc.nextId }
  (tkeys d.swc.queues).foldl (fun d k =>
    let gone := (tgetD d.swc.queues k {}).frames.filter fun f => lost.contains f.id
    let d := modQueue d (k / 16) (k % 16) fun x => { x with frames := x.frames.filter fun f => !lost.contains f.id }
    leaveIfEmpty (gone.foldl freeCopy d) (k / 16) (k % 16)) d

/-- A Trestle quarter's resident contexts are written back before it goes off; quarter 0 holds the porch (R79, R267). -/
def quarterDown (d : Dev) (t : Nat) : Dev :=
  let gone := d.trs.resident.take (d.trs.resident.length - ctxSlots d)
  let d := gone.foldl evict d
  let wb := d.trs.writeback.filter fun c => !gone.contains c
  let d := { d with trs.writeback := wb }
  if t == 0 then { d with trs.porch := [] } else d

/-- What a domain loses when it goes off (table "Power domains", R79). -/
def domLost (d : Dev) (n : Nat) : Dev :=
  let d := if d.bst.active == some n then sliceOver d else d
  if n < 8 then macroDown d n
  else if n < 32 then (if planned d then memberChange d fun d => slotAbsent d (n - 8) else d)
  else if n == pdPW then macroDown d 8
  else if n == pdBUF 0 then { d with swc := {} }
  else if 36 ≤ n && n < 43 then bankDown d
  else if 43 ≤ n && n < 47 then quarterDown d (n - 43)
  else if n == pdITG 0 then { d with itg.pages := [], itg.clearing := [] }
  else if n == pdCTR then
    { d with ctr.writing := none, ctr.traceWait := none, reg.cnt := tfilter d.reg.cnt fun o _ => !(0xC00000 ≤ o && o < 0xD00000) }
  else if n == pdDBG then { d with acc.unlocked := false, acc.challenged := false }
  else if n == pdBST then sliceAbandon (burnLost d)
  else d

/-- R79: a domain's switch-off is complete. -/
def execDomainOffComplete (dom : Nat) (s : State) : Host.Outcome State Fault Refusal :=
  actIf (fun d => domPhase d dom == .falling) s fun d =>
    maybeRecover (turnStep (domServe (domLost (setDom d dom .off) dom)))

/-! ### Deep idle (R85) -/

/-- A write to PWR_CTRL where it is ignored: event 0x0302 outside HALT, RESET included. -/
def pwrCtrlIgnored (d : Dev) (bits : Nat) : Dev :=
  if d.glb.st == .halt || d.glb.st == .off then d
  else logAppend d { event := 0x0302, attn := 0, topic := .none, detail := le 1 (stCode d.glb.st) ++ le 1 bits }

/-- Domains that stay on in deep idle. -/
def idleKeeps (d : Dev) (n : Nat) : Bool :=
  [pdCPU 0, pdHBM0, pdHBM1].contains n || (n == pdITG 0 && !d.itg.pages.isEmpty)

/-- Enter deep idle: 0.8 GHz, every other domain off. -/
def idleEnter (d : Dev) : Dev :=
  if d.pwr.idle.isSome then d
  else
    let up := domsUp d
    let d := { d with pwr.idle := some up, pwr.cpuMhz := 800 }
    ((planOrder 0 (fun _ => true) 64 []).reverse.filter fun n => !idleKeeps d n).foldl (fun d n => domQueueOff d n false) d

/-- Leave deep idle: every domain that was on at entry is switched on again in the order of R117; one that is still on but about to go
off is asked for again behind its switch-off (R82). -/
def idleExit (d : Dev) : Dev :=
  match d.pwr.idle with
  | none => d
  | some up => turnOn { d with pwr.idle := none, pwr.cpuMhz := 2000 } (BitVec.ofNat 64 (maskOf up))

/-- PWR_CTRL acts in MAINT alone, and there until a shutdown begins; elsewhere a write is ignored (R85, R101). -/
def pwrCtrlActs (d : Dev) : Bool := d.glb.st == .maint && !d.glb.shutdown

/-- A write of PWR_CTRL by a master that may write it; with both bits it enters and leaves. -/
def pwrCtrlGo (d : Dev) (v : Word) : Dev :=
  if !pwrCtrlActs d then pwrCtrlIgnored d (v.toNat % 4)
  else
    let d := if bitAt v.toNat 0 then idleEnter d else d
    if bitAt v.toNat 1 then idleExit d else d

/-- A write of a PWR_CTRL bit. -/
def pwrCtrl (d : Dev) (m : Master) (bits : Nat) (f : Dev → Dev) : Dev :=
  writeAccess d m 0x10048 fun d => if pwrCtrlActs d then f d else pwrCtrlIgnored d bits

/-- R85: DEEP_IDLE_ENTER. -/
def execDeepIdleEnter (m : Master) (s : State) : Host.Outcome State Fault Refusal :=
  actIf (fun d => d.glb.st != .off && d.glb.st != .halt) s fun d => pwrCtrl d m 1 idleEnter

/-- R85: DEEP_IDLE_EXIT. -/
def execDeepIdleExit (m : Master) (s : State) : Host.Outcome State Fault Refusal :=
  actIf (fun d => d.glb.st != .off && d.glb.st != .halt) s fun d => pwrCtrl d m 2 idleExit

/-! ### Governors (R87 to R95) -/

/-- Permitted activity of a block one µs later: up by at most an eighth, down by at most a fiftieth of full rate, in 1/200
(R87, R88). -/
def activityNext (a demand : Nat) : Nat := if a < demand then min demand (a + 25) else max demand (a - 4)

/-- What the blocks demand, in 1/200 of full rate: a block that the list does not reach demands nothing, and none does in RESET and
HALT. -/
def demandOf (d : Dev) (demand : List Nat) (i : Nat) : Nat := if running d then min 200 (demand.getD i 0) else 0

/-- R87, R88: one µs of the load governor. Every fall is spread, the falls to RESET and HALT among them. -/
def execLoadGovernorTick (demand : List Nat) (s : State) : Host.Outcome State Fault Refusal :=
  actIf (fun d => d.glb.st != .off) s fun d =>
    let n := (tkeys d.pwr.activity).foldl (fun n k => max n (k + 1)) demand.length
    let want := (List.range n).map fun i => (i, demandOf d demand i)
    let now := want.map fun e => (e.1, activityNext (tgetD d.pwr.activity e.1 0) e.2)
    { d with pwr.demand := want, pwr.activity := now, pwr.governorHold := (now.zip want).any fun e => e.1.2 < e.2.2 }

/-- The rebuild share of a volume: its own, or the default of STO_REBUILD_CFG (R390, R406). -/
def rebuildShare (d : Dev) (v : Volume) : Nat := if v.share == 0 then fld (liveN d 0x500400) 0 7 else v.share

/-- Least share of drive bandwidth that the cap leaves to rebuild and reshape: a volume's share while it is CRITICAL, 5 % otherwise
(R93, R538 h). -/
def bgFloor (d : Dev) : Nat :=
  (d.sto.vols.filter fun e => volState d e.1 == 3).foldl (fun n e => max n (rebuildShare d e.2)) 5

/-- The bandwidth that the cap leaves to rebuild and reshape now, in percent. -/
def bgNow (d : Dev) : Nat := max d.pwr.bgPct (bgFloor d)

/-- A value below `x` and not below `lo`: how far one action goes the spec leaves open (R93). -/
def lowerTo (d : Dev) (lo x : Nat) : Nat × Dev :=
  let (n, d) := draw d
  (lo + Config.freeNat n % max 1 (x - lo), d)

/-- While the estimate exceeds the effective cap: the next action (R93). -/
def capDown (d : Dev) : Dev :=
  if 800 < d.pwr.cpuMhz then
    let r := lowerTo d 800 d.pwr.cpuMhz
    { r.2 with pwr.cpuMhz := r.1 }
  else if !d.pwr.bistPaused then { d with pwr.bistPaused := true }
  else if bgFloor d < bgNow d then
    let r := lowerTo d (bgFloor d) (bgNow d)
    { r.2 with pwr.bgPct := r.1 }
  else
    match [2, 1, 0].find? fun i => 0 < d.pwr.admPct.getD i 0 with
    | some i =>
      let r := lowerTo d 0 (d.pwr.admPct.getD i 0)
      { r.2 with pwr.admPct := r.2.pwr.admPct.set i r.1 }
    | none => d

/-- Once it no longer does, the last action is undone first. How far one tick undoes an action the spec leaves open: the model undoes
one action in full per tick (DESIGN CHOICE, log entries 12 and 78). -/
def capUp (d : Dev) : Dev :=
  match [0, 1, 2].find? fun i => d.pwr.admPct.getD i 0 < 100 with
  | some i => { d with pwr.admPct := d.pwr.admPct.set i 100 }
  | none =>
    if d.pwr.bgPct < 100 then { d with pwr.bgPct := 100 }
    else if d.pwr.bistPaused then { d with pwr.bistPaused := false }
    else if d.pwr.idle.isSome then d
    else { d with pwr.cpuMhz := 2000 }

/-- R92, R93: the estimate of every 10 µs, and what the cap does about it. -/
def execPowerEstimateTick (estimateMw : Nat) (s : State) : Host.Outcome State Fault Refusal :=
  actIf (fun d => d.glb.st != .off) s fun d =>
    let d := { d with pwr.estimate := estimateMw }
    if !running d then d
    else
      let d := { d with pwr.bgPct := bgNow d }
      if effectiveCap d < estimateMw then capDown d else capUp d

/-- R92: the telemetry of every 1 ms corrects the estimate. -/
def execPowerTelemetryCorrect (powerMw : Nat) (railMv : List Nat) (railMa : List Nat) (s : State) :
    Host.Outcome State Fault Refusal :=
  actIf (fun d => d.glb.st != .off) s fun d =>
    { energyNow d with pwr.powerMw := powerMw, pwr.estimate := powerMw, sense.railMv := railMv, sense.railMa := railMa,
                       sense.pmbAlert := none }

/-- R91: a write of PWR_CAP. -/
def pwrCapGo (d : Dev) (v : Word) : Dev :=
  let cap := fld v.toNat 0 8
  if 60 ≤ cap && cap ≤ 148 && fld v.toNat 16 8 ≤ 100 then
    { d with reg.live := tset d.reg.live 0x10000 (v &&& 0xFF00FF) }
  else { d with pwr.capReject := true }

/-- R91: PWR_CAP_WRITE. -/
def execPwrCapWrite (m : Master) (v : Word) (s : State) : Host.Outcome State Fault Refusal :=
  actIf (fun d => d.glb.st != .off) s fun d => writeAccess d m 0x10000 fun d => pwrCapGo d v

/-- R104: a write of PWR_THERM_CFG. -/
def thermCfgGo (d : Dev) (v : Word) : Dev :=
  let w := fld v.toNat 0 8
  let t := fld v.toNat 8 8
  let h := fld v.toNat 16 8
  if 60 ≤ w && w ≤ 125 && 85 ≤ t && t ≤ 115 && 1 ≤ h && h ≤ 10 then
    { d with reg.live := tset d.reg.live 0x10030 (v &&& 0xFFFFFF) }
  else { d with pwr.thermReject := true }

/-- R104: PWR_THERM_CFG_WRITE. -/
def execPwrThermCfgWrite (m : Master) (v : Word) (s : State) : Host.Outcome State Fault Refusal :=
  actIf (fun d => d.glb.st != .off) s fun d => writeAccess d m 0x10030 fun d => thermCfgGo d v

/-- R95: neither the cap nor the thermal governor has held a command for 100 ms. -/
def execPowerAttnClear (s : State) : Host.Outcome State Fault Refusal :=
  actIf (fun d => d.cmd.heldSince.isEmpty && !d.cmd.slots.any fun e => releasedWaits e.2) s fun d => { d with pwr.holdAttn := false }

/-! ### Sensors (R66, R98 to R101) -/

/-- Reading of a sensor in 1/16 °C. -/
def tempOf (d : Dev) (n : Nat) : Int := tgetD d.sense.temps n 0

/-- The hottest of the die sensors that are not left out: reading and number (R98, R514). -/
def hottest (d : Dev) : Int × Nat :=
  match (List.range 28).filter fun n => !d.sense.leftOut.contains n with
  | n0 :: l => l.foldl (fun (b : Int × Nat) n => if b.1 < tempOf d n then (tempOf d n, n) else b) (tempOf d n0, n0)
  | [] => (d.sense.tjMax, d.sense.hottest)

/-- Is an HBM stack at or above a temperature? -/
def hbmAt (d : Dev) (c : Int) : Bool := decide (16 * c ≤ tempOf d 28) || decide (16 * c ≤ tempOf d 29)

/-- 16 low bits of a reading, two's complement. -/
def tempBits (t : Int) : Nat := (BitVec.ofInt 16 t).toNat

/-- TJ_MAX at or above WARN_C, once per crossing (R99). -/
def warnStep (d : Dev) : Dev :=
  let hot := decide (16 * warnC d ≤ d.sense.tjMax)
  let d' := { d with sense.warned := hot }
  if hot && !d.sense.warned then logEvent d' 0x0301 0 .none (le 1 d.sense.hottest ++ [0] ++ le 2 (tempBits d.sense.tjMax)) else d'

/-- The thermal governor starts with the measured power as its cap; 125 °C sets 40 W at once (R99, R100). -/
def throttleStep (d : Dev) : Dev :=
  let d := if d.pwr.thermalCap.isNone && (decide (16 * throttleC d ≤ d.sense.tjMax) || hbmAt d 95)
    then { sliceInterrupt d with pwr.thermalCap := some d.pwr.powerMw } else d
  if 2000 ≤ d.sense.tjMax then { (if d.pwr.thermalCap.isNone then sliceInterrupt d else d) with pwr.thermalCap := some 40000 } else d

/-- A die sensor at or above 130 °C: THERMTRIP_N, by the comparator alone, and shutdown (R66, R99). -/
def thermtripGo (d : Dev) : Dev := shutdown { d with glb.thermtrip := true }

/-- R98, R99: every sensor is read. -/
def execSensorScan (readings : List Int) (s : State) : Host.Outcome State Fault Refusal :=
  actIf (fun d => d.glb.st != .off) s fun d =>
    let d := { d with sense.temps := (readings.take 30).zipIdx.map fun e => (e.2, e.1) }
    let h := hottest d
    let d := { d with sense.tjMax := h.1, sense.hottest := h.2,
                      sense.peak := if d.sense.peak.all fun (p : Int × Nat) => p.1 < h.1 then some h else d.sense.peak }
    let d := throttleStep (warnStep { d with sense.refresh2 := [decide (1360 ≤ tempOf d 28), decide (1360 ≤ tempOf d 29)] })
    if (List.range 28).any fun n => 2080 ≤ tempOf d n then thermtripGo d
    else if hbmAt d 105 then shutdown d
    else d

/-- R66: the comparator of a die sensor. -/
def execThermtrip (sensor : Nat) (s : State) : Host.Outcome State Fault Refusal :=
  actIf (fun d => d.glb.st != .off && decide (sensor < 28)) s thermtripGo

/-- The thermal cap after one tick, in mW; none once it exceeds 148 W (R100). -/
def thermalNext (d : Dev) (cap : Nat) : Option Nat :=
  let thr := 16 * throttleC d
  let tj := if hbmAt d 95 then max d.sense.tjMax thr else d.sense.tjMax
  if thr ≤ tj then some (max 40000 (cap - (250 * (tj - thr + 16)).toNat))
  else if tj ≤ thr - 16 * hystC d then (if 148000 < cap + 4000 then none else some (cap + 4000))
  else some cap

/-- R100: the governor's tick of every 10 ms. -/
def execThermalGovernorTick (s : State) : Host.Outcome State Fault Refusal :=
  act s fun d => match d.pwr.thermalCap with
    | some cap => { d with pwr.thermalCap := thermalNext d cap }
    | none => d

/-- R101: every domain but PD_DBG is off, and the device enters HALT, where debug access stays. -/
def execHaltEntry (s : State) : Host.Outcome State Fault Refusal :=
  actIf (fun d => d.glb.shutdown && running d && (List.range 64).all fun n => n == pdDBG || domPhase d n == .off) s fun d =>
    enter { clearVolatile d with pwr.dom := d.pwr.dom, acc.challenge := d.acc.challenge, acc.challenged := d.acc.challenged,
                                 acc.unlocked := d.acc.unlocked, acc.dbgFails := d.acc.dbgFails } .halt

/-! ### Resets by register and by watchdog (R110, R123) -/

/-- R123: a write of GLB_RESET_CTRL. -/
def resetCtrlGo (d : Dev) (v : Word) : Dev :=
  if fld v.toNat 16 16 == 0xA5C3 && bitAt v.toNat 0 then warmReset d 1 else d

/-- R123: GLB_RESET_CTRL_WRITE. -/
def execGlbResetCtrlWrite (m : Master) (v : Word) (s : State) : Host.Outcome State Fault Refusal :=
  actIf running s fun d => writeAccess d m 0x30 fun d => resetCtrlGo d v

/-- R110: only FW_CORE restarts the watchdog. -/
def wdogGo (d : Dev) (m : Master) (v : Word) : Dev := if isFw m && v == 0x5AFE then { d with glb.wdog := d.time } else d

/-- R110: GLB_WDOG_KICK. -/
def execGlbWdogKick (m : Master) (v : Word) (s : State) : Host.Outcome State Fault Refusal :=
  actIf running s fun d => writeAccess d m 0x34 fun d => wdogGo d m v

/-- R110: the watchdog, which runs from PLAN until HALT, expires. -/
def execWatchdogExpire (s : State) : Host.Outcome State Fault Refusal :=
  actIf (fun d => running d && d.glb.st != .boot) s fun d => warmReset d 2

end Sys2Proof.Machine
end

