-- ==== Sys2Proof/Machine/Startup.lean ====
section
/-! DEFINITION. Boot images, the checks of a floor plan, its application, boot BIST and drive bring-up (R113 to R121, R124 to R134,
R500 to R502). -/

namespace Sys2Proof.Machine

/-- Write a field of a number. -/
def putFld (v lsb width x : Nat) : Nat := v - (fld v lsb width <<< lsb) + ((x % 2 ^ width) <<< lsb)

/-- Write a field of GLB_BOOT_STATUS (R123). -/
def bootField (d : Dev) (lsb width x : Nat) : Dev :=
  { d with glb.bootStatus := BitVec.ofNat 32 (putFld d.glb.bootStatus.toNat lsb width x) }

/-! ### Firmware images (R114, R115) -/

/-- Firmware starts: PLAN, where the watchdog runs (R110, R113). -/
def fwStart (d : Dev) (source : Nat) (i : FwImage) : Dev :=
  let d := bootField { d with glb.fwSource := source, glb.fwVersion := i.fwVersion, glb.fwRoll := i.version, glb.mgmtWait := false } 0 2 source
  enter { d with glb.wdog := d.time } .plan

/-- A read of a flash: its directory and image header at 25 MHz with opcode 0x13, and what follows the header at 100 MHz with 0x6C;
which read opcode the header takes the spec leaves open (R57, log entry 80). -/
def spiRead (d : Dev) (flashB header : Bool) : Dev := emit d (if header then .spi flashB 0x13 25 else .spi flashB 0x6C 100)

/-- R114: the boot ROM reads the next flash of the boot order. -/
def execBootSourceRead (flashB : Bool) (img : FwImage) (s : State) : Host.Outcome State Fault Refusal :=
  let src := b2n flashB
  actIf (fun d => d.glb.st == .boot && !d.glb.mgmtWait && domOn d (pdCPU 0)
      && (d.glb.bootOrder.find? fun f => !d.glb.tried.contains f) == some src) s fun d =>
    let r := fwResult d img
    let d := spiRead d flashB true
    let d := if r == 1 || 5 ≤ r then spiRead d flashB false else d
    let d := bootField { d with glb.tried := d.glb.tried ++ [src] } (if flashB then 6 else 2) 4 r
    if r == 1 then
      let d := if d.glb.underLoad && d.glb.bootOrder.head? == some src then { d with adm.copyOwed := true } else d
      fwStart d src img
    else if d.glb.bootOrder.all d.glb.tried.contains then { d with glb.mgmtWait := true } else d

/-- R115: a management image, from a master that holds ADMIN on the global window. After a rejection the device waits on, and takes
another: no source is retried within one boot, but the spec does not say that a management image is one (DESIGN CHOICE, log
entry 81). -/
def execMgmtImageDelivery (m : Master) (img : FwImage) (s : State) : Host.Outcome State Fault Refusal :=
  actIf (fun d => d.glb.st == .boot && d.glb.mgmtWait && domOn d (pdCPU 0)) s fun d =>
    if !pageHas d m 0 rADMIN then deny d m 0 0 rADMIN
    else
      let r := fwResult d img
      let d := bootField d 10 4 r
      if r == 1 then fwStart d 2 img else d

/-! ### PLAN (R116, R117) -/

/-- Where firmware looks for the floor plan, in order: 0 flash A, 1 flash B, 2 management (R116). -/
def planSources (d : Dev) : List Nat :=
  if d.glb.fwSource == 2 then [2]
  else d.glb.fwSource :: (if d.glb.bootSrc.toNat < 2 then [1 - d.glb.fwSource] else [])

/-- Enter MAINT from PLAN or SELFTEST_BOOT: PD_CMD0 is on from PLAN on (R83), so it is asked for where no plan has done so. -/
def toMaint (d : Dev) : Dev := domRequestOn (enter { d with pwr.turn := none } .maint) pdCMD0 false

/-- Event 0x0401: no floor plan, or too little data staging. -/
def noPlan (d : Dev) (source result staging : Nat) : Dev :=
  toMaint (logEvent d 0x0401 0 .none (le 1 source ++ le 1 result ++ [0, 0] ++ le 4 staging))

/-- R131: the next source's floor plan is checked. -/
def execFloorPlanCheck (source : Nat) (img : PlanImage) (s : State) : Host.Outcome State Fault Refusal :=
  actIf (fun d => d.glb.st == .plan && !d.glb.planAccepted
      && (planSources d).find? (fun x => !d.glb.planTried.contains x) == some source) s fun d =>
    let r := planResult d img
    let d := if source < 2 then spiRead d (source == 1) false else d
    let d := bootField { d with glb.planTried := d.glb.planTried ++ [source] } 14 4 r
    if r == 1 then bootField { d with pln.cand := some (imgPlan img), glb.planAccepted := true } 18 2 source
    else if (planSources d).all d.glb.planTried.contains then noPlan d 3 r (stagingNow d) else d

/-- Load a floor plan: structure, live and staged registers, access tables (R128, R137). -/
def loadPlan (d : Dev) (p : Plan) : Dev :=
  let regs := planRegs d p
  let live := regs.foldl (fun t e => tset t e.1 e.2) (tfilter d.reg.live fun o _ => aonWord o)
  let keys := p.keyAccess.flatMap fun e => (e.2.take 4).zipIdx.map fun x =>
    (4 * e.1 + x.2, ({ w0 := x.1.w0 &&& entryMask0, w1 := x.1.w1 &&& entryMask1 } : AccessEntry))
  let d := { d with pln.plan := p, pln.cand := none, reg.live := live, reg.staged := [], pwr.heldOff := p.heldOff,
                    acc.pages := planEntries regs 0x38000 1792, acc.ctr := planEntries regs 0xC10000 256, acc.keys := keys,
                    glb.planApplied := true, via.gate := p.viaduct.any (·.gate),
                    via.gates := BitVec.ofNat 64 (maskOf ((List.range 64).filter fun n =>
                      p.viaduct.any fun v => bitAt v.pierMask.toNat n && (v.piers[n]?).any (·.2.2))) }
  let w := liveN d 0x400080
  { d with cmd.budget := [fld w 0 8, fld w 8 8, fld w 16 8],
           swc.lfsr := (List.range 4).map fun i => (i, if d.time % 2 ^ 32 == 0 then 1 else BitVec.ofNat 32 d.time) }

/-- R117: the accepted floor plan is applied, and its domains are switched on one at a time; SELFTEST_BOOT follows the last. Too little
data staging sends the device to MAINT, with the plan loaded and none of its domains requested but PD_CMD0 (R113; DESIGN CHOICE, log
entry 82). -/
def execPlanApply (s : State) : Host.Outcome State Fault Refusal :=
  actIf (fun d => d.glb.st == .plan && d.pln.cand.isSome) s fun d =>
    match d.pln.cand with
    | none => d
    | some p =>
      let mib := stagingMiB p d.bst.retired.length
      let d := loadPlan d p
      if mib < 8192 then noPlan d (fld d.glb.bootStatus.toNat 18 2) 1 mib else turnOn d (BitVec.allOnes 64)

/-! ### SELFTEST_BOOT (R118, R479) -/

/-- The essential block that failed, if any: one of BUF0, TRS0, CMD0, ITG0, CPU0, or every erasure engine. -/
def essentialFailed (d : Dev) (fails : List Nat) : Option Nat :=
  match [35, 43, 59, 51, 55].find? fails.contains with
  | some n => some n
  | none => if [47, 48, 49, 50].all fun n => fails.contains n || bitAt d.pwr.heldOff.toNat n then some 47 else none

/-- Hold a domain off after boot BIST: event 0x0402. -/
def holdOff (d : Dev) (n : Nat) : Dev :=
  let d := { d with pwr.heldOff := d.pwr.heldOff ||| BitVec.ofNat 64 (2 ^ n) }
  domQueueOff (logEvent d 0x0402 0 .none (le 1 n)) n false

/-- The join is over: drives may be written from here on (R120, R121). -/
def joinOver (d : Dev) : Dev := judgeAll { d with glb.joinDone := true, glb.joinWait := false }

/-- Enter TRAIN: an unpaired device has no join, and a pair takes the ownership that a valid record gives, or else the floor
plan's (R121, R412, R413). With no drive to bring up, readiness is settled at once. -/
def toTrain (d : Dev) : Dev :=
  let d := enter d .train
  if d.pln.plan.unpaired then maybeRecover (joinOver { d with par.st := .unpaired })
  else
    let d := { d with par.st := .alone }
    if d.par.epoch == 0 then { d with par.owner := d.pln.plan.initOwner, par.roleA := false, par.roleB := true } else d

/-- Is a failed domain an essential block, or an erasure engine when none is left? -/
def isEssential (d : Dev) (fails : List Nat) (n : Nat) : Bool :=
  [35, 43, 59, 51, 55].contains n
    || ([47, 48, 49, 50].contains n && [47, 48, 49, 50].all fun k => fails.contains k || bitAt d.pwr.heldOff.toNat k)

/-- Integrity lanes that boot BIST finds failed. -/
def bootLanes (laneFails : List Nat) : List Nat := laneFails.eraseDups.filter (· < 32)

/-- Boot BIST's soft repairs, each of which takes a spare and an entry (R510, R512), and the domains where one finds none. -/
def bootRepairs (d : Dev) (repairs : List SramFault) : Dev × List Nat :=
  repairs.foldl (fun (r : Dev × List Nat) f =>
    if repairable r.1 f then (softAdd r.1 (.sram f), r.2) else (r.1, r.2 ++ [f.dom])) (d, [])

/-- The device after boot BIST's lanes and repairs, and the domains that fail: those named and those left unrepaired, where they are on,
and an integrity domain all of whose lanes failed (R118, R479). -/
def bootTested (d : Dev) (fails laneFails : List Nat) (repairs : List SramFault) : Dev × List Nat :=
  let lanes := bootLanes laneFails
  let dead := [0, 1, 2, 3].filter fun i => (List.range 8).all fun l => lanes.contains (8 * i + l)
  let r := bootRepairs (lanes.foldl laneFail d) repairs
  (r.1, (((fails ++ r.2).filter (domOn r.1)) ++ dead.map pdITG).eraseDups)

/-- R118: the result of boot BIST: domains that fail after repair, integrity lanes that fail a known answer, and soft repairs; one that
finds no spare leaves its block failed. Failed non-essential domains are held off. -/
def execBootBist (fails : List Nat) (found : BootFound) (s : State) : Host.Outcome State Fault Refusal :=
  actIf (fun d => d.glb.st == .selftest && d.pwr.reqs.isEmpty && d.pwr.dom.all fun e => e.2 != .rising) s fun d =>
    let t := bootTested d fails found.laneFails found.repairs
    let off := (t.2.filter fun n => !isEssential t.1 t.2 n).foldl holdOff t.1
    match essentialFailed t.1 t.2 with
    | some n => toMaint (logEvent off 0x0403 0 .none (le 1 n))
    | none => toTrain off

/-! ### Drive bring-up (R120) -/

/-- R120 step 3: the next present slot leaves PERST_N. -/
def execDrivePerstRelease (s : State) : Host.Outcome State Fault Refusal :=
  actIf (fun d => planned d && d.pwr.idle.isNone && !d.sense.clkLost.contains 2) s fun d =>
    match (List.range 24).find? fun k => bitAt d.sense.present.toNat k && !(driveOf d k).off && domOn d (pdD k)
        && (driveOf d k).bring == .down with
    | some k => modDrive d k fun x => { x with bring := .released, since := d.time }
    | none => d

/-- R120 step 5: link up; CC.EN is set. What training found of each lane's receive polarity, which it corrects, and of the order of the
lanes, the commands do not tell: free values (R52). -/
def execDriveLinkUp (slot : Nat) (rate : Nat) (width : Nat) (s : State) : Host.Outcome State Fault Refusal :=
  actIf (fun d => planned d && decide (slot < 24) && [Bring.released, .failed].contains (driveOf d slot).bring) s fun d =>
    let (n, d) := drawBits d 3
    let d := modDrive d slot fun x =>
      { x with bring := if x.bring == .failed then .failed else .link, id.linkRate := rate, id.linkWidth := width,
               rxInvert := BitVec.ofNat 2 n, reversed := bitAt n 2 }
    emit d (.drive slot .enable)

/-- R120 step 6: CSTS.RDY; identify data and health log are read, then the asynchronous event notices are enabled, and the drive is
judged. A drive that becomes ready late is admitted in SERVICE. -/
def execDriveReady (slot : Nat) (id : DriveIdent) (s : State) : Host.Outcome State Fault Refusal :=
  actIf (fun d => planned d && decide (slot < 24)
      && ((driveOf d slot).bring == .link || ((driveOf d slot).bring == .failed && d.glb.st == .service))) s fun d =>
    let d := modDrive d slot fun x =>
      { x with bring := .ready, async := true, late := inPair d && (pairDrives d).contains slot, id := { id with linkRate := x.id.linkRate, linkWidth := x.id.linkWidth } }
    let d := registerOn (emits d [.drive slot .identify, .drive slot .healthLog, .drive slot .asyncEnable]) slot
    let d := memberChange d fun d => admitDrive d slot
    maybeRecover (if (driveOf d slot).fencing then emit d (.drive slot .preempt) else d)

/-- R120: link up and CSTS.RDY did not both come within 30 s. -/
def execDriveReadyTimeout (slot : Nat) (s : State) : Host.Outcome State Fault Refusal :=
  actIf (fun d => planned d && decide (slot < 24) && [Bring.released, .link].contains (driveOf d slot).bring) s fun d =>
    let d := modDrive d slot fun x => { x with bring := .failed }
    maybeRecover (if decides d slot then setMember d slot .present else d)

/-- Entry to SERVICE: event 0x1006 for every volume without a usable key (R476). -/
def enterService (d : Dev) : Dev :=
  let d := enter d .service
  (d.sto.vols.filter fun e => ownsVol d e.2 && (usableKey d e.2).isNone).foldl
    (fun d e => itgEvent d 0x1006 (some e.2.keyPage) 0xFF e.1) d

end Sys2Proof.Machine
end

