-- ==== Sys2Proof/Machine/Queues.lean ====
section
/-! DEFINITION. Submission rings and their fetch, completion entries, posting into completion queues and the space there, and the
edge that a full fetch buffer holds (R274 to R281, R293 to R298, R312, R532). -/

namespace Sys2Proof.Machine

def sqOf (d : Dev) (q : Nat) : Option SqRec := tget d.cmd.sqs q
def cqOf (d : Dev) (q : Nat) : Option CqRec := tget d.cmd.cqs q
def modCq (d : Dev) (q : Nat) (f : CqRec → CqRec) : Dev := { d with cmd.cqs := tupd d.cmd.cqs q f }
def wrOf (d : Dev) (q : Nat) : Wr := tgetD d.trs.wrs q {}
def modWr (d : Dev) (q : Nat) (f : Wr → Wr) : Dev := { d with trs.wrs := tupd d.trs.wrs q f }
def bufOf (d : Dev) (c : Nat) : List Fetched := tgetD d.cmd.bufs c []

/-! ### Credit edge of a paused ring (R237, R312) -/

/-- Is every SQ bound to the connection paused, and is there one? -/
def connPaused (d : Dev) (c : Nat) : Bool :=
  let mine := d.cmd.sqs.filter fun e => (cqOf d e.2.cq).any fun q => q.conn == c && !q.detached
  !mine.isEmpty && mine.all fun e => (wrOf d e.1).paused

/-- Move a connection's edge on to RCVD + window, unless a full fetch buffer holds it (R237, R312). -/
def edgeMove (d : Dev) (c : Nat) : Dev :=
  if connPaused d c then d
  else modConn d c fun x =>
    let e := (x.rcvd + x.window) % 2 ^ 64
    if beyond e x.edge then { x with edge := e } else x

/-- Move the edge; a CREDIT that falls due goes out when the context is resident (R237, R265). -/
def edgeRefresh (d : Dev) (c : Nat) : Dev :=
  let d := edgeMove d c
  match connOf d c with
  | some x => if connLive x && creditDue d x then ctxDo d c .credit else d
  | none => d

/-! ### Fetch (R275, R276, R299) -/

/-- One new capsule at HEAD, if there is one and the fetch buffer of the class has room. -/
def fetchOne (d : Dev) (q : Nat) (r : SqRec) : Option Dev :=
  let off := r.ringOff + 64 * r.head
  let cap := memReads d.trs.rings off 64
  let buf := bufOf d r.cls
  if bitAt (byteAt cap 1) 7 != r.phase || 1024 ≤ buf.length then none
  else
    let f : Fetched := { sq := q, cap, time := d.time, order := d.cmd.fetches, placed := tgetD d.trs.ringAt (off / 64) d.time }
    let wrap := r.head + 1 == r.depth
    some (cmdCnt { d with
      cmd.bufs := tset d.cmd.bufs r.cls (buf ++ [f]), cmd.fetches := d.cmd.fetches + 1,
      cmd.sqs := tset d.cmd.sqs q { r with head := if wrap then 0 else r.head + 1, phase := r.phase != wrap } } 0)

/-- Read slots from HEAD until one holds no new capsule or the buffer is full. -/
def fetchGo (q : Nat) : Nat → Dev → Dev
  | 0, d => d
  | f + 1, d => match (sqOf d q).bind (fetchOne d q) with
    | some d => fetchGo q f d
    | none => d

/-- Is a QUEUE_DELETE of an SQ waiting for its commands (R283)? -/
def sqStopping (d : Dev) (q : Nat) : Bool :=
  d.cmd.slots.any fun e => e.2.op == 0x84 && e.2.waitFor && leAt e.2.cap 4 2 == q && byteAt e.2.cap 6 == 0

/-- May an SQ fetch: it is not being deleted and its CQ is attached (R281, R283)? -/
def mayFetch (d : Dev) (q : Nat) (r : SqRec) : Bool := !sqStopping d q && (cqOf d r.cq).any fun c => !c.detached

/-- Read a ring; a full buffer pauses the fetch and HEAD stays, otherwise the read ends, and starts again where REFETCH was set
(R262, R312). -/
def fetchRing (d : Dev) (q : Nat) : Dev :=
  match sqOf d q with
  | none => d
  | some r =>
    if !(wrOf d q).running || !mayFetch d q r then d
    else
      let d := fetchGo q r.depth d
      let full := 1024 ≤ (bufOf d r.cls).length
      let d := if full then
          let d := if (wrOf d q).paused then d else cmdCnt d 15
          modWr d q fun w => { w with paused := true }
        else modWr d q fun w => { w with paused := false, running := w.refetch, refetch := false }
      match (cqOf d r.cq).map (·.conn) with
      | some c => edgeRefresh d c
      | none => d

/-! ### Completion entries (R277, R279, R293, R297, R298) -/

/-- DELAY_REASON: the longest wait, the higher value on a tie; `waits` holds the waits of reasons 1 to 9. -/
def delayReason (waits : List Nat) : Nat :=
  ((waits.take 9).zipIdx.foldl (fun (b : Nat × Nat) w => if b.1 ≤ w.1 && w.1 != 0 then (w.1, w.2 + 1) else b) (0, 0)).2

/-- The waits of reasons 1 to 9: at least those that the model has measured, or 1 ns for each that the rules name. A wait for credit
is one that a transfer of the command has had (R238). -/
def allWaits (s : Slot) (waits : List Nat) : List Nat :=
  (List.range 9).map fun i =>
    max (if i == 6 then 0 else waits.getD i 0) (max (tgetD s.stalls (i + 1) 0) (b2n (s.slow.contains (i + 1))))

/-- FLAGS bits [5:1] of an entry: DELAYED and DELAY_REASON. A command that was held for power, by PWR_FAIL, for a context, by credit or
by a take-over is always DELAYED (R94, R97, R238, R269, R435), and a forwarded one that its owner reports DELAYED keeps the owner's
reason (R456). -/
def delayFlags (s : Slot) (late : Bool) (waits : List Nat) : Nat :=
  if !s.fwdCpl.isEmpty && bitAt (leAt s.fwdCpl 14 2) 1 then leAt s.fwdCpl 14 2 &&& 0x3E
  else if late || !s.slow.isEmpty then 2 + 4 * delayReason (allWaits s waits)
  else 0

/-- The PD whose conditions an entry shows: the PD of the CQ's connection (R298). -/
def entryPd (d : Dev) (s : Slot) : Option Nat :=
  if s.msub || s.from_.isSome then none
  else ((cqOf d s.cq).bind fun q => connOf d q.conn).map (·.r.pd)

/-- The 32 bytes of a completion entry. -/
def entryBytes (d : Dev) (s : Slot) (st r0 r1 phase flags : Nat) : List Byte :=
  let pd := entryPd d s
  let attn := (pd.map fun n => attnTop (attnMask d n)).getD 0
  let more := s.more || (!s.fwdCpl.isEmpty && bitAt (leAt s.fwdCpl 16 2) 11)
  let head := if s.msub || s.from_.isSome then 0 else ((sqOf d s.sq).map (·.head)).getD 0
  le 2 s.cid ++ le 2 s.sq ++ le 4 r0 ++ le 4 r1 ++ le 2 head ++ le 2 (phase + flags)
    ++ le 2 (st % 2048 + 2048 * b2n more + 4096 * attn)
    ++ le 2 ((pd.map fun n => tgetD d.log.attnSeq n 0).getD 0) ++ le 8 d.time ++ zeros 4

/-- Result of a command at generation: a host transfer that failed takes the place of success (R296). -/
def finalResult (s : Slot) : Option (Nat × Nat × Nat) :=
  match s.result, s.xferFail with
  | some (0, _, _), some code => some (stFIELD, 20, code)
  | r, _ => r

/-- Tenant counters of a completed command (R523). A gate does not execute what it forwards. -/
def tenantCount (d : Dev) (s : Slot) (st flags latency : Nat) : Dev :=
  if s.msub || s.to_.isSome then d
  else
    let ok := st == stSUCCESS
    let bytes := if ok then 4096 * s.count else 0
    let d := pdCnt d s.pd (if s.op == 1 then 0 else if s.op == 2 then 1 else 2) 1
    let d := if s.op == 1 then pdCnt d s.pd 3 bytes else if s.op == 2 then pdCnt d s.pd 4 bytes else d
    let d := if ok then d else pdCnt d s.pd 5 1
    let d := if bitAt flags 1 then pdCnt d s.pd 6 1 else d
    let d := if st / 256 == 4 then pdCnt d s.pd 7 1 else d
    let d := if st == stABORTED || st == stABSAN then pdCnt d s.pd 9 1 else d
    let d := pdCnt d s.pd 10 latency
    if !isVolIo s.op || (volOf d s.vol).isNone then d
    else
      let d := if s.op == 1 then volCnt (volCnt d s.vol 0 1) s.vol 2 bytes
        else if s.op == 2 then volCnt (volCnt d s.vol 1 1) s.vol 3 bytes else d
      volCnt d s.vol 7 latency

/-- Engine counters of a completed command (R314). -/
def engineCount (d : Dev) (st flags : Nat) : Dev :=
  let d := cmdCnt d 2
  let d := if st == stSUCCESS then d else cmdCnt d 3
  let d := if bitAt flags 1 then cmdCnt d 4 else d
  if st == stSLOTS then cmdCnt d 5 else if st == stQUOTA then cmdCnt d 6 else if st == stPOWER then cmdCnt d 7 else d

/-! ### Trace records (R525, R526, R532) -/

def ctrDumpBytes (d : Dev) : Nat := d.pln.plan.dumpMiB * 1048576
def traceBase (d : Dev) : Nat := liveN d 0xC00020
def traceSize (d : Dev) : Nat := liveN d 0xC00024

/-- A milestone's offset from T0, saturating; 0xFFFFFFFF when it did not occur. -/
def mileOff (s : Slot) (i : Nat) : Nat := match tget s.miles i with
  | some t => min (t - s.placed) 0xFFFFFFFE
  | none => 0xFFFFFFFF

/-- The 128 bytes of a trace record. -/
def traceBytes (d : Dev) (s : Slot) (waits : List Nat) : List Byte :=
  let gate := match s.from_ with | some (p, _) => p | none => 0xFF
  le 4 s.cmdTag.toNat ++ le 2 s.pd ++ le 2 (if isVolIo s.op then s.vol else 0xFFFF)
    ++ [BitVec.ofNat 8 s.op, BitVec.ofNat 8 s.flags, BitVec.ofNat 8 s.cls, BitVec.ofNat 8 gate]
    ++ (s.entry.drop 16).take 2 ++ (s.entry.drop 14).take 2 ++ le 4 s.count ++ le 4 (d.ctr.traceSeq + 1) ++ le 8 s.placed
    ++ (List.range 8).flatMap (fun i => le 4 (mileOff s i))
    ++ (List.range 9).flatMap (fun i => le 4 (min (waits.getD i 0) 0xFFFFFFFF))
    ++ le 4 s.driveCmds ++ zeros 24

/-- Write the waiting trace record at the next place of the trace ring, which has room for none until group 21 gives it an area. -/
def traceFlush (d : Dev) : Dev :=
  match d.ctr.traceWait with
  | none => d
  | some bs =>
    let d := { d with ctr.traceWait := none }
    if traceSize d < bs.length then d
    else
      let at_ := if traceSize d < d.ctr.traceNext + bs.length then 0 else d.ctr.traceNext
      let keep := (traceSize d / 128) - 1
      let old := d.ctr.traces.drop (d.ctr.traces.length - keep)
      { d with ctr.dump := memWrites d.ctr.dump (traceBase d + at_) bs, ctr.traceNext := at_ + bs.length,
               ctr.traces := old ++ [(leAt bs 20 4, bs)] }

/-- A trace record is generated (R532). -/
def traceWrite (d : Dev) (bs : List Byte) : Dev :=
  let d := traceFlush { d with ctr.traceSeq := (d.ctr.traceSeq + 1) % 2 ^ 32 }
  if domOn d pdCTR then { d with ctr.traceWait := some bs } else d

/-- The completion of a command leaves: a tagged one has its trace record, with its milestones and its waits, kept from 16 on
(R532). -/
def traceOf (d : Dev) (s : Slot) : Dev :=
  if s.traced then traceWrite d (traceBytes d (mile d.time 7 s) ((List.range 9).map fun i => tgetD s.miles (16 + i) 0)) else d

/-! ### Posting (R278, R280, R294, R456) -/

/-- Free entries of a CQ beyond the one at slot `t`, by the latest reading of the head word. -/
def cqRoom (q : CqRec) (t : Nat) : Nat := (q.hostHead + 2 * q.depth - t - 1) % q.depth

/-- Read the head word, one reading at a time. -/
def readHead (d : Dev) (cq : Nat) : Dev :=
  match cqOf d cq with
  | some q => if q.reading || q.detached then d
      else sendRead (modCq d cq fun q => { q with reading := true }) q.conn q.headAddr q.key.toNat 8 (.cqHead cq)
  | none => d

/-- Free what an SQ holds: its fetch work request, its binding of the ring region, its entry (R258, R261, R283). -/
def removeSq (d : Dev) (q : Nat) : Dev :=
  match sqOf d q with
  | none => d
  | some r =>
    let d := { d with cmd.sqs := tdel d.cmd.sqs q, trs.wrs := tdel d.trs.wrs q, cmd.heldSince := tdel d.cmd.heldSince q,
                      trs.regions := tupd d.trs.regions r.region fun x => { x with ring := false, bound := false, sq := 0 } }
    mirror (mirror d (.st (.sq q none))) (.st (.region r.region (tget d.trs.regions r.region)))

/-- A volume is gone: its record is made invalid, its slabs and units are free, its bindings removed (R340, R547). -/
def removeVol (d : Dev) (v : Nat) : Dev :=
  match volOf d v with
  | none => d
  | some vol =>
    let d := { d with sto.vols := tdel d.sto.vols v, sto.locks := d.sto.locks.filter (·.vol != v),
                      sto.repairs := d.sto.repairs.filter fun e => e.2.vol != v, sto.bmOut := d.sto.bmOut.filter (·.vol != v),
                      sto.bmWait := d.sto.bmWait.filter fun e => e.1 != v, sto.units := d.sto.units.filter fun e => e.1 != v,
                      sto.lastUpdate := d.sto.lastUpdate.filter fun e => e.1 / 2 ^ 40 != v,
                      via.directory := tdel d.via.directory v }
    writeRecordsFor d vol.lay.group true

/-- Every QUEUE_DELETE of an SQ that waits completes after every command of the SQ but itself (R283), a VOLUME_DELETE after every I/O command on
its volume (R340), a KEY_CLEAR after the tag work of earlier commands and the partner's clear (R477, R478). -/
def finishDelete (d : Dev) (c : Nat) (s : Slot) : Dev :=
  let q := leAt s.cap 4 2
  let tagging := d.cmd.slots.any fun e => e.2.adm < s.adm && e.2.phase != .held && e.2.key.isSome && e.2.result.isNone
    && (volOf d e.2.vol).any fun v => v.keyPage == q
  if s.op == 0x8B then
    if s.waitFor && s.result.isNone && !tagging && !d.par.keyItems.any fun k => k.page == q then
      answer (modSlot { d with itg.clearing := d.itg.clearing.erase q } c fun s => { s with waitFor := false }) c stSUCCESS 0 0
    else d
  else if s.op == 0x86 && s.waitFor && s.result.isNone && (volOf d s.vol).any (·.deleting)
      && !d.cmd.slots.any (fun e => e.1 != c && isVolIo e.2.op && e.2.vol == s.vol && e.2.phase != .generated) then
    answerAfter (modSlot (removeVol d s.vol) c fun s => { s with waitFor := false }) c (.st (.volume s.vol none)) stSUCCESS 0 0
  else if !(s.op == 0x84 && s.waitFor && byteAt s.cap 6 == 0 && thas d.cmd.sqs q)
      || d.cmd.slots.any (fun e => e.1 != c && e.2.sq == q && e.2.from_.isNone && !e.2.msub && !e.2.orphan && !e.2.own) then d
  else
    let all := d.cmd.slots.filter fun e => e.2.op == 0x84 && e.2.waitFor && byteAt e.2.cap 6 == 0 && leAt e.2.cap 4 2 == q
    all.foldl (fun d e => answer (modSlot d e.1 fun s => { s with waitFor := false }) e.1 stSUCCESS 0 0) (removeSq d q)

def finishDeletes (d : Dev) : Dev :=
  if d.cmd.slots.any fun e => (e.2.op == 0x84 || e.2.op == 0x86 || e.2.op == 0x8B) && e.2.waitFor then
    d.cmd.slots.foldl (fun d e => finishDelete d e.1 e.2) d else d

/-- A slot is freed: its completion has been posted. An IMAGE_ACTIVATE's warm reset follows its posted completion (R501). -/
def freeSlot (d : Dev) (c : Nat) : Dev :=
  let d := finishDeletes (lockDropAll { d with cmd.slots := tdel d.cmd.slots c } c)
  if d.adm.resetAfter == some c then warmClear (haltNotice d) else d

/-- Post the entry of a posting. -/
def postOne (d : Dev) (p : Posting) (q : CqRec) : Dev :=
  let d := if 4 * cqRoom q ((p.slot + 1) % q.depth) < q.depth then readHead d p.cq else d
  let d := { d with cmd.posting := d.cmd.posting.erase p }
  let full := (p.fullSince.map fun t => d.time - t).getD 0
  let d := sendMsg d q.conn { kind := .write, len := 32, addr := q.addr + 32 * p.slot, key := q.key.toNat, fence := true,
                              notify := q.notify, data := lateEntry p.entry p.wait 7 full, wait := max p.wait full,
                              use := .entry p.cq p.slot }
  match slotOf d p.cmd with
  | some s =>
    freeSlot (traceOf d { s with miles := tset s.miles 22 (max (tgetD s.miles 22 0) (max p.wait full)) }) p.cmd
  | none => d

/-- May an entry be posted: the partner has it, its CMD item is acknowledged, and the CQ is attached and has room? -/
def mayPost (d : Dev) (p : Posting) : Bool :=
  p.ready && (cqOf d p.cq).any (fun q => !q.detached && 1 ≤ cqRoom q p.slot)
    && (slotOf d p.cmd).all fun s => mseqAcked d s.cmdItem

/-- Post in the order of each CQ: an entry never passes an earlier one of its CQ. -/
def postGo : List Posting → List Nat → Dev → Dev
  | [], _, d => d
  | p :: rest, blocked, d =>
    if blocked.contains p.cq || !mayPost d p then postGo rest (p.cq :: blocked) d
    else match cqOf d p.cq with
      | some q => postGo rest blocked (postOne d p q)
      | none => postGo rest blocked d

def postAll (d : Dev) : Dev := postGo d.cmd.posting [] d

/-- An entry enters its CQ's order (R278); while PAIRED its COMPLETION item goes first (R418). -/
def enqueuePost (d : Dev) (cq cmd slot : Nat) (entry : List Byte) (tag : Word) (wait : Nat) : Dev :=
  let full := (cqOf d cq).any fun q => cqRoom q slot == 0
  let behind := d.cmd.posting.any fun p => p.cq == cq && p.fullSince.isSome
  let p : Posting := { cq, cmd, slot, entry, ready := !paired d, wait, fullSince := if full || behind then some d.time else none }
  let d := { d with cmd.posting := d.cmd.posting ++ [p] }
  let d := if full then cmdCnt d 13 else d
  postAll (mirrorThen d (.completion cq slot entry tag) (.post cmd) fun d => d)

/-- Generate the entry of an answered command and hand it to its CQ, to the gate that forwarded the command, or to the
management submission registers (R279, R294, R314, R456). -/
def generate (d : Dev) (c : Nat) (s : Slot) (late : Bool) (waits : List Nat) (latency : Nat) : Dev :=
  match if s.own then none else finalResult s with
  | none => if s.own then freeSlot d c else d
  | some (st, r0, r1) =>
    let fl := delayFlags s late waits
    let d := engineCount (tenantCount d s st fl latency) st fl
    let s : Slot := mile d.time 6 s
    let miles := (allWaits s waits).zipIdx.foldl (fun (t : Tab Nat) (w : Nat × Nat) => tset t (16 + w.2) w.1) s.miles
    let s : Slot := { s with phase := .generated, result := some (st, r0, r1), miles }
    if s.msub then
      let e := entryBytes d s st r0 r1 0x8001 fl
      freeSlot (traceOf { d with cmd.msubCpl := e, cmd.msubBusy := false, cmd.msubDone := true } { s with entry := e }) c
    else match s.from_ with
    | some (pier, gshelf, seq, _) =>
      let e := entryBytes d s st r0 r1 0 fl
      let (k, d) := drawBits d 32
      let (a, d) := drawBits d 64
      let bytes := s.back.flatMap (·.2)
      let d := if bytes.isEmpty then d else { d with via.staged := d.via.staged ++ [(k, a, bytes)] }
      let r : InnerRec := { gateShelf := gshelf, gateTag := s.cmdTag, hostPd := s.pd, kindFields := e, stageKey := BitVec.ofNat 32 k,
                            stageAddr := BitVec.ofNat 64 a }
      let d := mirror d (.completion (mirrorSq s) seq e s.cmdTag)
      let d := { d with via.done := d.via.done ++ [(gshelf * 65536 + s.sq, seq, r)] }
      freeSlot (innerSend (traceOf d { s with entry := e }) pier 2 r) c
    | none =>
      match if s.orphan then none else cqOf d s.cq with
      | none => freeSlot (cmdCnt d 14) c
      | some q =>
        let e := entryBytes d s st r0 r1 (b2n q.phase) fl
        let t := q.tail
        let wrap := t + 1 == q.depth
        let d := modCq d s.cq fun q => { q with tail := if wrap then 0 else t + 1, phase := q.phase != wrap }
        let d := { d with cmd.slots := tset d.cmd.slots c { s with entry := e, cqSlot := t } }
        enqueuePost d s.cq c t e s.cmdTag (if fl == 0 then 0 else (allWaits s waits).foldl max 0)

/-- May an entry be generated: the result is decided, every data packet has been sent (R42), and the target of an ABORT comes
first: posted where it was caught, generated where it was too late (R310)? -/
def mayGenerate (d : Dev) (c : Nat) (s : Slot) : Bool :=
  s.phase == .answered && s.result.isSome && dataSent d c
    && (match s.after with
      | some t => (slotOf d t).all fun x => (s.result.any fun r => r.2.1 == 2) && x.phase == .generated
      | none => true)

/-- A host transfer that failed ends a command whose result is still open (R281, R296). -/
def failXfer (d : Dev) (c : Nat) : Dev :=
  match slotOf d c with
  | some s => match s.xferFail with
    | some code => if s.result.isSome || s.pnr || s.waitFor then d
        else unlockAll (modSlot (answer d c stFIELD 20 code) c fun s => { s with works := [] }) c
    | none => d
  | none => d

/-- R294: a completion entry is generated; `waits` are the waits of delay reasons 1 to 9, `late` whether a bound of R38 was
exceeded. -/
def execCompletionGenerate (cmd : Nat) (late : Bool) (waits : List Nat) (latencyNs : Nat) (s : State) :
    Host.Outcome State Fault Refusal :=
  actIf planned s fun d =>
    let d := failXfer d cmd
    match slotOf d cmd with
    | some x => if mayGenerate d cmd x then advanceAll (finishDeletes (generate d cmd x late waits latencyNs)) else d
    | none => d

/-- R276: the command engine reads a ring. -/
def execRingFetch (sq : Nat) (s : State) : Host.Outcome State Fault Refusal :=
  actIf serving s fun d => fetchRing d sq

/-- R280: every 2 µs while entries wait for space the head word is read. -/
def execCqSpacePoll (cq : Nat) (s : State) : Host.Outcome State Fault Refusal :=
  actIf planned s fun d => if d.cmd.posting.any (·.cq == cq) then readHead (postAll d) cq else d

end Sys2Proof.Machine
end

