-- ==== Sys2Proof/Machine/Admit.lean ====
section
/-! DEFINITION. Admission: command slots, the checks of a capsule, arbitration, held commands and their release, and commands that a
viaduct gate forwards (R94 to R97, R260 to R264, R295 to R306, R312, R454, R455, R531). -/

namespace Sys2Proof.Machine

/-! ### Slots (R79, R299) -/

/-- The lowest number from `n` up that a rising list of keys leaves free. -/
def lowFree : List Nat → Nat → Nat
  | [], n => n
  | k :: ks, n => if k < n then lowFree ks n else if k == n then lowFree ks (n + 1) else n

/-- Slots of the powered command domains: CMD1 holds the upper half. -/
def slotTotal (d : Dev) : Nat := if domOn d pdCMD1 then 131072 else 65536
def slotReserve (d : Dev) (c : Nat) : Nat := d.pln.plan.slotReserve.getD c 0
/-- Slots that commands occupy; entries of refused capsules take none. -/
def realSlots (d : Dev) : Tab Slot := d.cmd.slots.filter fun e => e.1 < 131072
def reservedUsed (d : Dev) (c : Nat) : Nat := ((realSlots d).filter fun e => e.2.reserved && e.2.cls == c).length
def sharedSlots (d : Dev) : Nat := slotTotal d - (List.range 5).foldl (fun n c => n + slotReserve d c) 0
def sharedSlotsUsed (d : Dev) : Nat := ((realSlots d).filter fun e => !e.2.reserved).length

/-- Is there a slot for a command of a class: its own reserved one first, else a shared one? -/
def slotFor (d : Dev) (c : Nat) : Option Bool :=
  if reservedUsed d c < slotReserve d c then some true
  else if sharedSlotsUsed d < sharedSlots d then some false else none

/-- The number of the next entry that takes no slot. -/
def pseudoSlot (d : Dev) : Nat := lowFree (tkeys d.cmd.slots) 131072

/-- Outstanding commands of a PD, held ones included; what other gates forward counts at the gate (R313). -/
def outstanding (d : Dev) (pd : Nat) : Nat :=
  ((realSlots d).filter fun e => e.2.pd == pd && !e.2.msub && e.2.from_.isNone).length
def quotaOf (d : Dev) (pd : Nat) : Nat := tgetD d.cmd.quota pd 131072

/-! ### Volumes as admission sees them (R295, R412) -/

/-- A volume that this device or its partner holds. -/
def anyVol (d : Dev) (v : Nat) : Option Volume :=
  match volOf d v with
  | some x => some x
  | none => tget d.par.store.vols v

/-- Rights of a master on such a volume. -/
def anyVolRights (d : Dev) (m : Master) (v : Nat) : Nat :=
  match anyVol d v with
  | some x => heldOn d m (onVol v) (rightsWith d m 0 x.access)
  | none => 0

/-- NOT_OWNER's RESULT0 for an owning pier. -/
def ownerCode (pier : Nat) : Nat := pier % 256 + 256 * (pier % 2)

/-- The right that an I/O command needs on its volume (R286). -/
def ioRight (op : Nat) : Nat := if isReadOp op then rREAD else rWRITE

/-! ### Checks 1 and 2 (R284, R286, R288, R295) -/

def knownOp (op : Nat) : Bool := (1 ≤ op && op ≤ 9) || (0x80 ≤ op && op ≤ 0x96)
def isAdmin (op : Nat) : Bool := 0x80 ≤ op && op ≤ 0x96

/-- Opcodes that a management submission may carry (R314). -/
def msubOp (op : Nat) : Bool := [0x83, 0x84, 0x91, 0x93, 0x94, 0x95].contains op

/-- The first offset of a list whose test holds. -/
def firstBad (l : List (Nat × Bool)) : Option Nat := (l.find? fun (e : Nat × Bool) => e.2).map fun (e : Nat × Bool) => e.1

/-- First bad field of an I/O capsule, in ascending offset. -/
def ioBad (s : Slot) : Option Nat :=
  let c := s.cap
  let op := s.op
  let cmp := bitAt (byteAt c 60) 0
  firstBad [
    (1, s.flags &&& 0x70 != 0 || (s.fHOLD && (op == 8 || op == 9)) || (s.fVERIFY && isWriteOp op)
      || (s.fTAGS && !([1, 2, 7].contains op))),
    (4, op == 8 && s.vol != 0),
    (6, op != 9 && !zeroAt c 6 2),
    (8, (op == 5 || op == 8) && s.lba != 0),
    (14, !zeroAt c 14 2),
    (16, if op == 9 then false else if op == 5 || op == 8 then s.count != 0 else s.count == 0 || 4096 < s.count),
    (20, (op == 3 || op == 4) && s.hostKey != 0),
    (24, (op == 3 || op == 4) && s.hostAddr != 0),
    (32, if s.fHOLD then decide (s.trig < 0x20000) else op != 8 && s.trig != 0),
    (36, !(op == 6 && cmp) && !zeroAt c 36 16),
    (52, !s.fTAGS && !zeroAt c 52 8),
    (60, byteAt c 60 &&& 0xFE != 0 || (cmp && op != 6)),
    (61, !zeroAt c 61 3)]

/-- Reserved bytes and bits of the admin capsules whose tables name them: QUEUE_CREATE and REGION_CREATE (R282, R289). -/
def adminReserved (s : Slot) : List (Nat × Bool) :=
  let cap := s.cap
  if s.op == 0x83 then
    [(16, 2 ≤ byteAt cap 16), (17, !zeroAt cap 17 3), (32, !zeroAt cap 32 4), (44, 4096 ≤ leAt cap 44 2), (46, !zeroAt cap 46 18)]
  else if s.op == 0x93 then
    [(4, 4096 ≤ leAt cap 4 2), (6, !zeroAt cap 6 2), (16, !zeroAt cap 16 4), (20, s.hostKey != 0), (24, s.hostAddr != 0),
     (32, !zeroAt cap 32 4), (44, fld (leAt cap 44 8) 36 12 != 0 || fld (leAt cap 44 8) 52 12 != 0), (52, 4 ≤ byteAt cap 52),
     (53, 2 ≤ byteAt cap 53), (54, !zeroAt cap 54 10)]
  else []

/-- First bad field of an admin capsule that admission judges: its flags, its reserved bytes, and DATA_LEN of a parameter block. -/
def adminBad (s : Slot) : Option Nat :=
  firstBad ([
    (1, s.flags &&& 0x7A != 0 || (s.fVERIFY && isWriteClass s.op) || (s.op == 0x83 && s.flags &&& 0x7F != 0))]
    ++ adminReserved s ++ [
    (16, hasBlock s.op && (if s.msub then s.dataLen != 0
      else s.dataLen < 64 || 1048576 < s.dataLen || s.dataLen % 64 != 0))])

/-- Checks 1 to 3. -/
def gateCheck (d : Dev) (c : Nat) (s : Slot) : Option (Nat × Nat × Nat) :=
  if !knownOp s.op || (isAdmin s.op && s.cls != 0) || (s.msub && !msubOp s.op) then some (stOPCODE, s.op, 0)
  else match if isAdmin s.op then adminBad s else ioBad s with
    | some off => some (stFIELD, off, 0)
    | none =>
      let n := outstanding d s.pd - (if c < 131072 && !s.msub && s.from_.isNone then 1 else 0)
      if !s.msub && quotaOf d s.pd ≤ n then some (stQUOTA, quotaOf d s.pd, 0) else none

/-! ### Checks 4 to 7 (R295, R412, R476) -/

/-- States that keep a volume from I/O, with their status. -/
def stateCheck (d : Dev) (s : Slot) (vol : Volume) : Option (Nat × Nat × Nat) :=
  let st := volState d s.vol
  if st == 5 then some (stSANITIZE, s.vol, 0)
  else if [0, 6, 7, 8].contains st then some (stNOTREADY, st, 0)
  else if d.glb.st == .maint then some (stNOTREADY, 7, 0)
  else if vol.readOnly && isWriteClass s.op then some (stREADONLY, s.vol, 0)
  else if vol.lay.blocks < s.lba + s.count then some (stFIELD, 8, 0)
  else if s.op == 6 && bitAt (byteAt s.cap 60) 0 && vol.tagSize == 8 && !zeroAt s.cap 44 8 then some (stFIELD, 44, 0)
  else none

/-- The owner of a volume that this device does not own: pier and side (R296, R412). -/
def otherOwner (d : Dev) (vol : Volume) : Nat :=
  if vol.lay.group < 64 then
    (if d.pln.plan.pier == 255 then 0xFF else d.pln.plan.pier ^^^ 1) + 256 * b2n (d.par.owner.getLsbD vol.lay.group)
  else ownerCode (((tget d.via.groups (vol.lay.group - 64)).map (·.home)).getD 0xFF)

/-- 1:22 with the key page, where a command needs a usable key and has none (R476). -/
def stKEY : Nat := 0x122

/-- Judge an I/O command on its volume; a denial is recorded. -/
def volCheck (d : Dev) (c : Nat) (s : Slot) : Option (Nat × Nat × Nat) × Dev :=
  if !isVolIo s.op then (none, d)
  else
    let right := ioRight s.op
    match anyVol d s.vol with
    | some vol =>
      if !holds (anyVolRights d s.master s.vol) right then
        (some (stACCESS, s.vol, right), forCmd d c fun d => deny d s.master 2 s.vol right)
      else if !ownsVol d vol then (some (stNOTOWNER, otherOwner d vol, 0), d)
      else match stateCheck d s vol with
        | some r => (some r, d)
        | none =>
          if needsKey vol s && (usableKey d vol).isNone then (some (stKEY, vol.keyPage, 0), itgCntN d 7 1) else (none, d)
    | none => (some (stACCESS, s.vol, right), forCmd d c fun d => deny d s.master 2 s.vol right)

/-- The key that a command takes at admission or release (R476, R477). -/
def takeKey (d : Dev) (c : Nat) : Dev :=
  match slotOf d c with
  | some s => modSlot d c fun x => { x with key := if isVolIo s.op then (volOf d s.vol).bind (usableKey d) else none }
  | none => d

/-! ### Places, holds and releases (R263, R264, R303 to R307) -/

/-- Take the next place in overlap order; a wait there is counted. -/
def takePlace (d : Dev) (c : Nat) : Dev :=
  let d := modSlot { d with cmd.nextPlace := d.cmd.nextPlace + 1 } c fun s => { s with phase := .admitted, place := some d.cmd.nextPlace }
  match slotOf d c with
  | some s => if isVolIo s.op && !inTurn d c s then cmdCnt d 12 else d
  | none => d

/-- Is class `c` held for power (R93)? Between no admission and all of it, which commands are held the spec leaves open. -/
def powerHeld (d : Dev) (c : Nat) : Bool × Dev :=
  let pct := d.pwr.admPct.getD (c - 2) 100
  if 100 ≤ pct then (false, d)
  else if pct == 0 then (true, d)
  else
    let (n, d) := draw d
    (Config.freeBool n, d)

/-- The DELAY_REASON of a hold for power: 3 where the thermal cap is the lower or equal cap, else 2 (R94). -/
def capReason (d : Dev) : Nat :=
  match d.pwr.thermalCap with
  | some t => if t ≤ 1000 * capW d then 3 else 2
  | none => 2

/-- A released command takes its place, as though admitted now (R306), unless PWR_FAIL holds its write class, as it would hold a new
command, or the cap its class (R96, R538). -/
def tryPlace (d : Dev) (c : Nat) : Dev :=
  match slotOf d c with
  | none => d
  | some s =>
    if d.pwr.fail && isWriteClass s.op then modSlot d c fun s => { s with slow := addNew s.slow 2 }
    else
      let (h, d) := if s.from_.isSome || s.cls < 2 then (false, d) else powerHeld d s.cls
      if h then modSlot { d with pwr.heldAt := some d.time, pwr.holdAttn := true } c fun s => { s with slow := addNew s.slow (capReason d) }
      else takePlace d c

/-- Release one held command (R306). -/
def releaseOne (d : Dev) (c : Nat) : Dev :=
  match slotOf d c with
  | none => d
  | some s =>
    let d := takeKey (modSlot (ctxCnt d 9) c fun s => mile d.time 2 { s with phase := .admitted }) c
    let d := mirror d (cmdItem s true true)
    if ((volOf d s.vol).any fun v => needsKey v s && (usableKey d v).isNone) then
      answer (itgCntN d 7 1) c stKEY (((volOf d s.vol).map (·.keyPage)).getD 0) 0
    else tryPlace d c

/-- Release every held command that carries a tag, on a volume where the PD holds TRIGGER, in admission order; how many. -/
def releaseTag (d : Dev) (pd tag : Nat) : Nat × Dev :=
  let hit := sortBy (fun (a b : Nat × Slot) => decide (a.2.adm ≤ b.2.adm)) (d.cmd.slots.filter fun e =>
    e.2.phase == .held && e.2.trig == tag && holds (volRights d (hostPd pd) e.2.vol) rTRIGGER)
  (hit.length, hit.foldl (fun d e => releaseOne d e.1) d)

/-- A held command starts its wait; a lingering trigger that matches releases it at once and is consumed (R264, R305). -/
def holdStart (d : Dev) (c : Nat) (s : Slot) : Dev :=
  let d := pdCnt (cmdCnt (modSlot d c fun s => { s with phase := .held, place := none }) 8) s.pd 8 1
  let d := pullData (mirror d (cmdItem s true false)) c
  match d.trs.linger.find? fun l => l.2.1 == s.trig && holds (volRights d (hostPd l.1) s.vol) rTRIGGER with
  | some l => releaseOne { d with trs.linger := d.trs.linger.erase l } c
  | none => d

/-- The capsule checks of KEY_LOAD and KEY_CLEAR: page, then ADMIN on it (R475). -/
def keyPageBad (d : Dev) (s : Slot) : Option (Nat × Nat × Nat) :=
  let page := leAt s.cap 4 2
  if d.pln.plan.keyPages ≤ page then some (stFIELD, 4, 0)
  else if !holds (keyRights d s.master page) rADMIN then some (stACCESS, page, rADMIN)
  else none

/-- A command that has passed its checks goes on: held, or with its place and its pull. A KEY_LOAD whose capsule fails its checks
pulls nothing (R475). -/
def goOn (d : Dev) (c : Nat) : Dev :=
  match slotOf (takeKey d c) c with
  | none => d
  | some s =>
    if s.held then holdStart (takeKey d c) c s
    else if s.op == 0x8A && (keyPageBad d s).isSome then takePlace d c
    else pullData (takePlace (takeKey d c) c) c

/-- Checks 4 to 7, then hold or execution. -/
def ownerJudge (d : Dev) (c : Nat) : Dev :=
  match slotOf d c with
  | none => d
  | some s =>
    let (r, d) := volCheck d c s
    match r with
    | some (st, r0, r1) => answer d c st r0 r1
    | none => goOn d c

/-! ### Forwarding (R454 to R456) -/

/-- Send a command to its owner as FWD_CMD. Key and address of the staging are the gate's own, free here (R452). -/
def forwardTo (d : Dev) (c pier : Nat) : Dev :=
  match slotOf d c with
  | none => d
  | some s =>
    let sk := pier / 2 * 65536 + s.sq
    let again := match s.to_ with | some (p, n) => if p / 2 == pier / 2 then some n else none | none => none
    let seq := again.getD (tgetD d.via.nextSeq sk 0)
    let (kf, d) := drawBits d 32
    let (af, d) := drawBits d 64
    let (k, a) := s.stage.getD (kf, af)
    let d := if again.isSome then d else { d with via.nextSeq := tset d.via.nextSeq sk (seq + 1) }
    let r : InnerRec := { gateShelf := ownShelf d, seq, gateTag := s.cmdTag, hostPd := s.pd, stageKey := BitVec.ofNat 32 k,
                          stageAddr := BitVec.ofNat 64 a, payload := s.cap }
    let d := modSlot d c fun s => { s with phase := .running, to_ := some (pier, seq), ownerWait := false, stage := some (k, a) }
    let d := match slotOf d c with | some s => mirror d (cmdItem s false true) | none => d
    count (innerSend d pier 1 r) 0xA00818

/-- The pier that owns a volume which this one does not (R454). -/
def farOwner (d : Dev) (s : Slot) : Option Nat :=
  if !isVolIo s.op || (viaPlan d).isNone || (volOf d s.vol).isSome then none
  else (tget d.via.directory s.vol).bind fun p => if p == d.pln.plan.pier then none else some p

/-- Forward a command, or hold it while its owner cannot be reached. -/
def forwardOrWait (d : Dev) (c pier : Nat) : Dev :=
  let d := pullData d c
  if pierUp d pier && thas d.via.inner pier then forwardTo d c pier
  else modSlot d c fun s => { s with ownerWait := true, phase := .running, slow := addNew s.slow 9 }

/-- Admission's judgement of a command in its slot (R295, R454). -/
def judge (d : Dev) (c : Nat) : Dev :=
  match slotOf d c with
  | none => d
  | some s => match gateCheck d c s with
    | some (st, r0, r1) => answer d c st r0 r1
    | none => match farOwner d s with
      | some p => forwardOrWait d c p
      | none => ownerJudge d c

/-! ### Sampling (R531) -/

/-- Does the sampling filter pass a command, and does its draw tag it? The feedback of the LFSR is not stated: its next state is a
free value, and the draw its low 24 bits. -/
def sampleDraw (d : Dev) (s : Slot) : Bool × Dev :=
  let cfg := liveN d 0xC00040
  let f := liveN d 0xC00044
  if !domOn d pdCTR || !bitAt cfg 0 || (bitAt cfg 6 && fld f 0 12 != s.pd) || (bitAt cfg 7 && fld f 16 12 != s.vol) then (false, d)
  else
    let (x, d) := drawBits d 32
    let d := { d with ctr.lfsr := BitVec.ofNat 32 x }
    if x % 2 ^ fld cfg 1 5 == 0 then (true, count d 0xC03000) else (false, d)

/-! ### Arbitration (R299, R300) -/

/-- The rights of an admin command at its admission: on the pages that admin commands need, or any that a register access may name, on
the counter sets, and on the volume and the key page that the capsule names (R24). -/
def rightsNow (d : Dev) (s : Slot) : Tab Nat :=
  if !isAdmin s.op then []
  else
    let bus := s.op == 0x81 || s.op == 0x82
    let pages := if bus then List.range 224 else [0, 48, 64, 80, 144, 160, 176]
    let sets := if bus || s.op == 0x92 then List.range 16 else []
    pages.map (fun p => (p, pageRights d s.master p)) ++ sets.map (fun k => (onSet k, ctrRights d s.master k))
      ++ [(onVol s.vol, anyVolRights d s.master s.vol), (onKey s.vol, keyRights d s.master s.vol)]

/-- A command takes its slot and is judged. -/
def place (d : Dev) (c : Nat) (s : Slot) : Dev :=
  let (traced, d) := if s.to_.isNone then sampleDraw d s else (false, d)
  let s := { s with traced, adm := d.cmd.nextAdm, admitted := d.time, miles := tset s.miles 1 d.time, rights := rightsNow d s }
  judge (cmdCnt { d with cmd.slots := tset d.cmd.slots c s, cmd.nextAdm := d.cmd.nextAdm + 1 } 1) c

/-- The slot record of a fetched capsule. -/
def slotFrom (d : Dev) (f : Fetched) (cls : Nat) (reserved : Bool) : Slot :=
  let r := (sqOf d f.sq).getD {}
  let s : Slot := { sq := f.sq, cid := leAt f.cap 2 2, cq := r.cq, cap := f.cap, pd := r.pd, cls, master := hostPd r.pd, reserved,
                    fetched := f.time, order := f.order, placed := f.placed, slow := f.slow, miles := [(0, f.time)] }
  { s with held := s.fHOLD && !isAdmin s.op }

/-- Take a capsule out of its fetch buffer. -/
def unbuffer (d : Dev) (cls : Nat) (f : Fetched) : Dev := { d with cmd.bufs := tset d.cmd.bufs cls ((bufOf d cls).erase f) }

/-- Admit a capsule: ADMIT item, slot, checks (R417). -/
def admitCap (d : Dev) (cls : Nat) (f : Fetched) (reserved : Bool) : Dev :=
  let s := slotFrom d f cls reserved
  let c := lowFree (tkeys d.cmd.slots) 0
  let d := { unbuffer d cls f with cmd.lastSq := tset d.cmd.lastSq cls f.sq, cmd.heldSince := tdel d.cmd.heldSince f.sq }
  let r := (sqOf d f.sq).getD {}
  place (mirror d (.admission s.sq s.cid d.cmd.nextAdm r.head r.phase)) c s

/-- A capsule completes without execution: its entry takes no slot. -/
def refuseCap (d : Dev) (cls : Nat) (f : Fetched) (st r0 r1 : Nat) : Dev :=
  let s := { slotFrom d f cls false with phase := .answered, result := some (st, r0, r1) }
  let d := { unbuffer d cls f with cmd.heldSince := tdel d.cmd.heldSince f.sq }
  { d with cmd.slots := tset d.cmd.slots (pseudoSlot d) s }

/-- Does a hand-over by a side move a group: one of those it names, or a viaduct group where the giver's own role moves, for the pier's
identity goes with it (R438, R460)? -/
def movesGroup (groups : BitVec 6) (roles : BitVec 2) (giverB : Bool) (g : Nat) : Bool :=
  (decide (g < 6) && groups.getLsbD g) || (decide (64 ≤ g) && roles.getLsbD (b2n giverB))

/-- A group whose admission a hand-over has stopped (R437, table "Planned hand-over"). -/
def moving (d : Dev) (v : Nat) : Bool :=
  match d.par.giving, volOf d v with
  | some (groups, roles, _), some vol => d.par.givingStarted && movesGroup groups roles d.glb.side vol.lay.group
  | _, _ => false

/-- Does a capsule stop its queue: write-class under PWR_FAIL (R96) or under a journal that holds (R362), or on a group that
moves? -/
def capStops (d : Dev) (cap : List Byte) : Bool :=
  let op := byteAt cap 0
  let v := leAt cap 4 2
  (isWriteClass op && d.pwr.fail)
    || (isWriteClass op && (volOf d v).any fun x => (groupOf d x.lay.group).journal.held)
    || (isVolIo op && moving d v)

/-- The capsule of an SQ that may be admitted: the first, but a fenced one waits, letting later ones pass, until every command
submitted before it has completed (R300, R304). -/
def candGo (d : Dev) (q : Nat) : List Fetched → Bool → Option Fetched
  | [], _ => none
  | f :: rest, ahead =>
    if capStops d f.cap then none
    else if bitAt (byteAt f.cap 1) 0 && (ahead || d.cmd.slots.any fun e =>
        e.2.sq == q && e.2.from_.isNone && !e.2.msub && e.2.order < f.order) then candGo d q rest true
    else some f

def sqCandidate (d : Dev) (cls q : Nat) : Option Fetched := candGo d q ((bufOf d cls).filter (·.sq == q)) false

/-- The next queue of a class in round robin that has a capsule to admit. -/
def classCandidate (d : Dev) (cls : Nat) : Option Fetched :=
  let qs := sortN ((bufOf d cls).map (·.sq)).eraseDups
  let last := tget d.cmd.lastSq cls
  let later := qs.filter fun q => last.any fun l => l < q
  let earlier := qs.filter fun q => !last.any fun l => l < q
  (later ++ earlier).findSome? (sqCandidate d cls)

/-- Note that the cap or the thermal governor holds a capsule (R94, R95). -/
def noteHeld (d : Dev) (cls : Nat) (f : Fetched) : Dev :=
  { d with pwr.heldAt := some d.time, pwr.holdAttn := true,
           cmd.heldSince := if thas d.cmd.heldSince f.sq then d.cmd.heldSince else tset d.cmd.heldSince f.sq d.time,
           cmd.bufs := tset d.cmd.bufs cls ((bufOf d cls).map fun x => if x == f then { x with slow := addNew x.slow (capReason d) } else x) }

/-- Capsules that PWR_FAIL holds will complete with reason 2 (R97). -/
def markFail (d : Dev) : Dev :=
  if !d.pwr.fail then d
  else { d with cmd.bufs := d.cmd.bufs.map fun b => (b.1, b.2.map fun f =>
    if b.2.any fun x => x.sq == f.sq && x.order ≤ f.order && isWriteClass (byteAt x.cap 0) then { f with slow := addNew f.slow 2 } else f) }

/-- A class is held for power: the next capsule of each of its queues is. -/
def noteHeldClass (d : Dev) (cls : Nat) : Dev :=
  (((bufOf d cls).map (·.sq)).eraseDups.filterMap (sqCandidate d cls)).foldl (fun d f => noteHeld d cls f) d

/-- A class is not held: no queue of it is. -/
def noteFree (d : Dev) (cls : Nat) : Dev :=
  { d with cmd.heldSince := d.cmd.heldSince.filter fun e => !(sqOf d e.1).any fun r => r.cls == cls }

/-- The classes HIGH, MEDIUM and LOW that have a capsule, a slot, and no hold for power. -/
def eligible : List Nat → Dev → List Nat × Dev
  | [], d => ([], d)
  | c :: rest, d =>
    match classCandidate d c, slotFor d c with
    | some _, some _ =>
      let (h, d) := powerHeld d c
      let (l, d) := eligible rest (if h then noteHeldClass d c else noteFree d c)
      (if h then l else c :: l, d)
    | _, _ => eligible rest d

/-- CMD_WEIGHT as the next round takes it (R300). -/
def weightsNow (d : Dev) : List Nat := let w := liveN d 0x400080; [fld w 0 8, fld w 8 8, fld w 16 8]

/-- pick_class of R299. -/
def pickClass (d : Dev) : Option Nat × Dev :=
  match [0, 1].find? fun c => (classCandidate d c).isSome && (slotFor d c).isSome with
  | some c => (some c, d)
  | none =>
    let (l, d) := eligible [2, 3, 4] d
    if l.isEmpty then (none, d)
    else
      let d := if l.all fun c => d.cmd.budget.getD (c - 2) 0 == 0 then { d with cmd.budget := weightsNow d } else d
      match l.find? fun c => 0 < d.cmd.budget.getD (c - 2) 0 with
      | some c => (some c, { d with cmd.budget := d.cmd.budget.set (c - 2) (d.cmd.budget.getD (c - 2) 0 - 1) })
      | none => (none, d)

/-- Refuse what finds no slot: with CMD_SLOT_WAIT_US 0 at once (R299). -/
def refuseClass (d : Dev) (cls : Nat) : Dev :=
  if (slotFor d cls).isSome then d
  else match (bufOf d cls).find? fun f => (sqCandidate d cls f.sq) == some f with
    | some f => refuseCap d cls f stSLOTS cls 0
    | none => d

def refuseNow (d : Dev) : Dev := if liveN d 0x400050 == 0 then (List.range 5).foldl refuseClass d else d

/-- Released commands that PWR_FAIL or the cap held take their places once nothing holds them, in admission order (R96, R97, R538). -/
def placeReleased (d : Dev) : Dev :=
  (sortBy (fun (a b : Nat × Slot) => decide (a.2.adm ≤ b.2.adm)) (d.cmd.slots.filter fun e => releasedWaits e.2)).foldl
    (fun d e => tryPlace d e.1) d

/-! ### Commands from other gates (R455) -/

def fwdKey (r : InnerRec) : Nat := r.gateShelf * 65536 + fld r.gateTag.toNat 16 16

/-- Admit a FWD_CMD in a shared slot; `slow` are the reasons that have held it. -/
def fwdAdmit (d : Dev) (pier : Nat) (r : InnerRec) (slow : List Nat) : Dev :=
  let s : Slot := { sq := fld r.gateTag.toNat 16 16, cid := fld r.gateTag.toNat 0 16, cap := r.payload, pd := r.hostPd % 4096, cls := 4,
                    master := hostPd r.hostPd, fetched := d.time, placed := d.time, order := r.seq, slow,
                    from_ := some (pier, r.gateShelf, r.seq, r.stageKey.toNat, r.stageAddr.toNat), miles := [(0, d.time)] }
  let s := { s with held := s.fHOLD && !isAdmin s.op }
  let c := lowFree (tkeys d.cmd.slots) 0
  let (traced, d) := sampleDraw d s
  let s := { s with traced, adm := d.cmd.nextAdm, admitted := d.time, miles := tset s.miles 1 d.time }
  ownerJudge (mirror (cmdCnt { d with cmd.slots := tset d.cmd.slots c s, cmd.nextAdm := d.cmd.nextAdm + 1 } 1) (cmdItem s s.held false)) c

/-- The records of one (gate shelf, SQ) wait as a queue does: those behind a write-class one under PWR_FAIL will complete with reason 2
(R96, R97, R455). -/
def fwdMark (d : Dev) : Dev :=
  if !d.pwr.fail then d
  else { d with via.early := d.via.early.map fun f =>
    if d.via.early.any fun x => fwdKey x.2.1 == fwdKey f.2.1 && x.2.1.seq ≤ f.2.1.seq && isWriteClass (byteAt x.2.1.payload 0)
    then (f.1, f.2.1, addNew f.2.2 2) else f }

/-- The record whose turn has come: the next SEQ of its queue, or an earlier one that comes again after a take-over. -/
def fwdNext (d : Dev) : Option (Nat × InnerRec × List Nat) :=
  d.via.early.find? fun e => e.2.1.seq ≤ tgetD d.via.expect (fwdKey e.2.1) 0 && !capStops d e.2.1.payload

/-- Admit the waiting records whose turn has come, while shared slots are free and the mirror does not hold admission (R420). -/
def fwdDrain : Nat → Dev → Dev
  | 0, d => d
  | f + 1, d =>
    match fwdNext d with
    | some e =>
      let k := fwdKey e.2.1
      if sharedSlotsUsed d < sharedSlots d && !mirrorHolds d then
        fwdDrain f (fwdAdmit { d with via.early := d.via.early.erase e,
                                      via.expect := tset d.via.expect k (max (tgetD d.via.expect k 0) (e.2.1.seq + 1)) } e.1 e.2.1 e.2.2)
      else d
    | none => d

/-! ### The commands -/

/-- R299: one admission opportunity. Nothing is admitted in TAKEOVER (R428), nor while the mirror holds admission (R420). -/
def admitNext (d : Dev) : Dev :=
  let d := fwdDrain d.via.early.length (fwdMark (placeReleased (markFail d)))
  if mirrorHolds d then (if d.cmd.bufs.any fun b => !b.2.isEmpty then count d 0x900150 else d)
  else
    let (c, d) := pickClass d
    match c with
    | none => refuseNow d
    | some c => match classCandidate d c, slotFor d c with
      | some f, some r => refuseNow (admitCap d c f r)
      | _, _ => d

def execCommandAdmit (s : State) : Host.Outcome State Fault Refusal :=
  actIf (fun d => serving d && d.glb.st != .takeover) s admitNext

/-- R299: a capsule has waited CMD_SLOT_WAIT_US with no slot for its class. -/
def execSlotWaitTimeout (cls : Nat) (s : State) : Host.Outcome State Fault Refusal :=
  actIf (fun d => serving d && d.glb.st != .takeover && cls < 5) s fun d => refuseClass d cls

/-- R305: a held command is not released within CMD_HOLD_TIMEOUT_MS. -/
def execHoldTimeout (cmd : Nat) (s : State) : Host.Outcome State Fault Refusal :=
  actIf planned s fun d =>
    if (slotOf d cmd).any (fun x => x.phase == .held && x.result.isNone) && liveN d 0x400054 != 0 then
      answer (dropTransfers (cmdCnt d 9) cmd) cmd stABORTED 0 1
    else d

/-- The released commands of a queue that the cap has held for REFUSE_MS since their release (R94, R538). -/
def releasedLate (d : Dev) (sq : Nat) : List Nat :=
  (d.cmd.slots.filter fun e => e.2.sq == sq && e.2.from_.isNone && releasedWaits e.2 && !(d.pwr.fail && isWriteClass e.2.op)
    && decide (tgetD e.2.miles 2 0 + 1000000 * refuseMs d ≤ d.time)).map (·.1)

/-- R94: a queue's next command has been held for power for REFUSE_MS, or a released one of it has since its release (R538). -/
def execCapRefuseTimeout (sq : Nat) (s : State) : Host.Outcome State Fault Refusal :=
  actIf serving s fun d =>
    if refuseMs d != 0 && !(releasedLate d sq).isEmpty then
      (releasedLate d sq).foldl (fun d c => answer (dropTransfers d c) c stPOWER (effectiveCap d / 1000) 0) d
    else if refuseMs d == 0 || !thas d.cmd.heldSince sq then d
    else match sqOf d sq with
      | none => d
      | some r => match sqCandidate d r.cls sq with
        | some f => refuseCap d r.cls f stPOWER (effectiveCap d / 1000) 0
        | none => d

/-! ### Triggers (R225, R260 to R264, R456) -/

/-- Piers that own a viaduct volume on which a PD holds TRIGGER: what the directory shows of rights is not stated, so every other
owner in it is taken. -/
def triggerPiers (d : Dev) : List Nat :=
  ((d.via.directory.map (·.2)).filter (· != d.pln.plan.pier)).eraseDups

/-- A held-command trigger of a PD: release, linger, or forget (R263, R264). -/
def matchTrigger (d : Dev) (pd tag : Nat) : Dev :=
  let (n, d) := releaseTag d pd tag
  if n != 0 then d
  else if liveN d 0x30008C == 0 then ctxCnt d 10
  else
    let d := if 4096 ≤ d.trs.linger.length then ctxCnt { d with trs.linger := d.trs.linger.drop 1 } 13 else d
    ctxCnt { d with trs.linger := d.trs.linger ++ [(pd, tag, d.time)] } 12

/-- A held-command trigger arrives: one that arrives in TAKEOVER is matched after replay has re-created the held commands (R538). -/
def heldTrigger (d : Dev) (pd tag : Nat) : Dev :=
  if d.glb.st == .takeover && d.par.step != .resume then { d with trs.late := d.trs.late ++ [(pd, tag)] }
  else matchTrigger d pd tag

/-- Match the triggers that arrived in TAKEOVER, in their order. -/
def matchLate (d : Dev) : Dev := d.trs.late.foldl (fun d t => matchTrigger d t.1 t.2) { d with trs.late := [] }

/-- Deliver the TAG of a completed TRIGGER message (R260, R262). -/
def deliverTrigger (d : Dev) (pd tag : Nat) : Dev :=
  let d := pdCnt (ctxCnt d 7) pd 11 1
  if tag < 0x10000 then ctxCnt d 10
  else if tag < 0x20000 then
    let q := tag - 0x10000
    match tget d.trs.wrs q, sqOf d q with
    | some w, some r =>
      if r.pd != pd then ctxCnt d 11
      else ctxCnt (modWr d q fun (x : Wr) =>
        let again := x.refetch || x.running
        { x with triggers := (w.triggers + 1) % 2 ^ 32, lastTrigger := d.time, refetch := again, running := true }) 8
    | _, _ => ctxCnt d 11
  else
    let d := heldTrigger d pd tag
    (if (viaPlan d).isSome && d.via.gate then triggerPiers d else []).foldl (fun d p =>
      innerSend d p 3 { gateShelf := ownShelf d, hostPd := pd, payload := le 4 tag }) d

/-- R264: the oldest lingering trigger expires. -/
def execTriggerLingerExpire (s : State) : Host.Outcome State Fault Refusal :=
  actIf planned s fun d => match d.trs.linger with
    | _ :: rest => ctxCnt { d with trs.linger := rest } 13
    | [] => d

end Sys2Proof.Machine
end

