-- ==== Sys2Proof/Machine/QueueAdm.lean ====
section
/-! DEFINITION. The commands that administer queues and regions, ABORT, RELEASE, IDENTIFY of the device, the management submission
registers, and the end of a detached CQ (R250 to R258, R281 to R290, R307 to R310, R313, R314). -/

namespace Sys2Proof.Machine

/-! ### How an admin command runs (R288, R295, R309) -/

/-- Run an admitted command that carries no block, under its opcode. -/
def adminRun (s : State) (cmd op : Nat) (f : Slot → Dev → Dev) : Host.Outcome State Fault Refusal :=
  actIf serving s fun d => match adminStart d cmd op with
    | some (x, d) => forCmd d cmd (f x)
    | none => d

/-- Run an admitted command with the parameter block that is in staging. -/
def adminBlock (s : State) (cmd op : Nat) (blk : List Byte) (f : Slot → Dev → Dev) : Host.Outcome State Fault Refusal :=
  actIf serving s fun d =>
    if !(slotOf d cmd).any (blockOk · blk) then d
    else match adminStart d cmd op with
      | some (x, d) => forCmd d cmd (f x)
      | none => d

/-- Does the command hold a right on a configuration page? A management submission is treated as holding ADMIN on pages 48 and
64 (R314). -/
def cmdPage (d : Dev) (x : Slot) (page right : Nat) : Bool :=
  pageHas d x.master page right || (x.msub && right == rADMIN && (page == 48 || page == 64))

/-- Go on where the command holds a right on a page; else it is denied (R296). -/
def needPage (d : Dev) (c : Nat) (x : Slot) (page right : Nat) (f : Dev → Dev) : Dev :=
  if cmdPage d x page right then f d
  else answer (deny d x.master 0 (page * 0x10000) right) c stACCESS (page * 0x10000) right

/-- INVALID_FIELD at a capsule offset. -/
def badAt (d : Dev) (c off : Nat) : Dev := answer d c stFIELD off 0

/-- INVALID_FIELD at an offset of the parameter block (R296). -/
def badBlock (d : Dev) (c off : Nat) : Dev := answer d c stFIELD (65536 + off) 0

/-! ### QUEUE_CREATE (R282) -/

def stINUSE : Nat := 0x103
def stNOQUEUE : Nat := 0x104

/-- The index a queue takes, or the status that refuses it. An index that the partner's queues hold is in use. -/
def takeQid (limit q : Nat) (used : List Nat) : Except (Nat × Nat × Nat) Nat :=
  if q == 0xFFFF then
    let n := lowFree (sortN used).eraseDups 0
    if n < limit then .ok n else .error (stNOQUEUE, 0, 0)
  else if limit ≤ q then .error (stFIELD, 4, 0)
  else if used.contains q then .error (stINUSE, q, 0)
  else .ok q

/-- The connection that bytes 12 to 15 name: one of the PD, ESTABLISHED. -/
def namedConn (d : Dev) (w : Nat) (pd : Nat) : Option Nat :=
  match findConn d (BitVec.ofNat 32 w) with
  | some (c, x) => if x.est && x.r.pd == pd && x.r.inner.isNone then some c else none
  | none => none

/-- The ring region that bytes 12 to 15 name: a RING region of the PD, not yet bound. -/
def namedRing (d : Dev) (key : Nat) (pd : Nat) : Option (Nat × Region) :=
  match tget d.trs.regions (key / 4096) with
  | some r => if r.gen == key % 4096 && r.ring && !r.bound && r.pd == pd then some (key / 4096, r) else none
  | none => none

/-- Reserved bytes and bits that every QUEUE_CREATE checks, and DEPTH, with what a queue's type adds. -/
def queueBad (s : Slot) (own : List (Nat × Bool)) : Option Nat :=
  let dep := leAt s.cap 8 2
  let l : List (Nat × Bool) := [(6, 2 < byteAt s.cap 6), (8, dep < 16 || 4096 < dep), (16, 2 ≤ byteAt s.cap 16), (17, !zeroAt s.cap 17 3),
    (32, !zeroAt s.cap 32 4), (44, 4096 ≤ leAt s.cap 44 2), (46, !zeroAt s.cap 46 18)]
  firstBad (sortBy (fun (a b : Nat × Bool) => decide (a.1 ≤ b.1)) (l ++ own))

/-- A QUEUE_CREATE of a QTYPE: an unknown QTYPE is refused by whichever command runs it. -/
def queueCreate (cmd qt : Nat) (s : State) (bad : Dev → Slot → List (Nat × Bool)) (f : Slot → Nat → Dev → Dev) :
    Host.Outcome State Fault Refusal :=
  actIf serving s fun d =>
    if !(slotOf d cmd).any (fun x => byteAt x.cap 6 == qt || 2 < byteAt x.cap 6) then d
    else match adminStart d cmd 0x83 with
      | none => d
      | some (x, d) => forCmd d cmd fun d =>
        let pd := leAt x.cap 44 2 % 4096
        let go := fun d => match queueBad x (bad d x) with
          | some off => badAt d cmd off
          | none => f x pd d
        if !x.msub && pd == x.pd then go d else needPage d cmd x 64 rADMIN go

/-- R282: QUEUE_CREATE of an SQ: its ring is zeroed, HEAD 0, expected phase 1, and its work request is made (R261, R275). -/
def createSq (cmd : Nat) (x : Slot) (pd : Nat) (d : Dev) : Dev :=
  match takeQid d.pln.plan.sqLimit (leAt x.cap 4 2) (tkeys d.cmd.sqs ++ tkeys d.par.store.sqs), namedRing d (leAt x.cap 12 4) pd with
  | .error (st, r0, r1), _ => answer d cmd st r0 r1
  | .ok _, none => badAt d cmd 12
  | .ok q, some (ri, rg) =>
    let r : SqRec := { pd, cls := byteAt x.cap 7, depth := leAt x.cap 8 2, cq := leAt x.cap 10 2, region := ri, ringOff := rg.offset }
    let d := { d with cmd.sqs := tset d.cmd.sqs q r, trs.wrs := tset d.trs.wrs q {},
                      trs.rings := memZero d.trs.rings rg.offset rg.length,
                      trs.regions := tset d.trs.regions ri { rg with bound := true, sq := q } }
    let d := mirror d (.st (.region ri (tget d.trs.regions ri)))
    answerAfter d cmd (.st (.sq q (some r))) stSUCCESS q (0x10000 + q)

def execQueueCreateSq (cmd : Nat) (s : State) : Host.Outcome State Fault Refusal :=
  queueCreate cmd 0 s (fun d x =>
    let pd := leAt x.cap 44 2 % 4096
    let ring := namedRing d (leAt x.cap 12 4) pd
    [(7, 4 < byteAt x.cap 7), (8, ring.any fun r => r.2.length != 64 * leAt x.cap 8 2),
     (10, !(cqOf d (leAt x.cap 10 2)).any fun q => q.pd == pd), (12, ring.isNone)]) (createSq cmd)

/-- Fields of a CQ: its connection, and the alignment of its addresses. -/
def cqBad (d : Dev) (x : Slot) : List (Nat × Bool) :=
  [(12, (namedConn d (leAt x.cap 12 4) (leAt x.cap 44 2 % 4096)).isNone), (24, leAt x.cap 24 8 % 32 != 0),
   (36, leAt x.cap 36 8 % 8 != 0)]

/-- R282: QUEUE_CREATE of a CQ. -/
def createCq (cmd : Nat) (x : Slot) (pd : Nat) (d : Dev) : Dev :=
  match takeQid d.pln.plan.sqLimit (leAt x.cap 4 2) (tkeys d.cmd.cqs ++ tkeys d.par.store.cqs), namedConn d (leAt x.cap 12 4) pd with
  | .error (st, r0, r1), _ => answer d cmd st r0 r1
  | .ok _, none => badAt d cmd 12
  | .ok q, some c =>
    let r : CqRec := { pd, depth := leAt x.cap 8 2, conn := c, key := BitVec.ofNat 32 (leAt x.cap 20 4), addr := leAt x.cap 24 8,
                       headAddr := leAt x.cap 36 8, notify := bitAt (byteAt x.cap 16) 0 }
    answerAfter { d with cmd.cqs := tset d.cmd.cqs q r } cmd (.st (.cq q (some r))) stSUCCESS q 0

def execQueueCreateCq (cmd : Nat) (s : State) : Host.Outcome State Fault Refusal :=
  queueCreate cmd 1 s cqBad (createCq cmd)

/-- R281: ATTACH binds a DETACHED CQ to a new connection; the completions that wait are posted in their order. DEPTH and NOTIFY
stay as the CQ was created. -/
def attachCq (cmd : Nat) (x : Slot) (pd : Nat) (d : Dev) : Dev :=
  let q := leAt x.cap 4 2
  match cqOf d q, namedConn d (leAt x.cap 12 4) pd with
  | some r, some c =>
    if !r.detached || r.pd != pd then badAt d cmd 4
    else
      let r := { r with conn := c, key := BitVec.ofNat 32 (leAt x.cap 20 4), addr := leAt x.cap 24 8, headAddr := leAt x.cap 36 8,
                        detached := false, reading := false }
      let d := { d with cmd.cqs := tset d.cmd.cqs q r, cmd.detachedAt := tdel d.cmd.detachedAt q }
      postAll (readHead (answerAfter d cmd (.st (.cq q (some r))) stSUCCESS q 0) q)
  | _, _ => badAt d cmd 4

def execQueueAttach (cmd : Nat) (s : State) : Host.Outcome State Fault Refusal :=
  queueCreate cmd 2 s cqBad (attachCq cmd)

/-! ### ABORT and RELEASE (R307 to R310) -/

/-- Has a target passed its point of no return (R309)? -/
def pastReturn (s : Slot) : Bool := s.phase == .generated || s.pnr

/-- Catch a command: it stops at once, and its result is ABORTED_BY_REQUEST. -/
def catchCmd (d : Dev) (c : Nat) : Dev :=
  let d := unlockAll (dropTransfers d c) c
  modSlot d c fun s => { s with result := some (stABORTED, 0, 0), phase := .answered, abortSeen := true, works := [],
                                xferFail := none, waitFor := false, ownerWait := false }

/-- The target of an ABORT: an outstanding command of the same PD, from the same gate. -/
def abortTarget (d : Dev) (x : Slot) (tag : Nat) : Option (Nat × Slot) :=
  d.cmd.slots.find? fun e => !e.2.orphan && !e.2.own && e.2.sq == tag / 65536 && e.2.cid == tag % 65536 && e.2.pd == x.pd && !e.2.msub
    && (e.2.from_.map fun f => f.2.1) == (x.from_.map fun f => f.2.1)

/-- A fetched capsule that waits unadmitted and is the target. -/
def abortBuffered (d : Dev) (x : Slot) (tag : Nat) : Option (Nat × Fetched) :=
  if x.from_.isSome then none
  else d.cmd.bufs.findSome? fun b => (b.2.find? fun f => f.sq == tag / 65536 && leAt f.cap 2 2 == tag % 65536
    && (sqOf d f.sq).any fun r => r.pd == x.pd).map fun f => (b.1, f)

/-- Decide an ABORT (table "Abort outcomes"). One of a command that another pier runs is decided there (R456). -/
def abortGo (d : Dev) (c : Nat) (x : Slot) : Dev :=
  let tag := leAt x.cap 4 4
  let isStop := fun op => op == 8 || op == 9
  match abortTarget d x tag, abortBuffered d x tag with
  | some (t, y), _ =>
    if isStop y.op then badAt d c 4
    else if y.abortSeen then succeed d c 3 0
    else match y.to_ with
    | some (p, _) =>
      let d := modSlot (modSlot d t fun s => { s with abortSeen := true }) c fun s => { s with after := some t }
      forwardOrWait d c p
    | none =>
      let d := modSlot d c fun s => { s with after := some t }
      if pastReturn y then succeed (cmdCnt (modSlot d t fun s => { s with abortSeen := true }) 11) c 2 0
      else succeed (cmdCnt (catchCmd d t) 10) c 0 0
  | none, some (cls, f) =>
    if isStop (byteAt f.cap 0) then badAt d c 4
    else
      let t := pseudoSlot d
      let d := modSlot (refuseCap d cls f stABORTED 0 0) t fun s => { s with abortSeen := true }
      succeed (cmdCnt (modSlot d c fun s => { s with after := some t }) 10) c 0 0
  | none, none => succeed d c 1 0

/-- R308: ABORT. -/
def execAbortCmd (cmd : Nat) (s : State) : Host.Outcome State Fault Refusal :=
  actIf planned s fun d => match adminStart d cmd 9 with
    | some (x, d) => advanceAll (abortGo d cmd x)
    | none => d

/-- R307: RELEASE. -/
def execReleaseCmd (cmd : Nat) (s : State) : Host.Outcome State Fault Refusal :=
  actIf planned s fun d => match adminStart d cmd 8 with
    | some (x, d) =>
      let r := releaseTag d x.pd x.trig
      succeed r.2 cmd r.1 0
    | none => d

/-! ### QUEUE_DELETE and the end of a detached CQ (R281, R283) -/

/-- Go on where a queue belongs to the command's PD, or the command holds ADMIN on page 64. -/
def needQueue (d : Dev) (c : Nat) (x : Slot) (pd : Nat) (f : Dev → Dev) : Dev :=
  if !x.msub && pd == x.pd then f d else needPage d c x 64 rADMIN f

/-- An ABORT of the device's own to the pier that runs a forwarded command (R283, R456). -/
def abortFar (d : Dev) (t : Nat) (s : Slot) (pier : Nat) : Dev :=
  let cid := lowFree (sortN ((d.cmd.slots.filter fun e => e.2.sq == s.sq).map fun e => e.2.cid)).eraseDups 0
  let k := pseudoSlot d
  let x : Slot := { sq := s.sq, cid, cap := [9, 0] ++ le 2 cid ++ le 4 s.cmdTag.toNat ++ zeros 56, pd := s.pd, cls := s.cls,
                    master := s.master, phase := .running, after := some t, own := true }
  let d := modSlot d t fun s => { s with abortSeen := true }
  forwardOrWait { d with cmd.slots := tset d.cmd.slots k x } k pier

/-- Abort every command of an SQ but the one that deletes it, as ABORT does. -/
def abortSq (d : Dev) (c q : Nat) : Dev :=
  let d := d.cmd.bufs.foldl (fun d b => (b.2.filter (·.sq == q)).foldl (fun d f => refuseCap d b.1 f stABORTED 0 0) d) d
  d.cmd.slots.foldl (fun d e =>
    if e.1 == c || e.2.sq != q || e.2.from_.isSome || e.2.msub || e.2.orphan || e.2.own || e.2.abortSeen then d
    else if pastReturn e.2 || e.2.op == 8 || e.2.op == 9 then d
    else match if e.2.ownerWait then none else e.2.to_ with
      | some (p, _) => abortFar d e.1 e.2 p
      | none => catchCmd d e.1) d

/-- A QUEUE_DELETE of a QTYPE; an unknown one is refused by either command. -/
def queueDelete (cmd qt : Nat) (s : State) (f : Slot → Nat → Dev → Dev) : Host.Outcome State Fault Refusal :=
  actIf serving s fun d =>
    if !(slotOf d cmd).any (fun x => byteAt x.cap 6 == qt || 1 < byteAt x.cap 6) then d
    else match adminStart d cmd 0x84 with
      | none => d
      | some (x, d) => forCmd d cmd fun d => if 1 < byteAt x.cap 6 then badAt d cmd 6 else f x (leAt x.cap 4 2) d

/-- R283: deleting an SQ. -/
def execQueueDeleteSq (cmd : Nat) (s : State) : Host.Outcome State Fault Refusal :=
  queueDelete cmd 0 s fun x q d => match sqOf d q with
    | none => badAt d cmd 4
    | some r => needQueue d cmd x r.pd fun d =>
      advanceAll (finishDeletes (abortSq (modSlot d cmd fun s => { s with waitFor := true }) cmd q))

/-- R283: deleting a CQ. -/
def execQueueDeleteCq (cmd : Nat) (s : State) : Host.Outcome State Fault Refusal :=
  queueDelete cmd 1 s fun x q d => match cqOf d q with
    | none => badAt d cmd 4
    | some r => needQueue d cmd x r.pd fun d =>
      if d.cmd.sqs.any fun e => e.2.cq == q then answer d cmd stINUSE q 0
      else answerAfter { d with cmd.cqs := tdel d.cmd.cqs q, cmd.detachedAt := tdel d.cmd.detachedAt q } cmd (.st (.cq q none))
        stSUCCESS 0 0

/-- Discard what waits of a deleted SQ: capsules, held commands, generated completions. What still runs completes to no queue. -/
def discardSq (d : Dev) (q : Nat) : Dev :=
  let d := { d with cmd.bufs := d.cmd.bufs.map fun (b : Nat × List Fetched) => (b.1, b.2.filter (·.sq != q)) }
  let d := d.cmd.slots.foldl (fun (d : Dev) (e : Nat × Slot) =>
    if e.2.sq != q || e.2.from_.isSome || e.2.msub then d
    else if e.2.phase == .held then freeSlot (dropTransfers d e.1) e.1
    else if e.2.phase == .generated then freeSlot (cmdCnt d 14) e.1
    else modSlot d e.1 fun s => { s with orphan := true }) d
  removeSq d q

/-- R281: a CQ has stayed DETACHED for CMD_DETACH_MS. -/
def execCqDetachTimeout (cq : Nat) (s : State) : Host.Outcome State Fault Refusal :=
  actIf planned s fun d =>
    if !(cqOf d cq).any (·.detached) then d
    else
      let d := ((d.cmd.sqs.filter fun e => e.2.cq == cq).map (·.1)).foldl discardSq d
      advanceAll (mirror { d with cmd.cqs := tdel d.cmd.cqs cq, cmd.detachedAt := tdel d.cmd.detachedAt cq,
                                  cmd.posting := d.cmd.posting.filter (·.cq != cq) } (.st (.cq cq none)))

/-! ### Regions (R252 to R258, R289) -/

/-- Indices that a device allocates: its side's range, and how many (R254). -/
def regionRange (d : Dev) : Nat × Nat :=
  if d.pln.plan.unpaired then (1, 1048575) else if d.glb.side then (524288, 524288) else (1, 524287)

/-- The index of a new region: the lowest never allocated, else the one freed first, at least 10 ms ago. -/
def regionIndex (d : Dev) : Option Nat :=
  let (base, n) := regionRange d
  if d.trs.regionFresh < n then some (base + d.trs.regionFresh)
  else match d.trs.regionFreed.find? fun e => base ≤ e.1 && e.1 < base + n with
    | some (i, t) => if t + 10000000 ≤ d.time then some i else none
    | none => none

/-- The part of a partition in which a region may lie: own half of the submission rings in a pair, the other half being the copy of the
partner's (R416). -/
def partSpan (d : Dev) (part : Nat) : Nat × Nat :=
  let rings := d.pln.plan.ringMiB * 1048576
  if part == 2 then (0, d.pln.plan.pantryMiB * 1048576)
  else if d.pln.plan.unpaired then (0, rings)
  else if d.glb.side then (rings / 2, rings) else (0, rings / 2)

/-- Does a range of a partition meet a region there that it may not overlap: any for a RING region, a RING one, the partner's among
them, for others (R253, R254)? -/
def ringMeets (d : Dev) (part off len : Nat) (ring : Bool) : Bool :=
  (d.trs.regions ++ d.par.store.regions).any fun e =>
    e.2.partition == part && (ring || e.2.ring) && meets off len e.2.offset e.2.length

/-- A free range for a ring. Which one the device takes the spec leaves open: any that is free. -/
def chooseRing (d : Dev) (len : Nat) : Option Nat × Dev :=
  let (lo, hi) := partSpan d 1
  let fits := fun o => decide (o + len ≤ hi) && !ringMeets d 1 o len true
  let ends := sortN (lo :: (d.trs.regions.filter fun e => e.2.partition == 1 && lo ≤ e.2.offset + e.2.length).map
    fun e => (e.2.offset + e.2.length + 63) / 64 * 64)
  let (n, d) := draw d
  let any := lo + 64 * (Config.freeNat n % ((hi - lo) / 64 + 1))
  (if fits any then some any else ends.find? fits, d)

/-- Enter a region; KEY is the answer (R254, R289). -/
def makeRegion (d : Dev) (c idx : Nat) (r : Region) (r1 : Nat) : Dev :=
  let gen := tgetD d.trs.regionGen idx 0 % 4095 + 1
  let r := { r with gen }
  let fresh := d.trs.regionFresh < (regionRange d).2
  let d := { d with trs.regions := tset d.trs.regions idx r, trs.regionGen := tset d.trs.regionGen idx gen,
                    trs.regionFresh := if fresh then d.trs.regionFresh + 1 else d.trs.regionFresh,
                    trs.regionFreed := d.trs.regionFreed.filter (·.1 != idx) }
  if r.ring then answerAfter d c (.st (.region idx (some r))) stSUCCESS (idx * 4096 + gen) r1
  else succeed d c (idx * 4096 + gen) r1

/-- Steps 3 and 4 of R289. -/
def regionGo (d : Dev) (c : Nat) (x : Slot) : Dev :=
  let cap := x.cap
  let va := leAt cap 8 8
  let len := leAt cap 36 8
  let off := leAt cap 44 8 % 2 ^ 36
  let part := fld (leAt cap 44 8) 48 4
  let rr := bitAt (byteAt cap 52) 0
  let ring := bitAt (byteAt cap 53) 0
  let pd := leAt cap 4 2
  let choose := ring && off == 0xFFFFFFFFF
  let (lo, hi) := partSpan d part
  match firstBad [(8, va % 64 != 0), (36, len < 64 || 2 ^ 34 < len || len % 64 != 0),
      (44, (part != 1 && part != 2) || (ring && part != 1)
        || (!choose && (off % 64 != 0 || off < lo || hi < off + len || ringMeets d part off len ring))),
      (52, ring && rr)] with
  | some o => badAt d c o
  | none =>
    if (tgetD d.trs.pds pd {}).regionLimit ≤ (d.trs.regions.filter fun e => e.2.pd == pd).length then answer d c stQUOTA 0 0
    else match regionIndex d with
      | none => answer d c stQUOTA 1 0
      | some idx =>
        let r : Region := { vaBase := va, length := len, offset := off, partition := part, pd, remoteRead := rr,
                            remoteWrite := bitAt (byteAt cap 52) 1, ring }
        if !choose then makeRegion d c idx r 0
        else
          let (o, d) := chooseRing d len
          match o with
          | none => answer d c stQUOTA 2 0
          | some o => makeRegion d c idx { r with offset := o } (o / 64)

/-- R289: REGION_CREATE. -/
def execRegionCreate (cmd : Nat) (s : State) : Host.Outcome State Fault Refusal :=
  adminRun s cmd 0x93 fun x d =>
    if !x.msub && leAt x.cap 4 2 == x.pd then regionGo d cmd x else needPage d cmd x 48 rADMIN fun d => regionGo d cmd x

/-- READ_RESPs that read from the region of a KEY take their data now, so that none reads it later (R257). -/
def takeResps (d : Dev) (key : Nat) : Dev :=
  { d with trs.conns := d.trs.conns.map fun e => (e.1, { e.2 with sendQ := e.2.sendQ.map fun m =>
      if m.kind == .readResp && m.part != 0 && m.region == key then { m with data := partBytes d m.part m.src m.len, part := 0 } else m }) }

/-- Is a region index in the device's own range, so that it may be allocated again (R254)? -/
def ownIndex (d : Dev) (i : Nat) : Bool := let r := regionRange d; decide (r.1 ≤ i) && decide (i < r.1 + r.2)

/-- R257: REGION_DESTROY. -/
def execRegionDestroy (cmd : Nat) (s : State) : Host.Outcome State Fault Refusal :=
  adminRun s cmd 0x94 fun x d =>
    let key := leAt x.cap 8 4
    match tget d.trs.regions (key / 4096) with
    | none => badAt d cmd 8
    | some r =>
      if r.gen != key % 4096 || !((!x.msub && r.pd == x.pd) || cmdPage d x 48 rADMIN) then badAt d cmd 8
      else if r.bound then answer d cmd stINUSE key 0
      else
        let i := key / 4096
        let d := takeResps { d with trs.regions := tdel d.trs.regions i,
                                    trs.regionFreed := if ownIndex d i then d.trs.regionFreed ++ [(i, d.time)] else d.trs.regionFreed } key
        if r.ring then answerAfter d cmd (.st (.region i none)) stSUCCESS 0 0 else succeed d cmd 0 0

/-! ### IDENTIFY of the device (R290) -/

/-- The 4,096 bytes of the device identify structure. -/
def identifyBytes (d : Dev) (x : Slot) : List Byte :=
  let p := d.pln.plan
  let payload := ((xferConn d x).bind (connOf d)).map (·.r.payload)
  fit 4096 (fit 16 Config.serial ++ le 2 0x2408 ++ [if p.unpaired then 0xFF else BitVec.ofNat 8 (b2n d.glb.side), BitVec.ofNat 8 p.pier]
    ++ le 4 d.glb.fwVersion.toNat ++ le 8 p.planId.toNat ++ le 4 p.sqLimit ++ le 4 131072 ++ le 4 16777216 ++ le 2 1024
    ++ [BitVec.ofNat 8 (stCode d.glb.st), 0] ++ le 4 4096 ++ le 4 (payload.getD 4096) ++ le 2 (tgetD d.log.attnSeq x.pd 0))

/-- R290: IDENTIFY with CNS 0; an unknown CNS is refused here. -/
def execIdentifyDevice (cmd : Nat) (s : State) : Host.Outcome State Fault Refusal :=
  actIf serving s fun d =>
    if (slotOf d cmd).any fun x => byteAt x.cap 8 == 1 then d
    else match adminStart d cmd 0x80 with
      | none => d
      | some (x, d) =>
        if byteAt x.cap 8 != 0 then badAt d cmd 8
        else if x.dataLen != 4096 then badAt d cmd 16
        else succeed (sendHost d cmd (xferAddr x) (identifyBytes d x)) cmd 0 0

/-! ### Registers of the command engine with an effect of their own (R313, R314) -/

/-- R313: a write of CMD_PD_SEL loads quota and outstanding count of the selected PD. -/
def cmdPdSelGo (d : Dev) (v : Word) : Dev :=
  let pd := v.toNat % 4096
  let put := fun (t : Tab Word) o x => tset t o (BitVec.ofNat 32 x)
  { d with reg.live := put (put (put d.reg.live 0x40005C pd) 0x400060 (quotaOf d pd)) 0x400064 (outstanding d pd) }

/-- R313: CMD_PD_SEL_WRITE. -/
def execCmdPdSelWrite (m : Master) (v : Word) (s : State) : Host.Outcome State Fault Refusal :=
  actIf running s fun d => writeAccess d m 0x40005C fun d => cmdPdSelGo d v

/-- The capsule in CMD_MSUB_CAPSULE_0 to 15. -/
def msubCapsule (d : Dev) : List Byte := (List.range 16).flatMap fun w => le 4 (liveN d (0x400100 + 4 * w))

/-- R314: GO submits the capsule as an ADMIN-class command of the writing master. With no slot it completes with REFUSED_SLOTS. -/
def msubGo (d : Dev) (m : Master) : Dev :=
  if d.cmd.msubBusy then d
  else
    let d := { d with cmd.msubBusy := true, cmd.msubDone := false }
    let cap := msubCapsule d
    let x : Slot := { sq := 0xFFFF, cid := leAt cap 2 2, cap, cls := 0, master := m, msub := true, fetched := d.time,
                      placed := d.time, miles := [(0, d.time)] }
    match slotFor d 0 with
    | some r => place d (lowFree (tkeys d.cmd.slots) 0) { x with reserved := r }
    | none => { d with cmd.slots := tset d.cmd.slots (pseudoSlot d) { x with phase := .answered, result := some (stSLOTS, 0, 0) } }

/-- R314: MSUB_GO. -/
def execMsubGo (m : Master) (s : State) : Host.Outcome State Fault Refusal :=
  actIf serving s fun d => writeAccess d m 0x400140 fun d => msubGo d m

/-- R454: no owner has become reachable within VIA_OWNER_WAIT_MS. -/
def execOwnerWaitTimeout (cmd : Nat) (s : State) : Host.Outcome State Fault Refusal :=
  actIf planned s fun d => match slotOf d cmd with
    | some x =>
      if x.ownerWait then
        answer (modSlot d cmd fun s => { s with ownerWait := false }) cmd stNOTOWNER (ownerCode ((farOwner d x).getD 0xFF)) 0
      else d
    | none => d

end Sys2Proof.Machine
end

