-- ==== Sys2Proof/Machine/TrsRx.lean ====
section
/-! DEFINITION. Receiving Trestle packets: the receive checks, placement, messages, connections opened, resumed and closed, the porch,
context fetches, and the protection domain registers (R202 to R273, R451, R460). -/

namespace Sys2Proof.Machine

/-! ### PSNs and messages (R215, R216, R218, R220) -/

/-- CUM_PSN moves over the PSNs received above it. -/
def advCum : Nat → Nat → List Nat → Nat × List Nat
  | 0, cum, got => (cum, got)
  | f + 1, cum, got => if got.contains cum then advCum f ((cum + 1) % 2 ^ 32) (got.erase cum) else (cum, got)

/-- A message is finished as failed; its length is that of its first packet. -/
def failMsg (d : Dev) (c msn len : Nat) : Dev :=
  modConn d c fun x => if below32 msn x.completed then x
    else settleMsgs 64 { x with msgs := tmod x.msgs msn { len } fun m => { m with failed := !m.complete } }

/-- Is a message already failed (R217 step 9)? One that COMPLETED_MSN has passed shows it in FAIL_MASK. -/
def msgFailed (x : Conn) (msn : Nat) : Bool :=
  if below32 msn x.completed then
    sub32 x.completed msn ≤ 64 && x.failMask.getLsbD (sub32 x.completed msn - 1)
  else (tget x.msgs msn).any (·.failed)

/-- Has a message completed already? -/
def msgComplete (x : Conn) (msn : Nat) : Bool :=
  (below32 msn x.completed && !msgFailed x msn) || (tget x.msgs msn).any (·.complete)

/-- Does an earlier packet of the same message carry another MSG_LEN (R217 step 8)? -/
def lenDiffers (x : Conn) (msn len : Nat) : Bool := (tget x.msgs msn).any fun m => m.len != len

/-- Does a PSN form a new SACK block (R228)? -/
def freshBlock (x : Conn) (psn : Nat) : Bool :=
  psn != x.cum && !x.got.contains ((psn + 2 ^ 32 - 1) % 2 ^ 32) && !x.got.contains ((psn + 1) % 2 ^ 32)

/-- Acknowledge at once, or coalesce (R228). -/
def ackOrWait (d : Dev) (c : Nat) (p : Pkt) (now : Bool) : Dev :=
  match connOf d c with
  | none => d
  | some x =>
    if now || fACKNOW p || ackTime d == 0 || ackEvery d ≤ x.ackPend + 1 then sendAck d c (pkPath p) 0
    else modConn d c fun x => { x with ackPend := x.ackPend + 1, ackPath := pkPath p,
                                       ackSince := if x.ackPend == 0 then d.time else x.ackSince }

/-- Act on the peer's CLOSE once every lower PSN has been received (R212, R213). -/
def peerClose (d : Dev) (c : Nat) : Dev :=
  match connOf d c with
  | none => d
  | some x => match x.closePsn with
    | none => d
    | some p =>
      if !below32 p x.cum || x.peerClosed then d
      else
        let d := modConn d c fun x => { x with peerClosed := true, closePsn := none }
        if x.st == .established then
          let d := sendAck (failOpen d c 0) c x.ackPath 0
          sendMsg (modConn d c fun x => { x with st := .closing, since := d.time }) c { kind := .close, reason := 0, len := 8 }
        else closingDone (sendAck d c x.ackPath 0) c

/-- A PSN is marked received and the edge moves on; it is acknowledged, a CREDIT may fall due, and a CLOSE that waited for it takes
effect (R215, R228, R237). -/
def markRx (d : Dev) (c : Nat) (p : Pkt) (now : Bool) : Dev :=
  match connOf d c with
  | none => d
  | some x =>
    let psn := p.psn.toNat
    let nb := freshBlock x psn
    let (cum, got) := advCum (x.got.length + 1) x.cum (psn :: x.got)
    let d := edgeMove (modConn d c fun x => { x with cum, got, ackPath := pkPath p }) c
    peerClose (creditIfDue (ackOrWait d c p (now || nb)) c) c

/-- A class 1 failure: NACK, the message failed, the PSN marked (R220, R229). -/
def failRx (d : Dev) (c : Nat) (p : Pkt) (msn code detail : Nat) : Dev :=
  markRx (failMsg (sendNack d c p code detail) c msn p.msgLen.toNat) c p false

/-! ### Region checks (R255, R256) -/

/-- Checks 1 to 5 of R255 for `n` bytes: what fails, with its detail. -/
def regionFail (d : Dev) (x : Conn) (p : Pkt) (n : Nat) (write : Bool) : Option (Nat × Nat) :=
  let key := p.key.toNat
  let addr := p.addr.toNat
  match if key / 4096 == 0 then none else tget d.trs.regions (key / 4096) with
  | none => some (8, key)
  | some r =>
    if r.gen != key % 4096 then some (8, key)
    else if r.pd != x.r.pd || !(if write then r.remoteWrite else r.remoteRead) then some (9, key)
    else if n == 0 then none
    else if addr < r.vaBase || r.vaBase + r.length < addr + n || 2 ^ 64 < addr + n then some (0xA, addr % 2 ^ 32)
    else if r.ring && ((addr - r.vaBase) % 64 != 0 || n % 64 != 0) then some (0xA, addr % 2 ^ 32)
    else none

/-- A region failure: counted, and where a right is missing recorded as a denial (R150). -/
def regionNack (d : Dev) (c : Nat) (x : Conn) (p : Pkt) (write : Bool) (e : Nat × Nat) : Dev :=
  let d := ctxCnt d 6
  let d := if e.1 == 9 then deny d (hostPd x.r.pd) 1 (p.key.toNat / 4096) (if write then rWRITE else rREAD) else d
  failRx d c p p.msn.toNat e.1 e.2

/-! ### WRITE (R218 to R225) -/

/-- Place a WRITE's data; while PAIRED a ring packet stays out of ACKs until the partner has it (R418). Records on an inner
connection are commands of their own, and place nothing here. -/
def placeData (d : Dev) (c : Nat) (x : Conn) (p : Pkt) : Dev :=
  if p.body.isEmpty || x.r.inner.isSome then d
  else match tget d.trs.regions (p.key.toNat / 4096) with
  | none => d
  | some r =>
    let o := r.offset + (p.addr.toNat - r.vaBase)
    if r.partition == 2 then { d with trs.pantry := memWrites d.trs.pantry o p.body }
    else
      let d := { d with trs.rings := memWrites d.trs.rings o p.body }
      if !r.ring then d
      else
        let d := { d with trs.ringAt := (List.range (p.body.length / 64)).foldl (fun t i => tset t (o / 64 + i) d.time) d.trs.ringAt }
        if paired d then
          mirrorQueue (modConn d c fun x => { x with ringWait := x.ringWait ++ [(p.psn.toNat, d.par.nextMseq)] })
            (.ring o p.body) (.ring c p.psn.toNat)
        else mirror d (.ring o p.body)

/-- Step 12 for a WRITE: placed, counted, and its message complete, once, when its count equals its length. -/
def placeWrite (d : Dev) (c : Nat) (p : Pkt) : Dev :=
  match connOf d c with
  | none => d
  | some x =>
    let msn := p.msn.toNat
    let d := placeData d c x p
    if msgComplete x msn then markRx d c p false
    else
      let old := tgetD x.msgs msn {}
      let m : RxMsg := { old with len := p.msgLen.toNat, count := old.count + p.body.length,
                                  tag := if fTRIGGER p then some p.tag.toNat else old.tag, notify := old.notify || fNOTIFY p }
      let fin := m.count == m.len
      let d := modConn d c fun x => settleMsgs 64 { x with msgs := tset x.msgs msn { m with complete := fin } }
      let d := markRx d c p (fin && m.notify)
      match m.tag with
      | some t => if fin then deliverTrigger d x.r.pd t else d
      | none => d

/-- Steps 9 to 12 for a WRITE, at arrival or at the release of a held packet. -/
def writeGo (d : Dev) (c : Nat) (p : Pkt) : Dev :=
  match connOf d c with
  | none => d
  | some x =>
    let n := p.body.length
    if msgFailed x p.msn.toNat then markRx d c p false
    else
      let free := x.r.inner.isSome || (n == 0 && p.key == 0)
      match if free then none else regionFail d x p n true with
      | some e => regionNack d c x p true e
      | none =>
        if !fFENCE p || p.psn.toNat == x.cum then placeWrite d c p
        else if 256 ≤ ((d.trs.conns.map fun e => e.2.held.length).foldl (· + ·) 0) then
          trsCnt (modConn d c fun x => { x with rcvd := (x.rcvd + 2 ^ 64 - n) % 2 ^ 64 }) 14
        else
          let d := trsCnt (modConn d c fun x => { x with held := x.held ++ [p] }) 13
          if fACKNOW p then sendAck d c (pkPath p) 0 else d

/-- A new WRITE packet. -/
def rxWrite (d : Dev) (c : Nat) (x : Conn) (p : Pkt) : Dev :=
  let n := p.body.length
  let msn := p.msn.toNat
  if !below32 msn x.completed && 64 ≤ sub32 msn x.completed then sendNack d c p 5 x.completed
  else if 2 ^ 63 ≤ sub64 x.edge (x.rcvd + n) then sendNack (trsCnt d 12) c p 6 (x.edge % 2 ^ 32)
  else
    let d := modConn d c fun x => { x with rcvd := (x.rcvd + n) % 2 ^ 64 }
    let len := p.msgLen.toNat
    if 16777216 < len || len < p.msgOffset.toNat + n || lenDiffers x msn len then
      failRx d c p msn 7 len
    else writeGo d c p

/-! ### READ_REQ and READ_RESP (R239 to R242, R452) -/

/-- Reads that the device serves on a connection: each holds a slot until its last READ_RESP is sent. -/
def servedReads (d : Dev) (c : Nat) (x : Conn) : Nat :=
  (x.sendQ.filter (·.kind == .readResp)).length + (d.via.heldReads.filter (·.1 == c)).length

/-- Bytes that a pier may pull: of a forwarded write, or the data of a read it forwarded; some without bytes where they are not in
staging yet. -/
def stagedBytes (d : Dev) (key addr n : Nat) : Option (Option (List Byte)) :=
  let hits := fun (s : Slot) => match s.stage with
    | some (k, a) => k == key && a ≤ addr && addr + n ≤ a + pullBytes s
    | none => false
  match d.cmd.slots.find? fun e => hits e.2 with
  | some (_, s) => some (if landedAll s then some ((s.data.drop (addr - (s.stage.getD (0, 0)).2)).take n) else none)
  | none => (d.via.staged.find? fun e => e.1 == key && e.2.1 ≤ addr && addr < e.2.1 + e.2.2.length).map fun e =>
      some (fit n (e.2.2.drop (addr - e.2.1)))

/-- Queue the READ_RESP of a read. -/
def respond (d : Dev) (c : Nat) (p : Pkt) (part src : Nat) (data : List Byte) : Dev :=
  sendMsg d c { kind := .readResp, msn := some p.msn.toNat, len := p.msgLen.toNat, addr := beAt p.body 0 8, key := beAt p.body 8 4,
                tag := p.tag.toNat, src, part, region := p.key.toNat, data }

/-- A READ_REQ reaches step 12: it is complete. -/
def readDoneRx (d : Dev) (c : Nat) (p : Pkt) : Dev :=
  let d := modConn d c fun x => settleMsgs 64 { x with msgs := tset x.msgs p.msn.toNat { len := p.msgLen.toNat, complete := true } }
  markRx d c p false

/-- A new READ_REQ packet. -/
def rxReadReq (d : Dev) (c : Nat) (x : Conn) (p : Pkt) : Dev :=
  let n := p.msgLen.toNat
  let msn := p.msn.toNat
  if !below32 msn x.completed && 64 ≤ sub32 msn x.completed then sendNack d c p 5 x.completed
  else if n == 0 || 16777216 < n || n < p.msgOffset.toNat || lenDiffers x msn n then failRx d c p msn 7 n
  else if msgFailed x msn || msgComplete x msn then markRx d c p false
  else if x.slots ≤ servedReads d c x then sendNack d c p 0xB p.tag.toNat
  else if x.r.inner.isSome then
    match stagedBytes d p.key.toNat p.addr.toNat n with
    | none => failRx (ctxCnt d 6) c p msn 8 p.key.toNat
    | some (some bs) => respond (readDoneRx d c p) c p 0 0 bs
    | some none => readDoneRx { d with via.heldReads := d.via.heldReads ++ [(c, p)] } c p
  else match regionFail d x p n false with
    | some e => regionNack d c x p false e
    | none => match tget d.trs.regions (p.key.toNat / 4096) with
      | some r =>
        let o := r.offset + (p.addr.toNat - r.vaBase)
        respond (readDoneRx d c p) c p r.partition o []
      | none => d

/-- READ_REQs of piers that waited for staging (R452). -/
def serveHeld (d : Dev) : Dev :=
  d.via.heldReads.foldl (fun d e => match stagedBytes d e.2.key.toNat e.2.addr.toNat e.2.msgLen.toNat with
    | some (some bs) => respond { d with via.heldReads := d.via.heldReads.erase e } e.1 e.2 0 0 bs
    | some none => d
    | none => { d with via.heldReads := d.via.heldReads.erase e }) d

/-- Bytes of a forwarded read arrive at the gate, and go on to the host; after the last the owner's entry takes effect. -/
def relayBack (d : Dev) (c addr : Nat) (bs : List Byte) : Dev :=
  let d := modSlot d c fun s => { s with backLeft := s.backLeft - bs.length }
  let d := sendHost d c addr bs
  modSlot d c fun s => if s.backLeft == 0 && s.phase == .running && s.result.isSome then { s with phase := .answered } else s

/-- A proxy submits a fragment request to its drive (R464). -/
def fragSubmit (d : Dev) (n : Nat) (f : FragIn) : Dev :=
  emit { d with via.frags := tset d.via.frags n { f with sent := true } } (.drive f.slot
    (if f.read then .read (f.addr / 4096) f.count else if f.count == 0 then .shadow f.addr f.data else .write (f.addr / 4096) f.data))

/-- Write data of a fragment request lands at the proxy. -/
def landFrag (d : Dev) (n off : Nat) (bs : List Byte) : Dev :=
  let d := { d with via.frags := tupd d.via.frags n fun (f : FragIn) =>
    { f with data := putAt (fit f.len f.data) off bs, landed := f.landed + bs.length } }
  match tget d.via.frags n with
  | some f => if f.landed == f.len && !f.sent then fragSubmit d n f else d
  | none => d

/-- Read data of a fragment request lands at the home pier; the read is complete with its last byte. -/
def landFragBack (d : Dev) (tag off : Nat) (bs : List Byte) : Dev :=
  match tget d.via.sent tag with
  | none => d
  | some f =>
    let f : FragOut := { f with data := putAt (fit f.len f.data) off bs, landed := f.landed + bs.length }
    if f.landed < f.len then { d with via.sent := tset d.via.sent tag f }
    else
      let d := { d with via.sent := tdel d.via.sent tag }
      match f.use with
      | .read c stripe col first =>
        readDone d c stripe col first (.ok (f.data.take (4096 * f.count)) (f.data.drop (4096 * f.count)))
      | _ => d

/-- Bytes of a read of the device's arrive. -/
def landRead (d : Dev) (u : Use) (off : Nat) (bs : List Byte) (last : Bool) : Dev :=
  match u with
  | .pull c o => let d := serveHeld (landData d c (o + off) bs); if last then advance d c else d
  | .relay c a => relayBack d c (a + off) bs
  | .frag n => landFrag d n off bs
  | .fragBack tag => landFragBack d tag off bs
  | .cqHead q =>
    if !last then d
    else postAll (modCq d q fun r => { r with hostHead := unle (bs.take 2) % 65536, reading := false })
  | _ => d

/-- A new READ_RESP packet, judged by the device's own record of the read (R240, R256). -/
def rxReadResp (d : Dev) (c : Nat) (x : Conn) (p : Pkt) : Dev :=
  let n := p.body.length
  let len := p.msgLen.toNat
  let off := p.msgOffset.toNat
  match x.reads.find? fun r => r.id == p.tag.toNat && r.msn == p.msn.toNat with
  | some r =>
    if len == r.len && off + n ≤ len && p.addr.toNat == (r.addr + off) % 2 ^ 64 && p.key.toNat == r.key then
      let last := r.count + n == r.len
      let rest := if last then x.reads.erase r
        else x.reads.map fun (y : ReadOut) => if y == r then { y with count := r.count + n } else y
      let d := modConn d c fun x => { x with reads := rest }
      pump (landRead (markRx d c p false) r.use off p.body last) c
    else
      let d := failUse (modConn (sendNack d c p 7 len) c fun x => { x with reads := x.reads.erase r }) r.use 7
      markRx d c p false
  | none => markRx (sendNack d c p 7 len) c p false

/-! ### Unsequenced packets (R227, R229, R237, R244) -/

/-- A received NACK (R229). -/
def takeNack (d : Dev) (c : Nat) (x : Conn) (p : Pkt) : Dev :=
  let d := trsCnt d 11
  let psn := beAt p.body 0 4
  let msn := beAt p.body 4 4
  let code := byteAt p.body 8
  if byteAt p.body 9 == 2 then enterTimeWait d c
  else if byteAt p.body 9 != 1 then d
  else if x.unacked.any fun t => t.psn == psn && pkOp t.pk == 3 then
    pump (modConn d c fun x => { x with sendQ := x.sendQ.filter fun m => !(m.kind == .readResp && m.msn == some msn) }) c
  else
    let uses := (x.outMsgs.filter (·.1 == msn)).map (·.2.use) ++ (x.reads.filter (·.msn == msn)).map (·.use)
    let d := uses.foldl (fun d u => failUse d u code) d
    let d := modConn d c fun x => { x with
      outMsgs := x.outMsgs.filter (·.1 != msn),
      reads := x.reads.filter (·.msn != msn),
      sendQ := x.sendQ.filter fun m => !((m.kind == .write || m.kind == .readReq) && m.msn == some msn) }
    pump d c

/-! ### The viaduct's inner connections (R451, R453, R460) -/

/-- An event of R465: pier, group, µs. -/
def viaEvent (d : Dev) (ev pier group micros attn : Nat) : Dev :=
  logEvent d ev attn .none ([BitVec.ofNat 8 pier, BitVec.ofNat 8 group] ++ zeros 6 ++ le 8 micros)

/-- Tell a pier who owns this pier's viaduct volumes (R454). -/
def sendDirectory (d : Dev) (pier : Nat) : Dev :=
  (d.via.directory.filter fun e => e.2 == d.pln.plan.pier).foldl (fun d e =>
    innerSend d pier 6 { payload := le 2 e.1 ++ [BitVec.ofNat 8 e.2] }) d

/-- Forward what waits for a pier (R454). -/
def reForward (d : Dev) (pier : Nat) : Dev :=
  d.cmd.slots.foldl (fun d e =>
    let target := match e.2.after with
      | some t => (slotOf d t).bind fun y => y.to_.map (·.1)
      | none => farOwner d e.2
    if e.2.ownerWait && target == some pier then forwardTo d e.1 pier else d) d

/-- An inner connection to a pier is ESTABLISHED: the pier is UP (R453). -/
def pierReached (d : Dev) (pier c : Nat) : Dev :=
  let was := pierUp d pier
  let d := { d with via.inner := tset d.via.inner pier c, via.ackAt := tset d.via.ackAt pier d.time,
                    via.up := BitVec.ofNat 64 (setBit d.via.up.toNat pier) }
  let d := if was then d else viaEvent d 0x0F02 pier 0 0 0
  reForward (sendDirectory d pier) pier

/-- A RESUME_REPLY: the connection is ESTABLISHED again, or is given up (R212, R243 to R245); a local close that came meanwhile takes
effect (R251). -/
def takeResumeReply (d : Dev) (c : Nat) (x : Conn) (p : Pkt) : Dev :=
  if x.st != .resuming || p.tag.toNat != x.id then d
  else if byteAt p.body 0 == 1 then enterTimeWait d c
  else if byteAt p.body 0 != 0 || beAt p.body 24 8 == 0 then d
  else
    let d := modConn d c fun x => { x with
      st := .established,
      since := d.time,
      r := { x.r with hostReadSlots := byteAt p.body 1, pathMask := BitVec.ofNat 64 (beAt p.body 24 8) },
      cum := beAt p.body 4 4, got := [], completed := 0, msgs := [], failMask := 0,
      sent := beAt p.body 8 8, peerEdge := beAt p.body 16 8, peerCum := x.psn, peerDone := 0, msn := 0,
      paths := pathTab (beAt p.body 24 8), deadAt := none, closeLater := none }
    let d := match x.r.inner with
      | some n => if tget d.via.inner n == some c then pierReached d n c else d
      | none => d
    let gone := x.r.inner.isNone && !(tgetD d.trs.pds x.r.pd {}).enabled
    match if gone then some 1 else x.closeLater with
    | some reason => closeConn d c reason
    | none => pump d c

/-- A CONNECT of this pier's is given up. -/
def dropAttempt (d : Dev) (c : Nat) : Dev :=
  { d with trs.conns := tdel d.trs.conns c, trs.connFreed := d.trs.connFreed ++ [(c, d.time)], trs.resident := d.trs.resident.erase c,
           trs.fetching := d.trs.fetching.erase c, trs.porch := d.trs.porch.filter (·.1 != c) }

/-- A CONNECT_REPLY to a CONNECT of this pier's (R451). -/
def takeConnectReply (d : Dev) (c : Nat) (x : Conn) (p : Pkt) : Dev :=
  if x.st != .connecting || p.tag.toNat != x.id then d
  else if byteAt p.body 0 != 0 then dropAttempt d c
  else
    let d := modConn d c fun x => { x with
      st := .established,
      since := d.time,
      r := { x.r with srcConn := BitVec.ofNat 32 (beAt p.body 4 4), hostReadSlots := byteAt p.body 2,
                      payload := if bitAt (byteAt p.body 1) 0 then 8192 else 4096, hostPortBase := beAt p.body 8 2,
                      pathMask := BitVec.ofNat 64 (beAt p.body 32 8), nonce := BitVec.ofNat 64 (beAt p.body 40 8) },
      cum := beAt p.body 12 4, sent := beAt p.body 16 8, peerEdge := beAt p.body 24 8, paths := pathTab (beAt p.body 32 8) }
    let d := match connOf d c with | some x => mirror d (.st (.conn c (some x.r))) | none => d
    match x.r.inner with
    | some n => pierReached d n c
    | none => d

/-- Answers that may be repeated: those of the last 10 ms (R211). -/
def answeredNow (d : Dev) (ip : Nat) (conn : Word) (id : Word) : Option Emit :=
  (d.trs.answered.find? fun e => e.1 == ip && e.2.1 == conn && e.2.2.1 == id && d.time < e.2.2.2.1 + 10000000).map (·.2.2.2.2)

/-- Send a reply to a source and keep it for its repeats. -/
def answerWith (d : Dev) (ip : Nat) (conn id : Word) (e : Emit) : Dev :=
  let keep := d.trs.answered.filter fun x => d.time < x.2.2.2.1 + 10000000
  trsCnt (emit { d with trs.answered := keep ++ [(ip, conn, id, d.time, e)] } e) 2

/-- A read begins again: the bytes that it had brought are not counted twice (R244). -/
def rewindUse (d : Dev) (u : Use) (n : Nat) : Dev :=
  match u with
  | .pull c _ => modSlot d c fun s => { s with landed := s.landed - n }
  | .relay c _ => modSlot d c fun s => { s with backLeft := s.backLeft + n }
  | .frag i => { d with via.frags := tupd d.via.frags i fun (f : FragIn) => { f with landed := f.landed - n } }
  | .fragBack t => { d with via.sent := tupd d.via.sent t fun (f : FragOut) => { f with landed := f.landed - n } }
  | _ => d

/-- What a resume sends again, in full and with RETRY: every WRITE and READ_REQ not seen finished, in the order of their MSNs, then
what had not been begun (R244). -/
def resumeQ (x : Conn) : List OutMsg :=
  let writes := x.outMsgs.map fun e => (e.1, { e.2 with msn := none, off := 0, retry := true, ctxSince := none, creditSince := none })
  let reads := x.reads.map fun r => (r.msn, ({ kind := .readReq, len := r.len, addr := r.srcAddr, key := r.srcKey, tag := r.id,
                                               src := r.addr, region := r.key, retry := true, use := r.use } : OutMsg))
  (sortBy (fun (a b : Nat × OutMsg) => decide (sub32 a.1 x.peerDone ≤ sub32 b.1 x.peerDone)) (writes ++ reads)).map (·.2)
    ++ x.sendQ.filter fun m => m.msn.isNone && m.kind != .readResp

/-- A RESUME_REPLY as sent. -/
def resumeReply (net : Net) (p : Pkt) (dst : Word) (base port : Nat) (body : List Byte) : Emit :=
  trsEmit net.dstIp net.srcIp (base + pkPath p) port (sealPkt { verOp := verOp 8, path := p.path, dstConn := dst, tag := p.tag, body })

/-- The connection that a RESUME's NEW_DEV_CONN names. -/
def resumeDst (p : Pkt) : Word := BitVec.ofNat 32 (beAt p.body 8 4)

/-- A RESUME that matches no connection is answered UNKNOWN (R244), from a source port of the device's own (R202). -/
def resumeUnknown (d : Dev) (net : Net) (p : Pkt) : Dev :=
  match answeredNow d net.srcIp (resumeDst p) p.tag with
  | some e => trsCnt (emit d e) 2
  | none =>
    let (base, d) := drawPortBase d
    answerWith d net.srcIp (resumeDst p) p.tag (resumeReply net p (resumeDst p) base net.srcPort (1 :: zeros 31))

/-- A RESUME from a pier that has adopted the connection's other end: this end plays the host's part (R244, R460). -/
def takeResume (d : Dev) (net : Net) (c : Nat) (x : Conn) (p : Pkt) : Dev :=
  let dst := resumeDst p
  match x.resumed with
  | some (id, e) => if id == p.tag then trsCnt (emit d e) 2 else takeNew dst
  | none => takeNew dst
where
  takeNew (dst : Word) : Dev :=
    if x.r.inner.isNone || x.r.nonce.toNat != beAt p.body 0 8 then
      trsCnt (emit d (resumeReply net p dst x.portBase net.srcPort (1 :: zeros 31))) 2
    else
      let (psn, d) := drawBits d 32
      let (base, d) := drawBits d 64
      let edge := (base + x.window) % 2 ^ 64
      let d := x.reads.foldl (fun d r => rewindUse d r.use r.count) d
      let body := [0, BitVec.ofNat 8 x.slots, 0, 0] ++ be 4 psn ++ be 8 base ++ be 8 edge ++ be 8 (beAt p.body 36 8)
      let e := resumeReply net p dst x.portBase x.r.hostPort body
      let d := modConn d c fun x => { x with
        r := { x.r with srcConn := dst, hostPortBase := beAt p.body 12 2, hostReadSlots := byteAt p.body 14, hostIp := net.srcIp,
                        pathMask := BitVec.ofNat 64 (beAt p.body 36 8) },
        cum := beAt p.body 16 4, got := [], held := [], completed := 0, msgs := [], failMask := 0, ackPend := 0,
        sent := beAt p.body 20 8, peerEdge := beAt p.body 28 8, psn, msn := 0, peerCum := psn, peerDone := 0,
        rcvd := base, edge, advertised := edge, unacked := [], outMsgs := [], reads := [], deadAt := none,
        paths := pathTab (beAt p.body 36 8), sendQ := resumeQ x, resumed := some (p.tag, e) }
      let d := match connOf d c with | some x => mirror d (.st (.conn c (some x.r))) | none => d
      pump (trsCnt (emit d e) 2) c

/-! ### CONNECT (R208 to R212, R249, R447, R451) -/

/-- Is a CONNECT refused for its credential: a missing or disabled PD or a wrong token; on the inner address the viaduct's token
and a listed pier's number? -/
def connDenied (d : Dev) (p : Pkt) (inner : Bool) : Bool :=
  let cred := beAt p.body 0 8
  let pd := beAt p.body 12 2 % 4096
  if inner then !(viaPlan d).any fun v => v.token.toNat == cred && pd < 64 && bitAt v.pierMask.toNat pd && pd != d.pln.plan.pier
  else
    let e := tgetD d.trs.pds pd {}
    !e.enabled || e.token.toNat != cred

/-- The cases of BAD_PARAM (R206, R209). -/
def connBad (p : Pkt) : Bool :=
  p.body.length != 48 || byteAt p.body 18 == 0 || beAt p.body 40 8 == 0 || beAt p.body 16 2 % 64 != 0
    || p.flags.toNat % 8 != 0 || fld p.path.toNat 6 10 != 0 || 4096 ≤ beAt p.body 12 2 || 2 ≤ byteAt p.body 19
    || 2 ^ 63 ≤ sub64 (beAt p.body 32 8) (beAt p.body 24 8)

/-- Connections that count against MAX_CONN (R248). -/
def pdConns (d : Dev) (pd : Nat) : Nat := (d.trs.conns.filter fun e => e.2.r.pd == pd && connLive e.2 && e.2.r.inner.isNone).length

/-- CONNECT_REPLY as sent (R208). -/
def connReply (net : Net) (p : Pkt) (portBase : Nat) (body : List Byte) : Emit :=
  trsEmit net.dstIp net.srcIp (portBase + pkPath p) (beAt p.body 14 2)
    (sealPkt { verOp := verOp 0xB, path := p.path, dstConn := BitVec.ofNat 32 (beAt p.body 8 4), tag := p.tag, body })

/-- Accept a CONNECT: index, generation, record; ACCEPTED goes out when the partner has the record (R210). -/
def connAccept (d : Dev) (net : Net) (p : Pkt) (c : Nat) (inner : Bool) : Dev :=
  let (psn, d) := drawBits d 32
  let (base, d) := drawBits d 64
  let (nonce, d) := drawBits d 64
  let (port, d) := drawPortBase d
  let pd := beAt p.body 12 2 % 4096
  let payload := if d.pln.plan.payload8k && bitAt (byteAt p.body 19) 0 then 8192 else 4096
  let mask := beAt p.body 40 8
  let edge := (base + creditWindow d) % 2 ^ 64
  let r : ConnRec := { hostIp := net.srcIp, localIp := net.dstIp, hostPort := beAt p.body 14 2, hostPortBase := beAt p.body 16 2,
                       srcConn := BitVec.ofNat 32 (beAt p.body 8 4), pd, pathMask := BitVec.ofNat 64 mask, payload,
                       hostReadSlots := byteAt p.body 18, nonce := BitVec.ofNat 64 nonce, inner := if inner then some pd else none }
  let x : Conn := { r, cum := beAt p.body 20 4, rcvd := base, edge, advertised := edge, window := creditWindow d, slots := readSlots d,
                    psn, peerCum := psn, sent := beAt p.body 24 8, peerEdge := beAt p.body 32 8, paths := pathTab mask,
                    portBase := port, id := p.tag.toNat }
  let d := trsCnt (takeConn d c x) 17
  match connOf d c with
  | none => d
  | some x =>
    let body := [0, BitVec.ofNat 8 (b2n (payload == 8192)), BitVec.ofNat 8 x.slots, 0] ++ be 4 (devConn d c x) ++ be 2 port ++ zeros 2
      ++ be 4 psn ++ be 8 base ++ be 8 edge ++ be 8 mask ++ be 8 nonce ++ zeros 8
    let e := connReply net p port body
    let d := mirrorThen d (.st (.conn c (some x.r))) (.reply e c) fun d =>
      answerWith d net.srcIp r.srcConn p.tag e
    if inner then pierReached d pd c else d

/-- A received CONNECT (R209 to R211); an adopted address takes none (R243). -/
def rxConnect (d : Dev) (net : Net) (p : Pkt) : Dev :=
  let src := BitVec.ofNat 32 (beAt p.body 8 4)
  let inner := ownInner d net.dstIp
  if d.par.adopted.contains net.dstIp then trsCnt d 19
  else if !(d.glb.st == .service || d.glb.st == .maint) || (isEndpoint d net.dstIp && !d.via.gate) then d
  else match answeredNow d net.srcIp src p.tag with
  | some e => trsCnt (emit d e) 2
  | none =>
    if d.trs.conns.any fun e => e.2.r.hostIp == net.srcIp && e.2.r.srcConn == src && e.2.est then d
    else
      let refuse := fun (code : Byte) =>
        let (port, d) := drawPortBase d
        trsCnt (answerWith d net.srcIp src p.tag (connReply net p port (code :: zeros 55))) 18
      if connDenied d p inner then refuse 1
      else if connBad p then refuse 3
      else
        let pd := beAt p.body 12 2 % 4096
        match freeConn d with
        | none => refuse 2
        | some c => if !inner && (tgetD d.trs.pds pd {}).maxConn ≤ pdConns d pd then refuse 2 else connAccept d net p c inner

/-! ### The order of checks (R217) -/

/-- Steps 4 to 12. -/
def rxAct (d : Dev) (net : Net) (c : Nat) (x : Conn) (p : Pkt) : Dev :=
  let psn := p.psn.toNat
  match pkOp p with
  | 4 =>
    let d := match x.r.inner with | some n => { d with via.ackAt := tset d.via.ackAt n d.time } | none => d
    takeAck d c p
  | 5 => takeNack d c x p
  | 6 => pump (takeEdge d c (beAt p.body 0 8)) c
  | 7 => takeResume d net c x p
  | 8 => takeResumeReply d c x p
  | 0xB => takeConnectReply d c x p
  | 9 => sendAck d c (pkPath p) p.tag.toNat
  | 1 | 2 | 3 | 0xC =>
    if below32 psn x.cum || x.got.contains psn || x.held.any (·.psn == p.psn) then sendAck (trsCnt d 7) c (pkPath p) 0
    else if 4096 ≤ sub32 psn x.cum then sendNack d c p 4 x.cum
    else
      let d := if pkOp p == 1 || pkOp p == 3 then pdCnt d x.r.pd 12 p.body.length else d
      match pkOp p with
      | 1 => rxWrite d c x p
      | 2 => rxReadReq d c x p
      | 3 => rxReadResp d c x p
      | _ => markRx (modConn d c fun x => { x with closePsn := some psn }) c p false
  | _ => d

/-- A protocol violation ends a connection: CLOSE with PROTOCOL, or the end of an attempt to connect (R212, R217). -/
def violate (d : Dev) (c : Nat) (x : Conn) (p : Pkt) (code detail : Nat) : Dev :=
  let d := trsCnt (sendNack d c p code detail) 9
  if x.st == .connecting then dropAttempt d c else closeConn d c 4

/-- May a connection take a packet: any where it is live, a CONNECT_REPLY where it awaits one? -/
def connTakes (x : Conn) (p : Pkt) : Bool := connLive x || (x.st == .connecting && pkOp p == 0xB)

/-- Steps 3 to 12, the context being resident. -/
def rxStep3 (d : Dev) (net : Net) (c : Nat) (p : Pkt) : Dev :=
  match connOf d c with
  | none => d
  | some x =>
    if !connTakes x p then d
    else
      let op := pkOp p
      if pkVer p != 1 || op == 0 || 0xD ≤ op then violate d c x p 2 p.verOp.toNat
      else match badField p x.r.payload with
        | some off => violate d c x p 1 off
        | none => rxAct d net c x p

/-- Park a packet in the porch (R271). -/
def park (d : Dev) (c : Nat) (net : Net) (p : Pkt) : Dev :=
  let mine := (d.trs.porch.filter (·.1 == c)).length
  if 1024 ≤ d.trs.porch.length || liveN d 0x300088 ≤ mine then ctxCnt d 5
  else
    let d := { d with trs.porch := d.trs.porch ++ [(c, net, p)] }
    ctxCnt { d with trs.porchPeak := max d.trs.porchPeak d.trs.porch.length } 4

/-- Step 2 of a packet for a connection: an adopted address takes only its own connections (R243), a context that is not resident
sends the packet to the porch, behind those parked (R271, R272). -/
def rxConn (d : Dev) (c : Nat) (x : Conn) (net : Net) (p : Pkt) : Dev :=
  let early := x.st == .resuming && pkOp p != 8 && !(pkOp p == 5 && byteAt p.body 9 == 2)
  if early || (d.par.adopted.contains net.dstIp && !(x.adopted && x.r.localIp == net.dstIp)) then trsCnt d 19
  else if d.trs.porch.any (·.1 == c) then park d c net p
  else
    let (ok, d) := wantCtx d c
    if ok then rxStep3 d net c p else park d c net p

/-- The connection that a packet names: by its DST_CONN, a NACK BAD_CONN, whose DST_CONN is 0, by the DST_CONN in its DETAIL
(R217 step 2, R229). -/
def namedBy (d : Dev) (net : Net) (p : Pkt) : Option (Nat × Conn) :=
  if pkOp p == 5 && p.dstConn == 0 && byteAt p.body 8 == 3 then
    d.trs.conns.find? fun e => connLive e.2 && e.2.r.hostIp == net.srcIp && e.2.r.localIp == net.dstIp
      && e.2.r.srcConn.toNat == beAt p.body 12 4
  else
    let c := connIdx p.dstConn % 16384
    (connOf d c).bind fun x => if connTakes x p && devConn d c x == p.dstConn.toNat then some (c, x) else none

/-- A Trestle packet arrives (table "Receive checks"). -/
def rxPacket (d : Dev) (net : Net) (p : Pkt) : Dev :=
  let d := trsCnt d 0
  if p.crc != pktCrc p then trsCnt d 8
  else
    let op := pkOp p
    let d := if op == 1 || op == 3 then trsCntN d 1 p.body.length else d
    if op == 0xA && pkVer p == 1 then rxConnect d net p
    else match namedBy d net p with
      | some (c, x) => rxConn d c x net p
      | none =>
        if d.par.adopted.contains net.dstIp then trsCnt d 19
        else if op == 7 && pkVer p == 1 && (viaPlan d).isSome then resumeUnknown d net p
        else nackBadConn d net p

/-- The arrival of a packet: the engine runs from SERVICE on, and in TRAIN and RECOVERY discards (R112). -/
def arrive (s : State) (net : Net) (p : Pkt) : Host.Outcome State Fault Refusal :=
  actIf (fun d => serving d && domOn d (pdTRS 0)) s fun d => rxPacket d net p

def execTrestleWrite (net : Net) (pk : Pkt) (s : State) : Host.Outcome State Fault Refusal := arrive s net pk
def execTrestleReadReq (net : Net) (pk : Pkt) (s : State) : Host.Outcome State Fault Refusal := arrive s net pk
def execTrestleReadResp (net : Net) (pk : Pkt) (s : State) : Host.Outcome State Fault Refusal := arrive s net pk
def execTrestleAck (net : Net) (pk : Pkt) (s : State) : Host.Outcome State Fault Refusal := arrive s net pk
def execTrestleNack (net : Net) (pk : Pkt) (s : State) : Host.Outcome State Fault Refusal := arrive s net pk
def execTrestleCredit (net : Net) (pk : Pkt) (s : State) : Host.Outcome State Fault Refusal := arrive s net pk
def execTrestleProbe (net : Net) (pk : Pkt) (s : State) : Host.Outcome State Fault Refusal := arrive s net pk
def execTrestleConnect (net : Net) (pk : Pkt) (s : State) : Host.Outcome State Fault Refusal := arrive s net pk
def execTrestleClose (net : Net) (pk : Pkt) (s : State) : Host.Outcome State Fault Refusal := arrive s net pk
def execTrestleResumeReply (net : Net) (pk : Pkt) (s : State) : Host.Outcome State Fault Refusal := arrive s net pk
def execTrestleConnectReply (net : Net) (pk : Pkt) (s : State) : Host.Outcome State Fault Refusal := arrive s net pk
def execTrestleResume (net : Net) (pk : Pkt) (s : State) : Host.Outcome State Fault Refusal := arrive s net pk

/-- R222: a held fenced packet whose turn has come passes steps 9 and 10 again, and is placed. -/
def execFenceRelease (c : Nat) (psn : Word) (s : State) : Host.Outcome State Fault Refusal :=
  actIf serving s fun d => match connOf d c with
    | none => d
    | some x => match x.held.find? (·.psn == psn) with
      | some p => if p.psn.toNat == x.cum then writeGo (modConn d c fun x => { x with held := x.held.erase p }) c p else d
      | none => d

/-! ### Context fetches and writebacks (R266 to R272) -/

/-- What waited for a context runs: parked packets in order, timers, transmission. -/
def ctxReady (d : Dev) (c : Nat) : Dev :=
  let mine := d.trs.porch.filter (·.1 == c)
  let timers := d.trs.timers.filter (·.1 == c)
  let d := { d with trs.porch := d.trs.porch.filter (·.1 != c), trs.timers := d.trs.timers.filter (·.1 != c) }
  let d := mine.foldl (fun d e => rxStep3 d e.2.1 c e.2.2) d
  pump (timers.foldl (fun d t => timerGo d c t.2) d) c

/-- R270: an uncorrectable error in a context. -/
def ctxError (d : Dev) (c : Nat) : Dev := enterTimeWait (ctxCnt d 3) c

/-- R268: a context fetch is answered; it waits on where no slot is free. For a context reclaimed from the writeback buffer it says
that a slot may be free now. -/
def execContextFetchComplete (c : Nat) (eccOk late : Bool) (s : State) : Host.Outcome State Fault Refusal :=
  actIf planned s fun d =>
    if d.trs.reclaim.contains c then
      let (ok, d) := makeRoom { d with trs.reclaim := d.trs.reclaim.erase c }
      if ok then ctxReady (makeResident d c) c else { d with trs.reclaim := d.trs.reclaim ++ [c] }
    else if !d.trs.fetching.contains c then d
    else
      let d := if late then ctxCnt d 14 else d
      if !eccOk then ctxError { d with trs.fetching := d.trs.fetching.erase c } c
      else
        let (ok, d) := makeRoom d
        if ok then ctxReady (makeResident { d with trs.fetching := d.trs.fetching.erase c } c) c else d

/-- R267: a writeback from the buffer is done. -/
def execContextWritebackDone (c : Nat) (eccOk : Bool) (s : State) : Host.Outcome State Fault Refusal :=
  actIf planned s fun d =>
    if !d.trs.writeback.contains c then d
    else
      let d := { d with trs.writeback := d.trs.writeback.erase c }
      if eccOk then d else ctxError d c

/-! ### The tables as HBM holds them, little-endian (R11, R248, R252, R261) -/

/-- A PD entry's 256 bytes (table "PD entry"). -/
def pdEntryBytes (d : Dev) (pd : Nat) : List Byte :=
  let e := tgetD d.trs.pds pd {}
  fit 256 (le 8 e.token.toNat ++ le 2 (pd + 32768 * b2n e.enabled) ++ le 2 e.maxConn ++ le 2 (pdConns d pd) ++ le 2 0
    ++ le 4 e.regionLimit ++ le 4 (d.trs.regions.filter fun r => r.2.pd == pd).length ++ le 8 e.tokenTime)

/-- A VALID region entry's 32 bytes (table "Region entry"). -/
def regionBytes (r : Region) : List Byte :=
  le 8 r.vaBase ++ le 8 r.length ++ le 8 (r.offset + r.partition * 2 ^ 48) ++ le 2 r.pd ++ le 2 r.gen
    ++ le 1 (b2n r.remoteRead + 2 * b2n r.remoteWrite + 128) ++ le 1 (b2n r.ring) ++ le 2 r.sq

/-- A fetch work request's 128 bytes: FREE where the queue does not exist (table "Fetch work request"). -/
def wrBytes (d : Dev) (q : Nat) : List Byte :=
  match sqOf d q with
  | none => zeros 128
  | some r =>
    let w := wrOf d q
    let gen := ((tget d.trs.regions r.region).map (·.gen)).getD 0
    fit 128 (le 1 1 ++ le 1 (b2n w.armed + 2 * b2n w.running + 4 * b2n w.refetch) ++ le 2 r.pd ++ le 4 (r.region * 4096 + gen)
      ++ le 8 r.ringOff ++ le 2 r.depth ++ le 2 r.head ++ le 4 w.triggers ++ le 8 w.lastTrigger)

/-! ### Protection domain registers (R250, R251, R273) -/

/-- TRS_PD_CTRL as stored: ENABLED, MAX_CONN, NEW_TOKEN, REVOKE; its reset value is 1. -/
def pdCtrl (d : Dev) : Nat := (tgetD d.reg.live 0x30006C 1#32).toNat

def putLive (d : Dev) (o v : Nat) : Dev := { d with reg.live := tset d.reg.live o (BitVec.ofNat 32 v) }

/-- R273: a write of TRS_PD_SEL loads the entry's values. -/
def pdSelGo (d : Dev) (v : Word) : Dev :=
  let pd := v.toNat % 4096
  let e := tgetD d.trs.pds pd {}
  let d := putLive (putLive d 0x300060 pd) 0x30006C (e.maxConn + 65536 * b2n e.enabled)
  let d := putLive (putLive d 0x300070 e.regionLimit) 0x300074 (pdConns d pd)
  putLive d 0x300078 (d.trs.regions.filter fun e => e.2.pd == pd).length

/-- R273: TRS_PD_SEL_WRITE. -/
def execTrsPdSelWrite (m : Master) (v : Word) (s : State) : Host.Outcome State Fault Refusal :=
  actIf running s fun d => writeAccess d m 0x300060 fun d => pdSelGo d v

/-- What a changed PD entry does: its connections close; a PD newly enabled counts from zero (R251, R523). -/
def pdCloses (d : Dev) (pd : Nat) (was : PdEntry) (now : PdEntry) (revoke : Bool) : Dev :=
  let d := if !was.enabled && now.enabled then zeroCnts d (0xC80000 + 128 * pd) 16 else d
  let reason := if was.enabled && !now.enabled then some 1 else if revoke then some 2 else none
  match reason with
  | some r => (d.trs.conns.filter fun e => e.2.r.pd == pd && e.2.r.inner.isNone).foldl (fun d e => closeConn d e.1 r) d
  | none => d

/-- R250: a write of TRS_PD_CTRL; with APPLY it copies the buffers into the selected entry. -/
def pdCtrlGo (d : Dev) (v : Word) : Dev :=
  let v := v.toNat
  let maxConn := v % 65536
  let ok := 1 ≤ maxConn && maxConn ≤ 16384
  if !bitAt v 31 then (if ok then putLive d 0x30006C (v &&& 0x7FFFF) else setSticky d 0x300000 15)
  else if d.trs.pdBusy.isSome then d
  else if !ok then putLive { d with trs.pdReject := true } 0x30006C (pdCtrl d &&& 0x1FFFF)
  else
    let pd := liveN d 0x300060 % 4096
    let was := tgetD d.trs.pds pd {}
    let newTok := bitAt v 17
    let tok := liveN d 0x300064 + 2 ^ 32 * liveN d 0x300068
    let e : PdEntry := { token := if newTok then BitVec.ofNat 64 tok else was.token, enabled := bitAt v 16, maxConn,
                         regionLimit := liveN d 0x300070, tokenTime := if newTok then d.time else was.tokenTime }
    let d := putLive { d with trs.pds := tset d.trs.pds pd e, trs.pdReject := false } 0x30006C (v &&& 0x1FFFF)
    let rv := newTok && bitAt v 18
    let d := pdCloses d pd was e rv
    if paired d then mirrorQueue { d with trs.pdBusy := some d.time } (.st (.pd pd e rv)) .pd else mirror d (.st (.pd pd e rv))

/-- R250: PD_APPLY. -/
def execPdApply (m : Master) (v : Word) (s : State) : Host.Outcome State Fault Refusal :=
  actIf running s fun d => writeAccess d m 0x30006C fun d => pdCtrlGo d v

/-- R250: BUSY ends when the partner has applied the entry, or within 20 µs of the partner's loss. -/
def execPdApplyComplete (s : State) : Host.Outcome State Fault Refusal :=
  actIf planned s fun d =>
    if paired d && !d.par.lost && d.par.items.any (fun i => i.act == .pd) then d else { d with trs.pdBusy := none }

end Sys2Proof.Machine
end

