-- ==== Sys2Proof/Machine/VolAdm.lean ====
section
/-! DEFINITION. Volume administration: creation, deletion, description, access, reshape, the control of members and the forming of a
layout group (R317, R334 to R342, R399 to R406, R545, R547). -/

namespace Sys2Proof.Machine

/-! ### Statuses and rights (R288, R338, R406) -/

def stNOCAP : Nat := 0x120
def stNONUM : Nat := 0x121
def stBUSY : Nat := 0x123
def stUNBAL : Nat := 0x124
def stGROUP : Nat := 0x125
def stMEMBER : Nat := 0x130
def stMEMUSE : Nat := 0x131
def stCRITICAL : Nat := 0x132
def stNORESHAPE : Nat := 0x133
def stSHELF : Nat := 0x142

/-- Go on where the command holds a right on the volume it names; else it is denied (R296). -/
def needVol (d : Dev) (c : Nat) (x : Slot) (right : Nat) (f : Volume → Dev → Dev) : Dev :=
  match anyVol d x.vol with
  | some vol => if holds (anyVolRights d x.master x.vol) right then f vol d
      else answer (deny d x.master 2 x.vol right) c stACCESS x.vol right
  | none => answer (deny d x.master 2 x.vol right) c stACCESS x.vol right

/-- Go on where the command may bind a key page to a volume (R146); else it is denied. -/
def needKey (d : Dev) (c : Nat) (x : Slot) (page : Nat) (f : Dev → Dev) : Dev :=
  if holds (keyRights d x.master page) rADMIN then f d
  else answer (deny d x.master 3 page rADMIN) c stACCESS page rADMIN

/-- Go on where this device owns the volume (R339, R340, R399). -/
def needOwner (d : Dev) (c : Nat) (vol : Volume) (f : Dev → Dev) : Dev :=
  if ownsVol d vol then f d else answer d c stNOTOWNER (otherOwner d vol) 0

/-- First field of a parameter block that is bad, the fields sorted by their offset. -/
def blockBad (l : List (Nat × Bool)) : Option Nat := firstBad (sortBy (fun (a b : Nat × Bool) => decide (a.1 ≤ b.1)) l)

/-- Bytes of a block that must be 0, each under its own offset. -/
def zeroFields (b : List Byte) (off n : Nat) : List (Nat × Bool) := (List.range n).map fun i => (off + i, byteAt b (off + i) != 0)

/-- The 32 access entries at bytes 64 to 319 of a block (R144). -/
def blockEntries (b : List Byte) : List AccessEntry :=
  (List.range 32).map fun i => { w0 := BitVec.ofNat 32 (leAt b (64 + 8 * i) 4), w1 := BitVec.ofNat 32 (leAt b (68 + 8 * i) 4) }

/-- Reserved bits of the 32 access entries, by the byte that holds them: w0 [31:28], w1 bit 6, w1 [31:8] (R144). -/
def entryFields (b : List Byte) : List (Nat × Bool) :=
  (List.range 32).flatMap fun i =>
    [(64 + 8 * i + 3, byteAt b (64 + 8 * i + 3) &&& 0xF0 != 0), (64 + 8 * i + 4, bitAt (byteAt b (64 + 8 * i + 4)) 6),
     (64 + 8 * i + 5, !zeroAt b (64 + 8 * i + 5) 3)]

/-! ### What ends with the partner's acknowledgement (R339, R342, R418) -/

/-- The key of a KEY_LOAD block (R475). -/
def blockKey (b : List Byte) : KeyPage :=
  if byteAt b 0 == 1 then { aes256 := true, key := (b.drop 32).take 32 } else { aes256 := false, key := (b.drop 32).take 16 }

/-- A KEY_LOAD takes effect: the page is LOADED, event 0x1001, and the staging copy of the block is zeroed (R475). -/
def loadKey (d : Dev) (s : Slot) : Dev :=
  let page := leAt s.cap 4 2
  let d := { d with itg.pages := tset d.itg.pages page (blockKey s.data),
                    cmd.slots := d.cmd.slots.map fun e => if e.2 == s then (e.1, { e.2 with data := zeros s.data.length }) else e }
  itgEvent (itgCntN d 4 1) 0x1001 (some page) 0xFF 0xFFFF

/-- The last step of a command once its item is acknowledged: a created volume leaves CREATING, new access entries apply. -/
def opFinish (d : Dev) (s : Slot) : Dev :=
  match s.result with
  | some (st, v, _) =>
    if st != stSUCCESS then d
    else if s.op == 0x85 then modVol { d with sto.making := tdel d.sto.making v } v fun x => { x with creating := false }
    else if s.op == 0x8A then loadKey d s
    else if s.op == 0x87 && byteAt s.data 8 == 2 then modVol d s.vol fun x => { x with access := blockEntries s.data }
    else d
  | none => d

/-- The directory is sent to every pier that an inner connection reaches (R454). -/
def announce (d : Dev) : Dev := if (viaPlan d).isNone then d else (tkeys d.via.inner).foldl sendDirectory d

/-- Enter volumes in the directory under a pier, and tell the others (R454). -/
def listVols (d : Dev) (vols : List Nat) (pier : Nat) : Dev :=
  if (viaPlan d).isNone then d
  else announce { d with via.directory := vols.foldl (fun t v => tset t v pier) d.via.directory }

/-- Enter a volume in the directory of the viaduct (R454). -/
def listVol (d : Dev) (v : Nat) (own : Bool) : Dev :=
  if (viaPlan d).isNone then d
  else announce { d with via.directory := if own then tset d.via.directory v d.pln.plan.pier else tdel d.via.directory v }

/-- A volume whose number is reserved enters CREATING: its structures, its record on every member, and its mirrored record (R339). -/
def createVol (d : Dev) (c v : Nat) (vol : Volume) : Dev :=
  let d := zeroCnts { d with sto.vols := tset d.sto.vols v vol, sto.making := tdel d.sto.making v } (0xC40000 + 64 * v) 8
  let d := listVol (writeRecords (writeStructs d v) vol.lay.group) v true
  answerAfter d c (.st (.volume v (some { vol with creating := false }))) stSUCCESS v 0

/-- The partner has acknowledged the item that an answer waits for; where it is the reservation of a number, the volume is created
now, and its record is acknowledged in turn (R338, R339). -/
def ackAnswer (d : Dev) (c : Nat) : Dev :=
  match slotOf d c with
  | some s =>
    if !s.waitFor then d
    else match s.result with
      | some (st, v, _) =>
        match if s.op == 0x85 && st == stSUCCESS then tget d.sto.making v else none with
        | some vol =>
          let d := createVol d c v vol
          if paired d then d else answerGo (opFinish d s) c
        | none => answerGo (opFinish d s) c
      | none => answerGo (opFinish d s) c
  | none => d

/-- Mirror a volume and answer SUCCESS after it; at once without a partner. -/
def answerVol (d : Dev) (c v : Nat) (shown : Option Volume) (r0 : Nat) : Dev :=
  let d := answerAfter d c (.st (.volume v shown)) stSUCCESS r0 0
  if paired d then d
  else match slotOf d c with
    | some s => opFinish d s
    | none => d

/-! ### Slabs, numbers and seeds (R318, R326, R334, R338) -/

/-- Slabs of a group that its volumes hold, those about to be created among them. -/
def slabsHeld (d : Dev) (g : Nat) : List Nat :=
  (d.sto.vols ++ d.sto.making).flatMap fun e => (if e.2.lay.group == g then e.2.lay.slabs else [])
    ++ (match e.2.newLay with
      | some l => if l.group == g then l.slabs else []
      | none => [])

/-- Slabs of a group free for volumes. -/
def slabsFree (d : Dev) (g : Nat) : Nat := (groupOf d g).slabs - 2 - (slabsHeld d g).eraseDups.length

/-- The `n`-th free slab from slab 2 on. -/
def freeSlabAt (held : List Nat) : Nat → Nat → Nat → Nat
  | 0, s, _ => s
  | fuel + 1, s, n => if held.contains s then freeSlabAt held fuel (s + 1) n
      else match n with
        | 0 => s
        | n + 1 => freeSlabAt held fuel (s + 1) n

/-- Take slabs of a group: which of the free ones the spec leaves open. -/
def takeSlabs (d : Dev) (g : Nat) : Nat → List Nat → List Nat × Dev
  | 0, acc => (acc.reverse, d)
  | n + 1, acc =>
    let held := slabsHeld d g ++ acc
    let free := (groupOf d g).slabs - 2 - held.eraseDups.length
    let pick := freeSlabAt held (held.length + free) 2 (Config.freeNat d.free % max free 1)
    takeSlabs { d with free := d.free + 1 } g n (pick :: acc)

/-- Volumes that the pair holds (R318). -/
def volCount (d : Dev) : Nat := (tkeys d.sto.vols ++ tkeys d.sto.making ++ tkeys d.par.store.vols).eraseDups.length

/-- Is a volume number in use: here, at the partner, or anywhere in the viaduct (R318, R459)? -/
def numUsed (d : Dev) (v : Nat) : Bool := thas d.sto.vols v || thas d.sto.making v || thas d.par.store.vols v || thas d.via.directory v

/-- A block's SEED, or a random one for 0 (R337). -/
def seedOf (d : Dev) (b : List Byte) : Nat × Dev := if leAt b 32 8 == 0 then drawBits d 64 else (leAt b 32 8, d)

/-- The number of members that a group has, or will have (R317). -/
def planN (d : Dev) (g : Nat) : Nat := if (groupOf d g).formed then groupN d g else (planSlots d g).length

/-- The layout that bytes 2 to 7, 24 to 31 of a block name, in a group. -/
def blockLayout (b : List Byte) (g : Nat) : Layout :=
  { scheme := byteAt b 2, k := byteAt b 3, m := byteAt b 4, chunk := byteAt b 5, group := g, spareCols := byteAt b 7, blocks := leAt b 24 8 }

/-- The same with MAX_PER_SHELF of the PLACEMENT block of a viaduct volume: 0 means the losses survived of the scheme (R458). -/
def placedLayout (b : List Byte) (g : Nat) : Layout :=
  let l := blockLayout b g
  { l with shelfCap := if g < 64 then 0 else if byteAt b 321 == 0 then laySurvive l else byteAt b 321 }

/-- The limits of R322 on a block's layout, for a group of N members. -/
def layoutFields (b : List Byte) (n : Nat) : List (Nat × Bool) :=
  let parity := byteAt b 2 == 2
  let k := byteAt b 3
  let m := byteAt b 4
  let s := byteAt b 7
  [(2, 2 < byteAt b 2), (3, if parity then k < 2 || 28 < k else k != 0), (4, if parity then m < 1 || 4 < m else m != 0),
   (5, 4 < byteAt b 5), (7, 4 < s || (n != 0 && n < layW (blockLayout b 0) + s))]

/-! ### VOLUME_CREATE (R337 to R339, R458, R459) -/

/-- The group that a block names: local, or 64 + VGROUP for a viaduct volume. -/
def blockGroup (b : List Byte) : Nat := if byteAt b 6 == 0xFF then 64 + byteAt b 320 else byteAt b 6

/-- First field of a volume parameter block that breaks its range. -/
def createBad (d : Dev) (b : List Byte) : Option Nat :=
  let via := byteAt b 6 == 0xFF
  let n := planN d (blockGroup b)
  let v := leAt b 0 2
  let share := byteAt b 16
  let blocks := leAt b 24 8
  let w := layW (blockLayout b 0)
  let own : List (Nat × Bool) := [
    (0, 4095 < v && v != 0xFFFF), (6, 5 < byteAt b 6 && !via), (8, byteAt b 8 != 8 && byteAt b 8 != 16), (9, 4 < byteAt b 9),
    (10, d.pln.plan.keyPages ≤ leAt b 10 2), (12, 8 < byteAt b 12), (13, byteAt b 13 != 0), (14, leAt b 14 2 < 16 || 4096 < leAt b 14 2), (16, share != 0 && (share < 5 || 95 < share)),
    (17, 3 < byteAt b 17), (24, blocks == 0 || 2 ^ 48 ≤ blocks)]
  let place : List (Nat × Bool) := if via then (320, 63 < byteAt b 320) :: (321, w < byteAt b 321) :: zeroFields b 322 62 else []
  blockBad (own ++ layoutFields b n ++ zeroFields b 18 6 ++ zeroFields b 40 24 ++ entryFields b ++ place)

/-- The first slot that keeps a group from being formed and valid (R338). -/
def groupBadSlot (d : Dev) (g : Nat) : Nat :=
  let gr := groupOf d g
  let bad := if gr.formed then gr.slots.find? fun k => !headRead (driveOf d k) || (driveOf d k).id.hdr.epoch != gr.epoch
    else (planSlots d g).find? fun k => (driveOf d k).st != .spare
  (bad.map (· % 64)).getD 0xFF

/-- A shelf that holds more members of a viaduct group than a volume allows (R458). -/
def shelfOver (d : Dev) (g limit : Nat) : Option Nat :=
  match tget d.via.groups (g - 64) with
  | some x => (sortN ((x.members.map (·.2)).eraseDups)).find? fun sh => limit < (x.members.filter (·.2 == sh)).length
  | none => none

/-- The volume that a block describes. -/
def blockVolume (b : List Byte) (lay : Layout) (kcv : List Byte) (creating : Bool) : Volume :=
  { lay, tagSize := byteAt b 8, granule := byteAt b 9, keyPage := leAt b 10 2, kcv, awu := byteAt b 12, dirtyRegion := leAt b 14 2,
    share := byteAt b 16, readOnly := bitAt (byteAt b 17) 0, verifyReads := bitAt (byteAt b 17) 1,
    access := blockEntries b, creating }

/-- Is a volume in CREATING the one that a block names? A take-over finds it so, where the command is run again (R433). -/
def madeBy (b : List Byte) (g : Nat) (e : Nat × Volume) : Bool :=
  e.2.creating && (leAt b 0 2 == 0xFFFF || leAt b 0 2 == e.1) && { e.2.lay with seed := 0, slabs := [] } == placedLayout b g

/-- Steps 3 to 7 of R338; then the number is reserved with the partner, and the volume created (R339). -/
def createGo (d : Dev) (c : Nat) (b : List Byte) : Dev :=
  let g := blockGroup b
  let l := placedLayout b g
  let n := groupN d g
  let want := leAt b 0 2
  let need := slabsFor l n l.blocks
  if !groupValid d g then answer d c stGROUP (groupBadSlot d g) 0
  else match if g < 64 then none else shelfOver d g l.shelfCap with
  | some sh => answer d c stSHELF sh 0
  | none => match tget d.itg.pages (leAt b 10 2) with
    | none => answer d c 0x122 (leAt b 10 2) 0
    | some key =>
      let v := if want == 0xFFFF then ((List.range 4096).find? fun v => !numUsed d v).getD 0xFFFF else want
      match if (slotOf d c).any (·.replay) then d.sto.vols.find? (madeBy b g) else none with
      | some e => modVol (createVol d c e.1 e.2) e.1 fun x => { x with creating := false }
      | none => if 1024 ≤ volCount d || v == 0xFFFF then answer d c stNONUM 0xFFFF 0
      else if numUsed d v then answer d c stNONUM v 0
      else match if slabsFree d g < need then none
          else growStructs d (blockVolume b { l with slabs := List.replicate need 0 } [] false) g
            (layNeeds (blockVolume b l [] false) { l with slabs := List.replicate need 0 }) with
      | none => answer d c stNOCAP (slabsFree d g) 0
      | some placed =>
        let (seed, d) := seedOf d b
        match balancedSeed l n seed with
        | none => answer d c stUNBAL ((seed + 63) % 2 ^ 32) 0
        | some kept =>
          let (slabs, d) := takeSlabs d g need []
          let lay := { l with seed := BitVec.ofNat 64 kept, slabs }
          let vol : Volume := { blockVolume b lay (kcvOf key) true with extents := placed.extents }
          if paired d then
            answerAfter { d with sto.making := tset d.sto.making v vol } c (.st (.volume v (some vol))) stSUCCESS v 0
          else modVol (createVol d c v vol) v fun x => { x with creating := false }

/-- R338: VOLUME_CREATE. -/
def execVolumeCreate (cmd : Nat) (blk : List Byte) (s : State) : Host.Outcome State Fault Refusal :=
  adminBlock s cmd 0x85 blk fun x d =>
    if x.dataLen < (if byteAt blk 6 == 0xFF then 384 else 320) then badAt d cmd 16
    else needPage d cmd x 80 rADMIN fun d => match createBad d blk with
      | some off => badBlock d cmd off
      | none => needKey d cmd x (leAt blk 10 2) fun d =>
        let g := blockGroup blk
        if g < 64 || thas d.via.groups (g - 64) then needOwner d cmd { lay := { group := g } } fun d => createGo d cmd blk
        else answer d cmd stGROUP 0xFF 0

/-! ### VOLUME_DELETE (R340) -/

/-- R340: VOLUME_DELETE. -/
def execVolumeDelete (cmd : Nat) (s : State) : Host.Outcome State Fault Refusal :=
  adminRun s cmd 0x86 fun x d => needVol d cmd x rADMIN fun vol d => needOwner d cmd vol fun d =>
    let st := volState d x.vol
    if st == 4 || st == 5 || st == 6 || st == 8 then answer d cmd stBUSY st 0
    else
      let d := writeRecords (modVol d x.vol fun v => { v with deleting := true }) vol.lay.group
      let d := mirror d (.st (.volume x.vol (volOf d x.vol)))
      let d := d.cmd.slots.foldl (fun (d : Dev) (e : Nat × Slot) =>
        if e.2.phase == .held && isVolIo e.2.op && e.2.vol == x.vol then answer d e.1 stABORTED 0 0 else d) d
      advanceAll (finishDeletes (modSlot d cmd fun y => { y with waitFor := true }))

/-! ### Description and access (R341, R342) -/

/-- The device as it describes a volume that its partner's items hold (R417). -/
def viewVol (d : Dev) (v : Nat) (vol : Volume) : Dev := { d with sto.vols := tset d.sto.vols v vol }

/-- Member entry of a position (R341). -/
def memberEntry (d : Dev) (g pos : Nat) : List Byte :=
  let k := memberAt d g pos
  let x := driveOf d k
  le 1 (k % 64) ++ le 1 (memberCode x.st) ++ le 1 pos ++ le 1 (if g < 64 then 0xFF else if k < 64 then 2 * ownShelf d else 2 * (k / 64 - 1))
    ++ zeros 4 ++ le 8 x.id.eui64.toNat

/-- Descriptor and member entries, to byte 640 (R341). -/
def volDescription (d : Dev) (v : Nat) (vol : Volume) : List Byte :=
  let d := viewVol d v vol
  fit 640 (descriptor d v vol ++ (List.range (groupN d vol.lay.group)).flatMap (memberEntry d vol.lay.group))

/-- R341: IDENTIFY with CNS 1. -/
def execIdentifyVolume (cmd : Nat) (s : State) : Host.Outcome State Fault Refusal :=
  actIf serving s fun d =>
    if !(slotOf d cmd).any (fun x => byteAt x.cap 8 == 1) then d
    else match adminStart d cmd 0x80 with
      | none => d
      | some (x, d) => forCmd d cmd fun d =>
        if x.dataLen != 4096 then badAt d cmd 16
        else needVol d cmd x rREAD fun vol d =>
          succeed (sendHost d cmd (xferAddr x) (fit 4096 (volDescription d x.vol vol))) cmd 0 0

/-- R341: VOLUME_QUERY. -/
def execVolumeQuery (cmd : Nat) (s : State) : Host.Outcome State Fault Refusal :=
  adminRun s cmd 0x88 fun x d => needVol d cmd x rREAD fun vol d =>
    let bs := (volDescription d x.vol vol ++ vol.lay.slabs.flatMap (le 4)).take x.dataLen
    succeed (sendHost d cmd (xferAddr x) bs) cmd bs.length 0

/-- What VOLUME_RESHAPE of an OP does first: DATA_LEN, rights and ownership. An unknown OP is refused by any of the three. -/
def reshapeRun (cmd op len : Nat) (blk : List Byte) (s : State) (f : Slot → Volume → Dev → Dev) : Host.Outcome State Fault Refusal :=
  actIf serving s fun d =>
    if !(slotOf d cmd).any (blockOk · blk) || (byteAt blk 8 != op && byteAt blk 8 < 3) then d
    else match adminStart d cmd 0x87 with
      | none => d
      | some (x, d) => forCmd d cmd fun d =>
        if 2 < byteAt blk 8 then badBlock d cmd 8
        else if x.dataLen != len then badAt d cmd 16
        else needVol d cmd x rADMIN fun vol d => needOwner d cmd vol fun d => f x vol d

/-- R342: SET_ACCESS. The entries apply once the record and the partner hold them. -/
def execSetAccess (cmd : Nat) (blk : List Byte) (s : State) : Host.Outcome State Fault Refusal :=
  reshapeRun cmd 2 320 blk s fun x vol d =>
    match blockBad ((0, leAt blk 0 2 != x.vol) :: zeroFields blk 2 6 ++ zeroFields blk 9 55 ++ entryFields blk) with
    | some off => badBlock d cmd off
    | none =>
      if vol.deleting then answer d cmd stBUSY 8 0
      else if !(blockEntries blk).any (fun e => bitAt e.w1.toNat 7 && holds (fld e.w1.toNat 0 8) rADMIN) then badBlock d cmd 64
      else
        let d := writeRecords (modVol d x.vol fun y => { y with access := blockEntries blk }) vol.lay.group
        answerVol (modVol d x.vol fun y => { y with access := vol.access }) cmd x.vol (some { vol with access := blockEntries blk }) 0

/-! ### VOLUME_RESHAPE (R399 to R404) -/

/-- First bad field of a reshape block that START reads (R322, R399). -/
def reshapeBad (d : Dev) (x : Slot) (vol : Volume) (b : List Byte) : Option Nat :=
  let blocks := leAt b 24 8
  let via := 64 ≤ vol.lay.group
  let g := byteAt b 6
  blockBad ([(0, leAt b 0 2 != x.vol), (6, if via then g != 0xFF else 5 < g), (24, blocks < vol.lay.blocks || 2 ^ 48 ≤ blocks)]
    ++ layoutFields b (planN d (if via then vol.lay.group else g)) ++ zeroFields b 9 15 ++ zeroFields b 40 24)

/-- Do a block's layout fields equal the current ones (R400)? -/
def sameLayout (l : Layout) (n : Layout) : Bool :=
  n.scheme == l.scheme && n.k == l.k && n.m == l.m && n.chunk == l.chunk && n.group == l.group && n.spareCols == l.spareCols

/-- The metadata units of a reshape: with the layout kept, structures for more blocks; otherwise the new slab map beside the old, and
the structures at their new sizes in the group of the new layout (R400, R547). -/
def placeReshape (d : Dev) (vol : Volume) (nl : Layout) (same : Bool) : Option Volume :=
  let g := nl.group
  if same then growStructs d vol g (layNeeds vol nl)
  else if g == vol.lay.group then
    growStructs d vol g [(2, layBytes nl vol.dirtyRegion 2), (3, layBytes nl vol.dirtyRegion 3), (5, layBytes nl vol.dirtyRegion 1)]
  else (growStructs d vol vol.lay.group [(5, layBytes nl vol.dirtyRegion 1)]).bind fun v =>
    growStructs d v g (layNeeds vol nl ++ [(4, 16 * vol.lost.length)])

/-- R400: START. -/
def execVolumeReshapeStart (cmd : Nat) (blk : List Byte) (s : State) : Host.Outcome State Fault Refusal :=
  reshapeRun cmd 0 64 blk s fun x vol d =>
    let st := volState d x.vol
    if st != 1 then answer d cmd stBUSY st 0
    else match reshapeBad d x vol blk with
    | some off => badBlock d cmd off
    | none =>
      let g := if vol.lay.group < 64 then byteAt blk 6 else vol.lay.group
      let nl := { blockLayout blk g with shelfCap := vol.lay.shelfCap }
      let n := groupN d g
      needOwner d cmd { lay := { group := g } } fun d =>
      if !groupValid d g then answer d cmd stGROUP (groupBadSlot d g) 0
      else
        let all := slabsFor nl n nl.blocks
        let same := sameLayout vol.lay nl
        let need := if same then all - vol.lay.slabs.length else all
        match if slabsFree d g < all then none else placeReshape d vol { nl with slabs := List.replicate all 0 } same with
        | none => answer d cmd stNOCAP (slabsFree d g) 0
        | some placed =>
        let (seed, d) := seedOf d blk
        match balancedSeed nl n seed with
        | none => answer d cmd stUNBAL ((seed + 63) % 2 ^ 32) 0
        | some kept => if same then
          let (slabs, d) := takeSlabs d g need []
          let d := modVol d x.vol fun v => { v with
            extents := placed.extents,
            lay := { v.lay with blocks := nl.blocks, slabs := v.lay.slabs ++ slabs } }
          let d := writeRecords (writeStructs d x.vol) g
          answerVol d cmd x.vol (volOf d x.vol) 0
        else
          let (slabs, d) := takeSlabs d g need []
          let d := modVol d x.vol fun v =>
            { v with
              newLay := some { nl with seed := BitVec.ofNat 64 kept, slabs }, cursor := 0, abandoning := false,
              extents := placed.extents }
          let d := structPut d x.vol vol.lay.group 5 (slabs.flatMap (le 4))
          let d := if g == vol.lay.group then d else structPut d x.vol g 1 (slabs.flatMap (le 4))
          let d := writeRecords d vol.lay.group
          let d := if g == vol.lay.group then d else writeRecords d g
          answerVol d cmd x.vol (volOf d x.vol) 0

/-- R404: ABANDON. -/
def execVolumeReshapeAbandon (cmd : Nat) (blk : List Byte) (s : State) : Host.Outcome State Fault Refusal :=
  reshapeRun cmd 1 64 blk s fun x vol d =>
    match blockBad ((0, leAt blk 0 2 != x.vol) :: zeroFields blk 9 15 ++ zeroFields blk 40 24) with
    | some off => badBlock d cmd off
    | none =>
    if volState d x.vol != 4 then answer d cmd stNORESHAPE 0 0
    else
      let d := writeRecords (modVol d x.vol fun v => { v with abandoning := true }) vol.lay.group
      answerVol d cmd x.vol (volOf d x.vol) 0

/-! ### MEMBER_CONTROL (R406) -/

/-- Which side runs an action on a slot: the owner of its group; either for a slot in no group and a dedicated spare. -/
def ownsSlot (d : Dev) (k : Nat) : Bool :=
  match planGroup d k with
  | some g => ownsGroup d g
  | none => true

/-- A MEMBER_CONTROL of one ACTION; an unknown ACTION is refused by any of the eight. -/
def memberRun (cmd action : Nat) (blk : List Byte) (s : State) (own : List (Nat × Bool)) (f : Slot → Dev → Dev) :
    Host.Outcome State Fault Refusal :=
  actIf serving s fun d =>
    let a := byteAt blk 0
    if !(slotOf d cmd).any (blockOk · blk) || (a != action && 1 ≤ a && a ≤ 8) then d
    else match adminStart d cmd 0x91 with
      | none => d
      | some (x, d) => forCmd d cmd fun d =>
        if !x.msub && x.dataLen != 64 then badAt d cmd 16
        else needPage d cmd x 80 rADMIN fun d =>
          match blockBad ((0, a < 1 || 8 < a) :: own ++ zeroFields blk 5 59) with
          | some off => badBlock d cmd off
          | none => f x d

/-- An action on a slot: its owner runs it, in one of the member states that allow it. -/
def slotRun (cmd action : Nat) (blk : List Byte) (s : State) (ok : Dev → Drive → Bool) (f : Nat → Dev → Dev) :
    Host.Outcome State Fault Refusal :=
  memberRun cmd action blk s [(1, 23 < byteAt blk 1)] fun _ d =>
    let k := byteAt blk 1
    if !ownsSlot d k then answer d cmd stNOTOWNER (otherOwner d { lay := { group := (planGroup d k).getD 0 } }) 0
    else if action == 3 && (driveOf d k).st ∈ [MemberSt.ok, .suspect, .rebuilding] then
      let r := drawBits d 32
      let r1 := drawBits r.2 32
      answer r1.2 cmd stMEMUSE r.1 r1.1
    else if ok d (driveOf d k) then succeed (f k d) cmd 0 0
    else answer d cmd stMEMBER (memberCode (driveOf d k).st) 0

/-- R406: FAIL. -/
def execMemberFail (cmd : Nat) (blk : List Byte) (s : State) : Host.Outcome State Fault Refusal :=
  slotRun cmd 1 blk s (fun _ x => x.st == .ok || x.st == .suspect) fun k d => memberChange d fun d => failMember d k 7

/-- R406: RETIRE. -/
def execMemberRetire (cmd : Nat) (blk : List Byte) (s : State) : Host.Outcome State Fault Refusal :=
  slotRun cmd 2 blk s (fun _ x => x.st == .failed) fun k d => setMember d k .retired

/-- R406: SLOT_OFF. -/
def execSlotOff (cmd : Nat) (blk : List Byte) (s : State) : Host.Outcome State Fault Refusal :=
  slotRun cmd 3 blk s (fun _ _ => true) fun k d =>
    domServe (domQueueOff (modDrive d k fun x => { x with off := true }) (pdD k) false)

/-- R406: SLOT_ON. -/
def execSlotOn (cmd : Nat) (blk : List Byte) (s : State) : Host.Outcome State Fault Refusal :=
  slotRun cmd 4 blk s (fun _ x => x.off) fun k d =>
    domServe (domRequestOn (modDrive d k fun x => { x with off := false, bring := .down }) (pdD k) false)

/-- Does a drive carry a member header of a group that neither device knows (R316)? -/
def strangeHeader (d : Dev) (x : Drive) : Bool :=
  x.st == .present && x.id.hdr.kind == 1 && !d.sto.groups.any fun e => e.2.formed && e.2.id == x.id.hdr.groupId

/-- R406: ADOPT. -/
def execAdoptMember (cmd : Nat) (blk : List Byte) (s : State) : Host.Outcome State Fault Refusal :=
  slotRun cmd 5 blk s strangeHeader fun k d => becomeSpare d k

/-- An action on the volume that a block names. -/
def volRun (cmd action : Nat) (blk : List Byte) (s : State) (own : List (Nat × Bool)) (f : Nat → Volume → Dev → Dev) :
    Host.Outcome State Fault Refusal :=
  memberRun cmd action blk s own fun _ d =>
    let v := leAt blk 2 2
    match anyVol d v with
    | none => badBlock d cmd 2
    | some vol => needOwner d cmd vol fun d => f v vol d

/-- Change a volume, record it where durable, mirror it and answer. -/
def volSet (d : Dev) (c v : Nat) (record : Bool) (f : Volume → Volume) : Dev :=
  let d := modVol d v f
  let d := if record then writeRecords d (((volOf d v).map (·.lay.group)).getD 0) else d
  answerVol d c v (volOf d v) 0

/-- R406: SET_SHARE. -/
def execSetShare (cmd : Nat) (blk : List Byte) (s : State) : Host.Outcome State Fault Refusal :=
  let share := byteAt blk 4
  volRun cmd 6 blk s [(4, share != 0 && (share < 5 || 95 < share))] fun v _ d => volSet d cmd v true fun x => { x with share }

/-- R406: PAUSE. -/
def execPauseVolume (cmd : Nat) (blk : List Byte) (s : State) : Host.Outcome State Fault Refusal :=
  volRun cmd 7 blk s [] fun v _ d =>
    if volState d v == 3 then
      let r := drawBits d 32
      let r1 := drawBits r.2 32
      answer r1.2 cmd stCRITICAL r.1 r1.1
    else volSet d cmd v false fun x => { x with pause := true }

/-- R406: RESUME. -/
def execResumeVolume (cmd : Nat) (blk : List Byte) (s : State) : Host.Outcome State Fault Refusal :=
  volRun cmd 8 blk s [] fun v _ d => volSet d cmd v false fun x => { x with pause := false }

/-! ### Forming a layout group (R317, R545, R547) -/

/-- A random 64-bit identity, not 0. -/
def drawId (d : Dev) : Nat × Dev :=
  let (i, d) := drawBits d 64
  (if i == 0 then 1 else i, d)

/-- METADATA_SEED: the first balanced seed among a random start and the next 63; a new start where none is (R547). After 64 starts
without one the last start stands. -/
def metaSeedGo (d : Dev) (l : Layout) (n : Nat) : Nat → Nat × Dev
  | 0 => drawBits d 64
  | fuel + 1 =>
    let (seed, d) := drawBits d 64
    match balancedSeed l n seed with
    | some s => (s, d)
    | none => metaSeedGo d l n fuel

/-- Make a group of these drives: its record, its journal copies at positions 0 to J − 1, its members OK (R317, R358).
The first EPOCH is one above every header that its drives hold, so that the member headers are their current ones (R544; DESIGN CHOICE,
log entry 115). -/
def makeGroup (d : Dev) (g : Nat) (slots : List Nat) (key : Nat → Nat) : Dev :=
  let n := slots.length
  let j := d.pln.plan.journalCopies
  let (id, d) := drawId d
  let (seed, d) := metaSeedGo d { scheme := 3, k := min 5 n, m := 0, chunk := 4, group := g } n 64
  let slabs := slots.foldl (fun (m : Nat) k => min m (slabsOf (driveOf d k).id.capacity)) (slabsOf 256000000000000)
  let epoch := slots.foldl (fun (m : Nat) k => max m (driveOf d k).id.hdr.epoch) 0
  let gr : Group := { formed := true, id := BitVec.ofNat 64 id, epoch, slots, slabs, metaSeed := BitVec.ofNat 64 seed,
                      journal := { copies := (List.range (min j n)).map fun i => (i, i), live := List.range (min j n) } }
  let d := { d with sto.groups := tset d.sto.groups g gr }
  let d := slots.zipIdx.foldl (fun (d : Dev) (e : Nat × Nat) =>
    setMember (modDrive d e.1 fun x => { x with
      group := key g, pos := e.2, cause := 0, event := none, behind := [],
      id.hdr := { kind := 1, groupId := gr.id, position := e.2, journal := decide (e.2 < j), epoch, copy1 := x.id.hdr.copy1 } }) e.1 .ok) d
  writeRecords d g

/-- R317: every slot of a group holds a SPARE drive. -/
def execGroupForm (g : Nat) (s : State) : Host.Outcome State Fault Refusal :=
  actIf (fun d => planned d && d.glb.joinDone) s fun d =>
    let slots := planSlots d g
    if 5 < g || slots.isEmpty || (groupOf d g).formed || !ownsGroup d g || !slots.all (fun k => (driveOf d k).st == .spare) then d
    else slots.foldl reserveOn (makeGroup d g slots id)

end Sys2Proof.Machine
end

