-- ==== Sys2Proof/Machine/Logs.lean ====
section
/-! DEFINITION. GET_LOG and the views it shows: the event log, lost extents, self-tests, sanitize and format progress, member health and
the pair (R291, R298, R408, R427, R443, R444, R503). -/

namespace Sys2Proof.Machine

/-! ### The pair as it is seen (R411, R427, R443, R444) -/

/-- Layout groups of the floor plan, bit per group. -/
def planGroups (d : Dev) : Nat := maskOf ((List.range 6).filter fun g => !(planSlots d g).isEmpty)

/-- Groups that this device owns. -/
def ownGroups (d : Dev) : Nat := maskOf ((List.range 6).filter fun g => bitAt (planGroups d) g && ownsGroup d g)

/-- Does this device hold its own role, the partner's role (R411)? -/
def ownRole (d : Dev) : Bool := d.pln.plan.unpaired || (if d.glb.side then d.par.roleB else d.par.roleA) == d.glb.side
def partnerRole (d : Dev) : Bool := !d.pln.plan.unpaired && (if d.glb.side then d.par.roleA else d.par.roleB) == d.glb.side

/-- PAR_OWNERSHIP (R443). -/
def parOwnership (d : Dev) : Nat :=
  ownGroups d + 256 * (if d.pln.plan.unpaired then 0 else planGroups d - ownGroups d) + 65536 * b2n (ownRole d)
    + 131072 * b2n (partnerRole d)

/-- BIST_FAILS in the last 60 s (R426, R427). -/
def bistFails (d : Dev) : Nat := (recent d d.bst.fails 60000000000).length

/-- FIT (R427). -/
def fitNow (d : Dev) : Bool := !d.par.unfit && bistFails d == 0

/-- Slots that are OK in the groups this device owns. -/
def okSlots (d : Dev) (mask : Nat) : List Nat :=
  (List.range 24).filter fun k => (driveOf d k).st == .ok && (slotPos d k).any fun e => e.1 < 6 && bitAt mask e.1

/-- PARTNER_CAN_TAKE (R427), for the groups of a mask. -/
def partnerCanTake (d : Dev) (mask : Nat) : Bool :=
  match d.par.health with
  | some (h, t) => d.time < t + 3000000 && h.state == 7 && paired d && bitAt h.flags.toNat 0 && bitAt h.flags.toNat 2
      && (okSlots d mask).all fun k => bitAt h.slotsReached.toNat k
  | none => false

def partnerFit (d : Dev) : Bool := (d.par.health.map fun h => bitAt h.1.flags.toNat 0).getD false

def pairCode (p : PairSt) : Nat := match p with | .unpaired => 0 | .alone => 1 | .syncing => 2 | .paired => 3

/-- STABLE_S of PAR_POLICY, and the seconds of stable time left (R439, R443). -/
def stableS (d : Dev) : Nat := fld (liveN d 0x900000) 16 12
def stableLeft (d : Dev) : Nat :=
  match d.par.stableSince with
  | some t => (stableS d * 1000000000 - (d.time - t) + 999999999) / 1000000000
  | none => 0

/-- Payload bytes 0 to 63 of a HEALTH frame (R421, R426). -/
def healthBytes (d : Dev) (h : Health) : List Byte :=
  fit 64 ([1, 2, BitVec.ofNat 8 (b2n !d.glb.side), BitVec.ofNat 8 h.state] ++ be 4 h.seq.toNat ++ be 8 h.time ++ be 2 h.tjMax.toNat ++ [h.hot, h.flags]
    ++ be 4 h.powerMw.toNat ++ be 8 h.domains.toNat ++ be 4 h.portsUp.toNat ++ be 4 h.slotsReached.toNat ++ be 4 h.freeSlots.toNat
    ++ [h.retired, h.groups] ++ be 2 h.bistFails.toNat ++ be 4 h.fwVersion.toNat ++ be 4 h.mirrorFree.toNat)

/-- Pair state log (R444). -/
def pairLog (d : Dev) : List Byte :=
  fit 64 (le 1 (pairCode d.par.st) ++ le 1 (b2n d.glb.side) ++ le 1 d.par.partnerState ++ le 1 (b2n d.par.pathA.up + 2 * b2n d.par.pathB.up)
    ++ le 4 (parOwnership d) ++ le 4 d.par.epoch ++ le 4 (stableLeft d) ++ le 8 d.par.takeAt ++ le 4 d.par.takeMicros
    ++ le 1 d.par.cause ++ zeros 3 ++ le 4 d.par.takeovers)
  ++ (match d.par.health with
    | some (h, _) => healthBytes d h
    | none => zeros 64)

/-! ### The other logs -/

/-- Event log entry (R291). -/
def logBytes (e : LogEntry) : List Byte :=
  fit 64 (le 8 e.time ++ le 4 e.seq ++ le 2 e.event ++ le 1 e.attn ++ [0] ++ le 4 e.tag.toNat ++ le 2 e.status.toNat ++ [0, 0]
    ++ fit 40 e.detail)

/-- Entries of the event log visible to a PD beyond its cursor, oldest first (R291, R298). -/
def unread (d : Dev) (pd : Nat) : List LogEntry := d.log.entries.filter fun e => cursorOf d pd ≤ e.seq && entryVisible d pd e

/-- Lost-extent list (R408). -/
def lostBytes (vol : Volume) : List Byte :=
  (sortBy (fun (a b : LostExt) => decide (a.lba ≤ b.lba)) vol.lost).flatMap fun e =>
    le 6 e.lba ++ zeros 2 ++ le 4 e.count ++ le 1 e.cause ++ le 1 e.slot ++ zeros 2

/-- Self-test result entry (R503). -/
def testBytes (t : TestRes) : List Byte :=
  fit 64 (le 1 t.code ++ le 1 t.result ++ le 1 t.percent ++ [0] ++ le 4 t.items ++ le 8 t.start ++ le 8 t.finish ++ le 4 t.driveFails
    ++ le 4 t.first)

/-- Progress entry (R503). -/
def opBytes (o : AdmOp) : List Byte :=
  fit 64 (le 2 o.vol ++ le 1 o.op ++ le 1 o.action ++ le 1 o.state ++ le 1 o.pass ++ le 1 o.passes ++ le 1 o.percent ++ le 4 o.slabsDone
    ++ le 4 o.slabsTotal ++ le 4 o.unreached ++ le 4 o.failedSlots ++ le 8 o.start ++ le 8 o.finish)

/-- STO_MEMBER_n's group and position fields (R343). -/
def memberGroup (d : Dev) (k : Nat) : Nat × Nat :=
  match slotPos d k with
  | some (g, p) => if g < 6 then (g, p) else (7, 0)
  | none => (7, 0)

/-- Member health entry (R408). -/
def memberHealth (d : Dev) (k : Nat) : List Byte :=
  let x := driveOf d k
  let up := x.bring == .link || x.bring == .ready
  fit 64 (le 1 k ++ le 1 (memberCode x.st) ++ le 1 (memberGroup d k).1 ++ le 1 (memberGroup d k).2
    ++ le 1 (if up then x.id.linkRate + 16 * x.id.linkWidth else 0) ++ [x.id.critWarning, x.id.percentUsed] ++ le 1 x.cause
    ++ le 2 x.id.tempK.toNat ++ zeros 2 ++ le 4 (recent d x.retrains 60000000000).length ++ le 4 (recent d x.timeouts 60000000000).length
    ++ le 4 (recent d x.media 86400000000000).length ++ le 8 x.since ++ le 8 x.id.eui64.toNat)

/-! ### GET_LOG (R291) -/

/-- Return a byte log from an offset: bytes written, bytes unread. -/
def giveLog (d : Dev) (c : Nat) (x : Slot) (bs : List Byte) : Dev :=
  let off := leAt x.cap 12 4
  let part := (bs.drop off).take x.dataLen
  succeed (sendHost d c (xferAddr x) part) c part.length (bs.length - off - part.length)

/-- Log 0x01: without PEEK whole entries from the cursor, which moves past them; with PEEK bytes from LOG_OFFSET. -/
def giveEvents (d : Dev) (c : Nat) (x : Slot) : Dev :=
  let l := unread d x.pd
  if bitAt (byteAt x.cap 9) 0 then
    if leAt x.cap 12 4 % 64 != 0 then badAt d c 12 else giveLog d c x (l.flatMap logBytes)
  else
    let n := min (x.dataLen / 64) l.length
    let d := sendHost d c (xferAddr x) ((l.take n).flatMap logBytes)
    let atEnd := n == l.length
    let cur := if atEnd then d.log.seq else ((l.drop n).head?.map (·.seq)).getD d.log.seq
    let d := { d with log.cursor := tset d.log.cursor x.pd cur,
                      log.missed := if atEnd then tdel d.log.missed x.pd else d.log.missed }
    succeed d c (64 * n) (64 * (l.length - n))

/-- Progress entries that a master may see: the shelf's, then the volumes' own (R291, R503). -/
def opsSeen (d : Dev) (x : Slot) : List AdmOp :=
  (d.adm.ops ++ d.sto.vols.filterMap fun e => e.2.op.filter fun o => o.vol == e.1).filter fun o =>
    if o.vol == 0xFFFF then cmdPage d x 80 rADMIN else holds (anyVolRights d x.master o.vol) rADMIN

/-- R291: GET_LOG. -/
def execGetLog (cmd : Nat) (s : State) : Host.Outcome State Fault Refusal :=
  adminRun s cmd 0x89 fun x d =>
    let id := byteAt x.cap 8
    match firstBad [(6, id == 2 && !zeroAt x.cap 6 2), (8, id < 1 || 6 < id), (9, byteAt x.cap 9 &&& 0xFE != 0), (10, !zeroAt x.cap 10 2)] with
    | some off => badAt d cmd off
    | none =>
      if id == 1 then giveEvents d cmd x
      else if id == 2 then needVol d cmd x rREAD fun vol d => giveLog d cmd x (lostBytes vol)
      else if id == 3 then needPage d cmd x 176 rADMIN fun d =>
        let (p, d) := draw d
        let tests := d.adm.tests.map fun t => if t.result == 3 then { t with percent := Config.freeNat p % 101 } else t
        giveLog d cmd x (tests.flatMap testBytes)
      else if id == 4 then giveLog d cmd x ((opsSeen d x).flatMap opBytes)
      else if id == 5 then needPage d cmd x 80 rADMIN fun d => giveLog d cmd x ((List.range 24).flatMap (memberHealth d))
      else needPage d cmd x 144 rADMIN fun d => giveLog d cmd x (pairLog d)

end Sys2Proof.Machine
end

