-- ==== Sys2Proof/Machine/Recovery.lean ====
section
/-! DEFINITION. RECOVERY of a group: the scan of the journal, replay, resynchronisation, and the end (R122, R370 to R376, R398). -/

namespace Sys2Proof.Machine

/-- The current phase of a group's recovery: 1 scan, 2 replay, 3 resynchronisation, 4 done. -/
def recPhase (d : Dev) (g : Nat) : Nat := ((tget d.sto.recovery g).map (·.phase)).getD 1

/-- Groups that RECOVERY runs for: in RECOVERY those the device owns with valid records, else those being adopted (R370, R436). -/
def recoverable (d : Dev) (g : Nat) : Bool :=
  ownsGroup d g && groupValid d g && (d.glb.st == .recovery || thas d.sto.recovery g)

def recGroups (d : Dev) : List Nat := (tkeys d.sto.groups).filter (recoverable d)

/-! ### Scan (R371, R372, R398, R548) -/

/-- HEAD_JSEQ of the newest good CHECKPOINT (R371). -/
def scanHead (l : List JRec) : Nat :=
  (l.foldl (fun (m : Nat × Nat) r => match r.body with
    | .checkpoint h _ => if m.1 ≤ r.jseq then (r.jseq, h) else m
    | _ => m) (0, 0)).2

/-- The records that count, in ascending JSEQ: none below the head, none of a volume that is not here, no set that is not whole. -/
def countedRecs (d : Dev) (g : Nat) (copies : List (List JRec)) : List JRec :=
  let all := sortBy (fun (a b : JRec) => decide (a.jseq ≤ b.jseq)) copies.flatten
  let uniq := all.foldl (fun (l : List JRec) r => if l.getLast?.any (·.jseq == r.jseq) then l else l ++ [r]) []
  let head := scanHead uniq
  let ok := uniq.filter fun r => head ≤ r.jseq && (r.volume == 0xFFFF || (volOf d r.volume).any fun v =>
    v.lay.group == g || v.newLay.any fun (l : Layout) => l.group == g)
  let whole := fun (r : JRec) => (List.range (r.lastPart + 1)).all fun p =>
    ok.any fun x => x.jseq + r.part == r.jseq + p && x.part == p && x.lastPart == r.lastPart && isVestibule x
  ok.filter fun r => !isVestibule r || whole r

/-- Bands still taken as restored: those up to each volume's latest counted REBUILD_PROGRESS position (R398). -/
def keepRestored (recs : List JRec) (l : List (Nat × BandId)) : List (Nat × BandId) :=
  let lastPos := fun (v : Nat) => recs.foldl (fun (m : Option (Nat × Nat)) r => match r.body with
    | .progress _ 0 e b _ => if r.volume == v then some (e, b) else m
    | _ => m) none
  let upTo := fun (v : Nat) => (lastPos v).map fun (e, b) =>
    l.zipIdx.foldl (fun (m : Nat) x => if x.1.2.1 % 4096 == v && x.1.2.2 == (e, b) then x.2 + 1 else m) 0
  (l.zipIdx.filter fun x => (upTo (x.1.2.1 % 4096)).any fun n => x.2 < n).map (·.1)

/-- Members whose latest MEMBER_EVENT record that counts made them SUSPECT, with no later return to OK, stay SUSPECT with every dirty
region of the group to catch up (R384). -/
def scanSuspects (d : Dev) (g : Nat) (recs : List JRec) (dirty : List (Nat × Nat)) : Dev :=
  (groupOf d g).slots.foldl (fun (d : Dev) k =>
    let last := (recs.filterMap fun r => match r.body with
      | .memberEvent m n _ => if m == k then some (n, r.jseq) else none
      | _ => none).getLast?
    match last with
    | some (n, j) =>
      if n == 3 || n == 0 then
        let d := modDrive d k fun x => { x with behind := (x.behind ++ dirty).eraseDups, event := some j, catching := x.catching || x.st == .ok }
        if (driveOf d k).st == .ok then setMember d k .suspect else d
      else d
    | none => d) d

/-- R371, R372: the scan of a group. -/
def execRecoveryScan (group : Nat) (copies : List (List JRec)) (bitmaps : List (Nat × Nat)) (s : State) :
    Host.Outcome State Fault Refusal :=
  actIf planned s fun d =>
    if !recoverable d group || recPhase d group != 1 then d
    else
      let recs := countedRecs d group copies
      let found := copies.flatten
      let next := found.foldl (fun (m : Nat) r => max m (r.jseq + 1)) (groupOf d group).journal.next
      let dirty := (bitmaps.filter fun e => (volOf d e.1).any fun v => v.lay.group == group).eraseDups
      let d := modGroup d group fun x => { x with
        restored := keepRestored recs x.restored, journal.next := next, journal.head := max x.journal.head (scanHead found) }
      let d := dirty.foldl (fun (d : Dev) e => modVol d e.1 fun v => { v with dirty := tset v.dirty e.2 .dirty }) d
      let d := scanSuspects d group recs dirty
      { d with sto.recovery := tset d.sto.recovery group { phase := 2, recs, dirty },
               sto.dirtyFound := d.sto.dirtyFound + dirty.length }

/-! ### Replay (R373) -/

/-- Bytes that the model does not know: check columns computed from drives it has not read. -/
def freeBytes (d : Dev) (n : Nat) : List Byte × Dev := ((List.range n).map (Config.freeByte d.free), { d with free := d.free + 1 })

/-- Write rows of a column, where it is available. -/
def putRows (d : Dev) (g : Geo) (col first : Nat) (bs : List Byte) : Dev :=
  match g.drv.getD col none with
  | some k => driveSend d g.l.group k (.write (g.driveBlock col first) bs)
  | none => d

/-- Write shadow bytes of a column from a granule on, where it is available. -/
def putShadow (d : Dev) (g : Geo) (col gi : Nat) (bs : List Byte) : Dev :=
  match g.drv.getD col none with
  | some k =>
    if bs.isEmpty then d
    else driveSend d g.l.group k (.shadow (shadowAddr g.l g.slabs g.cell.slab (g.cell.rows.getD col 0) + g.ts * gi) bs)
  | none => d

/-- Volume blocks of a data column of a stripe. -/
def colBlocks (g : Geo) (vol : Volume) (col : Nat) : List Nat :=
  ((List.range g.cb).map (g.lba col)).filter (· < vol.lay.blocks)

/-- Blocks on the unavailable columns of a stripe: for a mirror, all of it where no copy is left. -/
def goneBlocks (g : Geo) (vol : Volume) : List Nat :=
  if g.kd == 1 && g.l.scheme != 2 then (if g.unavailable < g.w then [] else colBlocks g vol 0)
  else ((List.range g.kd).filter fun c => !g.avail c).flatMap (colBlocks g vol)

/-- Apply a DATA record. -/
def replayData (d : Dev) (v : Nat) (vol : Volume) (stripe lba n : Nat) (bytes tags : List Byte) : Dev :=
  let g := geoOf d v vol stripe
  let w : Work := { stripe, lba, count := n }
  let isMirror := g.l.scheme != 2
  let cols := if isMirror then [0] else (List.range g.kd).filter fun c => !(g.rows w c).isEmpty
  let bad := (List.range g.kd).filter fun c => !g.avail c
  let d := cols.foldl (fun (d : Dev) c =>
    let rows := g.rows w c
    let first := rows.headD 0
    let bs := (bytes.drop (4096 * (g.lba c first - lba))).take (4096 * rows.length)
    let gi := first / g.gb
    let ng := (rows.getLastD 0) / g.gb + 1 - gi
    let tg := (tags.drop (g.ts * (g.lba c first / g.gb - lba / g.gb))).take (g.ts * ng)
    (if isMirror then List.range g.w else [c]).foldl (fun (d : Dev) c => putShadow (putRows d g c first bs) g c gi tg) d) d
  if isMirror || !cols.any bad.contains then d
  else if bad.length == 1 then
    ((List.range g.w).drop g.kd).foldl (fun (d : Dev) c =>
      let rows := g.union w
      let (bs, d) := freeBytes d (4096 * rows.length)
      putRows d g c (rows.headD 0) bs) d
  else loseBlocks d v (goneBlocks g vol) 3

/-- Apply one record that counts. -/
def replayRec (d : Dev) (g : Nat) (r : JRec) : Dev :=
  match volOf d r.volume, r.body with
  | some vol, .data lba n stripe bytes tags => stoCnt (replayData d r.volume vol stripe lba n bytes tags) 14
  | some vol, .fullImage _ _ stripe images =>
    let geo := geoOf d r.volume vol stripe
    stoCnt (images.foldl (fun (d : Dev) (i : Image) =>
      putShadow (putRows d geo i.column i.firstBlock i.data) geo i.column (i.firstBlock / geo.gb) i.shadow) d) 14
  | some vol, .alloc es =>
    let d := modVol d r.volume fun v => { v with alloc := es.foldl (fun (l : List Nat) e => if e.2 then addNew l e.1 else l.erase e.1) vol.alloc }
    stoCnt (es.foldl (fun (d : Dev) e => writeAllocBlock d r.volume e.1) d) 14
  | _, .memberEvent k n regions =>
    let d := modDrive d k fun x =>
      if n == 2 then { x with behind := [], event := none, catching := false } else { x with behind := (x.behind ++ regions).eraseDups }
    stoCnt { d with sto.recovery := tupd d.sto.recovery g fun (x : Recovery) =>
      { x with uncertain := x.uncertain ++ regions.map fun e => (k, e.1, e.2) } } 14
  | some _, .lostExtent lba n cause slot =>
    stoCnt (putLost d r.volume { lba, count := n, cause, slot }) 14
  | some vol, .reshapeCursor lba dir =>
    stoCnt (if vol.newLay.isSome then modVol d r.volume fun v => { v with cursor := lba, abandoning := dir == 1 } else d) 14
  | some _, .lostClear lba n => stoCnt (writeLost (modVol d r.volume fun v => { v with lost := lostRemove v.lost lba n }) r.volume) 14
  | _, _ => d

/-- Stripes that a record's replay resolves. -/
def resolvedBy (r : JRec) : List (Nat × Nat) := match r.body with
  | .data _ _ s _ _ | .fullImage _ _ s _ => [(r.volume, s)]
  | _ => []

/-- R373: replay of a group. A group that a PAIRED survivor adopts needs no resynchronisation: its dirty regions are known (R434). -/
def execRecoveryReplay (group : Nat) (s : State) : Host.Outcome State Fault Refusal :=
  actIf planned s fun d => match tget d.sto.recovery group with
    | none => d
    | some x =>
      if !recoverable d group || x.phase != 2 then d
      else
        let d := x.recs.foldl (fun (d : Dev) r => replayRec d group r) d
        let next := if d.glb.st == .recovery || d.par.recoverAfter then 3 else 4
        { d with sto.recovery := tupd d.sto.recovery group fun (y : Recovery) =>
          { y with phase := next, resolved := (x.recs.flatMap resolvedBy).eraseDups } }

/-! ### Resynchronisation (R374) -/

/-- Is an unavailable column of a stripe uncertain: its region is in its member's uncertain set, or no MEMBER_EVENT of that member
counts? -/
def colUncertain (d : Dev) (x : Recovery) (v region : Nat) (g : Geo) (col : Nat) : Bool :=
  let k := memberAt d g.l.group (g.cell.pos.getD col 0)
  x.uncertain.contains (k, v, region) || !x.recs.any fun r => match r.body with
    | .memberEvent m _ _ => m == k
    | _ => false

/-- Rewrite what differs in a stripe whose columns are all available: check columns, or the copies but the lowest. Which differ the
drives say: a free choice. -/
def resyncWhole (d : Dev) (g : Geo) : Dev :=
  let d := (List.range g.w).foldl (fun (d : Dev) c => match g.drv.getD c none with
    | some k => driveSend d g.l.group k (.read (g.driveBlock c 0) g.cb)
    | none => d) d
  ((List.range g.w).drop g.kd).foldl (fun (d : Dev) c =>
    let (i, d) := draw d
    if Config.freeBool i then
      let (bs, d) := freeBytes d (4096 * g.cb)
      let (sh, d) := freeBytes d (g.ts * (g.cb / g.gb))
      putShadow (putRows d g c 0 bs) g c 0 sh
    else d) d

/-- Resynchronise one stripe; `agree` says whether surplus columns agree. -/
def resyncStripe (d : Dev) (x : Recovery) (agree : Bool) (v stripe region : Nat) : Dev :=
  match volOf d v with
  | none => d
  | some vol =>
    let g := geoOf d v vol stripe
    let bad := (List.range g.w).filter fun c => !g.avail c
    let d := stoCnt d 15
    if bad.isEmpty then resyncWhole d g
    else if !bad.any (colUncertain d x v region g) then d
    else if g.kd < g.w - bad.length && agree then d
    else
      let lost := goneBlocks g vol
      if lost.isEmpty then d else loseBlocks d v lost 3

/-- Stripes of a dirty region in each layout that serves it. -/
def regionStripes (vol : Volume) (r : Nat) : List Nat :=
  let all := (List.range vol.dirtyRegion).map (r * vol.dirtyRegion + ·)
  let inside := fun (l : Layout) st => decide (st * layD l < l.blocks)
  match vol.newLay with
  | none => all.filter (inside vol.lay)
  | some nl => (all.filter fun st => inside vol.lay st && vol.cursor < (st + 1) * layD vol.lay)
      ++ (all.filter fun st => inside nl st && st * layD nl < vol.cursor).map (2 ^ 47 + ·)

/-- R374: resynchronisation of a group. -/
def execRecoveryResync (group : Nat) (agree : Bool) (s : State) : Host.Outcome State Fault Refusal :=
  actIf planned s fun d => match tget d.sto.recovery group with
    | none => d
    | some x =>
      if !recoverable d group || x.phase != 3 then d
      else
        let d := x.dirty.foldl (fun (d : Dev) e => match volOf d e.1 with
          | some vol => ((regionStripes vol e.2).filter fun st => !x.resolved.contains (e.1, st)).foldl
              (fun (d : Dev) st => resyncStripe d x agree e.1 st e.2) d
          | none => d) d
        { d with sto.recovery := tupd d.sto.recovery group fun (y : Recovery) => { y with phase := 4 },
                 sto.resynced := d.sto.resynced + x.dirty.length }

/-! ### The end (R340, R375) -/

/-- End a group's recovery: its bits are cleared and persisted, a CHECKPOINT written whose head is the tail, event 0x0C05. -/
def endRecovery (d : Dev) (micros g : Nat) : Dev :=
  let regions := (((tget d.sto.recovery g).map (·.dirty)).getD []).filter fun e => !regionOwed d e.1 e.2
  let d := regions.foldl (fun (d : Dev) e => modVol d e.1 fun v => { v with dirty := tdel v.dirty e.2 }) d
  let d := ((regions.map fun e => (e.1, e.2 / 32768)).eraseDups).foldl (fun (d : Dev) e => bmSubmit d e.1 e.2) d
  let d := remirrorMissing d g
  let d := jLog d g 0xFFFF (.checkpoint (groupOf d g).journal.next ((groupOf d g).journal.tail / 64))
  stoEvent { d with sto.recovery := tdel d.sto.recovery g } 0x0C05 0xFFFF micros g .none

/-- Deletions that a reset or a take-over left unfinished end now (R340). -/
def finishDeletions (d : Dev) : Dev :=
  (tkeys d.sto.vols).foldl (fun (d : Dev) v =>
    if (volOf d v).any (fun x => x.deleting && ownsVol d x) && !d.cmd.slots.any (fun e => e.2.op == 0x86 && e.2.vol == v) then
      mirror (removeVol d v) (.st (.volume v none)) else d) d

end Sys2Proof.Machine
end

