-- ==== Sys2Proof/Machine/PairMirror.lean ====
section
/-! DEFINITION. The mirror of a pair: the snapshot, items received and stored, acknowledgements and what they release, and PAIRED
(R413 to R420, R440, R478, R482). -/

namespace Sys2Proof.Machine

def parCnt (d : Dev) (i : Nat) : Dev := count d (0x900100 + 8 * i)

/-- An event of R444: cause or path, slot or group, µs. -/
def parEvent (d : Dev) (ev attn a b micros : Nat) : Dev :=
  logEvent d ev attn .none ([BitVec.ofNat 8 a, BitVec.ofNat 8 b] ++ zeros 6 ++ le 8 micros)

/-- The partner's half of the submission rings (R416). -/
def partnerHalf (d : Dev) : Nat × Nat :=
  let rings := d.pln.plan.ringMiB * 1048576
  if d.glb.side then (0, rings / 2) else (rings / 2, rings / 2)

/-! ### The snapshot (R440) -/

/-- Completion entries sent or about to be sent that no HOSTACK covers: CQ, slot, entry. -/
def sentEntries (d : Dev) : List (Nat × Nat × List Byte) :=
  d.trs.conns.flatMap fun (e : Nat × Conn) =>
    (e.2.outMsgs.filterMap fun (m : Nat × OutMsg) => match m.2.use with
      | .entry q slot => some (q, slot, m.2.data)
      | _ => none)
    ++ e.2.sendQ.filterMap fun (m : OutMsg) => match m.use with
      | .entry q slot => some (q, slot, m.data)
      | _ => none

/-- Commands whose admission is live: admitted here for a host, with no entry generated. -/
def liveSlots (d : Dev) : List (Nat × Slot) :=
  d.cmd.slots.filter fun (e : Nat × Slot) => e.1 < 131072 && e.2.from_.isNone && !e.2.msub && e.2.phase != .generated

/-- The 64-byte pieces of the own ring half that hold anything. -/
def ringPieces (d : Dev) : List MirrorItem :=
  let (lo, n) := partnerHalf d
  (((d.trs.rings.filter fun c => c.1 < lo || lo + n ≤ c.1).map (·.1 / 64)).eraseDups).map fun i =>
    .ring (64 * i) (memReads d.trs.rings (64 * i) 64)

/-- State entries of a snapshot. -/
def snapshotState (d : Dev) : List StateItem :=
  [ d.trs.pds.map fun e => StateItem.pd e.1 e.2 false,
    (d.trs.conns.filter fun e => connLive e.2).map fun e => StateItem.conn e.1 (some e.2.r),
    (d.trs.regions.filter fun e => e.2.ring).map fun e => StateItem.region e.1 (some e.2),
    d.cmd.sqs.map fun e => StateItem.sq e.1 (some e.2),
    d.cmd.cqs.map fun e => StateItem.cq e.1 (some e.2),
    (d.sto.groups.filter fun e => ownsGroup d e.1).map fun e => StateItem.group e.1 (groupRec e.2),
    (d.sto.vols.filter fun e => ownsVol d e.2).map fun e => StateItem.volume e.1 (some e.2),
    (d.sto.drives.filter fun e => decides d e.1).map fun e => StateItem.member e.1 (memberCode e.2.st),
    ((d.acc.keys.map (·.1 / 4)).eraseDups).map fun p => StateItem.keyAccess p (keyEntries d p),
    (d.via.groups.filter fun e => ownsGroup d (64 + e.1)).map fun e => StateItem.vgroup e.1 (some e.2) ].flatten

/-- ADMIT, CMD, DIRTY, JOURNAL and COMPLETION items still live. -/
def snapshotLive (d : Dev) : List MirrorItem :=
  [ (liveSlots d).map fun e => MirrorItem.admission e.2.sq e.2.cid e.2.adm ((sqOf d e.2.sq).getD {}).head ((sqOf d e.2.sq).getD {}).phase,
    ((liveSlots d).filter fun e => e.2.phase == .held || e.2.staged || e.2.to_.isSome).map fun e => cmdItem e.2 e.2.held (e.2.phase != .held),
    (d.cmd.slots.filter fun e => e.2.from_.isSome && e.2.phase != .generated).map fun e => cmdItem e.2 e.2.held (e.2.phase != .held),
    (d.sto.vols.filter fun e => ownsVol d e.2).flatMap fun e => e.2.dirty.map fun x => MirrorItem.dirty e.1 x.1 x.2,
    (d.sto.groups.filter fun e => ownsGroup d e.1).flatMap fun e =>
      (e.2.journal.recs.filter fun r => e.2.journal.head ≤ r.r.jseq).map fun r => MirrorItem.journal e.1 r.off r.r,
    (sentEntries d ++ d.cmd.posting.map fun p => (p.cq, p.slot, p.entry)).map fun e =>
      MirrorItem.completion e.1 e.2.1 e.2.2 (BitVec.ofNat 32 (leAt e.2.2 0 4)) ].flatten

/-- Everything that a snapshot holds, key pages apart. -/
def snapshotItems (d : Dev) : List MirrorItem := (snapshotState d).map .st ++ ringPieces d ++ snapshotLive d

/-- The join has succeeded: register on the pair's drives, and send the snapshot (R414, R415, R440). -/
def startSync (d : Dev) : Dev :=
  let (lo, n) := partnerHalf d
  let d := { d with
    par := { d.par with
      st := .syncing, lost := false, snapAcked := false, resynced := false, items := [], store := {}, nextMseq := 0, rxMseq := 0,
      keyItems := d.itg.pages.map fun e => { page := e.1, key := some e.2 } },
    trs.rings := memZero d.trs.rings lo n }
  let d := emits d ((pairDrives d).map fun k => .drive k .register)
  let mine := (List.range 6).filter (ownsGroup d)
  let d := (mine.flatMap (memberSlots d)).foldl reserveOn d
  sendKeys ((snapshotItems d).foldl mirror d)

/-! ### Items received (R417, R419) -/

def memberOf (code : Nat) : MemberSt :=
  ([MemberSt.absent, .present, .ok, .suspect, .failed, .spare, .rebuilding, .retired].find? fun s => memberCode s == code).getD .absent

/-- A SQ that is new to the copy: its ring begins zeroed, as the owner zeroes it (R258, R416). -/
def newRing (d : Dev) (q : Nat) (r : SqRec) : Dev :=
  if thas d.par.store.sqs q then d else { d with trs.rings := memZero d.trs.rings r.ringOff (64 * r.depth) }

/-- Set or remove an entry. -/
def tput {α : Type} (t : Tab α) (k : Nat) (v : Option α) : Tab α := match v with
  | some x => tset t k x
  | none => tdel t k

/-- Store a STATE item; PD entries, key pages and key access entries are this device's own too. -/
def takeState (d : Dev) (i : StateItem) : Dev :=
  match i with
  | .pd n e revoke => pdCloses { d with trs.pds := tset d.trs.pds n e } n (tgetD d.trs.pds n {}) e revoke
  | .conn c r => { d with par.store.conns := tput d.par.store.conns c r }
  | .region c r => { d with par.store.regions := tput d.par.store.regions c r }
  | .sq q r =>
    let d := match r with | some x => newRing d q x | none => d
    { d with par.store.sqs := tput d.par.store.sqs q r }
  | .cq q r => { d with par.store.cqs := tput d.par.store.cqs q r }
  | .volume v r => { d with par.store.vols := tput d.par.store.vols v r, sto.vols := tdel d.sto.vols v }
  | .group g r => { d with par.store.groups := tput d.par.store.groups g (if r.slots.isEmpty then none else some r) }
  | .member k code =>
    let d := { d with par.store.members := tset d.par.store.members k code }
    if (slotGroup d k).any (ownsGroup d) then d else modDrive d k fun x => { x with st := memberOf code }
  | .vgroup g x => { d with via.groups := tput d.via.groups g x }
  | .key p k => { d with itg.pages := tput d.itg.pages p k }
  | .keyAccess p l => { d with acc.keys := l.zipIdx.foldl (fun t (x : AccessEntry × Nat) => tset t (4 * p + x.2) x.1) d.acc.keys }

/-- Distance of a CQ slot behind the tail. -/
def behindTail (q : CqRec) (slot : Nat) : Nat := (q.tail + q.depth - 1 - slot) % max q.depth 1

/-- Store one item. -/
def applyItem (d : Dev) (i : MirrorItem) : Dev :=
  let p := d.par.store
  match i with
  | .ring off bs => { d with trs.rings := memWrites d.trs.rings off bs }
  | .st x => takeState d x
  | .admission sq cid adm head phase =>
    { d with par.store := { p with admits := tset p.admits (sq * 65536 + cid) adm,
                                   sqs := tupd p.sqs sq fun (x : SqRec) => { x with head, phase } } }
  | .cmd sq cap adm held released fwd =>
    { d with par.store.cmds := tset p.cmds (sq * 65536 + leAt cap 2 2) { cap, adm, held, released, fwd } }
  | .dirty v r s => { d with par.store.dirty := (p.dirty.filter fun e => !(e.1 == v && e.2.1 == r)) ++ [(v, r, s)] }
  | .journal g off r =>
    let keep := match r.body with
      | .checkpoint h _ => p.journal.filter fun e => !(e.1 == g && e.2.2.jseq < h)
      | _ => p.journal
    { d with par.store.journal := keep ++ [(g, off, r)] }
  | .completion cq slot entry tag =>
    if 65536 ≤ cq then
      let k := cq * 65536 + tag.toNat % 65536
      let reads := (tget p.cmds k).any fun x => isReadOp (byteAt x.cap 0) || bitAt (byteAt x.cap 1) 3
      { d with par.store := { p with cmds := tdel p.cmds k,
                                     completions := if reads then p.completions else tset p.completions k (entry, BitVec.ofNat 32 slot) } }
    else
    { d with par.store := { p with
        completions := tset p.completions (cq * 65536 + slot) (entry, tag),
        admits := tdel p.admits tag.toNat, cmds := tdel p.cmds tag.toNat,
        cqs := tupd p.cqs cq fun (x : CqRec) =>
          if slot != x.tail then x else
          { x with tail := if slot + 1 == x.depth then 0 else slot + 1, phase := if slot + 1 == x.depth then !x.phase else x.phase } } }
  | .hostack cq slot =>
    let q := (tget p.cqs cq).getD {}
    { d with par.store.completions := p.completions.filter fun e =>
        !(e.1 / 65536 == cq && behindTail q slot ≤ behindTail q (e.1 % 65536)) }

/-- Apply items from an MSEQ on, in order: what was applied before is skipped, what lies behind a gap is not applied. -/
def takeItems (d : Dev) (m : Nat) : List MirrorItem → Dev
  | [] => d
  | i :: rest =>
    if m < d.par.rxMseq then takeItems d (m + 1) rest
    else if m == d.par.rxMseq then takeItems (applyItem { d with par.rxMseq := m + 1 } i) (m + 1) rest
    else d

/-! ### Acknowledgements (R418) -/

/-- What waited for an item's acknowledgement. -/
def ackAct (d : Dev) (a : OnAck) : Dev :=
  match a with
  | .nothing | .cmd _ => d
  | .reply e c => match connOf d c with
    | some x => answerWith d x.r.hostIp x.r.srcConn (BitVec.ofNat 32 x.id) e
    | none => d
  | .ring c psn =>
    ctxDo (modConn d c fun x => { x with ringWait := x.ringWait.filter fun e => e.1 != psn, ackPend := max x.ackPend 1 }) c .ack
  | .post c => { d with cmd.posting := d.cmd.posting.map fun p => if p.cmd == c then { p with ready := true } else p }
  | .answer c => ackAnswer d c
  | .pd => { d with trs.pdBusy := none }
  | .keyAccess i e => keyApply d i e

/-- The partner has registered on the slots that it reaches: drives that waited for that are judged (R414). -/
def partnerReached (d : Dev) (slots : Nat) : Dev :=
  ((List.range 24).filter fun k => bitAt slots k && (driveOf d k).late).foldl (fun (d : Dev) k =>
    memberChange (modDrive d k fun x => { x with late := false }) fun d => if (driveOf d k).st == .present then judgeDrive d k else d) d

/-- Every action that waits for the partner is released: the partner is gone (R420, R442, R478). -/
def releaseAcks (d : Dev) : Dev :=
  let acts := d.par.items.map (·.act) ++ d.par.keyItems.map (·.act)
  partnerReached (finishDeletes (postAll (advanceAll (gatedGo (acts.foldl ackAct { d with par.items := [], par.keyItems := [] }))))) (2 ^ 24 - 1)

/-- R418, R419: a cumulative MIRROR_ACK; 2^64 + page acknowledges the item of a key page, which carries no MSEQ,
and 2^65 + page says that the partner's KCV of it differs (R475 row 5, R478). -/
def execMirrorAckReceive (mseq : Nat) (s : State) : Host.Outcome State Fault Refusal :=
  actIf (fun d => planned d && inPair d) s fun d =>
    if mseq < 2 ^ 64 then
      let done := d.par.items.filter fun i => i.mseq ≤ mseq
      let d := { d with par.items := d.par.items.filter fun i => mseq < i.mseq }
      postAll (advanceAll ((done.map (·.act)).foldl ackAct d))
    else if 2 ^ 65 ≤ mseq then match d.par.keyItems.find? fun k => k.page == mseq - 2 ^ 65 with
      | some k =>
        let d := { d with par.keyItems := d.par.keyItems.erase k }
        match k.act with
        | .answer c => modSlot d c fun s => { s with waitFor := false, phase := .answered, result := some (0x151, 2, 0) }
        | _ => itgEvent (setSticky d 0x700000 10) 0x1003 (some k.page) 0xFF 0xFFFF
      | none => d
    else match d.par.keyItems.find? fun k => k.page == mseq - 2 ^ 64 with
      | some k => finishDeletes (advanceAll (ackAct { d with par.keyItems := d.par.keyItems.erase k } k.act))
      | none => d

/-- R419: items that PW has not had acknowledged within 100 µs go again on path B; key page items go again on PW only. Drive writes
that waited for items to leave are submitted (R418). -/
def execMirrorResend (s : State) : Host.Outcome State Fault Refusal :=
  actIf (fun d => planned d && inPair d) s fun d => gatedGo (sendKeys (resendB d))

/-! ### The return policy's clock (R439) -/

/-- The stable time runs while AUTO_RETURN is set, the partner's role is held, and the partner is PAIRED and FIT. -/
def stableRefresh (d : Dev) : Dev :=
  let runs := !bitAt (liveN d 0x900000) 0 && partnerRole d && paired d && !d.par.lost && partnerFit d
  { d with par.stableSince := if runs then some (d.par.stableSince.getD d.time) else none }

/-- R415, R440, R478: both snapshots are acknowledged. A key page whose KCV disagrees is EMPTY on the joiner, and the pair stays
SYNCING. -/
def execSnapshotAcked (kcvAgree : Bool) (s : State) : Host.Outcome State Fault Refusal :=
  actIf (fun d => planned d && (d.par.st == .syncing || (d.par.st == .paired && !d.par.resynced)) && !d.par.lost) s fun d =>
    if !kcvAgree then
      let (i, d) := draw d
      itgEvent (setSticky d 0x700000 10) 0x1003 (some (Config.freeNat i % 4096)) 0xFF 0xFFFF
    else if !d.par.items.isEmpty || !d.par.keyItems.isEmpty then d
    else stableRefresh { d with par := { d.par with st := .paired, snapAcked := true, resynced := true, lostAttn := false } }

end Sys2Proof.Machine
end

