-- ==== Sys2Proof/Machine/Takeover.lean ====
section
/-! DEFINITION. Take-over: loss of the partner, arbitration, addresses, fencing, the ownership record, the state that is installed,
replay, and the end of TAKEOVER and of RECOVERY (R113, R375, R413, R424, R425, R428 to R437, R546). -/

namespace Sys2Proof.Machine

/-! ### The ownership record (R413, R546) -/

/-- Write an ownership record with the next epoch to the arbiters: one block, into the copy that is not current. -/
def writeOwnership (d : Dev) (owner : BitVec 6) (roleA roleB : Bool) : Dev :=
  let e := d.par.epoch + 1
  let bs := ownershipBlock e owner.toNat roleA roleB
  emits { d with par.newRecord := some (owner, roleA, roleB) }
    (d.pln.plan.arbiters.map fun k => .drive k (.write (if e % 2 == 1 then 1 else 8193) bs))

/-! ### Addresses (R432) -/

/-- UP ports of the host VLANs, with their VIDs: every VLAN of the table but the heartbeat VLAN is taken for one. -/
def hostPorts (d : Dev) : List (Nat × Nat) :=
  ((List.range 256).filterMap fun v =>
    let w := swcReg d (0x1800 + 16 * v)
    if bitAt w 31 && fld w 0 12 != d.pln.plan.hbVlan then some (v, fld w 0 12) else none).flatMap fun e =>
      ((List.range 32).filter fun p => swPortExists d p && vlanMember d e.1 p && portUp d p).map fun p => (p, e.2)

/-- Announce addresses once on every UP port of each host VLAN: gratuitous ARP and unsolicited neighbour advertisements. -/
def announceAddrs (d : Dev) (l : List Nat) : Dev :=
  emits d (l.flatMap fun a => (hostPorts d).map fun e => .garp e.1 e.2 a)

/-- Shelf addresses of a side (R411). -/
def shelfAddrs (d : Dev) (sideB : Bool) : List Nat := if sideB then d.pln.plan.shelfB else d.pln.plan.shelfA

/-- The inner address of a side's pier (R445, R446). -/
def innerAddrs (d : Dev) (sideB : Bool) : List Nat :=
  match viaPlan d with
  | some v => ((v.piers[d.pln.plan.pier / 2 * 2 + b2n sideB]?).map (·.1)).toList
  | none => []

/-- What is adopted with a side's role: its shelf addresses and its pier's inner address (R432, R460). -/
def sideAddrs (d : Dev) (sideB : Bool) : List Nat := shelfAddrs d sideB ++ innerAddrs d sideB

/-- The shelf addresses among some (R432). -/
def shelfOnly (d : Dev) (l : List Nat) : List Nat := l.filter fun a => (shelfAddrs d false ++ shelfAddrs d true).contains a

/-- Adopt addresses: shelf addresses are announced, and two repeats follow. -/
def adoptAddrs (d : Dev) (l : List Nat) : Dev :=
  announceAddrs { d with par.adopted := (d.par.adopted ++ l).eraseDups, par.garps := 2 } (shelfOnly d l)

/-- R432: the announcements are repeated 1 ms and 10 ms later. -/
def execGarpRepeat (s : State) : Host.Outcome State Fault Refusal :=
  actIf (fun d => planned d && decide (0 < d.par.garps)) s fun d =>
    announceAddrs { d with par.garps := d.par.garps - 1 } (shelfOnly d d.par.adopted)

/-! ### Adopted connections and queues (R243, R433) -/

/-- Adopt one connection: a local index in RESUMING and a RESUME, or CLOSE with CAPACITY where no index is free (R243). -/
def adoptConn (d : Dev) (r : ConnRec) (byPlan : Bool) : Option Nat × Dev :=
  match freeConn d with
  | none => (none, sendPkt d { r } { verOp := verOp 0xC, body := 3 :: zeros 7 })
  | some c =>
    let (psn, d) := drawBits d 32
    let (base, d) := drawBits d 64
    let (id, d) := drawBits d 32
    let (portBase, d) := drawPortBase d
    let edge := (base + creditWindow d) % 2 ^ 64
    let x : Conn := { st := .resuming, r, adopted := true, planned := byPlan, rcvd := base, edge, advertised := edge,
                      window := creditWindow d, slots := readSlots d, psn, peerCum := psn, portBase, id,
                      paths := pathTab r.pathMask.toNat }
    let d := takeConn d c x
    let d := match r.inner with
      | some n => if thas d.via.inner n then d else { d with via.inner := tset d.via.inner n c }
      | none => d
    (some c, sendResume d c)

/-- Adopt connections; the new index of each. -/
def adoptConns (d : Dev) (l : List (Nat × ConnRec)) (byPlan : Bool) : Tab Nat × Dev :=
  l.foldl (fun (m : Tab Nat × Dev) e =>
    let (c, d) := adoptConn m.2 e.2 byPlan
    ((c.map (tset m.1 e.1)).getD m.1, d)) ([], d)

/-- Adopt a completion queue on its connection's new index; DETACHED where there is none. -/
def adoptCq (conns : Tab Nat) (d : Dev) (e : Nat × CqRec) : Dev :=
  match tget conns e.2.conn with
  | some c => { d with cmd.cqs := tset d.cmd.cqs e.1 { e.2 with conn := c, reading := false } }
  | none => { d with cmd.cqs := tset d.cmd.cqs e.1 { e.2 with conn := 0, reading := false, detached := true },
                     cmd.detachedAt := tset d.cmd.detachedAt e.1 d.time }

/-- What is adopted of the queues: connections, ring regions, CQs and SQs. -/
structure Adopted where
  conns : List (Nat × ConnRec) := []
  regions : List (Nat × Region) := []
  cqs : List (Nat × CqRec) := []
  sqs : List (Nat × SqRec) := []
  deriving DecidableEq, Repr

/-- Everything that the partner's items left. -/
def adoptAll (p : PartnerStore) : Adopted := { conns := p.conns, regions := p.regions, cqs := p.cqs, sqs := p.sqs }

/-- What belongs to the roles that a side gives away: connections on their addresses, and on the viaduct's endpoint addresses with its own
role; the queues on those connections; regions in their index range. -/
def adoptRoles (d : Dev) (p : PartnerStore) (roles : BitVec 2) (giverB : Bool) : Adopted :=
  let side := fun (b : Bool) => if b then roles.getLsbD 1 else roles.getLsbD 0
  let conns := p.conns.filter fun e => (side giverB && isEndpoint d e.2.localIp)
    || [false, true].any fun b => side b && (sideAddrs d b).contains e.2.localIp
  let cqs := p.cqs.filter fun e => roles != 0 && (conns.any (·.1 == e.2.conn) || !thas p.conns e.2.conn)
  { conns, cqs, regions := p.regions.filter fun e => side (decide (524288 ≤ e.1)), sqs := p.sqs.filter fun e => cqs.any (·.1 == e.2.cq) }

/-- Install adopted queues: their rings are read from HEAD, so that no capsule acknowledged and not fetched is lost; entries owed are posted again at their slots, in slot order (R433). -/
def installQueues (d : Dev) (a : Adopted) (byPlan : Bool) : Dev :=
  let (conns, d) := adoptConns d a.conns byPlan
  let d := { d with
    trs.regions := a.regions.foldl (fun t (e : Nat × Region) => tset t e.1 e.2) d.trs.regions,
    trs.regionGen := a.regions.foldl (fun t (e : Nat × Region) => tset t e.1 e.2.gen) d.trs.regionGen,
    cmd.sqs := a.sqs.foldl (fun t (e : Nat × SqRec) => tset t e.1 e.2) d.cmd.sqs,
    trs.wrs := a.sqs.foldl (fun t (e : Nat × SqRec) => tset t e.1 { running := true }) d.trs.wrs }
  let d := a.cqs.foldl (adoptCq conns) d
  let owed := d.par.store.completions.filter fun e => a.cqs.any (·.1 == e.1 / 65536)
  owed.foldl (fun (d : Dev) e =>
    parCnt { d with cmd.posting := d.cmd.posting ++ [{ cq := e.1 / 65536, cmd := 2 ^ 40, slot := e.1 % 65536, entry := e.2.1 }] } 12) d

/-! ### Adopted groups and volumes (R433, R434) -/

/-- Install a group's record; its journal goes on from the last JOURNAL item, and its recovery starts with the scan (R434). -/
def adoptGroup (d : Dev) (g : Nat) (r : GroupRec) : Dev :=
  let js := (d.par.store.journal.filter (·.1 == g)).map (·.2)
  let old := groupOf d g
  let next := js.foldl (fun (m : Nat) e => max m (e.2.jseq + 1)) old.journal.next
  let head := js.foldl (fun (m : Nat) e => match e.2.body with | .checkpoint h _ => max m h | _ => m) old.journal.head
  let tail := js.foldl (fun (_ : Nat) e => (e.1 + ((recBytes e.2).length + 4095) / 4096 * 4096) % ringBytes) old.journal.tail
  let gr : Group := { old with
    formed := true, id := r.id, epoch := r.epoch, slots := r.slots, slabs := r.slabs, metaSeed := r.metaSeed, failed := r.failed,
    journal := { next, head, tail, copies := r.copies, live := r.live, checkAt := d.time } }
  let d := { d with sto.groups := tset d.sto.groups g gr, sto.recovery := tset d.sto.recovery g { phase := 1 } }
  r.slots.zipIdx.foldl (fun (d : Dev) (e : Nat × Nat) => modDrive d e.1 fun x =>
    { x with group := g, pos := e.2, id.hdr.epoch := if x.st == .ok then r.epoch else x.id.hdr.epoch }) d

/-- Install a volume; every region that a DIRTY item shows as anything but CLEAN is submitted set (R434). -/
def adoptVol (d : Dev) (v : Nat) (vol : Volume) : Dev :=
  let items := d.par.store.dirty.filter fun e => e.1 == v
  let shelf := vol.op.filter fun o => o.vol == 0xFFFF && o.state == 0 && d.adm.ops.all (·.state != 0)
  let was := (vol.dirty.filter fun e => !items.any fun x => x.2.1 == e.1) ++ items.map (·.2)
  let regions := sortN ((was.filter fun e => e.2 != .clean).map (·.1))
  let d := { d with sto.vols := tset d.sto.vols v { vol with dirty := regions.map fun r => (r, .dirty) },
                    adm.ops := shelf.toList ++ d.adm.ops.filter fun _ => shelf.isNone }
  let d := match shelf with
    | some o => (bitList o.missed 24).foldl (fun (d : Dev) k => modDrive d k fun x => { x with sanitize := true }) d
    | none => d
  ((regions.map (· / 32768)).eraseDups).foldl (fun (d : Dev) b => bmSubmit d v b) d

/-- Install the groups that `moved` names, and their volumes; this pier is the home of its viaduct groups, and every pier is told (R454,
R460). -/
def installGroups (d : Dev) (moved : Nat → Bool) : Dev :=
  let p := d.par.store
  let home := fun (e : Nat × VGroup) =>
    if moved (64 + e.1) && thas p.groups (64 + e.1) then (e.1, { e.2 with home := d.pln.plan.pier }) else e
  let d := { d with via.groups := d.via.groups.map home }
  let d := (p.groups.filter fun e => moved e.1).foldl (fun (d : Dev) e => adoptGroup d e.1 e.2) d
  let mine := p.vols.filter fun e => moved e.2.lay.group
  let d := mine.foldl (fun (d : Dev) e => adoptVol d e.1 e.2) d
  let d := if mine.isEmpty then d else listVols d (mine.map (·.1)) d.pln.plan.pier
  -- drives that this device now decides: those not yet judged, and those that its fence was late on (R316, R430)
  d.par.fenceLate.foldl (fun (d : Dev) k => if (driveOf d k).fencing then suspect d k else d) (judgeAll d)

/-! ### Replay of commands (R433) -/

/-- The capsule of a command: that of its CMD item, or the latest with its COMMAND_ID in the copied ring. -/
def replayCap (d : Dev) (p : PartnerStore) (sq cid : Nat) : Option (List Byte) :=
  match tget p.cmds (sq * 65536 + cid) with
  | some x => some x.cap
  | none => (tget p.sqs sq).bind fun r =>
    ((List.range r.depth).map fun i => memReads d.trs.rings (r.ringOff + 64 * ((r.head + r.depth - 1 - i) % r.depth)) 64).find? fun cap =>
      leAt cap 2 2 == cid

/-- An admin command whose change the mirrored state already shows: its results (R433). -/
def adminDone (d : Dev) (s : Slot) : Option (Nat × Nat) :=
  let q := leAt s.cap 4 2
  let sqKind := byteAt s.cap 6 == 0
  if s.op == 0x83 then
    if sqKind then (d.cmd.sqs.find? fun e => e.2.region == leAt s.cap 12 4 / 4096 && e.2.pd == leAt s.cap 44 2 % 4096
        && (q == 0xFFFF || q == e.1)).map fun e => (e.1, 0x10000 + e.1)
    else (d.cmd.cqs.find? fun e => e.2.addr == leAt s.cap 24 8 && e.2.key.toNat == leAt s.cap 20 4 && e.2.depth == leAt s.cap 8 2
        && (q == 0xFFFF || q == e.1)).map fun e => (e.1, 0)
  else if s.op == 0x84 then if (if sqKind then thas d.cmd.sqs q else thas d.cmd.cqs q) then none else some (0, 0)
  else if s.op == 0x86 then if (volOf d s.vol).isSome then none else some (0, 0)
  else if s.op == 0x93 then (d.trs.regions.find? fun e => e.2.ring && e.2.pd == q && e.2.vaBase == leAt s.cap 8 8
      && e.2.length == leAt s.cap 36 8).map fun e => (e.1 * 4096 + e.2.gen, e.2.offset / 64)
  else if s.op == 0x94 then if keyStands d (leAt s.cap 8 4) then none else some (0, 0)
  else none

/-- Re-create one command. -/
def replayOne (d : Dev) (p : PartnerStore) (sq cid : Nat) : Dev :=
  match replayCap d p sq cid with
  | none => d
  | some cap =>
    let f : Fetched := { sq, cap, time := d.time, order := d.cmd.fetches, placed := d.time }
    let d := parCnt { d with cmd.fetches := d.cmd.fetches + 1 } 11
    let s := slotFrom d f (((tget p.sqs sq).map (·.cls)).getD 0) false
    let copy := tget p.cmds (sq * 65536 + cid)
    let held := (copy.map fun x => x.held && !x.released).getD s.held
    let s := { s with replay := true, held, slow := [9], to_ := copy.bind (·.fwd) }
    let c := lowFree (tkeys d.cmd.slots) 0
    match adminDone d s with
    | some (r0, r1) => { d with cmd.slots := tset d.cmd.slots c { s with phase := .answered, pnr := true, result := some (stSUCCESS, r0, r1),
                                                                         admitted := d.time, adm := d.cmd.nextAdm },
                                cmd.nextAdm := d.cmd.nextAdm + 1 }
    | none => place d c s

/-- Commands that the mirror shows admitted and not complete, in ascending admission number. -/
def replayAll (d : Dev) (p : PartnerStore) (sqs : List (Nat × SqRec)) : Dev :=
  let mine := p.admits.filter fun e => sqs.any (·.1 == e.1 / 65536)
  (sortBy (fun (a b : Nat × Nat) => decide (a.2 ≤ b.2)) mine).foldl (fun (d : Dev) e => replayOne d p (e.1 / 65536) (e.1 % 65536)) d

/-- Numbers of forwarded commands go on where the partner's items left them; what it had completed is known, so that a repeat of a
FWD_CMD is answered again (R455, R456). -/
def installForwarded (d : Dev) (p : PartnerStore) : Dev :=
  let up := fun (t : Tab Nat) (k seq : Nat) => tset t k (max (tgetD t k 0) (seq + 1))
  let d := p.cmds.foldl (fun (d : Dev) e => match e.2.fwd with
    | some (pier, seq) =>
      let sq := e.1 / 65536
      if 65536 ≤ sq then { d with via.expect := up d.via.expect (sq - 65536) seq }
      else { d with via.nextSeq := up d.via.nextSeq (pier / 2 * 65536 + sq) seq }
    | none => d) d
  (p.completions.filter fun e => 2 ^ 32 ≤ e.1).foldl (fun (d : Dev) e =>
    let k := e.1 / 65536 - 65536
    let r : InnerRec := { gateShelf := k / 65536, gateTag := BitVec.ofNat 32 (leAt e.2.1 0 4), kindFields := e.2.1 }
    { d with via.expect := up d.via.expect k e.2.2.toNat, via.done := d.via.done ++ [(k, e.2.2.toNat, r)] }) d

/-- Install adopted state: groups, queues, entries owed, commands (table "Take-over", steps 6 and 7). -/
def install (d : Dev) (moved : Nat → Bool) (a : Adopted) (byPlan : Bool) : Dev :=
  let p := d.par.store
  let d := installForwarded (installQueues (installGroups d moved) a byPlan) p
  advanceAll (postAll (matchLate (replayAll { d with trs.linger := [], par.step := .resume } p a.sqs)))

/-! ### Arbitration and fencing (R428 to R431) -/

/-- Ask the arbiter whose turn it is. -/
def askArbiter (d : Dev) (n : Nat) : Dev :=
  let d := { d with par.arbiter := n }
  match d.pln.plan.arbiters[n]? with
  | some k => emit d (.drive k .acquire)
  | none => d

/-- Every preempt has completed, or is late: the ownership record is next. -/
def fenceStep (d : Dev) : Dev :=
  let wait := (pairDrives d).any fun k => (driveOf d k).fencing && (driveOf d k).bring == .ready && !d.par.fenceLate.contains k
  if d.par.step != .fence || wait then d
  else writeOwnership { d with par.step := .record } (if d.glb.side then 0x3F else 0) d.glb.side d.glb.side

/-- Arbitration is won or skipped: addresses, then the fence on every drive but the arbiters already won. In TRAIN the device owns
what the valid record gives it, and goes on to RECOVERY (R121). -/
def winArbitration (d : Dev) : Dev :=
  if d.glb.st == .train then maybeRecover (joinOver { d with par.step := .none })
  else
    let d := adoptAddrs { d with par := { d.par with step := .fence, fenceLate := [], giving := none, givingStarted := false, givingSent := false } }
      (sideAddrs d !d.glb.side)
    let d := gatedGo d
    let won := (bitList d.par.won 3).filterMap fun n => d.pln.plan.arbiters[n]?
    let rest := (pairDrives d).filter fun k => !won.contains k
    let d := rest.foldl (fun (d : Dev) k => modDrive d k fun x => { x with fencing := true }) d
    fenceStep (emits d ((rest.filter fun k => (driveOf d k).bring == .ready).map fun k => .drive k .preempt))

/-- Every command that a take-over delays completes DELAYED with reason 9: those in slots, and those fetched (R112, R435). -/
def delayAll (d : Dev) : Dev :=
  { d with
    cmd.slots := d.cmd.slots.map fun e => if e.2.phase == .generated then e else (e.1, { e.2 with slow := addNew e.2.slow 9 }),
    cmd.bufs := d.cmd.bufs.map fun b => (b.1, b.2.map fun f => { f with slow := addNew f.slow 9 }) }

/-- Start a take-over: from SERVICE in TAKEOVER, from RECOVERY in the same state. -/
def startTakeover (d : Dev) (cause : Nat) : Dev :=
  let d := if d.glb.st == .service then enter d .takeover else d
  let d := delayAll (sliceInterrupt d)
  let d := { d with
    par := { d.par with step := .arbitrate, won := 0, answered := 0, cause, takeAt := d.time, takeovers := d.par.takeovers + 1,
                        recoverAfter := d.par.st == .syncing, taking := none, newRecord := none },
    sto.bgPaused := true }
  let d := parEvent (parCnt d 4) 0x0E01 0 cause 0 0
  if cause == 2 then winArbitration d else askArbiter d 0

/-- The partner owns no group and holds no role by the valid record, and is taking none, whose record may be durable by now (R428,
R438). -/
def partnerIdle (d : Dev) : Bool := ownGroups d == planGroups d && ownRole d && partnerRole d && d.par.giving.isNone

/-- The partner is lost (R424, R425, R428): cause 1 heartbeats, 2 PARTNER_HALTED. -/
def losePartner (d : Dev) (cause : Nat) : Dev :=
  if d.glb.joinWait && !d.par.lost then
    { d with glb.joinWait := false, par := { d.par with lost := true, lostAttn := true, partnerState := 0 } }
  else if d.par.lost || !(d.par.st == .syncing || d.par.st == .paired) then d
  else
    let d := parCnt { d with par := { d.par with lost := true, lostAttn := true, partnerState := 0, stableSince := none } } 3
    let alone := fun (d : Dev) => releaseAcks { d with par := { d.par with st := .alone, giving := none, givingStarted := false, givingSent := false } }
    if d.pwr.fail then alone d
    else if partnerIdle d then alone (parEvent d 0x0E01 0xB cause 0 0)
    else if d.glb.st == .service || d.glb.st == .recovery then startTakeover d cause
    else alone d

/-- The arbiter `n` is done with: the next, or the wait for a repeat. -/
def nextArbiter (d : Dev) (n : Nat) : Dev := if n < 2 then askArbiter d (n + 1) else { d with par.arbiter := 3 }

/-- R429: an arbiter's answer. The own key absent: lost; own key there and the partner's gone: won, and two wins decide. -/
def execArbiterAcquireComplete (n : Nat) (a : ArbAnswer) (s : State) : Host.Outcome State Fault Refusal :=
  actIf (fun d => planned d && d.par.step == .arbitrate && d.par.arbiter == n && decide (n < 3)) s fun d =>
    if !a.ownKey then selfFence (parCnt d 6)
    else
      let d := { d with par.answered := d.par.answered + 1, par.won := if a.partnerKey then d.par.won else setBit d.par.won n }
      if 2 ≤ (bitList d.par.won 3).length then winArbitration (parCnt d 5) else nextArbiter d n

/-- R429: an arbiter without an answer in 100 µs is skipped. -/
def execArbiterTimeout (n : Nat) (s : State) : Host.Outcome State Fault Refusal :=
  actIf (fun d => planned d && d.par.step == .arbitrate && d.par.arbiter == n && decide (n < 3)) s fun d => nextArbiter d n

/-- R429: with every arbiter asked and no decision, arbitration starts again after 10 ms. -/
def execArbitrationRetry (s : State) : Host.Outcome State Fault Refusal :=
  actIf (fun d => planned d && d.par.step == .arbitrate && d.par.arbiter == 3) s fun d =>
    askArbiter { d with par.won := 0, par.answered := 0 } 0

/-- R430: a drive's preempt has completed; it takes writes again. -/
def execPreemptComplete (slot : Nat) (s : State) : Host.Outcome State Fault Refusal :=
  actIf (fun d => planned d && (driveOf d slot).fencing) s fun d =>
    fenceStep (gatedGo (memberChange { d with par.fenceLate := d.par.fenceLate.erase slot } fun d =>
      modDrive d slot fun x => { x with fencing := false }))

/-- R430, R444: a drive's preempt is late: its columns stay unavailable, it is reported as a fault, and nothing waits for it. -/
def execPreemptTimeout (slot : Nat) (s : State) : Host.Outcome State Fault Refusal :=
  actIf (fun d => planned d && d.par.step == .fence && (driveOf d slot).fencing && !d.par.fenceLate.contains slot) s fun d =>
    let d := parEvent (parCnt { d with par.fenceLate := slot :: d.par.fenceLate } 7) 0x0E09 0 0 slot 0
    fenceStep (memberChange (dropGated d slot) fun d => suspect d slot)

/-- R431: the device finds its own key missing. -/
def execSelfFence (s : State) : Host.Outcome State Fault Refusal :=
  actIf (fun d => planned d && (d.par.st == .syncing || d.par.st == .paired)) s selfFence

/-! ### The end of TAKEOVER and of RECOVERY (R113, R375, R436) -/

/-- The successor of a lost shelf serves a viaduct group: event 0x0F04, attention 0xA, and its volumes in every directory (R461, table
"Shelf loss", step 6). -/
def shelfDone (d : Dev) (g : Nat) : Dev :=
  match (tget d.via.groups (g - 64)).bind (·.lost) with
  | some (pier, t) =>
    if g < 64 then d
    else
      let d := viaEvent d 0x0F04 pier (g - 64) ((d.time - t) / 1000) 0xA
      let d := { d with via.groups := tupd d.via.groups (g - 64) fun (x : VGroup) => { x with lost := none } }
      listVols d ((d.sto.vols.filter fun e => e.2.lay.group == g).map (·.1)) d.pln.plan.pier
  | none => d

/-- A take-over is over: ALONE, and what waited for the partner goes on. -/
def takeoverEnd (d : Dev) : Dev :=
  if d.par.step != .resume then d
  else
    let d := { d with par.step := .none, par.recoverAfter := false, sto.bgPaused := false }
    if !d.par.lost then d
    else
      let us := (d.time - d.par.takeAt) / 1000
      let d := parEvent { d with par.takeMicros := us, par.st := .alone, par.store := {} } 0x0E04 0 d.par.cause 0 us
      releaseAcks d

/-- R113, R434, R436: the adopted groups are replayed, and where the partner was SYNCING resynchronised; SERVICE. A planned
hand-over ends in the same way, in SERVICE. -/
def execTakeoverFinish (s : State) : Host.Outcome State Fault Refusal :=
  actIf (fun d => planned d && (d.glb.st == .takeover || d.glb.st == .service) && d.par.step == .resume
      && (tkeys d.sto.recovery).all fun g => !recoverable d g || recPhase d g == 4) s fun d =>
    let us := (d.time - d.par.takeAt) / 1000
    let d := ((tkeys d.sto.recovery).filter (recoverable d)).foldl (fun (d : Dev) g => shelfDone (endRecovery d us g) g) d
    let d := if d.glb.st == .takeover then enterService d else d
    takeoverEnd (finishDeletions d)

/-- R375: every phase of every group is done. A partner lost meanwhile is taken over before SERVICE (R113). -/
def execRecoveryComplete (micros : Nat) (s : State) : Host.Outcome State Fault Refusal :=
  actIf (fun d => planned d && d.glb.st == .recovery && (recGroups d).all (fun g => recPhase d g == 4)
      && (d.par.step == .none || d.par.step == .resume)) s fun d =>
    let d := (recGroups d).foldl (fun (d : Dev) g => shelfDone (endRecovery d micros g) g) d
    takeoverEnd (enterService (finishDeletions { d with sto.resynced := 0, sto.dirtyFound := 0 }))

end Sys2Proof.Machine
end

