-- ==== Sys2Proof/Machine/Pair.lean ====
section
/-! DEFINITION. The pair: the join, heartbeats, health reports, mirror frames received, planned hand-over and the OWNERSHIP actions
(R69, R121, R134, R136, R411 to R427, R438 to R441). -/

namespace Sys2Proof.Machine

/-! ### Join (R69, R121, R134, R415) -/

/-- Registers of the runtime content of STORAGE and PAIR: default rebuild share, drive timeouts and retry counts, return policy. -/
def joinRegs : List Nat := [0x500400, 0x620000, 0x620004, 0x620008, 0x62000C, 0x900000]

/-- Slots that a plan assigns: to a group, as a dedicated spare or as an arbiter drive. -/
def assignedSlots (p : Plan) : List Nat := p.groups.flatten ++ p.spares ++ p.arbiters

/-- Does plan `q` add to plan `p` nothing but layout groups and dedicated spares, on slots that `p` leaves unassigned (R134)? -/
def addsTo (p q : Plan) : Bool :=
  let free := fun (k : Nat) => !(assignedSlots p).contains k
  (List.range 6).all (fun g =>
      let a := p.groups.getD g []
      sortN (q.groups.getD g []) == sortN a || (a.isEmpty && (q.groups.getD g []).all free))
    && p.spares.all q.spares.contains && q.spares.all fun k => p.spares.contains k || free k

/-- Are the STORAGE and PAIR sections of two plans compatible (R134)? Initial ownership is compared for the groups that both hold. -/
def storagePairOk (p q : Plan) : Bool :=
  (addsTo p q || addsTo q p) && p.slotMap == q.slotMap && p.arbiters == q.arbiters && p.journalCopies == q.journalCopies
    && p.hasPair == q.hasPair && p.hbPorts == q.hbPorts && p.hbVlan == q.hbVlan && p.hbPrio == q.hbPrio && p.pairGroup == q.pairGroup
    && p.shelfA == q.shelfA && p.shelfB == q.shelfB
    && ((List.range 6).all fun g => (p.groups.getD g []).isEmpty || (q.groups.getD g []).isEmpty
      || p.initOwner.getLsbD g == q.initOwner.getLsbD g)
    && joinRegs.all fun o => tgetD p.regs o 0 == tgetD q.regs o 0

/-- The part of R134's compatibility that fails: 1 PAIR_PLAN_ID, 2 STORAGE or PAIR, 3 HBM, 4 VIADUCT; 0 none. -/
def joinFails (d : Dev) (j : JoinInfo) : Nat :=
  let p := d.pln.plan
  if !(j.plan.pairPlanId == p.planId || p.pairPlanId == j.plan.planId) then 1
  else if !storagePairOk p j.plan then 2
  else if p.ringMiB != j.plan.ringMiB then 3
  else if (p.viaduct.map fun v => { v with gate := false }) != (j.plan.viaduct.map fun v => { v with gate := false }) then 4
  else 0

/-- The partner reports this device's own side: no join before the next cold reset, and attention 0xB (R69, R415). -/
def sameSide (d : Dev) : Dev :=
  if d.par.barred then d
  else releaseAcks { d with par := { d.par with st := .alone, barred := true, lostAttn := true, lost := true } }

/-- The device's part of the JOIN exchange: side, firmware version, floor plan identity and state (R121). -/
def joinSend (d : Dev) : Dev :=
  pairAll d (.join d.glb.side d.glb.fwVersion d.pln.plan.planId d.pln.plan.pairPlanId (stCode d.glb.st))

/-- What the exchange tells of the partner; a higher epoch of the partner's is the valid record's. -/
def takePartner (d : Dev) (j : JoinInfo) : Dev :=
  let serves := j.state == 7 && j.ownsMine
  let newer := decide (d.par.epoch < j.ownerEpoch) || serves
  { d with par := { d.par with
      partnerPlan := j.plan.planId, partnerState := j.state, partnerAddr := j.partnerAddr,
      partnerFw := j.fwVersion, partnerGroups := some j.plan.groups, refused := false,
      epoch := max d.par.epoch j.ownerEpoch,
      owner := if newer then j.groupOwner else d.par.owner,
      roleA := if serves then !d.glb.side else d.par.roleA,
      roleB := if serves then !d.glb.side else d.par.roleB,
      pathA := { d.par.pathA with seq := none, misses := 0 }, pathB := { d.par.pathB with seq := none, misses := 0 } } }

/-- R121: a JOIN exchange with the partner. -/
def execPairJoin (j : JoinInfo) (s : State) : Host.Outcome State Fault Refusal :=
  actIf (fun d => planned d && !d.pln.plan.unpaired && d.glb.st != .takeover && !d.par.barred) s fun d =>
    if j.side == d.glb.side then sameSide (joinSend d)
    else if inPair d then d
    else
    let d := joinSend d
    if joinFails d j != 0 then
      if d.glb.st == .train then
        logEvent { d with par.lostAttn := true, par.refused := true } 0x0504 0 .none (le 1 (joinFails d j))
      else d
    else if j.state == 8 then
      if d.glb.st == .train then
        { d with glb.joinWait := true, par.lost := false, par.refused := false, par.partnerState := 8, par.partnerPlan := j.plan.planId }
      else d
    else
      let d := takePartner d j
      if d.glb.st != .train then startSync d
      else
        let d := startSync (joinOver { d with par.step := .none })
        if j.state == 7 && j.ownsMine then enterService d else maybeRecover d

/-- R121: neither path has reached a partner within 1 s of TRAIN, or the partner that the join waited for is lost: partition
arbitration. A device whose join was refused stays in TRAIN (R134). -/
def execJoinTimeout (s : State) : Host.Outcome State Fault Refusal :=
  actIf (fun d => d.glb.st == .train && !d.pln.plan.unpaired && !d.glb.joinDone && !d.par.refused && d.par.partnerState == 0
      && d.par.step == .none) s
    fun d => askArbiter { d with par.step := .arbitrate, par.won := 0, par.answered := 0 } 0

/-! ### Heartbeats (R421 to R424) -/

/-- The heartbeat that the device sends next on a path. -/
def heartbeatNow (d : Dev) (seq : Nat) : Heartbeat :=
  { side := d.glb.side, state := stCode d.glb.st, seq := BitVec.ofNat 32 seq, planId := d.pln.plan.planId,
    epoch := BitVec.ofNat 32 d.par.epoch,
    flags := BitVec.ofNat 8 (b2n (ownGroups d != 0) + 2 * b2n (fitNow d) + 4 * b2n (paired d) + 8 * b2n d.pwr.fail) }

/-- The 42 payload bytes of a HEARTBEAT (R421, R422). -/
def heartbeatBytes (d : Dev) (pathB : Bool) (h : Heartbeat) : List Byte :=
  fit 42 (pairHead d 1 h.seq.toNat ++ be 8 h.planId.toNat ++ be 4 h.epoch.toNat ++ [BitVec.ofNat 8 (b2n pathB), h.flags])

/-- A heartbeat leaves on each port of a path; each is counted. -/
def heartbeatOn (d : Dev) (pathB : Bool) : Dev :=
  countN (pairOn d pathB (.heartbeat (heartbeatNow d (pairSeq d 1 pathB)))) 0x900100 (pathPorts d pathB).length

/-- R422: a heartbeat leaves on PW and on every path B port that is up. -/
def execHeartbeatSend (s : State) : Host.Outcome State Fault Refusal :=
  actIf (fun d => planned d && !d.pln.plan.unpaired) s fun d => heartbeatOn (heartbeatOn d false) true

def hbPath (d : Dev) (pathB : Bool) : HbPath := if pathB then d.par.pathB else d.par.pathA
def setPath (d : Dev) (pathB : Bool) (p : HbPath) : Dev := if pathB then { d with par.pathB := p } else { d with par.pathA := p }

/-- Is a heartbeat valid (R423)? -/
def heartbeatOk (d : Dev) (pathB : Bool) (h : Heartbeat) : Bool :=
  h.planId == d.par.partnerPlan && h.planId != 0 && h.side != d.glb.side
    && (hbPath d pathB).seq.all fun n => below32 n h.seq.toNat

/-! ### Hand-over at the giver (R438) -/

/-- Groups and roles of a side after a move. -/
def ownerAfter (d : Dev) (groups : BitVec 6) (sideB : Bool) : BitVec 6 :=
  if sideB then d.par.owner ||| groups else d.par.owner &&& ~~~groups
def roleAfter (was moves sideB : Bool) : Bool := if moves then sideB else was

/-- Addresses of the roles that move. -/
def movedAddrs (d : Dev) (roles : BitVec 2) : List Nat :=
  (if roles.getLsbD 0 then sideAddrs d false else []) ++ (if roles.getLsbD 1 then sideAddrs d true else [])

/-- What this device holds of the roles that move, as an adopter would see it. -/
def ownQueues (d : Dev) : PartnerStore :=
  { conns := (d.trs.conns.filter fun e => connLive e.2).map fun e => (e.1, e.2.r), regions := d.trs.regions, sqs := d.cmd.sqs,
    cqs := d.cmd.cqs }

/-- Give queues to the partner: they become what its items describe. -/
def giveQueues (d : Dev) (a : Adopted) : Dev :=
  let conn := fun k => a.conns.any (·.1 == k)
  let sq := fun k => a.sqs.any (·.1 == k)
  let cq := fun k => a.cqs.any (·.1 == k)
  let reg := fun k => a.regions.any (·.1 == k)
  let p := d.par.store
  { d with
    par.store := { p with conns := a.conns.foldl (fun t (e : Nat × ConnRec) => tset t e.1 e.2) p.conns,
                          regions := a.regions.foldl (fun t (e : Nat × Region) => tset t e.1 e.2) p.regions,
                          sqs := a.sqs.foldl (fun t (e : Nat × SqRec) => tset t e.1 e.2) p.sqs,
                          cqs := a.cqs.foldl (fun t (e : Nat × CqRec) => tset t e.1 e.2) p.cqs },
    trs := { d.trs with conns := d.trs.conns.filter fun e => !conn e.1,
                        connFreed := d.trs.connFreed ++ (a.conns.map fun e => (e.1, d.time)),
                        regions := d.trs.regions.filter fun e => !reg e.1,
                        wrs := d.trs.wrs.filter fun e => !sq e.1,
                        resident := d.trs.resident.filter fun c => !conn c,
                        writeback := d.trs.writeback.filter fun c => !conn c,
                        reclaim := d.trs.reclaim.filter fun c => !conn c,
                        fetching := d.trs.fetching.filter fun c => !conn c,
                        porch := d.trs.porch.filter fun e => !conn e.1,
                        timers := d.trs.timers.filter fun e => !conn e.1 },
    cmd := { d.cmd with sqs := d.cmd.sqs.filter fun e => !sq e.1,
                        cqs := d.cmd.cqs.filter fun e => !cq e.1,
                        bufs := d.cmd.bufs.map fun b => (b.1, b.2.filter fun f => !sq f.sq),
                        slots := d.cmd.slots.filter fun e => e.2.from_.isSome || e.2.msub || !sq e.2.sq,
                        posting := d.cmd.posting.filter fun x => !cq x.cq } }

/-- The partner's record is durable: groups, volumes, roles and queues are the partner's, and MAINT follows where it was asked for. -/
def handoverDone (d : Dev) (epoch : Nat) (groups : BitVec 6) (roles : BitVec 2) (maint : Bool) : Dev :=
  let moved := movesGroup groups roles d.glb.side
  let vols := d.sto.vols.filter fun e => moved e.2.lay.group
  let d := giveQueues d (adoptRoles d (ownQueues d) roles d.glb.side)
  let d := { d with
    par := { d.par with
      epoch, owner := ownerAfter d groups !d.glb.side,
      roleA := roleAfter d.par.roleA (roles.getLsbD 0) !d.glb.side, roleB := roleAfter d.par.roleB (roles.getLsbD 1) !d.glb.side,
      adopted := d.par.adopted.filter fun a => !(movedAddrs d roles).contains a,
      giving := none, givingStarted := false, givingSent := false, stableSince := none,
      store := { d.par.store with
        vols := vols.foldl (fun t (e : Nat × Volume) => tset t e.1 e.2) d.par.store.vols,
        groups := (d.sto.groups.filter fun e => moved e.1).foldl (fun t (e : Nat × Group) => tset t e.1 (groupRec e.2)) d.par.store.groups } },
    sto.vols := d.sto.vols.filter fun e => !moved e.2.lay.group,
    via.directory := d.via.directory.map fun e => if vols.any (·.1 == e.1) then (e.1, d.pln.plan.pier.xor 1) else e,
    via.groups := d.via.groups.map fun e => if moved (64 + e.1) && e.2.home == d.pln.plan.pier then
      (e.1, { e.2 with home := d.pln.plan.pier.xor 1 }) else e }
  let d := parCnt d 13
  if maint then enter d .maint else d

/-- R423: a heartbeat on a path. One with a higher epoch shows a hand-over done; one of the device's own side bars the join (R69,
R415). -/
def execHeartbeatReceive (pathB : Bool) (h : Heartbeat) (s : State) : Host.Outcome State Fault Refusal :=
  actIf (fun d => planned d && !d.pln.plan.unpaired && !d.par.lost && (h.side == d.glb.side || heartbeatOk d pathB h)) s fun d =>
    if h.side == d.glb.side then sameSide d
    else
    let p := hbPath d pathB
    let d := setPath d pathB { p with up := true, misses := 0, seq := some h.seq.toNat, last := some d.time }
    let d := { d with par.partnerState := h.state, par.partnerPwrFail := bitAt h.flags.toNat 3 }
    let d := if p.up then d else parEvent d 0x0E06 0 (b2n pathB) 0 0
    match d.par.giving with
    | some (groups, roles, maint) =>
      if d.par.givingSent && d.par.epoch < h.epoch.toNat then handoverDone d h.epoch.toNat groups roles maint else d
    | none => d

/-- R423, R424: 20 µs without a valid heartbeat on a path. -/
def execHeartbeatMiss (pathB : Bool) (s : State) : Host.Outcome State Fault Refusal :=
  actIf (fun d => planned d && !d.pln.plan.unpaired) s fun d =>
    let p := hbPath d pathB
    let d := parCnt (setPath d pathB { p with misses := p.misses + 1, up := p.up && decide (p.misses + 1 < 8) }) (1 + b2n pathB)
    let d := if p.up && 8 ≤ p.misses + 1 then parEvent d 0x0E05 0 (b2n pathB) 0 0 else d
    if 8 ≤ d.par.pathA.misses && 8 ≤ d.par.pathB.misses then losePartner d 1 else d

/-- R424: PARTNER_HALTED arrives. -/
def execPartnerHaltedReceive (s : State) : Host.Outcome State Fault Refusal :=
  actIf (fun d => planned d && !d.pln.plan.unpaired) s fun d => losePartner d 2

/-- R425: POWER_FAIL arrives: the partner admits no new writes. -/
def execPowerFailFrameReceive (s : State) : Host.Outcome State Fault Refusal :=
  actIf (fun d => planned d && inPair d) s fun d => { d with par.partnerPwrFail := true }

/-! ### Health (R426, R427) -/

/-- The health report that the device sends next; the free space of its mirror partition is not the model's to know. -/
def healthNow (d : Dev) (free : Nat) : Health :=
  { seq := BitVec.ofNat 32 (pairSeq d 2 (!pwUp d)), time := d.time, tjMax := BitVec.ofInt 16 d.sense.tjMax, hot := BitVec.ofNat 8 d.sense.hottest,
    flags := BitVec.ofNat 8 (b2n (fitNow d) + 2 * b2n (d.glb.st == .service && paired d && fitNow d && d.par.resynced)
      + 4 * b2n d.par.resynced + 8 * b2n d.pwr.thermalCap.isSome + 16 * b2n d.pwr.fail),
    powerMw := BitVec.ofNat 32 d.pwr.powerMw, domains := BitVec.ofNat 64 (domMask d),
    portsUp := BitVec.ofNat 32 (maskOf ((List.range 32).filter fun p => (portOf d p).up)),
    slotsReached := BitVec.ofNat 24 (maskOf ((List.range 24).filter fun k => (driveOf d k).bring == .ready)),
    freeSlots := BitVec.ofNat 32 (slotTotal d - (realSlots d).length), retired := BitVec.ofNat 8 d.bst.retired.length,
    groups := BitVec.ofNat 8 (ownGroups d), bistFails := BitVec.ofNat 16 (bistFails d), fwVersion := d.glb.fwVersion,
    mirrorFree := BitVec.ofNat 32 free, state := stCode d.glb.st }

/-- R426: a HEALTH frame every 1 ms. -/
def execHealthSend (s : State) : Host.Outcome State Fault Refusal :=
  actIf (fun d => planned d && !d.pln.plan.unpaired) s fun d =>
    let (free, d) := drawBits d 32
    pairSend d (.health (healthNow d free))

/-- R427: a HEALTH frame arrives; a partner that stops being FIT is logged. -/
def execHealthReceive (h : Health) (s : State) : Host.Outcome State Fault Refusal :=
  actIf (fun d => planned d && inPair d) s fun d =>
    let was := partnerFit d
    let asks := d.par.st == .paired && !bitAt h.flags.toNat 2 && d.par.health.any fun x => bitAt x.1.flags.toNat 2
    let d := if asks then sendKeys ((snapshotItems d).foldl mirror d) else d
    let d := { d with par.health := some (h, d.time), par.partnerState := h.state, par.partnerPwrFail := bitAt h.flags.toNat 4 }
    let d := if was && !partnerFit d then parEvent d 0x0E07 0 0 0 0 else d
    stableRefresh (partnerReached d h.slotsReached.toNat)

/-! ### Hand-over at the taker (R438) -/

/-- Make the record of the hand-over being taken durable, once every item that the giver sent before has been applied. -/
def takingStep (d : Dev) : Dev :=
  match d.par.taking with
  | some (groups, roles, last) =>
    if d.par.newRecord.isSome || d.par.rxMseq < last + 1 then d
    else writeOwnership d (ownerAfter d groups d.glb.side) (roleAfter d.par.roleA (roles.getLsbD 0) d.glb.side)
      (roleAfter d.par.roleB (roles.getLsbD 1) d.glb.side)
  | none => d

/-- R417 to R419: a MIRROR frame. A key page item comes alone and is acknowledged by itself. -/
def execMirrorReceive (mseq : Nat) (items : List MirrorItem) (s : State) : Host.Outcome State Fault Refusal :=
  actIf (fun d => planned d && inPair d) s fun d => match items with
    | [.st (.key p k)] => pairSend (takeState d (.key p k)) (.mirrorAck (2 ^ 64 + p))
    | _ =>
      let d := takeItems d mseq items
      takingStep (if d.par.rxMseq == 0 then d else pairSend d (.mirrorAck (d.par.rxMseq - 1)))

/-- R438: HANDOVER arrives. -/
def execHandoverReceive (groups : BitVec 6) (roles : BitVec 2) (lastMseq : Nat) (s : State) : Host.Outcome State Fault Refusal :=
  actIf (fun d => d.glb.st == .service && planned d && paired d && !d.par.lost && d.par.step == .none && d.par.taking.isNone) s fun d =>
    takingStep { sliceInterrupt d with par.taking := some (groups, roles, lastMseq) }

/-- What has been adopted is the partner's no longer. -/
def dropStore (p : PartnerStore) (moved : Nat → Bool) (a : Adopted) : PartnerStore :=
  let sq := fun (k : Nat) => a.sqs.any (·.1 == k)
  { p with conns := p.conns.filter fun e => !a.conns.any (·.1 == e.1), regions := p.regions.filter fun e => !a.regions.any (·.1 == e.1),
           sqs := p.sqs.filter fun e => !sq e.1, cqs := p.cqs.filter fun e => !a.cqs.any (·.1 == e.1),
           vols := p.vols.filter fun e => !moved e.2.lay.group, groups := p.groups.filter fun e => !moved e.1,
           admits := p.admits.filter fun e => !sq (e.1 / 65536), cmds := p.cmds.filter fun e => !sq (e.1 / 65536),
           journal := p.journal.filter fun e => !moved e.1,
           completions := p.completions.filter fun e => !a.cqs.any (·.1 == e.1 / 65536) }

/-- R413: the ownership record is durable on a majority: adopted state is installed. -/
def execOwnershipRecordDurable (s : State) : Host.Outcome State Fault Refusal :=
  actIf planned s fun d => match d.par.newRecord with
    | none => d
    | some (owner, roleA, roleB) =>
      let d := { d with par := { d.par with epoch := d.par.epoch + 1, owner, roleA, roleB, newRecord := none } }
      match d.par.taking with
      | some (groups, roles, _) =>
        let moved := movesGroup groups roles (!d.glb.side)
        let a := adoptRoles d d.par.store roles (!d.glb.side)
        let own := sideAddrs d d.glb.side
        let addrs := movedAddrs d roles
        let d := announceAddrs (adoptAddrs d (addrs.filter fun x => !own.contains x)) (shelfOnly d (addrs.filter own.contains))
        let d := install { d with par.taking := none, par.cause := 3 } moved a true
        parEvent (parCnt { d with par.store := dropStore d.par.store moved a } 13) 0x0E08 0xA 3 0 0
      | none =>
        if d.par.step == .record then
          install { d with par.step := .install } (fun _ => true) (adoptAll d.par.store) false
        else d

/-! ### OWNERSHIP (R136, R441) -/

/-- The first volume of the groups that the partner cannot take; with none there the result is open. -/
def firstMoving (d : Dev) (mask : Nat) : Nat × Dev :=
  match d.sto.vols.find? fun e => e.2.lay.group < 6 && bitAt mask e.2.lay.group with
  | some e => (e.1, d)
  | none => drawBits d 16

/-- Why a hand-over is refused. -/
def handoverBad (d : Dev) (mask : Nat) : Option (Nat × Nat) × Dev :=
  if !paired d || d.par.lost || d.par.partnerState != 7 then (some (0x101, d.par.partnerState), d)
  else
    let reached := ((d.par.health.map fun h => h.1.slotsReached.toNat).getD 0)
    let far := (List.range 6).any fun g => bitAt mask g && (memberSlots d g).any fun k => (driveOf d k).bring == .ready && !bitAt reached k
    if d.par.giving.isSome || !partnerCanTake d (ownGroups d) || far then
      let (v, d) := firstMoving d mask
      (some (0x102, v), d)
    else (none, d)

/-- Accept a request: SUCCESS, and the hand-over waits for that completion's acknowledgement. -/
def giveAfter (d : Dev) (c mask : Nat) (roles : BitVec 2) (maint : Bool) : Dev :=
  let (bad, d) := handoverBad d mask
  match bad with
  | some (st, r0) => answer d c st r0 0
  | none => { succeed d c 0 0 with par.request := some c, par.giving := some (BitVec.ofNat 6 mask, roles, maint) }

/-- An OWNERSHIP action with its parameter block. -/
def ownershipRun (cmd action : Nat) (blk : List Byte) (s : State) (own : Dev → List (Nat × Bool)) (f : Dev → Dev) :
    Host.Outcome State Fault Refusal :=
  actIf serving s fun d =>
    let a := byteAt blk 0
    if !(slotOf d cmd).any (blockOk · blk) || (a != action && 1 ≤ a && a ≤ 3) then d
    else match adminStart d cmd 0x95 with
      | none => d
      | some (x, d) => forCmd d cmd fun d =>
        if !x.msub && x.dataLen != 64 then badAt d cmd 16
        else needPage d cmd x 144 rADMIN fun d =>
          match blockBad ((0, a < 1 || 3 < a) :: own d ++ zeroFields blk 3 61) with
          | some off => badBlock d cmd off
          | none => f d

/-- Roles that this device holds: bit 0 A, bit 1 B. -/
def heldRoles (d : Dev) : BitVec 2 := BitVec.ofNat 2 (b2n (d.par.roleA == d.glb.side) + 2 * b2n (d.par.roleB == d.glb.side))

/-- What goes back to the partner: its role, and the groups that the floor plan gives it (R439). -/
def returnRoles (d : Dev) : BitVec 2 := if partnerRole d then (if d.glb.side then 1 else 2) else 0
def returnGroups (d : Dev) : Nat :=
  maskOf ((bitList (ownGroups d) 6).filter fun g => d.pln.plan.initOwner.getLsbD g != d.glb.side)

/-- R441: MAINT_REQUEST. -/
def execMaintRequest (cmd : Nat) (blk : List Byte) (s : State) : Host.Outcome State Fault Refusal :=
  ownershipRun cmd 1 blk s (fun _ => [(1, byteAt blk 1 != 0), (2, byteAt blk 2 != 0)]) fun d =>
    giveAfter d cmd (ownGroups d) (heldRoles d) true

/-- R441: MOVE_GROUPS, of formed groups that this device owns, to the partner's side. -/
def execMoveGroups (cmd : Nat) (blk : List Byte) (s : State) : Host.Outcome State Fault Refusal :=
  ownershipRun cmd 2 blk s (fun d =>
    let mask := (byteAt blk 1)
    [(1, (List.range 8).any fun g => bitAt mask g && !(bitAt (ownGroups d) g && (groupOf d g).formed)),
     (2, byteAt blk 2 != b2n !d.glb.side)]) fun d => giveAfter d cmd (byteAt blk 1) 0 false

/-- R441: RETURN. -/
def execReturnRoles (cmd : Nat) (blk : List Byte) (s : State) : Host.Outcome State Fault Refusal :=
  ownershipRun cmd 3 blk s (fun _ => [(1, byteAt blk 1 != 0), (2, byteAt blk 2 != 0)]) fun d =>
    giveAfter d cmd (returnGroups d) (returnRoles d) false

/-- R441: the accepted request's completion has been acknowledged: admission to the moving groups stops. -/
def execHandoverStart (s : State) : Host.Outcome State Fault Refusal :=
  actIf (fun d => planned d && paired d && !d.par.lost && d.par.giving.isSome && !d.par.givingStarted
      && d.par.request.all fun c => (slotOf d c).all fun x => x.phase == .generated && d.cmd.posting.all fun p => p.cmd != c || p.ready) s
    fun d => { sliceInterrupt d with par.request := none, par.givingStarted := true }

/-- Commands still running on the moving groups: left to the taker where their queue moves, else answered NOT_OWNER. -/
def leaveRunning (d : Dev) (groups : BitVec 6) (roles : BitVec 2) : Dev :=
  let on := fun (s : Slot) => isVolIo s.op && s.phase != .generated && s.result.isNone && (volOf d s.vol).any fun v =>
    movesGroup groups roles d.glb.side v.lay.group
  let a := adoptRoles d (ownQueues d) roles d.glb.side
  (d.cmd.slots.filter fun e => on e.2).foldl (fun (d : Dev) e =>
    let d := lockDropAll d e.1
    if e.2.from_.isNone && !e.2.msub && a.sqs.any (·.1 == e.2.sq) then { d with cmd.slots := tdel d.cmd.slots e.1 }
    else answer (modSlot d e.1 fun s => { s with works := [] }) e.1 stNOTOWNER (b2n !d.glb.side) 0) d

/-- R438: 500 µs have passed: HANDOVER leaves, and drive writes to the moving groups stop. -/
def execHandoverDrainTimeout (s : State) : Host.Outcome State Fault Refusal :=
  actIf (fun d => planned d && paired d && !d.par.lost && d.par.givingStarted && !d.par.givingSent) s fun d => match d.par.giving with
    | some (groups, roles, _) =>
      let d := leaveRunning d groups roles
      pairSend { d with par.givingSent := true } (.handover groups roles (d.par.nextMseq - 1))
    | none => d

/-- R439: the stable time has passed: the partner's role and groups go back. -/
def execStableTimeExpire (s : State) : Host.Outcome State Fault Refusal :=
  actIf (fun d => d.glb.st == .service && planned d && d.par.stableSince.isSome && d.par.giving.isNone
      && partnerCanTake d (ownGroups d)) s fun d =>
    { d with par := { d.par with giving := some (BitVec.ofNat 6 (returnGroups d), returnRoles d, false), givingStarted := true,
                                 stableSince := none } }

end Sys2Proof.Machine
end

