-- ==== Sys2Proof/Machine/Viaduct.lean ====
section
/-! DEFINITION. The viaduct: inner connections, forwarded commands at owner and gate, fragment requests at proxies, loss of a pier or a
shelf, and VIADUCT_CONTROL (R445 to R465). -/

namespace Sys2Proof.Machine

def viaCnt (d : Dev) (i : Nat) : Dev := count d (0xA00800 + 8 * i)

/-- Own pier (R445). -/
def ownPier (d : Dev) : Nat := d.pln.plan.pier

/-- Is a pier listed in PIER_MASK? -/
def pierListed (d : Dev) (n : Nat) : Bool := n < 64 && (viaPlan d).any fun v => bitAt v.pierMask.toNat n

/-- UP piers other than this one. -/
def piersUp (d : Dev) : List Nat := (bitList d.via.up.toNat 64).filter (· != ownPier d)

/-! ### Inner connections (R451, R453) -/

/-- R451: this pier opens its inner connection to a higher pier. -/
def execInnerConnect (pier : Nat) (s : State) : Host.Outcome State Fault Refusal :=
  actIf (fun d => serving d && pierListed d pier && decide (ownPier d < pier) && !thas d.via.inner pier) s fun d =>
    match freeConn d, viaPlan d with
    | some c, some v =>
      let (psn, d) := drawBits d 32
      let (base, d) := drawBits d 64
      let (id, d) := drawBits d 32
      let (portBase, d) := drawPortBase d
      let edge := (base + creditWindow d) % 2 ^ 64
      let addr := fun (n : Nat) => ((v.piers[n]?).map (·.1)).getD 0
      let r : ConnRec := { hostIp := addr pier, localIp := addr (ownPier d), hostPort := d.pln.plan.udpPort, pd := ownPier d,
                           pathMask := BitVec.allOnes 64, inner := some pier }
      let x : Conn := { st := .connecting, r, psn, peerCum := psn, rcvd := base, edge, advertised := edge, window := creditWindow d,
                        slots := readSlots d, portBase, id }
      let d := takeConn d c x
      match connOf d c with
      | some x =>
        let body := be 8 v.token.toNat ++ be 4 (devConn d c x) ++ be 2 (ownPier d)
          ++ be 2 d.pln.plan.udpPort ++ be 2 portBase ++ [BitVec.ofNat 8 x.slots, BitVec.ofNat 8 (b2n d.pln.plan.payload8k)]
          ++ be 4 psn ++ be 8 base ++ be 8 edge ++ be 8 (2 ^ 64 - 1)
        sendPkt d x { verOp := verOp 0xA, tag := BitVec.ofNat 32 id, body }
      | none => d
    | _, _ => d

/-- R453: an inner connection idle for 100 µs probes every OPEN path. -/
def execInnerIdleProbe (pier : Nat) (s : State) : Host.Outcome State Fault Refusal :=
  actIf planned s fun d => match tget d.via.inner pier with
    | some c => if (connOf d c).any (·.est) then ctxDo d c .idleProbe else d
    | none => d

/-! ### Forwarded commands (R454 to R456) -/

/-- Is a forwarded command of this key and SEQ in a slot here? -/
def fwdLive (d : Dev) (r : InnerRec) : Bool :=
  d.cmd.slots.any fun (e : Nat × Slot) => match e.2.from_ with
    | some (_, shelf, seq, _) => shelf * 65536 + e.2.sq == fwdKey r && seq == r.seq
    | none => false

/-- R455: FWD_CMD at the owner. -/
def execFwdCmd (pier : Nat) (r : InnerRec) (s : State) : Host.Outcome State Fault Refusal :=
  actIf (fun d => serving d && (viaPlan d).isSome) s fun d =>
    match d.via.done.find? fun e => e.1 == fwdKey r && e.2.1 == r.seq with
    | some (_, _, cpl) => innerSend d pier 2 cpl
    | none =>
      if fwdLive d r || d.via.early.any (fun e => fwdKey e.2.1 == fwdKey r && e.2.1.seq == r.seq) then viaCnt d 5
      else
        let d := viaCnt d 4
        let d := { d with via.early := d.via.early ++ [(pier, r, [])] }
        fwdDrain d.via.early.length (fwdMark d)

/-- Bytes that the gate pulls for a forwarded command that succeeded: host address and length of each part. The length of the tags
that a READ or WRITE returns is not the gate's to know. -/
def backParts (d : Dev) (s : Slot) (r0 : Nat) : List (Nat × Nat) × Dev :=
  let main := if s.op == 1 then [(s.hostAddr, 4096 * s.count)] else []
  if s.op == 7 then ([(s.hostAddr, r0)], d)
  else if s.fTAGS && (s.op == 1 || s.op == 2) then
    let (n, d) := drawBits d 24
    (main ++ [(leAt s.cap 52 8, n)], d)
  else (main, d)

/-- R456: FWD_CPL at the gate: the owner's result stands once its data has gone to the host. -/
def execFwdCpl (pier : Nat) (r : InnerRec) (s : State) : Host.Outcome State Fault Refusal :=
  actIf planned s fun d =>
    match d.cmd.slots.find? fun (e : Nat × Slot) => e.2.cmdTag == r.gateTag && e.2.from_.isNone && !e.2.msub
        && e.2.to_.any (fun t => t.1 == pier) && e.2.result.isNone with
    | none => d
    | some (c, x) =>
      let e := fit 32 r.kindFields
      let st := leAt e 16 2 % 2048
      let (parts, d) := if st == stSUCCESS then backParts d x (leAt e 4 4) else ([], d)
      let total := parts.foldl (fun n p => n + p.2) 0
      let d := modSlot d c fun y => { y with
        fwdCpl := e, result := some (st, leAt e 4 4, leAt e 8 4), backLeft := total,
        phase := if total == 0 then .answered else .running }
      match tget d.via.inner pier with
      | some k => (parts.foldl (fun (m : Nat × Dev) p =>
          (m.1 + p.2, if p.2 == 0 then m.2 else sendRead m.2 k (r.stageAddr.toNat + m.1) r.stageKey.toNat p.2 (.relay c p.1))) (0, d)).2
      | none => d

/-- R456: FWD_TRIGGER at an owner. -/
def execFwdTrigger (pier : Nat) (r : InnerRec) (s : State) : Host.Outcome State Fault Refusal :=
  actIf (fun d => serving d && (viaPlan d).isSome && pierListed d pier) s fun d =>
    heldTrigger d (r.hostPd % 4096) (leAt r.payload 0 4)

/-- R454: DIRECTORY: a volume's owner pier. Commands that wait for it, and those forwarded to another owner, go to it. -/
def execDirectoryRec (pier : Nat) (r : InnerRec) (s : State) : Host.Outcome State Fault Refusal :=
  actIf (fun d => planned d && pierListed d pier) s fun d =>
    let v := leAt r.payload 0 2
    let o := byteAt r.payload 2
    if 4096 ≤ v || 64 ≤ o then d
    else
      let d := { d with via.directory := tset d.via.directory v o }
      if o == ownPier d || !pierUp d o then d
      else
        let d := reForward d o
        (d.cmd.slots.filter fun e => e.2.from_.isNone && e.2.vol == v && e.2.result.isNone && e.2.to_.any fun t => t.1 != o).foldl
          (fun (d : Dev) e => forwardTo d e.1 o) d

/-! ### Fragment requests (R457, R461, R464) -/

/-- The group of a viaduct as this pier knows it. -/
def vgroup (d : Dev) (g : Nat) : VGroup := tgetD d.via.groups g {}

/-- R461, R464: FRAG_REQ at a proxy. Below the highest epoch seen it is rejected. -/
def execFragReq (pier : Nat) (r : InnerRec) (group : Nat) (s : State) : Host.Outcome State Fault Refusal :=
  actIf (fun d => planned d && (viaPlan d).isSome) s fun d =>
    let x := vgroup d group
    let d := { d with via.groups := tset d.via.groups group (if x.home / 2 == pier / 2 then { x with homeAt := d.time } else x) }
    if r.epoch < x.seen then sendFragDone d pier r.gateTag 3 []
    else
      let f := r.kindFields
      let k := byteAt f 0
      let len := leAt f 24 4
      let n := d.via.nextFrag
      let q : FragIn := { pier, tag := r.gateTag, epoch := r.epoch, slot := k, group, read := bitAt r.flags.toNat 0,
                          addr := 4096 * leAt f 8 8 + leAt f 20 4 % 4096, count := leAt f 16 4, len }
      let d := { d with via.groups := tset d.via.groups group { vgroup d group with seen := max x.seen r.epoch } }
      if 24 ≤ k || (driveOf d k).st == .absent || (driveOf d k).bring != .ready then sendFragDone d pier r.gateTag 1 []
      else
        let d := { d with via.frags := tset d.via.frags n q, via.nextFrag := n + 1 }
        if q.read || len == 0 then fragSubmit d n q
        else match tget d.via.inner pier with
          | some c => sendRead d c r.stageAddr.toNat r.stageKey.toNat len (.frag n)
          | none => d

/-- A use of a drive access through a proxy is over. -/
def useDone (d : Dev) (u : FragUse) (r : DriveResult) : Dev :=
  let ok := match r with | .ok _ _ => true | _ => false
  match u with
  | .none => d
  | .frag c stripe col => if 131072 ≤ c then repairDone d c stripe col r else fragDone d c stripe col r
  | .read c stripe col first => readDone d c stripe col first r
  | .bitmap v region => bitmapDone d v region ok
  | .journal g copy jseq => journalDone d g copy jseq ok

/-- R461, R464: FRAG_DONE at the home pier; a rejected epoch ends its service. -/
def execFragDone (pier : Nat) (r : InnerRec) (s : State) : Host.Outcome State Fault Refusal :=
  actIf planned s fun d => match tget d.via.sent r.gateTag.toNat with
    | none => d
    | some f =>
      if f.pier != pier then d
      else
        let gone := { d with via.sent := tdel d.via.sent r.gateTag.toNat }
        let last := !gone.via.sent.any fun e => e.2.use == f.use
        match byteAt r.kindFields 0, f.use with
        | 3, _ => warmClear (haltNotice gone)
        | 0, .read .. =>
          match tget d.via.inner pier with
          | some c =>
            let len := leAt r.kindFields 24 4
            sendRead { d with via.sent := tset d.via.sent r.gateTag.toNat { f with len } } c r.stageAddr.toNat r.stageKey.toNat len
              (.fragBack r.gateTag.toNat)
          | none => useDone gone f.use .mediaError
        | 0, u => if last then useDone gone u (.ok [] []) else gone
        | 1, u => useDone gone u .mediaError
        | _, u => useDone gone u .conflict

/-! ### Epochs and shelf loss (R460, R461) -/

/-- R461: a claim or an EPOCH record at a proxy. A grant and an acknowledgement go back alike, once every drive command of a lower
epoch has completed. -/
def execEpochRec (pier : Nat) (r : InnerRec) (group : Nat) (s : State) : Host.Outcome State Fault Refusal :=
  actIf (fun d => planned d && (viaPlan d).isSome) s fun d =>
    let x := vgroup d group
    let again := x.granted == some (r.epoch, pier)
    let quiet := x.homeAt + 1000 * liveN d 0xA00010 ≤ d.time
    if !(again || (x.seen < r.epoch && x.granted.all (fun g => g.1 != r.epoch) && quiet)) then d
    else
      epochAcks { d with
        via.groups := tset d.via.groups group { x with seen := max x.seen r.epoch, granted := some (r.epoch, pier) },
        via.epochWait := d.via.epochWait ++ [(pier, group, r.epoch)] }

/-- Drive keys of a group's members. -/
def vMembers (d : Dev) (x : VGroup) : List Nat := x.members.map fun m => memberKey d m.1 m.2

/-- Set a viaduct group, mirrored to the partner (R417, R460). -/
def setVGroup (d : Dev) (g : Nat) (x : VGroup) : Dev := mirror { d with via.groups := tset d.via.groups g x } (.st (.vgroup g (some x)))

/-- Every reachable proxy has acknowledged: the record naming the successor, and recovery of the group (R461, steps 4 and 5). What the
group's record holds beyond its members is read from them: free here where this pier holds no copy. -/
def shelfRecord (d : Dev) (g : Nat) : Dev :=
  let x := vgroup d g
  let key := 64 + g
  let d := if thas d.sto.groups key then d
    else
      let (slabs, d) := drawBits d 16
      let (id, d) := drawBits d 64
      let (seed, d) := drawBits d 64
      let gr : Group := { formed := true, id := BitVec.ofNat 64 id, slots := vMembers d x, slabs, metaSeed := BitVec.ofNat 64 seed }
      { d with sto.groups := tset d.sto.groups key gr }
  let d := writeRecords d key
  { d with sto.recovery := tset d.sto.recovery key { phase := 1 }, par.step := if d.par.step == .none then .resume else d.par.step,
           par.recoverAfter := true }

/-- The successor has won: EPOCH records to every reachable proxy (R461, step 3). -/
def shelfWon (d : Dev) (g epoch : Nat) : Dev :=
  let x := vgroup d g
  let proxies := ((x.members.map fun m => proxyPier d m.2).filter fun p => p != ownPier d && pierUp d p).eraseDups
  let d := viaCnt (setVGroup d g { x with home := ownPier d, epoch, seen := max x.seen epoch, claim := none, acks := proxies }) 7
  let d := proxies.foldl (fun (d : Dev) p => innerSend d p 7 { epoch, kindFields := [BitVec.ofNat 8 g] }) d
  if proxies.isEmpty then shelfRecord d g else d

/-- A proxy has acknowledged its EPOCH record, or cannot any more. -/
def epochAcked (d : Dev) (g pier : Nat) : Dev :=
  let x := vgroup d g
  if !x.acks.contains pier then d
  else
    let d := { d with via.groups := tset d.via.groups g { x with acks := x.acks.erase pier } }
    if (x.acks.erase pier).isEmpty then shelfRecord d g else d

/-- R461: a proxy's grant of this pier's claim, or its acknowledgement of an EPOCH record: two arbiters' grants win. -/
def execEpochGrantReceive (pier : Nat) (group : Nat) (epoch : Nat) (arbiter : Bool) (s : State) : Host.Outcome State Fault Refusal :=
  actIf (fun d => planned d && pierListed d pier) s fun d => match (vgroup d group).claim with
    | some (e, n) =>
      if e != epoch || !arbiter then d
      else if n == 0 then { d with via.groups := tset d.via.groups group { vgroup d group with claim := some (e, 1) } }
      else shelfWon d group epoch
    | none => if (vgroup d group).epoch == epoch && !arbiter then epochAcked d group pier else d

/-- A home shelf is lost: its successor claims the next epoch at the arbiters' proxies (R461). -/
def claimGroup (d : Dev) (g : Nat) : Dev :=
  let x := vgroup d g
  let d := viaEvent d 0x0F03 x.home g 0 0
  let e := max x.epoch x.seen + 1
  let d := { d with via.groups := tset d.via.groups g { x with claim := some (e, 0), lost := some (x.home, d.time) } }
  (x.arbiters.filterMap fun i => (x.members[i]?).map fun m => proxyPier d m.2).foldl
    (fun (d : Dev) p => innerSend d p 7 { epoch := e, kindFields := [BitVec.ofNat 8 g] }) d

/-- R453: no ACK from a pier for VIA_LOSS_US. With both piers of a shelf lost its members are unavailable, and the successor of a
group at home there acts. -/
def execPierLossTimeout (pier : Nat) (s : State) : Host.Outcome State Fault Refusal :=
  actIf (fun d => planned d && pierUp d pier && pier != ownPier d) s fun d =>
    let d := viaEvent (viaCnt { d with via.up := BitVec.ofNat 64 (d.via.up.toNat &&& (2 ^ 64 - 1 - 2 ^ (pier % 64))) } 6) 0x0F01 pier 0 0 0
    let d := (tkeys d.via.groups).foldl (fun (d : Dev) g => epochAcked d g pier) d
    if pierUp d (pier.xor 1) || pier / 2 == ownShelf d then d
    else
      let gone := (d.via.groups.flatMap fun e => e.2.members).filter fun m => m.2 == pier / 2
      let d := memberChange d fun d => ((gone.map fun m => memberKey d m.1 m.2).eraseDups).foldl
        (fun (d : Dev) k => if (driveOf d k).st == .ok then loseMember d k .absent else d) d
      (d.via.groups.filter fun e => e.2.home / 2 == pier / 2 && e.2.successor == ownPier d && e.2.claim.isNone).foldl
        (fun (d : Dev) e => claimGroup d e.1) d

/-! ### VIADUCT_CONTROL (R457, R462, R463) -/

/-- Tell every UP pier of an accepted action. The spec names no record for it: kind 0 here, with the block. -/
def propagate (d : Dev) (blk : List Byte) : Dev :=
  (piersUp d).foldl (fun (d : Dev) p => innerSend d p 0 { payload := blk }) d

/-- A VIADUCT_CONTROL action with its block of 128 bytes. `used` names the bytes that the action uses. -/
def viaductRun (cmd action : Nat) (blk : List Byte) (s : State) (used : List Nat) (own : Dev → List (Nat × Bool)) (f : Dev → Dev) :
    Host.Outcome State Fault Refusal :=
  actIf serving s fun d =>
    let a := byteAt blk 0
    if !(slotOf d cmd).any (blockOk · blk) || (a != action && 1 ≤ a && a ≤ 6) then d
    else match adminStart d cmd 0x96 with
      | none => d
      | some (x, d) => forCmd d cmd fun d =>
        if x.dataLen != 128 then badAt d cmd 16
        else needPage d cmd x 160 rADMIN fun d =>
          let rest := (List.range 128).filter fun i => i != 0 && !used.contains i
          let checks := sortBy (fun (p q : Nat × Bool) => decide (p.1 ≤ q.1))
            ((0, a < 1 || 6 < a) :: own d ++ rest.map fun i => (i, byteAt blk i != 0))
          match blockBad checks with
          | some off => badBlock d cmd off
          | none => f d

/-- R463: ADMIT_PIER. -/
def execAdmitPier (cmd : Nat) (blk : List Byte) (s : State) : Host.Outcome State Fault Refusal :=
  viaductRun cmd 1 blk s [1] (fun _ => []) fun d =>
    let n := byteAt blk 1
    if !pierListed d n then answer d cmd 0x140 0 0
    else
      let d := if n == ownPier d then { d with via.admitted := true, via.up := BitVec.ofNat 64 (setBit d.via.up.toNat n) }
        else if pierUp d n then sendDirectory d n else d
      succeed (propagate d blk) cmd 0 0

/-- The gate piers with one of them on or off. -/
def gateSet (d : Dev) (n : Nat) (on : Bool) : Dword :=
  BitVec.ofNat 64 (if on then setBit d.via.gates.toNat n else d.via.gates.toNat &&& (2 ^ 64 - 1 - 2 ^ n))

/-- Why a pier cannot be removed: 1 it owns a volume, 2 it holds a member, 3 it gates a connection. Of another pier's connections
this one knows nothing. -/
def removeBad (d : Dev) (n : Nat) : Option Nat × Dev :=
  let own := n == ownPier d
  let gates := d.trs.conns.any fun e => connLive e.2 && isEndpoint d e.2.r.localIp
  if d.via.directory.any fun e => e.2 == n then (some 1, d)
  else if d.via.groups.any fun e => e.2.members.any fun m => m.2 == n / 2 then (some 2, d)
  else if own then (if gates then some 3 else none, d)
  else
    let (i, d) := draw d
    (if Config.freeBool i then some 3 else none, d)

/-- R463: REMOVE_PIER. -/
def execRemovePier (cmd : Nat) (blk : List Byte) (s : State) : Host.Outcome State Fault Refusal :=
  viaductRun cmd 2 blk s [1] (fun _ => [(1, 64 ≤ byteAt blk 1)]) fun d =>
    let n := byteAt blk 1
    let (bad, d) := removeBad d n
    match bad with
    | some x => answer d cmd 0x141 x 0
    | none =>
      let d := propagate d blk
      let mine := n == ownPier d
      let d := (d.via.inner.filter fun e => mine || e.1 == n).foldl (fun (d : Dev) e => closeConn d e.2 0) d
      let d := if mine then { d with via.admitted := false, via.gate := false, via.up := 0 }
        else { d with via.up := BitVec.ofNat 64 (d.via.up.toNat &&& (2 ^ 64 - 1 - 2 ^ n)), via.gates := gateSet d n false }
      succeed d cmd 0 0

/-- Members of a FORM_GROUP block: slot and shelf. -/
def blockMembers (b : List Byte) : List (Nat × Nat) :=
  (List.range (min (byteAt b 8) 32)).map fun i => let w := leAt b (16 + 2 * i) 2; (fld w 0 5, fld w 8 5)

/-- Arbiter members of a FORM_GROUP block. -/
def blockArbiters (b : List Byte) : List Nat := [byteAt b 9, byteAt b 10, byteAt b 11]

/-- May a drive be a member: listed shelf; on the own shelf offered, and OK or blank SPARE. Of another shelf's drives this pier knows
nothing. -/
def memberMay (d : Dev) (m : Nat × Nat) : Bool :=
  m.1 < 24 && (pierListed d (2 * m.2) || pierListed d (2 * m.2 + 1))
    && (m.2 != ownShelf d || ((viaPlan d).any (fun v => v.offered.getLsbD m.1)
      && [MemberSt.ok, .spare].contains (driveOf d m.1).st && (slotPos d m.1).isNone))

/-- Field checks of FORM_GROUP (R457, R462). -/
def formFields (d : Dev) (b : List Byte) : List (Nat × Bool) :=
  let ms := blockMembers b
  let n := byteAt b 8
  let j := d.pln.plan.journalCopies
  let ab := blockArbiters b
  let arbShelves := ab.filterMap fun i => (ms[i]?).map (·.2)
  let roles := ownShelf d :: ms.map (·.2)
  let journalOk := (((ms.take j).map (·.2)).eraseDups).length == min j n
  let member := fun (i : Nat) =>
    let w := leAt b (16 + 2 * i) 2
    let m := (fld w 0 5, fld w 8 5)
    if n ≤ i then w != 0
    else fld w 5 3 != 0 || fld w 13 3 != 0 || !memberMay d m || (ms.take i).contains m || (i == 0 && !journalOk)
  let head : List (Nat × Bool) :=
    [(2, 64 ≤ byteAt b 2), (3, !pierListed d (byteAt b 3) || roles.contains (byteAt b 3 / 2)), (8, n < 4 || 32 < n),
     (9, (arbShelves.eraseDups).length != 3)]
  head ++ (List.range 32).map fun i => (16 + 2 * i, member i)

/-- R457: FORM_GROUP, with this pier as home. -/
def execFormGroup (cmd : Nat) (blk : List Byte) (s : State) : Host.Outcome State Fault Refusal :=
  viaductRun cmd 3 blk s ([2, 3, 8, 9, 10, 11] ++ (List.range 64).map (16 + ·)) (fun d => formFields d blk) fun d =>
    let g := byteAt blk 2
    if thas d.via.groups g then answer d cmd 0x143 0 0
    else
      let ms := blockMembers blk
      let keys := ms.map fun m => memberKey d m.1 m.2
      let d := (keys.filter (64 ≤ ·)).foldl (fun (d : Dev) k =>
        let (n, d) := drawBits d 48
        modDrive d k fun x => { x with id.capacity := n }) d
      let x : VGroup := { home := ownPier d, successor := byteAt blk 3, members := ms, arbiters := blockArbiters blk }
      let d := setVGroup d g x
      succeed (propagate (makeGroup d (64 + g) keys id) blk) cmd 0 0

/-- R463: DISSOLVE_GROUP. -/
def execDissolveGroup (cmd : Nat) (blk : List Byte) (s : State) : Host.Outcome State Fault Refusal :=
  viaductRun cmd 4 blk s [2] (fun d => [(2, !thas d.via.groups (byteAt blk 2))]) fun d =>
    let g := byteAt blk 2
    if d.sto.vols.any fun e => e.2.lay.group == 64 + g then answer d cmd 0x143 0 0
    else
      let keys := (groupOf d (64 + g)).slots
      let d := mirror d (.st (.vgroup g none))
      let d := { d with via.groups := tdel d.via.groups g, sto.groups := tdel d.sto.groups (64 + g),
                        sto.recovery := tdel d.sto.recovery (64 + g) }
      let d := (keys.filter (· < 24)).foldl (fun (d : Dev) k => setMember (modDrive d k fun x => { x with group := 7, pos := 0 }) k .spare) d
      succeed (propagate d blk) cmd 0 0

/-- R462: GATE_ON. -/
def execGateOn (cmd : Nat) (blk : List Byte) (s : State) : Host.Outcome State Fault Refusal :=
  viaductRun cmd 5 blk s [1] (fun d => [(1, !pierListed d (byteAt blk 1))]) fun d =>
    let d := if byteAt blk 1 == ownPier d then { d with via.gate := true, via.draining := none } else { d with via.gates := gateSet d (byteAt blk 1) true }
    succeed (propagate d blk) cmd 0 0

/-- R463: GATE_OFF: no new endpoint CONNECT; the connections that remain have VIA_GATE_DRAIN_MS. -/
def execGateOff (cmd : Nat) (blk : List Byte) (s : State) : Host.Outcome State Fault Refusal :=
  viaductRun cmd 6 blk s [1] (fun d => [(1, !pierListed d (byteAt blk 1))]) fun d =>
    let d := if byteAt blk 1 == ownPier d then { d with via.gate := false, via.draining := some d.time }
      else { d with via.gates := gateSet d (byteAt blk 1) false }
    succeed (propagate d blk) cmd 0 0

/-- R463: VIA_GATE_DRAIN_MS has passed: endpoint connections close with CAPACITY. -/
def execGateDrainExpire (s : State) : Host.Outcome State Fault Refusal :=
  actIf (fun d => planned d && d.via.draining.isSome) s fun d =>
    (d.trs.conns.filter fun e => e.2.est && isEndpoint d e.2.r.localIp).foldl (fun (d : Dev) e => closeConn d e.1 3)
      { d with via.draining := none }

end Sys2Proof.Machine
end

