-- ==== Sys2Proof/Machine/Integrity.lean ====
section
/-! DEFINITION. Key pages and the entropy source: KEY_LOAD, KEY_CLEAR, ENTROPY_FAULT (R472 to R478). -/

namespace Sys2Proof.Machine

/-- KCV bytes 0 to 3 as RESULT0 (R475). -/
def kcvWord (k : KeyPage) : Nat := leAt (kcvOf k) 0 4

/-- Fields of the key block (R475). -/
def keyFields (b : List Byte) : List (Nat × Bool) :=
  let head : List (Nat × Bool) := [(0, 2 ≤ byteAt b 0), (1, 2 ≤ byteAt b 1)]
  let tail : List (Nat × Bool) := if byteAt b 0 == 0 then zeroFields b 48 16 else []
  [head, zeroFields b 2 6, zeroFields b 16 16, tail].flatten

/-- The lowest volume bound to a page whose record holds another KCV, own, being made, or the
partner's. -/
def boundOther (d : Dev) (page : Nat) (kcv : List Byte) : Option Nat :=
  let hit := fun (t : Tab Volume) => (t.find? fun e => e.2.keyPage == page && e.2.kcv != kcv).map (·.1)
  ([hit d.sto.vols, hit d.sto.making, hit d.par.store.vols].filterMap id).min?

/-- Send a key page to the partner; `act` waits for its acknowledgement (R419, R478). -/
def sendKey (d : Dev) (page : Nat) (k : Option KeyPage) (a : OnAck) : Dev :=
  pairOn { d with par.keyItems := (d.par.keyItems.filter fun x => x.page != page) ++ [{ page, key := k, act := a }] } false
    (.key page k)

/-- The table "KEY_LOAD outcomes". -/
def keyLoadGo (d : Dev) (c : Nat) (x : Slot) (b : List Byte) : Dev :=
  let page := leAt x.cap 4 2
  let key := blockKey b
  let kcv := kcvOf key
  match blockBad (keyFields b) with
  | some off => badBlock d c off
  | none =>
    if byteAt b 1 == 1 && (b.drop 8).take 8 != kcv then answer d c 0x151 1 0
    else match boundOther d page kcv with
      | some v => answer d c 0x150 v 0
      | none =>
        if paired d && !pwUp d then answer d c 0x152 0 0
        else if (tget d.itg.pages page).any fun k => kcvOf k == kcv then succeed d c (kcvWord key) 0
        else if paired d then
          sendKey (modSlot d c fun s => { s with waitFor := true, result := some (stSUCCESS, kcvWord key, 0) }) page (some key) (.answer c)
        else
          let d := succeed d c (kcvWord key) 0
          match slotOf d c with
          | some s => loadKey d { s with data := b }
          | none => d

/-- R475: KEY_LOAD: the capsule is judged first, then the block. -/
def execKeyLoad (cmd : Nat) (blk : List Byte) (s : State) : Host.Outcome State Fault Refusal :=
  actIf serving s fun d =>
    match slotOf d cmd with
    | none => d
    | some x0 =>
      if (keyPageBad d x0).isNone && !blockOk x0 blk then d
      else match adminStart d cmd 0x8A with
        | none => d
        | some (x, d) => forCmd d cmd fun d => match keyPageBad d x with
          | some (st, r0, r1) =>
            answer (if st == stACCESS then deny d x.master 3 r0 rADMIN else d) cmd st r0 r1
          | none => if x.dataLen != 64 then badAt d cmd 16 else keyLoadGo d cmd x blk

/-- R477, R478: KEY_CLEAR: the page is EMPTY at once for what comes later; held commands lose their tags. -/
def execKeyClear (cmd : Nat) (s : State) : Host.Outcome State Fault Refusal :=
  adminRun s cmd 0x8B fun x d => match keyPageBad d x with
    | some (st, r0, r1) => answer (if st == stACCESS then deny d x.master 3 r0 rADMIN else d) cmd st r0 r1
    | none =>
      let page := leAt x.cap 4 2
      if !thas d.itg.pages page then succeed d cmd 0 0
      else
        let d := itgEvent (itgCntN { d with itg.pages := tdel d.itg.pages page, itg.clearing := addNew d.itg.clearing page } 5 1)
          0x1002 (some page) 0xFF 0xFFFF
        let bound := fun (v : Nat) => (volOf d v).any fun y => y.keyPage == page
        let d := { d with cmd.slots := d.cmd.slots.map fun e =>
          if e.2.phase == .held && bound e.2.vol then (e.1, { e.2 with tags := [], key := none }) else e }
        let d := if paired d then sendKey d page none .nothing else d
        finishDeletes (modSlot d cmd fun s => { s with waitFor := true })

/-- R472: the entropy source fails a health test: hardening off, RNG_FAULT, event 0x1005. -/
def execEntropyFault (s : State) : Host.Outcome State Fault Refusal :=
  actIf (fun d => running d && !d.itg.rngFault) s fun d => itgEvent { d with itg.rngFault := true } 0x1005 none 0xFF 0xFFFF

end Sys2Proof.Machine
end

