-- ==== Sys2Proof/Machine/Admin.lean ====
section
/-! DEFINITION. Sanitize, format, self-test and image update (R484 to R504). -/

namespace Sys2Proof.Machine

/-! ### Scope and checks (R484, R485) -/

def stNOTOWNED : Nat := 0x160
def stNOSAN : Nat := 0x161
def stTESTING : Nat := 0x162
def stNOFLASH : Nat := 0x163
def stNOTMAINT : Nat := 0x164
def stIMAGE : Nat := 0x105

/-- Events 0x1101 to 0x1107: the volume, then an ACTION, a code or a TARGET, then the result code (R504). -/
def admEvent (d : Dev) (ev attn vol what code : Nat) : Dev :=
  logEvent d ev attn (if vol == 0xFFFF then .none else .volume vol) (le 2 vol ++ le 1 what ++ le 1 code)

/-- Volumes that a shelf operation covers: those that this device owns (R484). -/
def shelfVols (d : Dev) : List Nat := tkeys (tfilter d.sto.vols fun _ v => ownsVol d v && v.lay.group < 64)

/-- Formed layout groups of this device. -/
def shelfGroups (d : Dev) : List Nat := (List.range 6).filter fun g => (groupOf d g).formed && ownsGroup d g

/-- Members and dedicated spares of the shelf that are there to be written (R491). -/
def shelfSlots (d : Dev) : List Nat :=
  let all := (shelfGroups d).flatMap (fun g => (groupOf d g).slots) ++ d.pln.plan.spares
  (sortN all).eraseDups.filter fun k => (driveOf d k).bring == .ready

/-- The drives that receive the Sanitize command: no arbiter drive (R491). -/
def sanSlots (d : Dev) : List Nat := (shelfSlots d).filter fun k => !d.pln.plan.arbiters.contains k

/-- The first volume in scope whose state excludes the operation, and that state (R485). -/
def busyVol (d : Dev) (vols : List Nat) : Option Nat := vols.findSome? fun v =>
  let st := volState d v
  if [0, 4, 5, 6, 8].contains st then some st else none

/-- The first formed group that a shelf operation of a paired device does not own; group 7 stands for a role. -/
def notOwned (d : Dev) : Option Nat :=
  if d.pln.plan.unpaired then none
  else
    match (List.range 6).find? fun g => bitAt (planGroups d) g && !ownsGroup d g
        && ((groupOf d g).formed || thas d.par.store.groups g) with
    | some g => some g
    | none => if ownRole d && partnerRole d then none else some 7

/-- Bad fields of a SANITIZE block (R484, R485). -/
def sanFields (b : List Byte) : List (Nat × Bool) :=
  let a := byteAt b 1
  let p := byteAt b 2
  let head : List (Nat × Bool) :=
    [(1, a < 1 || 3 < a || (a != 1 && byteAt b 0 != 1)), (2, if a == 2 then p != 0 else p < 1 || 16 < p), (3, 2 ≤ byteAt b 3)]
  head ++ zeroFields b 12 52

/-- Bad fields of a FORMAT block (R484). -/
def fmtFields (d : Dev) (b : List Byte) : List (Nat × Bool) :=
  let k := leAt b 10 2
  let t := byteAt b 8
  let g := byteAt b 9
  let head : List (Nat × Bool) :=
    [(1, byteAt b 1 != 0), (2, byteAt b 2 != 0), (3, 2 ≤ byteAt b 3), (8, t != 0 && t != 8 && t != 16), (9, 4 < g && g != 0xFF),
     (10, k != 0xFFFF && d.pln.plan.keyPages ≤ k)]
  head ++ zeroFields b 12 52

/-- The operation that a block asks for. -/
def opOf (d : Dev) (vol op : Nat) (b : List Byte) : AdmOp :=
  { vol, op, action := byteAt b 1, passes := byteAt b 2, invert := bitAt (byteAt b 3) 0, pattern := BitVec.ofNat 32 (leAt b 4 4),
    start := d.time, tagSize := byteAt b 8, granule := byteAt b 9, keyPage := leAt b 10 2 }

/-! ### The start (R486, R487) -/

/-- What a SANITIZE or FORMAT does to the outstanding commands of a volume (table "Commands during sanitize and format"). -/
def stopCmds (d : Dev) (v : Nat) (sanitize : Bool) : Dev :=
  d.cmd.slots.foldl (fun (d : Dev) (e : Nat × Slot) =>
    let s := e.2
    if !isVolIo s.op || s.vol != v || s.to_.isSome || s.result.isSome then d
    else if sanitize then
      if s.pnr then d
      else
        let d := unlockAll (dropTransfers d e.1) e.1
        modSlot d e.1 fun x => { x with result := some (stABSAN, v, 0), phase := .answered, abortSeen := true, works := [],
                                        xferFail := none, waitFor := false, ownerWait := false }
    else if s.phase == .held then answer d e.1 stABORTED 0 0
    else d) d

/-- Does a command still work on the volume? A sanitize or format write to its blocks waits for it (R487). -/
def volBusy (d : Dev) (v : Nat) : Bool :=
  d.cmd.slots.any fun e => isVolIo e.2.op && e.2.vol == v && e.2.to_.isNone && e.2.phase != .answered && e.2.phase != .generated

/-- The restoration of a volume's band stops while the volume is SANITIZING (R489). -/
def stopBands (d : Dev) (vols : List Nat) : Dev :=
  { d with sto.groups := d.sto.groups.map fun e =>
      if e.2.restoring.any fun b => vols.contains (keyVol b.1) then (e.1, { e.2 with restoring := none, redo := [], passes := 0 }) else e }

/-- Put the volumes in scope under the operation: records, mirror items, and the commands meanwhile. -/
def enterOp (d : Dev) (vols : List Nat) (o : AdmOp) : Dev :=
  let sanitize := o.op == 1
  let d := vols.foldl (fun (d : Dev) v =>
    modVol d v fun x => { x with sanitizing := sanitize, formatting := !sanitize, op := some { o with slabsTotal := x.lay.slabs.length } }) d
  let d := ((vols.filterMap fun v => (volOf d v).map (·.lay.group)).eraseDups).foldl writeRecords d
  let d := vols.foldl (fun d v => mirror d (.st (.volume v (volOf d v)))) d
  let d := vols.foldl (fun d v => stopCmds d v sanitize) d
  if sanitize then stopBands d vols else d

/-- Answer SUCCESS once every item mirrored so far is acknowledged. -/
def answerMirrored (d : Dev) (c : Nat) (vols : List Nat) : Dev :=
  match vols.getLast? with
  | some v => answerAfter d c (.st (.volume v (volOf d v))) stSUCCESS 0 0
  | none => succeed d c 0 0

/-- Check a SANITIZE or FORMAT in the order of R485, and start it. -/
def opGo (d : Dev) (c : Nat) (o : AdmOp) (vols : List Nat) (start : Dev → Dev) : Dev :=
  match busyVol d vols with
  | some st => answer d c stBUSY st 0
  | none =>
    match if o.vol == 0xFFFF then notOwned d else none with
    | some g => answer d c stNOTOWNED g 0
    | none =>
      let lacks := (sanSlots d).find? fun k =>
        !(if o.action == 2 then (driveOf d k).id.sanBlockErase else (driveOf d k).id.sanOverwrite)
      match if o.op == 1 && o.action != 1 then lacks else none with
      | some k => answer d c stNOSAN k 0
      | none =>
        if o.op == 2 && o.keyPage != 0xFFFF && !thas d.itg.pages o.keyPage then answer d c stKEY o.keyPage 0
        else
          let total := vols.foldl (fun (n : Nat) v => n + ((volOf d v).map (·.lay.slabs.length)).getD 0) 0
          let shelf : AdmOp := { o with slabsTotal := total }
          let d := if o.vol == 0xFFFF then { d with adm.ops := [shelf] } else d
          let d := enterOp d vols o
          let d := if o.op == 1 then admEvent d 0x1101 0 o.vol o.action 0 else d
          answerMirrored (start d) c vols

/-- A SANITIZE or FORMAT: capsule, right, block, the right on a new key page (R146), then the checks (R484, R485). `mine` says which blocks this row is for; a block with
bad fields is refused by any. -/
def opRun (cmd code : Nat) (blk : List Byte) (s : State) (mine : Bool) (fields : List (Nat × Bool)) (start : Dev → Dev) :
    Host.Outcome State Fault Refusal :=
  actIf serving s fun d =>
    if !(slotOf d cmd).any (blockOk · blk) || !mine then d
    else match adminStart d cmd code with
      | none => d
      | some (x, d) => forCmd d cmd fun d =>
        let op := if code == 0x8C then 1 else 2
        let key := fun (f : Dev → Dev) (d : Dev) =>
          if op == 2 && leAt blk 10 2 != 0xFFFF then needKey d cmd x (leAt blk 10 2) f else f d
        if !x.msub && x.dataLen != 64 then badAt d cmd 16
        else if byteAt blk 0 == 0 then
          if x.vol == 0xFFFF then badAt d cmd 4
          else needVol d cmd x rADMIN fun vol d => needOwner d cmd vol fun d => match blockBad fields with
            | some off => badBlock d cmd off
            | none => key (fun d => opGo d cmd (opOf d x.vol op blk) [x.vol] start) d
        else if byteAt blk 0 == 1 then
          if x.vol != 0xFFFF then badAt d cmd 4
          else needPage d cmd x 80 rADMIN fun d => match blockBad fields with
            | some off => badBlock d cmd off
            | none => key (fun d => opGo d cmd (opOf d 0xFFFF op blk) (shelfVols d) start) d
        else badBlock d cmd 0

/-! ### Overwrite (R488 to R490, R495) -/

/-- Is a member there to be written (R347)? -/
def memberUp (d : Dev) (k : Nat) : Bool := (driveOf d k).st == .ok || (driveOf d k).st == .rebuilding

/-- Write a pattern over a slab and its tag shadows on a member (R319, R488). -/
def fillSlab (d : Dev) (g slab key : Nat) (pattern : Word) : Dev :=
  let l : Layout := {}
  let d := driveSend d g key (.fill (chunkAddr l slab 0) (2 ^ 30) pattern)
  driveSend d g key (.fill (shadowAddr l (groupOf d g).slabs slab 0) (4 * 2 ^ 20) pattern)

/-- Zero the body of every VESTIBULE record of a volume in the ring, of this lap or an earlier one, on every live copy (R488). -/
def zeroVestibule (d : Dev) (g v : Nat) : Dev :=
  let j := (groupOf d g).journal
  let mine := (j.recs.filter fun e => e.r.volume == v && isVestibule e.r).map (fun e => (e.off, e.len))
    ++ (j.passed.filter fun e => e.1 == v).map (·.2)
  let d := mine.foldl (fun d e =>
    j.live.foldl (fun d i => driveSend d g (copyDrive d g i) (.fill (64 * 1048576 + e.1 + 64) (e.2 - 64) 0)) d) d
  modGroup d g fun x => { x with journal.passed := x.journal.passed.filter fun e => e.1 != v }

/-- Clear the allocation map and the lost-extent list, on the drives too (R488, R494). -/
def clearMaps (d : Dev) (v : Nat) : Dev :=
  let blocks := (((volOf d v).map fun x => x.alloc.map (· / 32768)).getD []).eraseDups
  let d := modVol d v fun x => { x with alloc := [], lost := [] }
  writeLost (blocks.foldl (fun d b => writeAllocBlock d v (32768 * b)) d) v

/-- Every band of a volume is restored (R489). -/
def allRestored (d : Dev) (v : Nat) (vol : Volume) : Dev :=
  let bands : List BandId := (layoutsOf v vol).flatMap fun x => (List.range x.2.slabs.length).flatMap fun e =>
    (List.range (layBands x.2 (groupN d vol.lay.group))).map fun b => (x.1, e, b)
  modGroup d vol.lay.group fun x => { x with
    restored := x.restored.filter (fun r => keyVol r.2.1 != v) ++ x.failed.flatMap fun f => bands.map fun b => (f.1, b) }

/-- Record a volume's changed operation: its record and its item (R495). -/
def putOp (d : Dev) (v : Nat) (f : Volume → Volume) : Dev :=
  let d := modVol d v f
  mirror (writeRecords d (((volOf d v).map (·.lay.group)).getD 0)) (.st (.volume v (volOf d v)))

/-- PERCENT of an overwrite. -/
def owPercent (o : AdmOp) : Nat := (o.pass * o.slabsTotal + o.slabsDone) * 100 / max (o.passes * o.slabsTotal) 1

/-- The shelf entry follows the volumes under it: the lowest pass, the slabs done in it, and the end with the last volume. -/
def shelfRefresh (d : Dev) : Dev :=
  match d.adm.ops.head? with
  | none => d
  | some o =>
    if o.state != 0 || (o.op == 1 && o.action != 1) then d
    else
      let vs := d.sto.vols.filterMap fun e => e.2.op.filter fun x => x.vol == 0xFFFF && x.op == o.op && x.start == o.start
      let live := vs.filter (·.state == 0)
      let pass := live.foldl (fun (m : Nat) x => min m x.pass) (o.passes - 1)
      let done := vs.foldl (fun (n : Nat) x => n + if x.state != 0 || pass < x.pass then x.slabsTotal else x.slabsDone) 0
      let missed := vs.foldl (fun (m : Nat) x => m ||| x.unreached) 0
      let o' : AdmOp := { o with pass := pass, slabsDone := done, unreached := missed }
      if live.isEmpty then
        let fin : AdmOp := { o' with state := if missed == 0 then 1 else 2, percent := 100, finish := d.time }
        admEvent { d with adm.ops := [fin] } (if o.op == 1 then 0x1102 else 0x1103) 0 0xFFFF o.action fin.state
      else { d with adm.ops := [{ o' with percent := owPercent o' }] }

/-- The overwrite of a volume is over (R488, R489). -/
def endOverwrite (d : Dev) (v : Nat) (vol : Volume) (o : AdmOp) : Dev :=
  let d := clearMaps (allRestored (zeroVestibule d vol.lay.group v) v vol) v
  let fin : AdmOp := { o with state := if o.missed == 0 then 1 else 2, unreached := o.missed, percent := 100, finish := d.time, only := 0 }
  let d := putOp d v fun x => { x with sanitizing := false, op := some fin }
  if o.vol == 0xFFFF then d else admEvent d 0x1102 0 v 1 fin.state

/-- A slab of the pass is written: on to the next slab, the next pass, a further round for members that came back, or the end. -/
def nextSlab (d : Dev) (v : Nat) (vol : Volume) (o : AdmOp) : Dev :=
  let last := o.slabsTotal ≤ o.slabsDone + 1
  let o : AdmOp := if last then { o with pass := o.pass + 1, slabsDone := 0 } else { o with slabsDone := o.slabsDone + 1 }
  if o.pass < o.passes then putOp d v fun x => { x with op := some { o with percent := owPercent o } }
  else
    let late := maskOf ((bitList o.missed 24).filter (memberUp d))
    if late == 0 then endOverwrite d v vol { o with pass := o.passes - 1, slabsDone := o.slabsTotal }
    else putOp d v fun x => { x with op := some { o with pass := 0, missed := o.missed - late, only := late } }

/-- Write one slab of the current pass on every available member and replacement, or on those that came back (R488, R489). -/
def owSlab (d : Dev) (v : Nat) (vol : Volume) (o : AdmOp) : Dev :=
  let g := vol.lay.group
  let pattern := if o.invert && o.pass % 2 == 1 then ~~~o.pattern else o.pattern
  let slots := (memberSlots d g).eraseDups.filter fun k => o.only == 0 || bitAt o.only k
  let d := match vol.lay.slabs[o.slabsDone]? with
    | some slab => (slots.filter (memberUp d)).foldl (fun d k => fillSlab d g slab k pattern) d
    | none => d
  nextSlab d v vol { o with missed := o.missed ||| maskOf (slots.filter fun k => k < 24 && !memberUp d k) }

/-- The one pass of zeros over an arbiter drive's slabs, shadows and journal area in a drive sanitize (R491). -/
def arbSlab (d : Dev) (o : AdmOp) : Dev :=
  let arbs := (shelfSlots d).filter fun k => d.pln.plan.arbiters.contains k
  let d := if o.slabsDone == 0 then arbs.foldl (fun d k => driveSend d 0 k (.fill (64 * 1048576) ringBytes 0)) d else d
  let d := arbs.foldl (fun d k => match (slotPos d k) with
    | some (g, _) => if o.slabsDone < (groupOf d g).slabs then fillSlab d g o.slabsDone k 0 else d
    | none => d) d
  modShelf d fun o => { o with slabsDone := o.slabsDone + 1 }

/-- R492: every drive is done: the volumes go, the drives are blank and SPARE, the groups are to be formed again. -/
def sanFinish (d : Dev) (o : AdmOp) : Dev :=
  let vols := tkeys (tfilter d.sto.vols fun _ v => v.sanitizing && v.op.any fun x => x.vol == 0xFFFF)
  let slots := shelfSlots d
  let groups := shelfGroups d
  let d := vols.foldl (fun d v => mirror (removeVol d v) (.st (.volume v none))) d
  let d := groups.foldl (fun (d : Dev) g => mirror { d with sto.groups := tdel d.sto.groups g } (.st (.group g {}))) d
  let d := slots.foldl (fun (d : Dev) k =>
    let d := setMember (modDrive d k fun x => { x with group := 7, pos := 0, sanFails := 0, sanitize := false }) k .present
    if bitAt o.failedSlots k then d else becomeSpare d k) d
  let d := (slots.filter fun k => d.pln.plan.arbiters.contains k).foldl (fun d k => writeHeader d k 3) d
  let fin : AdmOp := { o with state := if o.failedSlots == 0 then 1 else 2, percent := 100, finish := d.time }
  admEvent { d with adm.ops := [fin] } 0x1102 0 0xFFFF o.action fin.state

/-- Finish the drive sanitize once no drive is left to be done. -/
def sanCheck (d : Dev) : Dev :=
  match sanShelf d with
  | some o => if o.missed == 0 && o.slabsTotal ≤ o.slabsDone then sanFinish d o else d
  | none => d

/-- Do the operations on volumes go on here: not in TAKEOVER, nor with PWR_FAIL set (R96, R391, R538)? -/
def opsRun (d : Dev) : Bool := serving d && d.glb.st != .takeover && !d.pwr.fail

/-- R495, R488: the overwrite cursor is written, each second or, with `finished`, at the end of a slab; volume 0xFFFF names the pass
over the arbiter drives. An overwrite is background I/O, which pauses in TAKEOVER
and under PWR_FAIL and starts nothing while its volume is paused (R391, R490). -/
def execOverwriteCursorTick (vol : Nat) (finished : Bool) (s : State) : Host.Outcome State Fault Refusal :=
  actIf opsRun s fun d =>
    if vol == 0xFFFF then
      match sanShelf d with
      | some o => if finished && o.slabsDone < o.slabsTotal && !d.sto.vols.any (fun e => e.2.sanitizing && volBusy d e.1)
          then sanCheck (arbSlab d o) else d
      | none => d
    else match volOf d vol with
      | none => d
      | some x => match x.op with
        | none => d
        | some o =>
          if !x.sanitizing || o.op != 1 || o.action != 1 || o.state != 0 || volBusy d vol || !ownsVol d x
              || d.sto.bgPaused || x.pause then d
          else if finished then shelfRefresh (owSlab d vol x o)
          else putOp d vol id

/-! ### Drive sanitize (R491 to R493) -/

/-- Mark the headers, and issue the command to every drive unless a command still works on a block of the shelf. -/
def sanStart (d : Dev) : Dev :=
  let slots := sanSlots d
  let arbs := (shelfSlots d).filter fun k => d.pln.plan.arbiters.contains k
  let total := arbs.foldl (fun (m : Nat) k => max m (((slotPos d k).map fun p => (groupOf d p.1).slabs).getD 1)) 0
  let d := modShelf d fun o => { o with missed := maskOf slots, slabsTotal := total, slabsDone := 0 }
  let d := (shelfSlots d).foldl (fun (d : Dev) k => modDrive d k fun x => { x with sanFails := 0, id.hdr.sanitizePending := true }) d
  let d := (shelfGroups d).foldl writeRecords d
  let d := (shelfSlots d).foldl (fun (d : Dev) k => match slotPos d k with
    | some (g, _) => if (driveOf d k).st == .ok then d else writeHead d g k (groupOf d g).epoch
    | none => writeHeader d k (driveOf d k).id.hdr.kind) d
  match sanShelf d with
  | some o =>
    let d := (shelfVols d).foldl (fun d v => putOp d v fun x => { x with op := some o }) d
    if (shelfVols d).any (volBusy d) then d else slots.foldl (fun d k => sanIssue d k o) d
  | none => d

/-- R491, R493: the Sanitize Status log of a drive. A drive that has not had its command yet gets it. -/
def execSanitizeStatusPoll (slot : Nat) (done : Bool) (failed : Bool) (s : State) : Host.Outcome State Fault Refusal :=
  actIf serving s fun d => match sanShelf d with
    | none => d
    | some o =>
      if !bitAt o.missed slot then d
      else
        let (n, d) := draw d
        let d := modShelf d fun x => { x with percent := Config.freeNat n % 101 }
        if !(driveOf d slot).sanitize then
          (if (shelfVols d).any (volBusy d) then d else sanIssue d slot o)
        else if failed then sanCheck (sanFail d slot o)
        else if done then sanCheck (sanDone d slot false)
        else d

/-- R488: SANITIZE OVERWRITE. -/
def execSanitizeOverwrite (cmd : Nat) (blk : List Byte) (s : State) : Host.Outcome State Fault Refusal :=
  opRun cmd 0x8C blk s (byteAt blk 1 != 2 && byteAt blk 1 != 3) (sanFields blk) shelfRefresh

/-- R491: SANITIZE BLOCK_ERASE. -/
def execSanitizeBlockErase (cmd : Nat) (blk : List Byte) (s : State) : Host.Outcome State Fault Refusal :=
  opRun cmd 0x8C blk s (byteAt blk 1 != 1 && byteAt blk 1 != 3) (sanFields blk) fun d => sanCheck (sanStart d)

/-- R491: SANITIZE DRIVE_OVERWRITE. -/
def execSanitizeDriveOverwrite (cmd : Nat) (blk : List Byte) (s : State) : Host.Outcome State Fault Refusal :=
  opRun cmd 0x8C blk s (byteAt blk 1 != 1 && byteAt blk 1 != 2) (sanFields blk) fun d => sanCheck (sanStart d)

/-! ### Format (R494) -/

/-- R485, R486: FORMAT. -/
def execFormatCmd (cmd : Nat) (blk : List Byte) (s : State) : Host.Outcome State Fault Refusal :=
  opRun cmd 0x8D blk s true (fmtFields s.dev blk) shelfRefresh

/-- R494: the journal head has passed every live record of the volume: the format is applied. The KCV recorded where the page has
become EMPTY since is not stated. -/
def execFormatApply (vol : Nat) (s : State) : Host.Outcome State Fault Refusal :=
  actIf opsRun s fun d => match volOf d vol with
    | none => d
    | some x => match x.op with
      | none => d
      | some o =>
        if !x.formatting || !ownsVol d x || volBusy d vol || (groupOf d x.lay.group).journal.recs.any (·.r.volume == vol) then d
        else
          let page := if o.keyPage == 0xFFFF then x.keyPage else o.keyPage
          let (kcv, d) := match tget d.itg.pages page with
            | some k => (kcvOf k, d)
            | none => freeBytes d 8
          let fin : AdmOp := { o with state := 1, percent := 100, finish := d.time, slabsDone := o.slabsTotal }
          let d := putOp (clearMaps d vol) vol fun x => { x with
            formatting := false, tagSize := if o.tagSize == 0 then x.tagSize else o.tagSize,
            granule := if o.granule == 0xFF then x.granule else o.granule, keyPage := page, kcv, op := some fin }
          shelfRefresh (if o.vol == 0xFFFF then d else admEvent d 0x1103 0 vol 0 1)

/-! ### Self-test (R496 to R498) -/

/-- The running self-test. -/
def testRunning (d : Dev) : Option TestRes := d.adm.tests.head?.filter (·.result == 3)

/-- The running test ends with a result, held with attention 0x4 (R498, R504). -/
def testEnd (d : Dev) (f : TestRes → TestRes) : Dev :=
  match testRunning d with
  | none => d
  | some t =>
    let t := f { t with finish := d.time }
    admEvent { d with adm.tests := t :: d.adm.tests.drop 1 } 0x1104 0x4 0xFFFF t.code t.result

/-- The block work of a test runs in BIST slices: every sliced domain in service takes one at once (R497). -/
def testSlices (d : Dev) : List (Nat × Nat) :=
  (((List.range 7).map fun b => (pdBUF (b + 1), 0)) ++ (List.range 3).map (fun t => (pdTRS (t + 1), 0))
    ++ (List.range 4).map (fun e => (pdECE e, 0)) ++ (List.range 4).map (fun i => (pdITG i, 0))
    ++ (List.range 4).map (fun c => (pdCPU c, if c == 0 then 1 else 0)) ++ [(pdHBM0, 0), (pdHBM1, 0)]).filter fun u => domOn d u.1

/-- A SELF_TEST of one code; an unknown code is refused by any of the three. -/
def testRun (cmd code : Nat) (s : State) (f : Dev → Dev) : Host.Outcome State Fault Refusal :=
  actIf serving s fun d => match slotOf d cmd with
    | none => d
    | some x0 =>
      let a := byteAt x0.cap 8
      if a != code && (a == 1 || a == 2 || a == 0xF) then d
      else match adminStart d cmd 0x8E with
        | none => d
        | some (x, d) => forCmd d cmd fun d => needPage d cmd x 176 rADMIN fun d =>
          if a != code then badAt d cmd 8 else f d

/-- Start a test (R496): the drives get their own self-tests, all at once for a short one, one member of each group for an extended
one. -/
def testStart (d : Dev) (c code : Nat) : Dev :=
  match testRunning d with
  | some t => answer d c stTESTING t.code 0
  | none =>
    let slots := if code == 1 then (List.range 24).filter fun k => (driveOf d k).st == .ok || (driveOf d k).st == .spare
      else (shelfGroups d).filterMap fun g => (groupOf d g).slots.find? fun k => (driveOf d k).st == .ok
    let t : TestRes := { code, start := d.time }
    let d := { d with adm.tests := (t :: d.adm.tests).take 8, bst.urgent := (d.bst.urgent ++ testSlices d).eraseDups }
    succeed (emits d (slots.map fun k => .drive k (.selfTest (code == 2)))) c 0 0

/-- R496: SELF_TEST short. -/
def execSelfTestShort (cmd : Nat) (s : State) : Host.Outcome State Fault Refusal := testRun cmd 1 s fun d => testStart d cmd 1

/-- R496: SELF_TEST extended. -/
def execSelfTestExtended (cmd : Nat) (s : State) : Host.Outcome State Fault Refusal := testRun cmd 2 s fun d => testStart d cmd 2

/-- R496: SELF_TEST stop. -/
def execSelfTestStop (cmd : Nat) (s : State) : Host.Outcome State Fault Refusal :=
  testRun cmd 0xF s fun d => succeed (testEnd d fun t => { t with result := 2 }) cmd 0 0

/-- R497: a short test still running at 120 s. Which items still run the commands do not tell: a free value, not 0. -/
def execSelfTestTimeout (s : State) : Host.Outcome State Fault Refusal :=
  actIf (fun d => (testRunning d).any (·.code == 1)) s fun d =>
    let (n, d) := draw d
    let (fails, d) := drawBits d 24
    let (first, d) := drawBits d 32
    testEnd d fun t => { t with result := 1, items := Config.freeNat n % 255 + 1, driveFails := fails, first }

/-- R497, R498: every item is done. -/
def execSelfTestComplete (failed : Word) (driveFails : BitVec 24) (first : Word) (s : State) : Host.Outcome State Fault Refusal :=
  actIf (fun d => (testRunning d).isSome) s fun d =>
    let items := failed.toNat % 256
    testEnd d fun t => { t with
      result := if items == 0 then 0 else 1, percent := 100, items,
      driveFails := driveFails.toNat, first := first.toNat }

/-! ### Image update (R499 to R502) -/

/-- Bad fields of an IMAGE_LOAD block (R499). -/
def imageFields (b : List Byte) : List (Nat × Bool) :=
  let head : List (Nat × Bool) :=
    [(0, 2 ≤ byteAt b 0), (4, leAt b 4 4 % 4096 != 0), (8, (if byteAt b 0 == 0 then 8388608 else 4194304) < leAt b 8 4)]
  [head, zeroFields b 1 3, zeroFields b 12 52].flatten

/-- The flash that IMAGE_LOAD writes: the second of the boot order, and A where there is but one (R500). -/
def loadFlash (d : Dev) : Bool := d.glb.bootSrc == 0

/-- Operations on a flash at 100 MHz (R57). -/
def spiOps (d : Dev) (flashB : Bool) (ops : List Byte) : Dev := emits d (ops.map fun o => .spi flashB o 100)

/-- The result code of a firmware image, or of a floor plan image, under R500. -/
def imageCheck (d : Dev) (target : Nat) (fw : FwImage) (img : PlanImage) : Nat :=
  if target == 0 then fwResult d fw else planResult d img

/-- Take a piece of an image of TARGET; a load begins with an erase of its area, and after the final piece the image is read back and
checked: a failure erases its first 4,096 bytes (R499, R500). Which erase opcode an area takes the spec leaves open (log entry 80). -/
def imagePiece (d : Dev) (c : Nat) (b : List Byte) (piece : List Byte) (fw : FwImage) (content : Plan) (left : List Nat) : Dev :=
  let len := piece.length
  let target := byteAt b 0
  let off := leAt b 4 4
  let start := off == 0
  let total := leAt b 8 4
  let held := if start then [] else ((tget d.adm.loads target).map (·.2)).getD []
  let had := held.length
  if !start && (!thas d.adm.loads target || had != off) then badBlock d c 4
  else if total < off + len || (len % 4096 != 0 && off + len != total) then badAt d c 16
  else
    let bytes := held ++ piece
    let d := { d with adm.loads := tset d.adm.loads target (total, bytes), adm.checked := d.adm.checked.filter (· != target) }
    let d := spiOps d (loadFlash d) (if start then [0xDC, 0x12] else [0x12])
    if had + len < total then succeed d c (had + len) 0
    else
      let d := spiOps { d with adm.loads := tdel d.adm.loads target } (loadFlash d) [0x6C]
      let check := imageCheck d target fw { bytes, content, left }
      if check == 1 then
        succeed (admEvent { d with adm.checked := addNew d.adm.checked target } 0x1105 0 0xFFFF target 1) c (had + len) 0
      else answer (admEvent (spiOps d (loadFlash d) [0x21]) 0x1105 0 0xFFFF target check) c stIMAGE check 0

/-- R499, R500: IMAGE_LOAD. `read` says what the whole image reads as where the spec gives its content no layout. -/
def execImageLoad (cmd : Nat) (blk : List Byte) (read : ImageRead) (s : State) : Host.Outcome State Fault Refusal :=
  adminBlock s cmd 0x8F blk fun x d => needPage d cmd x 0 rADMIN fun d =>
    match blockBad (imageFields blk) with
    | some off => badBlock d cmd off
    | none =>
      if d.glb.bootSrc == 3 then answer d cmd stNOFLASH 0 0
      else if d.glb.bootSrc == 2 && d.glb.st != .maint then answer d cmd stNOTMAINT (stCode d.glb.st) 0
      else imagePiece d cmd blk (fit (x.dataLen - 64) (blk.drop 64)) read.fw read.content read.left

/-- Bad fields of an IMAGE_ACTIVATE block (R501). -/
def activateFields (b : List Byte) : List (Nat × Bool) :=
  let head : List (Nat × Bool) := [(0, 4 ≤ byteAt b 0), (1, 4 ≤ byteAt b 1)]
  head ++ zeroFields b 2 62

/-- Raise the flagged OTP counters, check the named images, and reset to them (R501). -/
def activateGo (d : Dev) (c : Nat) (b : List Byte) (fw : FwImage) (img : PlanImage) : Dev :=
  let t := byteAt b 0
  let d := if bitAt (byteAt b 1) 0 then { d with glb.otpFw := max d.glb.otpFw d.glb.fwRoll } else d
  let d := if bitAt (byteAt b 1) 1 then { d with glb.otpPlan := max d.glb.otpPlan d.pln.plan.rollback } else d
  if t == 0 then succeed d c 0 0
  else
    let d := spiOps d (loadFlash d) ((bitList t 2).map fun _ => 0x6C)
    let bad := (bitList t 2).map (fun i => imageCheck d i fw img) |>.find? (· != 1)
    if let some check := bad then answer d c stIMAGE check 0
    else
    let d := { d with glb.loadFirst := d.glb.loadFirst || d.glb.bootSrc != 2, adm.resetAfter := some c }
    let d := if bitAt t 0 then admEvent d 0x1106 0 0xFFFF 0 1 else d
    succeed (if bitAt t 1 then admEvent d 0x1106 0 0xFFFF 1 1 else d) c 0 0

/-- R501: IMAGE_ACTIVATE. `fw` and `img` are the images found in the flash that R500 writes. -/
def execImageActivate (cmd : Nat) (blk : List Byte) (fw : FwImage) (img : PlanImage) (s : State) :
    Host.Outcome State Fault Refusal :=
  adminBlock s cmd 0x90 blk fun x d =>
    if !x.msub && x.dataLen != 64 then badAt d cmd 16
    else needPage d cmd x 0 rADMIN fun d => match blockBad (activateFields blk) with
      | some off => badBlock d cmd off
      | none =>
        if d.glb.st != .maint then answer d cmd stNOTMAINT (stCode d.glb.st) 0
        else if d.glb.bootSrc == 3 && byteAt blk 0 != 0 then answer d cmd stNOFLASH 0 0
        else activateGo d cmd blk fw img

/-- R502: both images of the second flash are copied into the first. The TARGET byte of event 0x1107 is not stated. -/
def execImageCopyFirstFlash (s : State) : Host.Outcome State Fault Refusal :=
  actIf (fun d => d.adm.copyOwed && (d.glb.st == .service || d.glb.st == .maint)) s fun d =>
    let (n, d) := drawBits d 8
    let d := spiOps (spiOps d (loadFlash d) [0x6C]) (!loadFlash d) [0xDC, 0x12]
    admEvent { d with adm.copyOwed := false } 0x1107 0 0xFFFF n 1

end Sys2Proof.Machine
end

