-- ==== Sys2Proof/Machine/Ethernet.lean ====
section
/-! DEFINITION. The commands of the Ethernet ports, the switch core and the egress scheduler (R152 to R201). -/

namespace Sys2Proof.Machine

/-- The Ethernet reference of a port: 0 for E0 to E3, 1 for E4 to E7 and PW. -/
def portClk (p : Nat) : Nat := if macroOf p < 4 then 0 else 1

/-- Does a switch port exist with its domain ready, in a state that has its links up (R112, R119)? -/
def portLive (d : Dev) (p : Nat) : Bool :=
  planned d && p ≤ 32 && swPortExists d p && domOn d (portDomain p) && !d.sense.clkLost.contains (portClk p)

/-- R157: an attempt to bring a down port up starts, as long as its power domain is on. -/
def execPortBringupAttempt (p : Nat) (s : State) : Host.Outcome State Fault Refusal :=
  actIf (fun d => portLive d p && !(portOf d p).up && (portOf d p).attempt.isNone) s fun d => startAttempt d p

/-- The port is up: its lanes have lock, frames kept within LINK_HOLD resume in queue order (R157, R191). -/
def portComesUp (d : Dev) (p : Nat) : Dev :=
  let d := modPort d p fun x => { x with up := true, attempt := none, retrain := false, down := none, holdDone := false }
  let d := (portOf d p).lanes.foldl (fun d l => modLane d (macroOf p) l fun x => { x with lock := true }) d
  if p == 32 then gatedGo (sendKeys (sendLeft d)) else d

/-- R157, R191: an attempt reaches link up. -/
def execPortLinkUp (p : Nat) (s : State) : Host.Outcome State Fault Refusal :=
  actIf (fun d => portLive d p && (portOf d p).attempt.isSome) s fun d => portComesUp d p

/-- R157, R159, R160: an attempt that has not reached link up fails; after a retrain the failure is charged to the lanes
blamed, or to every lane of the port. -/
def execPortBringupTimeout (p : Nat) (blame : List Nat) (s : State) : Host.Outcome State Fault Refusal :=
  actIf (fun d => portLive d p && (portOf d p).attempt.isSome) s fun d =>
    let x := portOf d p
    let d := modPort d p fun x => { x with attempt := none }
    if !x.retrain then d
    else
      let named := x.lanes.filter blame.contains
      (if named.isEmpty then x.lanes else named).foldl (fun d l => chargeLane d p l) d

/-- R158: loss of lock, FEC errors or remote fault start a retrain; the port is down from its start. The spec does not say which
lanes of a port lose lock: every lane counts the loss (R177; DESIGN CHOICE, log entry 84). -/
def execPortRetrainTrigger (p : Nat) (cause : RetrainCause) (s : State) : Host.Outcome State Fault Refusal :=
  actIf (fun d => portLive d p && (portOf d p).up) s fun d =>
    let d := if cause == .lockLoss then (portOf d p).lanes.foldl (fun d l => laneStat d (macroOf p) l 1) d else d
    restartPort d p true

/-- R158: a write of RETRAIN bits to ETH_LANE_CTRL. -/
def execEthLaneRetrain (m : Master) (mac : Nat) (lanes : BitVec 4) (s : State) : Host.Outcome State Fault Refusal :=
  actIf (fun d => running d && mac ≤ 8) s fun d =>
    writeAccess d m (ethBase mac + 0x10) fun d => laneCtrl d mac (BitVec.ofNat 32 (lanes.toNat <<< 4))

/-- R162: a write of RESTORE bits to ETH_LANE_CTRL. -/
def execEthLaneRestore (m : Master) (mac : Nat) (lanes : BitVec 4) (s : State) : Host.Outcome State Fault Refusal :=
  actIf (fun d => running d && mac ≤ 8) s fun d =>
    writeAccess d m (ethBase mac + 0x10) fun d => laneCtrl d mac (BitVec.ofNat 32 lanes.toNat)

/-- R191: UP clears on a port. -/
def execPortLinkDown (p : Nat) (s : State) : Host.Outcome State Fault Refusal :=
  actIf (fun d => portLive d p && (portOf d p).up) s fun d => if p == 32 then resendB (portDown d p) else portDown d p

/-- R191 step 3b: LINK_HOLD has passed with the port still down. -/
def execLinkHoldExpire (p : Nat) (s : State) : Host.Outcome State Fault Refusal :=
  actIf (fun d => planned d && p ≤ 32 && swPortExists d p && !(portOf d p).up && !(portOf d p).holdDone) s fun d => holdExpired d p

/-- R178: a frame is received on a switch port. -/
def execFrameIngress (p : Nat) (f : Frame) (s : State) : Host.Outcome State Fault Refusal :=
  actIf (fun d => portLive d p && (portOf d p).up) s fun d => ingress d p f

/-- R163, R165: an Annex 31B pause frame is received; it is counted, and acts only with PAUSE_EN. -/
def execPauseFrameReceive (p : Nat) (quanta : Half) (s : State) : Host.Outcome State Fault Refusal :=
  actIf (fun d => portLive d p && (portOf d p).up) s fun d =>
    let d := ethStat (ethStat (macControl d p 0) p 20) p 5
    if pauseEn d p then pwdPause d p 8 quanta.toNat else d

/-- R163, R165: a PFC frame is received; each enabled priority is counted, and acts only with its PFC_EN bit. -/
def execPfcFrameReceive (p : Nat) (enable : Byte) (quanta : List Half) (s : State) : Host.Outcome State Fault Refusal :=
  actIf (fun d => portLive d p && (portOf d p).up) s fun d =>
    (bitList enable.toNat 8).foldl (fun d r =>
      let d := ethStat d p (6 + r)
      if pfcEn d p r then pwdPause d p r (quanta.getD r 0).toNat else d) (ethStat (macControl d p 0) p 20)

/-- R165: the quanta timer of an instance expires. -/
def execPauseQuantaExpire (p : Nat) (inst : Nat) (s : State) : Host.Outcome State Fault Refusal :=
  actIf (fun d => portLive d p && (pwdOf d p inst).st == .held) s fun d =>
    setPwd d p inst { pwdOf d p inst with st := .open }

/-- A watchdog instance expires (R165, R166): PWD_EXPIRE, event 0x0602, and under DRAIN every frame queued for it goes. -/
def pwdExpire (d : Dev) (p inst : Nat) : Dev :=
  let drain := bitAt (pwdCfg d p) 31
  let d := ethStat d p (48 + inst % 8)
  let d := logEvent d 0x0602 0 .none (le 1 p ++ le 1 (if inst == 8 then 0xFF else inst))
  let d := setPwd d p inst { pwdOf d p inst with st := .recover, drain, recAt := d.time }
  if drain then (List.range 16).foldl (fun d q => discardFrames d p q 9 fun f => inst == 8 || f.prio == inst) d else d

/-- R165: the watch timer of an instance reaches WATCH_US. -/
def execPwdWatchExpire (p : Nat) (inst : Nat) (s : State) : Host.Outcome State Fault Refusal :=
  actIf (fun d => portLive d p && (pwdOf d p inst).st == .held) s fun d => pwdExpire d p inst

/-- R165: the recovery timer of an instance reaches RECOVERY_MS and ACTION ends. -/
def execPwdRecoveryExpire (p : Nat) (inst : Nat) (s : State) : Host.Outcome State Fault Refusal :=
  actIf (fun d => portLive d p && (pwdOf d p inst).st == .recover) s fun d => setPwd d p inst {}

/-- R164: the device refreshes its pause or PFC with quanta 0xFFFF while its condition lasts, and ends it with quanta 0. -/
def execPauseRefresh (p : Nat) (prio : Nat) (s : State) : Host.Outcome State Fault Refusal :=
  actIf (fun d => portLive d p && (portOf d p).up && ((losslessKey d p prio).any d.swc.xoff.contains)) s fun d =>
    match losslessKey d p prio with
    | some k => if xoffOver d k then sendXon d k else sendPfc d (keyPort k) (keyPrio k) 0xFFFF
    | none => d

/-- The copy that an internal source offers, its checksums computed (R172): its egress port by name or through a group (R180, R185).
An ECMP member's VID gives an untagged frame a tag (DESIGN CHOICE, log entry 86). -/
def internalCopy (d : Dev) (f : IntFrame) : Option (Nat × Frame) :=
  let fr := { f.frame with ip := f.frame.ip.map fun h => { h with hdrCkOk := true, udpCk := 1 } }
  let out := fun p (fr : Frame) => (p, retag d p none 0 f.prio fr)
  if f.dest < 64 then (if swPortExists d f.dest then some (out f.dest fr) else none)
  else (groupPick d (f.dest - 64) fr ((fr.tag.map (·.1)).getD 0)).map fun w =>
    match memberHop d (f.dest - 64) w with
    | none => out (fld w 0 6) fr
    | some (na, vid) => out (fld w 0 6) (withTag { fr with dst := na } (some (vid, (fr.tag.map (·.2)).getD f.prio)))

/-- Admit an internal frame, or answer none where R188 refuses it: it is then withheld, never discarded (R190). -/
def internalAdmit (d : Dev) (f : IntFrame) : Option Dev :=
  match internalCopy d f with
  | none => some (swcCnt d f.src 3)
  | some (p, fr) =>
    let bytes := match f.super with | some s => superBytes fr s | none => fr.len
    let cells := match f.super with | some s => superCells fr s | none => cellsOf fr.len
    let q := tcQueue d p f.prio
    let qf : QFrame := { bytes, cells, src := f.src, prio := f.prio, time := d.time, frame := fr, super := f.super, mark := f.mark }
    if p ≤ 32 && !(portOf d p).up && (portOf d p).holdDone then some (dropAt d p q 7)
    else match admitJudge d p q cells false none with
      | .shared => some (storeFrame d qf [(p, fr)] false false)
      | _ => none

/-- R190: ports 33 to 35 offer a frame; a frame that the buffer refuses is withheld and counts a HOLDOFF. -/
def execInternalFrameOffer (f : IntFrame) (s : State) : Host.Outcome State Fault Refusal :=
  actIf (fun d => planned d && 33 ≤ f.src && f.src ≤ 35 && f.super.all (superOk f.src)) s fun d =>
    match internalAdmit d f with
    | some d => d
    | none => swcCnt { d with swc.holdoff := d.swc.holdoff ++ [f] } f.src 14

/-- The queue that a withheld frame waits for. -/
def internalQueue (d : Dev) (f : IntFrame) : Option (Nat × Nat) := (internalCopy d f).map fun c => (c.1, tcQueue d c.1 f.prio)

/-- The first of some withheld frames that the buffer admits, each queue's in their order: `full` are queues whose oldest waits on. -/
def admitFirst (d : Dev) : List IntFrame → List (Nat × Nat) → Option (IntFrame × Dev)
  | [], _ => none
  | f :: l, full =>
    if (internalQueue d f).any full.contains then admitFirst d l full
    else match internalAdmit d f with
      | some d' => some (f, d')
      | none => admitFirst d l (full ++ (internalQueue d f).toList)

/-- R190: the core accepts a frame withheld from a source, the oldest that R188 admits with no older one before it in its queue. -/
def execHoldoffAccept (src : Nat) (s : State) : Host.Outcome State Fault Refusal :=
  actIf (fun d => planned d) s fun d =>
    match admitFirst d (d.swc.holdoff.filter (·.src == src)) [] with
    | some (f, d) => { d with swc.holdoff := d.swc.holdoff.erase f }
    | none => d

/-- An uncorrectable cell error in a bank, which one the spec leaves open; at the third within 60 s a bank that BIST can take has
its slice at once (R514). -/
def bankError (d : Dev) : Dev :=
  let (n, d) := draw d
  let b := Config.freeNat n % max d.pln.plan.banks 1
  let errs := ((tgetD d.bst.cellErrs b []).filter fun t => d.time < t + 60000000000) ++ [d.time]
  let d := { d with bst.cellErrs := tset d.bst.cellErrs b errs }
  if 3 ≤ errs.length && 1 ≤ b then { d with bst.urgent := (d.bst.urgent ++ [(pdBUF b, 0)]).eraseDups } else d

/-- The port is free: pick chooses a frame (R196); an aged frame at the head of its queue is discarded first (R192), and a frame with
a cell error is discarded (R199). -/
def startNext (d : Dev) (p : Nat) (cellErr : Bool) : Dev :=
  let d := (List.range 16).foldl (fun d q => ageHeads d p q) d
  match pickQueue d p with
  | (none, d) => d
  | (some q, d) =>
    if cellErr then
      match (queueOf d p q).frames with
      | [] => d
      | f :: rest =>
        let d := modQueue d p q fun x => { x with frames := rest }
        bankError (leaveIfEmpty (freeCopy (dropAt d p q 11) f) p q)
    else startFrom d p q

/-- The rest of a super-frame goes back to the head of its queue, paid for already. -/
def setAside (d : Dev) (p : Nat) (t : Tx) : Dev :=
  let d := modEgress d p fun x => { x with tx := none }
  let rest := (queueOf d p t.q).frames
  let d := modQueue d p t.q fun x => { x with frames := [] }
  let d := enqueue d p t.q { t.f with seg := t.seg, bytes := 0 }
  modQueue d p t.q fun x => { x with frames := x.frames ++ rest }

/-- The segment under way is over: the next one can start, or the cells are freed after the last. -/
def nextSegment (d : Dev) (p : Nat) (t : Tx) (sp : Super) : Dev :=
  if t.seg + 1 < segCount sp then
    modEgress d p fun x => { x with tx := some { t with seg := t.seg + 1, sending := false } }
  else
    let d := if p ≤ 32 then ethStat d p 45 else d
    freeCopy (modEgress d p fun x => { x with tx := none }) t.f

/-- R196: the port can start a frame: the next segment of a super-frame, or the frame that pick chooses. Where the super-frame's queue
is halted its rest waits at the head of that queue while others send (R163; DEDUCED, log entry 91). A cell error discards a segment not started, and
a cut-through frame under way is stomped (R199). -/
def execFrameTransmitStart (p : Nat) (cellErr : Bool) (s : State) : Host.Outcome State Fault Refusal :=
  actIf (fun d => planned d && p < 36 && swPortExists d p && portUp d p) s fun d =>
    match (egressOf d p).tx with
    | none => startNext d p cellErr
    | some t =>
      if t.sending then
        if cellErr && t.f.cut && !t.f.stomp then
          bankError (modEgress d p fun x => { x with tx := some { t with f := { t.f with stomp := true } } })
        else d
      else if p ≤ 32 && queueHalted d p t.q then startNext (setAside d p t) p cellErr
      else match cellErr, t.f.super with
        | true, some sp => bankError (nextSegment (dropAt d p t.q 11) p t sp)
        | _, _ =>
          let t := { t with sending := true, time := d.time }
          startWire (modEgress d p fun x => { x with tx := some t }) p t

/-- R193: a frame or segment finishes sending; after the last, its cells are freed. -/
def txComplete (d : Dev) (p : Nat) : Dev :=
  match (egressOf d p).tx with
  | none => d
  | some t =>
    if !t.sending then d
    else
      match t.f.super with
      | some sp =>
        let d := txStats d p t.f (segBytes t.f.frame sp t.seg)
        nextSegment (if p ≤ 32 then ethStat d p 46 else d) p t sp
      | none =>
        let d := txStats d p t.f t.f.bytes
        let d := match t.f.frame.ptp with
          | some sq => if t.f.mark && p ≤ 32 then ptpPush d p sq t.time else d
          | none => d
        freeCopy (modEgress d p fun x => { x with tx := none }) t.f

/-- R193, R174: FRAME_TRANSMIT_COMPLETE. -/
def execFrameTransmitComplete (p : Nat) (s : State) : Host.Outcome State Fault Refusal :=
  actIf (fun d => planned d && p < 36) s fun d => txComplete d p

/-- R192: frames older than 10 ms are discarded: at the head of a queue, or anywhere in a queue of a port that is down. -/
def execFrameAgeDiscard (p : Nat) (q : Nat) (s : State) : Host.Outcome State Fault Refusal :=
  actIf (fun d => planned d && p < 36 && q < 16) s fun d =>
    if portUp d p then ageHeads d p q else discardFrames d p q 8 fun f => f.time + 10000000 < d.time

/-- R181: an entry not seen as a source for its age is removed. -/
def execFdbAgeOut (vid : Nat) (addr : Nat) (s : State) : Host.Outcome State Fault Refusal :=
  actIf planned s fun d => { d with swc.fdb := d.swc.fdb.filter fun e => !(e.vid == vid && e.addr == addr) }

/-- R181: a write of SWC_FDB_FLUSH. -/
def execSwcFdbFlush (m : Master) (v : Word) (s : State) : Host.Outcome State Fault Refusal :=
  actIf running s fun d => writeAccess d m 0x20001C fun d => fdbFlush d v

/-- R176: a read of ETH_PTP_TS_LO takes the oldest transmit timestamp. -/
def execEthPtpTsRead (m : Master) (mac : Nat) (s : State) : Host.Outcome State Fault Refusal :=
  actIf (fun d => running d && mac ≤ 8) s fun d =>
    if pageHas d m (ethBase mac / 0x10000) rREAD then
      let (v, d) := ptpRead d mac
      { d with reg.readVal := v }
    else { deny d m 0 (ethBase mac + 0x200) rREAD with reg.readVal := 0 }

end Sys2Proof.Machine
end

