-- ==== Sys2Proof/Machine/Bist.lean ====
section
/-! DEFINITION. Built-in self-test slices, repair, fuses, HBM and other faults (R505 to R519). -/

namespace Sys2Proof.Machine

/-! ### The sliced units (R505, R507) -/

/-- Sliced units of a domain (table "Test inventory"). -/
def sliceUnits (n : Nat) : Nat :=
  if n == pdHBM0 || n == pdHBM1 then 24576
  else if (pdBUF 1 ≤ n && n ≤ pdBUF 7) || (pdTRS 1 ≤ n && n ≤ pdTRS 3) || (pdECE 0 ≤ n && n ≤ pdECE 3) then 1
  else if pdITG 0 ≤ n && n ≤ pdITG 3 then 8
  else if pdCPU 0 ≤ n && n ≤ pdCPU 3 then 4
  else 0

/-- The first sliced unit of a domain: core 0 of CPU0 is not sliced. -/
def sliceFirst (n : Nat) : Nat := if n == pdCPU 0 then 1 else 0

/-- The first unit of the next sliced domain, in ascending order and round again. -/
def nextDomain : Nat → Nat → Nat × Nat
  | 0, n => (n, sliceFirst n)
  | f + 1, n => let m := (n + 1) % 64; if sliceUnits m != 0 then (m, sliceFirst m) else nextDomain f m

/-- The unit after this one. -/
def nextUnit (u : Nat × Nat) : Nat × Nat := if u.2 + 1 < sliceUnits u.1 then (u.1, u.2 + 1) else nextDomain 64 u.1

/-- Is the unit a sliced one in a domain that is on, and not held out? -/
def unitIn (d : Dev) (u : Nat × Nat) : Bool :=
  sliceFirst u.1 ≤ u.2 && u.2 < sliceUnits u.1 && domOn d u.1 && !d.bst.held.contains u

/-- The next unit from this one on that is there to be visited. -/
def visitFrom (d : Dev) : Nat → Nat × Nat → Nat × Nat
  | 0, u => u
  | f + 1, u => if unitIn d u then u else visitFrom d f (if domOn d u.1 && sliceUnits u.1 != 0 then nextUnit u else nextDomain 64 u.1)

/-- The lane number of a unit of an integrity domain. -/
def laneNo (u : Nat × Nat) : Nat := 8 * (u.1 - pdITG 0) + u.2

/-- Integrity lanes in service. -/
def lanesIn (d : Dev) : List Nat := (List.range 32).filter fun l =>
  domOn d (pdITG (l / 8)) && !d.itg.lanesOut.contains l && !d.bst.held.contains (pdITG (l / 8), l % 8)

/-- Erasure engines in service. -/
def enginesIn (d : Dev) : List Nat := (List.range 4).filter fun e => domOn d (pdECE e) && !d.bst.held.contains (pdECE e, 0)

/-- BIST may take a bank only when the remaining banks would still hold twice the reserves and headroom (R190). -/
def bankFree (d : Dev) : Bool := 2 * reservedCells d ≤ (banksIn d - 1) * 49152

/-- Is a hand-over running (R438)? -/
def handoverOn (d : Dev) : Bool := d.par.givingStarted || d.par.taking.isSome

/-- The conditions on the device under which a slice is started (R508). -/
def slicesRun (d : Dev) : Bool :=
  bitAt (liveN d 0xB00000) 0 && (d.glb.st == .service || d.glb.st == .maint) && !d.pwr.bistPaused && !d.pwr.fail && !handoverOn d
    && domOn d pdBST && !d.glb.shutdown

/-- The conditions on the unit (R190, R508). -/
def unitFree (d : Dev) (u : Nat × Nat) : Bool :=
  if pdBUF 1 ≤ u.1 && u.1 ≤ pdBUF 7 then bankFree d
  else if pdECE 0 ≤ u.1 && u.1 ≤ pdECE 3 then 2 ≤ (enginesIn d).length
  else if pdITG 0 ≤ u.1 && u.1 ≤ pdITG 3 then 2 ≤ (lanesIn d).length && !d.itg.lanesOut.contains (laneNo u)
  else true

/-- The unit is taken: a Trestle quarter evicts its contexts; the slice is counted. -/
def sliceTake (d : Dev) (u : Nat × Nat) : Dev :=
  let d := bstCnt { d with bst.active := some u.1, bst.unit := u.2, bst.since := d.time } 0
  let d := if pdTRS 1 ≤ u.1 && u.1 ≤ pdTRS 3 then quarterDown d (u.1 - pdTRS 0) else d
  if pdITG 0 ≤ u.1 && u.1 ≤ pdITG 3 then bstCnt d 5 else d

/-- R507: the controller selects the next unit: one that takes its slice at once before its turn comes. A unit whose conditions
fail waits for its next turn (R508). -/
def execBistSliceStart (s : State) : Host.Outcome State Fault Refusal :=
  actIf (fun d => slicesRun d && d.bst.active.isNone) s fun d =>
    match d.bst.urgent with
    | u :: rest =>
      let d := { d with bst.urgent := rest }
      if unitIn d u && unitFree d u then sliceTake d u else d
    | [] =>
      let u := visitFrom d 256 d.bst.next
      let d := { d with bst.next := nextUnit u }
      if unitIn d u && unitFree d u then sliceTake d u else d

/-- R509: the unit was not drained within 50 µs. -/
def execSliceDrainTimeout (s : State) : Host.Outcome State Fault Refusal := actIf (fun d => d.bst.active.isSome) s sliceAbandon

/-! ### What a segment finds (R510, R511) -/

/-- Is the unit the last sliced one of an essential block (R118, R511)? -/
def lastEssential (d : Dev) (u : Nat × Nat) : Bool :=
  if pdECE 0 ≤ u.1 && u.1 ≤ pdECE 3 then (enginesIn d).isEmpty
  else if u.1 == pdITG 0 then (List.range 8).all fun l => d.itg.lanesOut.contains l || d.bst.held.contains (pdITG 0, l)
  else if u.1 == pdCPU 0 then [1, 2, 3].all fun c => d.bst.held.contains (pdCPU 0, c)
  else false

/-- An unrepairable failure holds the unit out of service; the last one of an essential block is a fatal fault (R511). -/
def holdUnit (d : Dev) (u : Nat × Nat) : Dev :=
  let d := { d with bst.held := if d.bst.held.contains u then d.bst.held else d.bst.held ++ [u], bst.repeat_ := d.bst.repeat_.erase u,
                    bst.fails := recent d d.bst.fails 60000000000 ++ [d.time] }
  let d := faultEvent (bstCnt d 4) 0x1202 0 u.1 u.2 0
  let d := if pdITG 0 ≤ u.1 && u.1 ≤ pdITG 3 then laneFail d (laneNo u) else d
  if lastEssential d u then shutdown { d with par.unfit := true } else d

/-- A failing row or column: a spare and an entry of the table are taken, and the segment is repeated; a repeated segment that fails,
an instance with no spare left and a full table are unrepairable. -/
def softRepair (d : Dev) (u : Nat × Nat) (f : SramFault) : Dev :=
  if d.bst.repeat_.contains u || !spareLeft d f then holdUnit d u
  else if 4096 ≤ d.bst.soft.length then holdUnit (faultEvent d 0x1206 0 u.1 u.2 0) u
  else bstCnt { softAdd d (.sram f) with bst.repeat_ := d.bst.repeat_ ++ [u] } 3

/-- A segment passes: a soft repair that it repeated has succeeded (R510). -/
def segPassed (d : Dev) (u : Nat × Nat) : Dev :=
  if d.bst.repeat_.contains u then faultEvent { d with bst.repeat_ := d.bst.repeat_.erase u } 0x1201 0 u.1 u.2 0 else d

/-- The key of a unit among the tests under way. -/
def segKey (u : Nat × Nat) : Nat := 32768 * u.1 + u.2

/-- R507, R510, R511: a test segment ends; the unit returns to service, or is held out. -/
def execSliceSegmentEnd (r : SegResult) (s : State) : Host.Outcome State Fault Refusal :=
  actIf (fun d => d.bst.active.isSome) s fun d => match d.bst.active with
    | none => d
    | some n =>
      let u := (n, d.bst.unit)
      let d := sliceOver d
      match r with
      | .repairable inst column => softRepair d u { dom := u.1, unit := u.2, inst, column }
      | .logicFail => holdUnit d u
      | .more => segPassed { d with bst.seg := tset d.bst.seg (segKey u) (tgetD d.bst.seg (segKey u) 0 + 1) } u
      | .pass =>
        segPassed { (if n == pdHBM0 || n == pdHBM1 then bstCnt d 6 else d) with bst.seg := tdel d.bst.seg (segKey u) } u

/-! ### Fuses (R512, R513) -/

/-- R513: a write of BST_FUSE_CTRL: BURN with its KEY, in MAINT. -/
def fuseGo (d : Dev) (v : Word) : Dev :=
  if !bitAt v.toNat 0 || fld v.toNat 16 16 != 0x3B7D then d
  else if d.glb.st != .maint then faultEvent d 0x120A 0 pdBST 0xFF 0
  else if d.bst.burning then d
  else { d with bst.burning := true, bst.burnDone := false, bst.burnFail := false }

/-- R513: FUSE_BURN. -/
def execFuseBurn (m : Master) (v : Word) (s : State) : Host.Outcome State Fault Refusal :=
  actIf running s fun d => writeAccess d m 0xB00020 fun d => fuseGo d v

/-- R513: the burn is over: the entries not yet fused took the free fuse slots in order of discovery; how many a failed burn reached
is a free value. -/
def execFuseBurnComplete (ok : Bool) (s : State) : Host.Outcome State Fault Refusal :=
  actIf (fun d => d.bst.burning) s fun d =>
    let all := min (d.bst.soft.length - d.bst.fused) (1024 - d.bst.fuseUsed)
    let (x, d) := draw d
    let n := if ok then all else Config.freeNat x % (all + 1)
    faultEvent { d with
      bst.burning := false, bst.burnDone := true, bst.burnFail := !ok, bst.burnt := n, bst.fused := d.bst.fused + n,
      bst.fuseUsed := d.bst.fuseUsed + n, bst.fuses := d.bst.fuses ++ (d.bst.soft.drop d.bst.fused).take n } 0x1205 0 pdBST 0xFF 0

/-! ### HBM (R514 to R517) -/

/-- An HBM partition of the table "HBM partition map" that recovers in its own way. -/
inductive Part where
  | cpu | rings | twin | ctx | dirty | mirror | staging | dumps | pantry
  deriving DecidableEq, Repr

/-- The partition of an HBM address, the byte in it and its bytes. The partitions follow each other in the order of the table
(PRESUMED, log entry 52). -/
def partGo (a : Nat) : List (Part × Nat) → Part × Nat × Nat
  | [] => (.staging, a, 0)
  | (p, mib) :: rest => if a < mib * 1048576 then (p, a, mib * 1048576) else partGo (a - mib * 1048576) rest

def partOf (d : Dev) (a : Nat) : Part × Nat × Nat :=
  let p := d.pln.plan
  partGo a [(.cpu, 4096), (.rings, p.ringMiB), (.twin, 64), (.ctx, 16), (.twin, 2), (.twin, 64), (.twin, 16), (.twin, 1024),
    (.dirty, 256), (.mirror, 1024), (.staging, 512), (.dumps, p.dumpMiB), (.pantry, p.pantryMiB)]

/-- An unfetched slot of a submission ring is lost: it shows no new capsule; event 0x1209 (R516). -/
def slotLost (d : Dev) (off : Nat) : Dev :=
  let at_ := off / 64 * 64
  let hit := d.cmd.sqs.find? fun e => e.2.ringOff ≤ at_ && at_ < e.2.ringOff + 64 * e.2.depth
  match hit with
  | none => d
  | some (_, r) =>
    let i := (at_ - r.ringOff) / 64
    let phase := if r.head ≤ i then r.phase else !r.phase
    if bitAt (byteAt (memReads d.trs.rings at_ 64) 1) 7 != phase then d
    else { d with trs.rings := memWrites d.trs.rings at_ ([0, if phase then 0 else 0x80] ++ zeros 62) }

/-- The dirty-region bitmap cache loses 2 KiB of a volume's bits, which the spec leaves open: every region in them is set DIRTY and
persisted (R516). -/
def dirtyLost (d : Dev) : Dev :=
  let (n, d) := draw d
  let vs := tkeys (tfilter d.sto.vols fun _ v => ownsVol d v)
  match vs[Config.freeNat n % max vs.length 1]? with
  | none => d
  | some v =>
    let (x, d) := draw d
    let count := ((volOf d v).map fun y => (volEnd y + y.dirtyRegion * 256 - 1) / max (y.dirtyRegion * 256) 1).getD 0
    let b := Config.freeNat x % max ((count + 16383) / 16384) 1
    (List.range (min 16384 (count - 16384 * b))).foldl (fun d i => needRegion d v (16384 * b + i)) d

/-- Journal staging and data staging: a command whose bytes were there starts again: a write pulls its data, a read its drives; which
one the spec leaves open (R516). -/
def stagingLost (d : Dev) : Dev :=
  let (n, d) := draw d
  let cs := d.cmd.slots.filter fun e => isVolIo e.2.op && (e.2.phase == .running || e.2.phase == .admitted) && e.2.result.isNone
  match cs[Config.freeNat n % max cs.length 1]? with
  | none => d
  | some (c, s) =>
    if isReadOp s.op then
      advanceAll (modSlot d c fun x => { x with
        works := x.works.map fun w => { w with asked := [], blk := [], shd := [], begun := false, computed := false }, tags := [], checked := [] })
    else if s.asked == 0 then d
    else pullData (modSlot d c fun x => { x with asked := 0, landed := 0 }) c

/-- A byte of the counter dump partition is lost: the record that holds it, complete or being written, is marked invalid, and no COPY
gives it any more; nor does one give a lost trace record (R516). The DETAIL is that of event 0x1303 (R542). -/
def dumpLost (d : Dev) (off : Nat) : Dev :=
  let holds := fun (at_ len : Nat) => at_ ≤ off && off < at_ + len
  let latest := d.ctr.latest.filter fun r => !holds r.1 r.2.1
  let traces := if traceBase d ≤ off && off < traceBase d + traceSize d
    then d.ctr.traces.filter fun e => memReads d.ctr.dump ((off - traceBase d) / 128 * 128 + traceBase d) 128 != e.2 else d.ctr.traces
  let writing := d.ctr.writing.filter fun r => !holds r.1 r.2.1
  logEvent { d with ctr.latest := latest, ctr.traces := traces, ctr.writing := writing } 0x1303 0x3 (.ctrSets (liveN d 0xC00014))
    (le 2 (liveN d 0xC00014) ++ zeros 2 ++ le 4 d.ctr.seq)

/-- Recover the word at an HBM address, in a pseudo-channel, that the copy could not correct (table "Uncorrectable words"). -/
def recoverWord (d : Dev) (addr : Nat) (pc : Nat) : Dev :=
  let (p, off, bytes) := partOf d addr
  match p with
  | .cpu => shutdown { d with par.unfit := true }
  | .twin =>
    -- the word is read from the other copy, which no failure of this pseudo-channel reaches
    let other := (hbmSplit (twinOther (addr - off) bytes addr)).1
    if (remapOf d).channel other == pc then d else memCnt d 5
  | .rings =>
    if paired d then d
    else
      let t := slotLost d off
      if t == d then d else faultEvent t 0x1209 0 pc 0xFF addr
  | .ctx => if thas d.trs.conns (off / 1024) then ctxError d (off / 1024) else d
  | .dirty => dirtyLost d
  | .mirror => { d with par.resynced := false }
  | .staging => stagingLost d
  | .dumps => dumpLost d off
  | .pantry => faultEvent { d with trs.pantry := memZero d.trs.pantry (off / 2048 * 2048) 2048 } 0x1209 0 pc 0xFF addr

/-- R514: an HBM ECC event at byte `addr` of pseudo-channel `pc`: a corrected error, its row spared at the second within 24 h; an
uncorrectable one retires the pseudo-channel, as do a row that finds no spare and more than 4,096 corrected errors in 1 s. The word
belongs to the slice that the channel held (R34, R36); a channel that holds none loses nothing. -/
def execHbmEccError (pc : Nat) (addr : Nat) (kind : EccKind) (s : State) : Host.Outcome State Fault Refusal :=
  actIf (fun d => running d && d.glb.st != .off && d.glb.st != .reset && decide (pc < 64)
      && domOn d (if pc < 32 then pdHBM0 else pdHBM1)) s fun d =>
    match kind with
    | .corrected again spare =>
      let d := memCnt d 0
      let times := recent d (tgetD d.bst.corrected pc []) 1000000000 ++ [d.time]
      let d := { d with bst.corrected := tset d.bst.corrected pc times }
      if 4096 < times.length then retirePc d pc addr
      else if !again then d
      else if spare then memCnt (faultEvent (softAdd d (.row pc addr)) 0x1204 0 pc 0xFF addr) 2
      else retirePc d pc addr
    | .uncorrectable copyOk =>
      let held := (remapOf d).slice pc
      let d := retirePc (memCnt d 1) pc addr
      match held with
      | some s => if copyOk then d else recoverWord d (hbmJoin s addr) pc
      | none => d

/-- Below 8,192 MiB of data staging firmware asks the partner to take over, and asks again until the request is accepted (R36,
R515). -/
def maintAsk (d : Dev) : Dev :=
  if 8192 ≤ stagingNow d then { d with par.maintRetry := false }
  else
    let d := { d with par.maintRetry := true }
    let (bad, d) := handoverBad d (ownGroups d)
    if bad.isSome || d.glb.st != .service then d
    else { d with par.maintRetry := false, par.request := none,
                  par.giving := some (BitVec.ofNat 6 (ownGroups d), heldRoles d, true) }

/-- R515: the copy of a retired slice is done: its MEM_RETIRED bit is set. -/
def execPcRetireCopyDone (pc : Nat) (s : State) : Host.Outcome State Fault Refusal :=
  actIf (fun d => running d && d.bst.copying.contains pc) s fun d =>
    maintAsk { d with bst.copying := d.bst.copying.erase pc }

/-- R515: the request is repeated every second until it is accepted. -/
def execMaintRequestRetry (s : State) : Host.Outcome State Fault Refusal := actIf (fun d => d.par.maintRetry) s maintAsk

/-! ### Other faults (R514) -/

/-- R514: a core's cache error or watchdog: the core is reset; at the second uncorrectable error within 1 h it is held off. -/
def execCpuCoreError (core : Nat) (uncorrectable : Bool) (s : State) : Host.Outcome State Fault Refusal :=
  actIf (fun d => running d && decide (core < 16) && domOn d (pdCPU (core / 4))) s fun d =>
    if !uncorrectable then d
    else
      let errs := recent d (tgetD d.bst.coreErrs core []) 3600000000000 ++ [d.time]
      let d := { d with bst.coreErrs := tset d.bst.coreErrs core errs }
      if errs.length < 2 then d
      else if core == 0 then shutdown { d with par.unfit := true }
      else
        let u := (pdCPU (core / 4), core % 4)
        if d.bst.held.contains u then d else faultEvent { d with bst.held := d.bst.held ++ [u] } 0x1202 0 u.1 u.2 0

/-- R514: a sensor is left out of TJ_MAX; the power domain of the event is not stated. -/
def execSensorDisagree (sensor : Nat) (s : State) : Host.Outcome State Fault Refusal :=
  actIf (fun d => running d && decide (sensor < 30) && !d.sense.leftOut.contains sensor) s fun d =>
    let (n, d) := drawBits d 8
    faultEvent { d with sense.leftOut := addNew d.sense.leftOut sensor } 0x1207 0 n 0xFF sensor

/-- The ports of a reference: the switch ports, or the drive ports. -/
def clockDown (d : Dev) (clk : Nat) : Dev :=
  if clk < 2 then
    (List.range 33).foldl (fun d p =>
      if portClk p != clk || !swPortExists d p then d
      else
        let d := if (portOf d p).up then (if p == 32 then resendB (portDown d p) else portDown d p) else d
        modPort d p fun x => { x with attempt := none }) d
  else
    let up := (List.range 24).filter fun k => [Bring.link, .ready].contains (driveOf d k).bring
    memberChange d fun d => up.foldl (fun d k => modDrive (faultReport d k .linkDown) k fun x => { x with bring := .released }) d

/-- R514: a reference clock is absent for 10 µs: every port that uses it goes down. The power domain of the event is not stated. -/
def execRefclkLoss (clk : Nat) (s : State) : Host.Outcome State Fault Refusal :=
  actIf (fun d => running d && decide (clk < 3) && !d.sense.clkLost.contains clk) s fun d =>
    let (n, d) := drawBits d 8
    let d := faultEvent { d with sense.clkLost := addNew d.sense.clkLost clk } 0x1208 0 n 0xFF 0
    if planned d then clockDown d clk else d

/-- R514: the clock has been present for 100 ms. -/
def execRefclkRestore (clk : Nat) (s : State) : Host.Outcome State Fault Refusal :=
  actIf (fun d => running d && d.sense.clkLost.contains clk) s fun d => { d with sense.clkLost := d.sense.clkLost.erase clk }

/-- R514: SYS_CLK25 fails, or a regulator is out of tolerance: a fatal fault. -/
def execFatalClockFault (s : State) : Host.Outcome State Fault Refusal := actIf running s fun d => shutdown { d with par.unfit := true }

/-- R505, R518: a step of a scrubber: an HBM scrub pass is counted; a unit whose SRAM holds an uncorrectable error takes its next slice
at once (R514). -/
def execScrubTick (step : ScrubStep) (s : State) : Host.Outcome State Fault Refusal :=
  actIf (fun d => d.glb.st == .service && !d.pwr.bistPaused) s fun d =>
    match step with
    | .hbmPass => memCnt d 4
    | .sram (some u) => if unitIn d u then { d with bst.urgent := (d.bst.urgent ++ [u]).eraseDups } else d
    | .driveReads | .sram none => d

end Sys2Proof.Machine
end

