-- ==== Sys2Proof/Machine/Pins.lean ====
section
/-! DEFINITION. The low-speed pins, the polarity of the lanes, the settings of the management buses, the SGPIO frame, and the
passage of time (R29 to R31, R52, R55 to R63, R66, R70, R71). -/

namespace Sys2Proof.Machine

/-! ### Pins (R55, R58, R63, R66, R70) -/

/-- What the device does with a pin; the pulls are the internal resistors of an input or of a released line. -/
inductive PinLevel where
  | low | high | highZ | pullUp | pullDown
  deriving DecidableEq, Repr

/-- The pins that the device drives or may drive; `b` says flash B. -/
inductive Pin where
  | spiClk (b : Bool) | spiCs (b : Bool) | spiIo (b : Bool) (i : Nat)
  | mgtScl | mgtSda | mgtAlert | pmbScl | pmbSda | avsClk | avsMdata | tdo
  | sgpioClock | sgpioLoad | sgpioDataOut
  | perst (n : Nat) | pwren (n : Nat) | smbScl (n : Nat) | smbSda (n : Nat)
  | thermtrip | gpio (i : Nat)
  deriving DecidableEq, Repr

/-- The column "In reset" of the table "Low-speed and clock signals" (R55). -/
def pinReset : Pin → PinLevel
  | .spiClk _ | .avsClk | .avsMdata | .sgpioClock | .sgpioLoad | .sgpioDataOut | .perst _ => .low
  | .spiCs _ => .high
  | .spiIo _ _ | .mgtScl | .mgtSda | .pmbScl | .pmbSda | .smbScl _ | .smbSda _ => .pullUp
  | .mgtAlert | .tdo | .pwren _ | .thermtrip => .highZ
  | .gpio _ => .pullDown

/-- A GPIO ball: an output shows MGT_GPIO_OUT, an input its pull (R70). -/
def gpioPin (d : Dev) (i : Nat) : PinLevel :=
  let pull := liveN d 0xD00114
  if bitAt (liveN d 0xD00100) i then (if bitAt (liveN d 0xD00104) i then .high else .low)
  else if !bitAt pull i then .highZ
  else if bitAt pull (16 + i) then .pullUp else .pullDown

/-- The drive slots are served: in RESET, OFF and HALT every PERST_N is low and every PWREN is high-Z (R63, R111). -/
def slotsLive (d : Dev) : Bool := d.glb.st != .off && d.glb.st != .reset && d.glb.st != .halt

/-- What a pin shows between the transfers of its bus: the reset column, and the function of the pins that hold a level. -/
def pinNow (d : Dev) : Pin → PinLevel
  | .mgtAlert => if d.glb.st != .off && mgtAlertLow d then .low else .highZ
  | .thermtrip => if d.glb.thermtrip then .low else .highZ
  | .perst n => if slotsLive d && (driveOf d n).bring != .down && !(driveOf d n).off then .high else .low
  | .pwren n => if slotsLive d && (driveOf d n).off then .low else .highZ
  | .gpio i => gpioPin d i
  | p => pinReset p

/-- The level at a GPIO ball (R71): an output's own; an input's as the board drives it, else its pull, else what a floating ball
gives. The board's levels are free values of device time. -/
def gpioBall (d : Dev) (i : Nat) : Bool :=
  match gpioPin d i with
  | .high => true
  | .low => false
  | .pullUp => (Config.gpioDriven d.time i).getD true
  | .pullDown => (Config.gpioDriven d.time i).getD false
  | .highZ => (Config.gpioDriven d.time i).getD (Config.gpioFloat d.time i)

/-- MGT_GPIO_IN (R70, R71). -/
def gpioLevels (d : Dev) : Nat := maskOf ((List.range 16).filter (gpioBall d))

/-! ### Lanes and buses set by the floor plan (R52, R58, R59) -/

/-- Are a lane's transmit and receive inverted? The floor plan says so for each Ethernet and partywall lane and direction (R52). -/
def laneInverted (p : Plan) (m l : Nat) : Bool × Bool :=
  if m == 8 then (bitAt p.pwTxInvert.toNat l, bitAt p.pwRxInvert.toNat l)
  else match p.macros[m]? with
    | some x => (bitAt x.txInvert.toNat l, bitAt x.rxInvert.toNat l)
    | none => (false, false)

/-- Static address of the management target: the floor plan's, 0x5C until one is applied (R58, R112). -/
def mgmtAddress (d : Dev) : Nat := if d.glb.planApplied then d.pln.plan.mgmtAddr else 0x5C

/-- Clock of the PMBus master in kHz: the floor plan's, 400 until one is applied (R59). -/
def pmbusClock (d : Dev) : Nat := if d.glb.planApplied then d.pln.plan.pmbusKhz else 400

/-! ### SGPIO (R60) -/

/-- The three bits of a slot: Activity and Locate, whose meaning the spec does not give, are free values, and Fail shows a FAILED
member (DEDUCED, log entry 76). -/
def sgpioSlot (d : Dev) (n k : Nat) : List Bool :=
  [Config.freeBool (n + 2 * k), Config.freeBool (n + 2 * k + 1), (driveOf d k).st == .failed]

/-- A frame of 72 bits: Activity, Locate and Fail, from D0 to D23; what SGPIO_SDATAIN brings back decides the continuity check alone. -/
def sgpioFrame (d : Dev) : Dev :=
  let n := d.free
  emit { d with free := n + 49, sense.sgpioOk := Config.freeBool (n + 48) } (.sgpio ((List.range 24).flatMap (sgpioSlot d n)))

/-- Does a frame of 72 bits at 100 kHz begin between two moments (R60)? -/
def sgpioDue (before now : Nat) : Bool := before / 720000 != now / 720000

/-! ### The passage of time (R29 to R31) -/

/-- Nanoseconds that one step without a command takes: 1, or 40 in deep idle, whose timebase is stopped; and a forward correction of
IEEE 1588, a free value, may be applied as a step. -/
def tickNs (d : Dev) : Nat := (if d.pwr.idle.isSome then 40 else 1) + Config.forwardStep d.time

/-- The passage of time where no command waits: domain requests whose turn has come start, and SGPIO frames leave from TRAIN on (log
entries 1, 76). -/
def idleTick (d : Dev) : Dev :=
  let t := d.time
  let d := { d with time := t + tickNs d }
  let d := if d.pwr.reqs.isEmpty then d else domServe d
  if planned d && sgpioDue t d.time then sgpioFrame d else d

end Sys2Proof.Machine
end

