-- ==== Sys2Proof/Machine/Status.lean ====
section
/-! DEFINITION. What the read-only registers show, each computed from the state it reports (the register tables of R68, R103, R123,
R142, R149, R176, R200, R247, R273, R313, R343, R377, R410, R443, R465, R481, R518 and R534). -/

namespace Sys2Proof.Machine

/-! ### Windows of pages 0 to 3 -/

/-- GLB_STRAP, GLB_STATE, GLB_RESET_CAUSE and GLB_BOOT_STATUS (R68, R123). -/
def glbStatus (d : Dev) (a : Nat) : Nat :=
  if a == 0x20 then b2n d.glb.side + 2 * d.glb.bootSrc.toNat
  else if a == 0x24 then stCode d.glb.st + (d.glb.prev <<< 4) + (d.glb.transitions <<< 8)
  else if a == 0x28 then d.glb.cause.toNat
  else d.glb.bootStatus.toNat

/-- The PWR_TEMP_MAX layout (R103). -/
def tempWord (t : Int) (sensor : Nat) : Nat := tempBits t + (sensor <<< 16)

/-- Power registers (R103). PWR_ENERGY counts whole µJ of the energy up to now. -/
def pwrReg (d : Dev) (a : Nat) : Nat :=
  let uj := (energyNow d).pwr.energy / 1000000
  if a == 4 then pwrStatus d + 0x100 * b2n d.pwr.capReject + 0x200 * b2n d.pwr.thermReject
  else if a == 8 then d.pwr.powerMw
  else if a == 0x10 then uj
  else if a == 0x14 then uj / 2 ^ 32
  else if a == 0x20 then domMask d
  else if a == 0x24 then domMask d / 2 ^ 32
  else if a == 0x34 then tempWord d.sense.tjMax d.sense.hottest
  else if a == 0x40 then d.sense.avsMv % 65536 + (d.sense.marginPct.toNat <<< 16)
  else if a == 0x44 then d.sense.slowdown.toNat
  else if 0x100 ≤ a && (a - 0x100) / 4 < 30 then tempBits (tempOf d ((a - 0x100) / 4))
  else 0

/-- Staged registers of commit group `g` that differ from their live values, ascending (R139, R142). -/
def stagedDiff (d : Dev) (g : Nat) : List Nat :=
  sortN ((d.reg.staged.filter fun e => (regInfo d e.1).any (fun i => i.kind == .rws && i.group == g) && e.2 != liveReg d e.1).map (·.1))

/-- Plan registers (R142). -/
def plnReg (d : Dev) (a : Nat) : Nat :=
  let id := d.pln.plan.planId.toNat
  let pair := d.pln.plan.pairPlanId.toNat
  if a == 0 then id
  else if a == 4 then id / 2 ^ 32
  else if a == 8 then pair
  else if a == 0xC then pair / 2 ^ 32
  else if a == 0x10 then d.pln.plan.rollback % 65536 + (d.glb.otpPlan <<< 16)
  else if a == 0x14 then d.pln.group + (d.pln.result <<< 8) + (d.pln.attempt <<< 16)
  else if a == 0x18 then d.pln.detail.toNat
  else if a < 0x200 then
    let g := (a - 0x100) / 4
    (tgetD d.pln.seq g 0 <<< 16) + 8 * b2n (!(stagedDiff d g).isEmpty)
  else match tget d.pln.locks ((a - 0x200) / 4) with
    | some m => (m.toNat <<< 16) + 0x100
    | none => 0

/-- An access entry's word: word 0 reads what its last write latched (R15, R148). -/
def entryWord (w0 : Tab Word) (t : Tab AccessEntry) (k : Nat) (word1 : Bool) : Word :=
  if word1 then (tgetD t k {}).w1 else (tget w0 k).getD (tgetD t k {}).w0

/-- Access registers (R149). -/
def accReg (d : Dev) (a : Nat) : Nat :=
  if a < 0x3800 then (entryWord d.acc.w0 d.acc.pages (a / 8) (a % 8 == 4)).toNat
  else if a == 0x4004 then d.acc.denyMaster.toNat
  else if a == 0x4008 then d.acc.denyWhere.toNat
  else if a == 0x400C then d.acc.denyTime.toNat
  else if a == 0x4010 then d.acc.challenge.toNat
  else if a == 0x4014 then d.acc.challenge.toNat / 2 ^ 32
  else b2n d.acc.unlocked + 2 * d.acc.dbgFails + 8 * b2n (3 ≤ d.acc.dbgFails)

/-! ### Ethernet, switch core, scheduler -/

/-- ETH_MACRO_CFG (R152, R155, R175, R176): FEC_LL, which 106.25 Gbit/s lanes do not have, is shown at 212.5 alone. -/
def macroCfg (d : Dev) (m : Nat) : Nat :=
  if m == 8 then (if d.pln.plan.pwEn then 4 + 8 else 0)
  else match d.pln.plan.macros[m]? with
    | some x => if x.present then x.breakout + 4 * b2n x.rate212 + 8 * b2n (x.fecLL && x.rate212) + 16 * b2n x.anEn else 0
    | none => 0

def ethReg (d : Dev) (m a : Nat) : Nat :=
  let l := tgetD d.eth.ptpLatch m (0, 0)
  if a == 0 then macroCfg d m
  else if a == 4 then portStatus d m
  else if a == 8 then laneStatus d m
  else if a == 0x204 then l.1.toNat
  else if a == 0x208 then l.2.toNat
  else 0

/-- Banks held by BIST: under test, or held out (R187, R507, R511). -/
def banksHeld (d : Dev) : Nat :=
  maskOf ((List.range 8).filter fun b => d.bst.active == some (pdBUF b) || d.bst.held.any fun u => u.1 == pdBUF b)

/-- Switch core and scheduler registers (R200); the banks of SWC_STATUS are shown bit by bit (DEDUCED, log entry 56). -/
def swcStatus (d : Dev) (a : Nat) : Nat :=
  if a == 0 then maskOf ((List.range 8).filter (bankIn d)) + (banksHeld d <<< 8)
  else if a == 4 then sharedFree d
  else if a == 8 then sharedSize d
  else if a == 0x10 then stationBase
  else if a == 0x14 then stationBase / 2 ^ 32 % 65536
  else if a == 0x18 then d.swc.fdb.length
  else if 0x10000 ≤ a && a < 0x13000 then
    (List.range 8).foldl (fun r i => r + (tcQueue d ((a - 0x12800) / 4) i <<< (4 * i))) 0
  else queueCells d ((a - 0x13000) / 0x100) (a % 0x100 / 16)

/-! ### Trestle and command engines -/

/-- Trestle registers (R247, R273). -/
def trsReg (d : Dev) (a : Nat) : Nat :=
  if a == 0 then (d.trs.conns.filter fun e => e.2.est).length + (stickyOf d 0x300000).toNat
  else if a == 4 then connLimit d
  else if a == 8 then d.pln.plan.udpPort
  else if a == 0xC then b2n d.pln.plan.payload8k
  else if a == 0x74 || a == 0x78 then liveN d (0x300000 + a)
  else if a == 0x80 then d.trs.resident.length + (d.trs.porch.length <<< 12)
  else if !d.glb.planApplied then 0
  else
    let r := regionRange d
    r.2 - (d.trs.regions.filter fun e => r.1 ≤ e.1 && e.1 < r.1 + r.2).length

/-- Command engine registers (R313). -/
def cmdReg (d : Dev) (a : Nat) : Nat :=
  if a == 0 then (if d.glb.planApplied then slotTotal d - (realSlots d).length else 0) + (stickyOf d 0x400000).toNat
  else if a == 4 then d.pln.plan.sqLimit
  else if a < 0x30 then slotReserve d ((a - 0x10) / 4)
  else if a < 0x50 then slotReserve d ((a - 0x30) / 4) - reservedUsed d ((a - 0x30) / 4)
  else if a == 0x64 then liveN d 0x400064
  else leAt d.cmd.msubCpl (a - 0x160) 4

/-! ### Storage -/

/-- STO_MEMBER_n (R343). -/
def memberReg (d : Dev) (k : Nat) : Nat :=
  let (g, p) := memberGroup d k
  memberCode (driveOf d k).st + (g <<< 3) + (p <<< 6)
    + 0x800 * b2n (g < 6 && (copyAt d g p).isSome) + 0x1000 * b2n (d.pln.plan.arbiters.contains k)
    + 0x2000 * b2n (d.pln.plan.spares.contains k)

/-- STO_JRNL_STATUS_g (R377). -/
def journalReg (d : Dev) (g : Nat) : Nat :=
  let j := (groupOf d g).journal
  (d.pln.plan.journalCopies <<< 5) + 16 * b2n j.held + 8 * b2n (j.live.length == 1) + j.live.length

/-- The phase of RECOVERY: the earliest of the groups it still runs for (R370, R377). -/
def recoveryPhase (d : Dev) : Nat :=
  let l := ((d.sto.recovery.map fun e => e.2.phase).filter fun p => 1 ≤ p && p ≤ 3) ++
    (if d.glb.st == .recovery && d.sto.recovery.isEmpty then [1] else [])
  match l with
  | [] => 0
  | x :: xs => xs.foldl min x

/-- STO_REBUILD_STATUS_g (R410). -/
def rebuildReg (d : Dev) (g : Nat) : Nat :=
  let x := groupOf d g
  let ks := x.slots
  let copyback := x.failed.any fun f => f.2.any fun k => (driveOf d k).st == .rebuilding && x.restoring.isNone && (owedBands d g).isEmpty
  (x.failed.length <<< 8) + (x.level <<< 5) + 16 * b2n (!x.journal.remirror.isEmpty) + 8 * b2n x.stalled
    + 4 * b2n (ks.any fun k => (driveOf d k).catching) + 2 * b2n copyback + b2n (restoring d g)

/-- STO_REBUILD_ETA_g: seconds left at the rate; at rate 0 the spec states none (R410). -/
def rebuildEta (d : Dev) (g : Nat) : Word × Dev :=
  let x := groupOf d g
  if x.stalled then (0xFFFFFFFF, d)
  else if x.left == 0 then (0, d)
  else if x.rate == 0 then
    let (n, d) := draw d
    (BitVec.ofNat 32 (Config.freeNat n), d)
  else (BitVec.ofNat 32 (x.left * 2 ^ 30 / (x.rate * 1000000)), d)

/-- Registers of a formed group; a group that is not formed reads 0 (R343, R377, R410). -/
def groupReg (d : Dev) (g w : Nat) : Nat :=
  let x := groupOf d g
  if !x.formed then 0
  else if w == 0 then groupN d g + (min 5 (groupN d g) <<< 8)
  else if w == 1 then x.slabs
  else if w == 2 then slabsFree d g
  else if w == 3 then journalReg d g
  else if w == 4 then jFree x.journal / 4096
  else if w == 5 then x.journal.next
  else if w == 6 then x.journal.next / 2 ^ 32
  else if w == 7 then rebuildReg d g
  else if w == 8 then x.left
  else x.rate

/-- The reshape of the selected volume (R410). -/
def reshapeReg (d : Dev) (a : Nat) : Nat :=
  match volOf d (liveN d 0x500480 % 4096) with
  | some v => match v.newLay with
    | some nl =>
      if a == 0x484 then 1 + 2 * b2n v.abandoning + 4 * b2n (yields d v nl)
      else if a == 0x488 then v.cursor else v.cursor / 2 ^ 32 % 65536
    | none => 0
  | none => 0

/-- Storage registers (R343, R377, R410). -/
def stoReg (d : Dev) (a : Nat) : Nat :=
  if a == 0 then
    volCount d + ((d.sto.groups.filter fun e => e.2.formed).length <<< 16) + (stickyOf d 0x500000).toNat
  else if a < 0x100 then groupReg d ((a - 0x10) / 16) (a % 16 / 4)
  else if a < 0x200 then memberReg d ((a - 0x100) / 4)
  else if a == 0x204 then (d.sto.vols.map fun e => (e.2.dirty.filter fun r => r.2 != .clean).length).foldl (· + ·) 0
  else if a < 0x280 then groupReg d ((a - 0x210) / 16) (3 + a % 16 / 4)
  else if a == 0x280 then recoveryPhase d
  else if a == 0x284 then d.sto.resynced
  else if a == 0x288 then d.sto.dirtyFound
  else if a == 0x408 then b2n ((volOf d (liveN d 0x500404 % 4096)).any (·.pause))
  else if a < 0x480 then groupReg d ((a - 0x410) / 16) (7 + a % 16 / 4)
  else reshapeReg d a

/-! ### Integrity, memory, pair, viaduct, BIST -/

/-- The AES input rate in GB/s × 1,000 ÷ 1,024 (R469, R481); the CORE clock has lost 1/64 for each reduction of R107, and an
entropy fault has ended the hardening (R472). -/
def aesRate (d : Dev) : Nat :=
  let h := if d.itg.rngFault then 0 else liveN d 0x700040
  800 * (lanesIn d).length * 16 * (if bitAt h 8 then 32 else 33) * (64 - d.sense.clockDrop) / (32 * (16 + h % 16) * 33 * 64)

/-- Integrity registers (R481). -/
def itgReg (d : Dev) (a : Nat) : Nat :=
  let k := liveN d 0x700010
  let kcv := match tget d.itg.pages k with | some p => unle (kcvOf p) | none => 0
  if a == 0 then (lanesIn d).length + 0x100 * b2n d.itg.rngFault + (stickyOf d 0x700000).toNat
  else if a == 4 then d.pln.plan.keyPages
  else if a == 8 then d.itg.pages.length
  else if a == 0x14 then
    b2n (thas d.itg.pages k) + 2 * b2n ((tget d.itg.pages k).any (·.aes256)) + 4 * b2n (d.itg.clearing.contains k)
      + ((d.sto.vols.filter fun e => e.2.keyPage == k).length <<< 16)
  else if a == 0x18 then kcv
  else if a == 0x1C then kcv / 2 ^ 32
  else aesRate d

/-- Memory registers (R518). -/
def memReg (d : Dev) (a : Nat) : Nat :=
  let r := retiredMask d
  let n := 32 * (b2n (domOn d pdHBM0) + b2n (domOn d pdHBM1))
  if a == 0 then n - (d.bst.retired.filter fun c => !d.bst.copying.contains c).length + (stickyOf d 0x800000).toNat
  else if a == 4 then r
  else if a == 8 then r / 2 ^ 32
  else if d.glb.planApplied then stagingNow d else 0

/-- Age of the last valid heartbeat of a path in µs, saturating (R443). -/
def hbAge (d : Dev) (p : HbPath) : Nat :=
  match p.last with
  | some t => min 65535 ((d.time - t) / 1000)
  | none => 65535

/-- Pair registers (R443). -/
def parReg (d : Dev) (a : Nat) : Nat :=
  let key := if d.glb.planApplied then reservationKey d.glb.side else 0
  if a == 4 then
    pairCode d.par.st + 8 * b2n d.par.pathA.up + 16 * b2n d.par.pathB.up + 32 * b2n (fitNow d) + 64 * b2n (partnerFit d)
      + 128 * b2n (partnerCanTake d (ownGroups d)) + (d.par.partnerState <<< 16)
  else if a == 8 then parOwnership d
  else if a == 0xC then d.par.epoch
  else if a == 0x10 then hbAge d d.par.pathA + (hbAge d d.par.pathB <<< 16)
  else if a == 0x14 then stableLeft d
  else if a == 0x18 then key
  else if a == 0x1C then key / 2 ^ 32
  else min 65535 d.par.items.length + (b2n (d.par.items.any (·.pathB)) <<< 16)

/-- Viaduct registers (R465). -/
def viaReg (d : Dev) (a : Nat) : Nat :=
  if a == 0 then
    (if ownPier d < 64 then ownPier d else 0) + 64 * b2n d.via.gate + 128 * b2n d.via.admitted + ((bitList d.via.up.toNat 64).length <<< 8)
      + (stickyOf d 0xA00000).toNat
  else if a == 8 then d.via.up.toNat
  else d.via.up.toNat / 2 ^ 32

/-- BIST registers (R518). -/
def bstReg (d : Dev) (a : Nat) : Nat :=
  let held := maskOf (d.bst.held.map (·.1)).eraseDups
  if a == 0xC then
    d.bst.active.getD 0 + 64 * b2n d.bst.active.isSome + (min 255 (bistFails d) <<< 8) + (stickyOf d 0xB0000C).toNat
  else if a == 0x10 then held
  else if a == 0x14 then held / 2 ^ 32
  else if a == 0x18 then d.bst.soft.length
  else if a == 0x1C then d.bst.fuseUsed + ((d.bst.soft.length - d.bst.fused) <<< 16)
  else b2n d.bst.burning + 2 * b2n d.bst.burnDone + 4 * b2n d.bst.burnFail + (d.bst.burnt <<< 8)

/-! ### Counter unit and pins -/

/-- Counter registers beside the counters (R534). -/
def ctrReg (d : Dev) (a : Nat) : Nat :=
  let p := d.ctr.priv.getD (0, 0, 0)
  if a == 0 then b2n (!d.ctr.topDown) + 2 * b2n d.ctr.writing.isSome + (stickyOf d 0xC00000).toNat
  else if a == 0x28 then d.ctr.seq
  else if a == 0x2C then d.ctr.next
  else if a == 0x34 then d.ctr.windowSeq
  else if a == 0x38 then d.ctr.windowNs
  else if a == 0x54 then p.2.1
  else if a == 0x58 then p.2.1 / 2 ^ 32 % 65536 + (p.1 <<< 16) + (b2n d.ctr.priv.isSome <<< 31)
  else if a == 0x5C then p.2.2
  else p.2.2 / 2 ^ 32

/-- The value of a read-only register, or of a W1C register with its read-only fields. -/
def statusReg (d : Dev) (o : Nat) : Word × Dev :=
  let v := fun (n : Nat) => (BitVec.ofNat 32 n, d)
  if o < 0x10000 then v (glbStatus d o)
  else if o < 0x20000 then v (pwrReg d (o - 0x10000))
  else if o < 0x38000 then v (plnReg d (o - 0x30000))
  else if o < 0x40000 then v (accReg d (o - 0x38000))
  else if o < 0x190000 then v (ethReg d ((o - 0x100000) / 0x10000) (o % 0x10000))
  else if o < 0x300000 then v (swcStatus d (o - 0x200000))
  else if o < 0x400000 then v (trsReg d (o - 0x300000))
  else if o < 0x500000 then v (cmdReg d (o - 0x400000))
  else if o < 0x700000 then
    if 0x500410 ≤ o && o < 0x500470 && o % 16 == 12 then
      (if (groupOf d ((o - 0x500410) / 16)).formed then rebuildEta d ((o - 0x500410) / 16) else v 0)
    else v (stoReg d (o - 0x500000))
  else if o < 0x800000 then v (itgReg d (o - 0x700000))
  else if o < 0x900000 then v (memReg d (o - 0x800000))
  else if o < 0xA00000 then v (parReg d (o - 0x900000))
  else if o < 0xB00000 then v (viaReg d (o - 0xA00000))
  else if o < 0xC00000 then v (bstReg d (o - 0xB00000))
  else if o < 0xD00000 then v (ctrReg d (o - 0xC00000))
  else v (gpioLevels d)

end Sys2Proof.Machine
end

