-- ==== Sys2Proof/Machine/Bus.lean ====
section
/-! DEFINITION. The register bus: reads and writes of configuration space, staged registers, commits and locks, access entries, debug
unlock, the TAP, and CONFIG_READ and CONFIG_WRITE (R13 to R16, R33, R54, R137 to R142, R148 to R151, R177, R521, R522). -/

namespace Sys2Proof.Machine

/-! ### Counters on the bus (R177, R520 to R522) -/

/-- The counter set of a counter's word, low or high (R520). -/
def counterSet (o : Nat) : Option Nat :=
  let within := fun (a b : Nat) => a ≤ o && o < b
  if within 0x100000 0x190000 then (if 0x1000 ≤ o % 0x10000 && o % 0x10000 < 0x3400 then some 0 else none)
  else if within 0x205800 0x206A00 || (within 0x213000 0x215400 && 8 ≤ o % 16) then some 1
  else if within 0x300100 0x3001B8 || within 0x300200 0x300278 then some 2
  else if within 0x400200 0x400280 then some 3
  else if within 0x500300 0x500380 || within 0x500500 0x500540 then some 4
  else if within 0x700100 0x700140 || within 0x800100 0x800130 || within 0xB00100 0xB00138 then some 5
  else if within 0x900100 0x900178 || within 0xA00800 0xA00840 then some 6
  else if within 0xC01000 0xC010C8 then some 7
  else if within 0xC80000 0xD00000 then some 8
  else if within 0xC40000 0xC80000 then some 9
  else if within 0xC02000 0xC023F0 then some 10
  else if within 0xC03000 0xC03020 then some 11
  else none

/-- Does a counter belong to the master's own PD, or to a volume on which that PD holds any right (R521)? -/
def counterOwn (d : Dev) (m : Master) (s o : Nat) : Bool :=
  isHost m && ((s == 8 && (o - 0xC80000) / 128 == mNumber m) || (s == 9 && anyVolRights d m ((o - 0xC40000) / 64) != 0))

/-- The right that a counter read needs: COUNTERS where the counter is the master's own, else COUNTERS_GLOBAL (R521). -/
def counterRight (d : Dev) (m : Master) (s o : Nat) : Nat := if counterOwn d m s o then rCOUNTERS else rGLOBAL

def counterMay (d : Dev) (m : Master) (s o : Nat) : Bool :=
  isFw m || holds (ctrRights d m s) (counterRight d m s o) || holds (ctrRights d m s) rGLOBAL

/-- A read of a counter that only COUNTER_SETUP clears: the window keeps one latch for each of the 16 masters that most recently
read a low word (R522). -/
def roCounter (d : Dev) (m : Master) (s o : Nat) : Word × Dev :=
  let d := if s == 7 && d.ctr.topDown then tdDraw d else d
  if o % 8 == 0 then
    let l := (m, o, cntHigh d o) :: d.ctr.latches.filter (·.1 != m)
    (cntLow d o, { d with ctr.latches := l.take 16 })
  else match d.ctr.latches.find? fun e => e.1 == m && e.2.1 + 4 == o with
    | some e => (e.2.2, d)
    | none => (cntHigh d (o - 4), d)

/-- A read of a high word: the value that the read of the low word latched, once, else the current one (R13). -/
def takeLatch (d : Dev) (o : Nat) (now : Word) : Word × Dev :=
  match tget d.reg.latch o with
  | some v => (v, { d with reg.latch := tdel d.reg.latch o })
  | none => (now, d)

/-- A read of a read-clear counter: the low word returns the value, latches the high word and clears the counter and OVF; the set
counts the clear (R177, R525). -/
def rcCounter (d : Dev) (s o : Nat) : Word × Dev :=
  if o % 8 == 0 then
    let d := fecDraw d [o]
    (cntLow d o, { d with
      reg.latch := tset d.reg.latch (o + 4) (cntHigh d o), reg.cnt := tdel d.reg.cnt o,
      ctr.clears := tmod d.ctr.clears s 0 (· + 1) })
  else takeLatch d o (cntHigh d (o - 4))

/-! ### Reads -/

/-- Low words of 64-bit values whose read latches the high word (R13). -/
def isLow (o : Nat) : Bool :=
  [0x10010, 0x10020, 0x30000, 0x30008, 0x3C010, 0x200010, 0x500488, 0x700018, 0x800004, 0x900018, 0xA00008, 0xB00010, 0xC00054,
    0xC0005C].contains o
    || (0x500218 ≤ o && o < 0x500278 && o % 16 == 8)

/-- The read-clear registers that are no 48-bit counters. -/
def rcRead (d : Dev) (o : Nat) : Word × Dev :=
  if o == 0x10018 then (cntLow d o, { d with reg.cnt := tdel d.reg.cnt o })
  else if o == 0x10038 then
    (match d.sense.peak with | some (t, s) => BitVec.ofNat 32 (tempWord t s) | none => 0, { d with sense.peak := none })
  else if o == 0x3C000 then (BitVec.ofNat 32 d.acc.denyCount, { d with acc.denyCount := 0 })
  else if o == 0x300084 then (BitVec.ofNat 32 d.trs.porchPeak, { d with trs.porchPeak := 0 })
  else ptpRead d (if o / 0x10000 == 0x18 then 8 else (o - 0x100000) / 0x10000)

/-- Registers whose write has a meaning of its own, as they read: write-only ones return 0, the token buffer returns 0 to every
master but FW_CORE (R13, R273). -/
def ownRead (d : Dev) (m : Master) (o : Nat) : Nat :=
  if o == 0x10000 then pwrCap d
  else if o == 0x10030 then thermCfg d
  else if 0x30100 ≤ o && o < 0x30300 then plnReg d (o - 0x30000)
  else if 0x38000 ≤ o && o < 0x3C000 then accReg d (o - 0x38000)
  else if o == 0x300060 then liveN d o
  else if o == 0x300064 || o == 0x300068 then (if isFw m then liveN d o else 0)
  else if o == 0x30006C then pdCtrl d + (b2n d.trs.pdBusy.isSome <<< 30) + (b2n d.trs.pdReject <<< 29)
  else if o == 0x40005C then liveN d o
  else if o == 0x400060 then quotaOf d (liveN d 0x40005C % 4096)
  else if o == 0x400140 then 2 * b2n d.cmd.msubBusy + 4 * b2n d.cmd.msubDone
  else if o == 0x700010 then liveN d o
  else if 0x700020 ≤ o && o < 0x700040 then
    (entryWord d.acc.keyW0 (keysWritten d) (4 * liveN d 0x700010 + (o - 0x700020) / 8) (o % 8 == 4)).toNat
  else if o == 0xC00050 then liveN d o
  else if 0xC10000 ≤ o && o < 0xC10800 then (entryWord d.acc.ctrW0 d.acc.ctr ((o - 0xC10000) / 8) (o % 8 == 4)).toNat
  else 0

/-- A read that has passed its access check. -/
def plainRead (d : Dev) (m : Master) (o : Nat) (i : RegInfo) : Word × Dev :=
  match i.kind with
  | .rw | .rws => (liveReg d o, d)
  | .rc | .rcHi => rcRead d o
  | .wo => (0, d)
  | .own =>
    let v := BitVec.ofNat 32 (ownRead d m o)
    -- the token buffer is a 64-bit value that only FW_CORE reads
    if o == 0x300064 && isFw m then (v, { d with reg.latch := tset d.reg.latch 0x300068 (liveReg d 0x300068) })
    else if o == 0x300068 && isFw m then takeLatch d o v
    else (v, d)
  | .ro | .w1c =>
    if isLow o then
      let (v, d) := statusReg d o
      (v, { d with reg.latch := tset d.reg.latch (o + 4) (statusReg d (o + 4)).1 })
    else
      let (v, d) := statusReg d o
      if 4 ≤ o && isLow (o - 4) then takeLatch d o v else (v, d)

/-- A register read by a master; none where it is denied, which returns 0 (R33, R146, R149, R481, R521). -/
def busRead (d : Dev) (m : Master) (o : Nat) : Option Word × Dev :=
  let ok := fun (r : Word × Dev) => (some r.1, r.2)
  if 0xE00000 ≤ o then (some 0, d)
  else if !pageHas d m (o / 0x10000) rREAD then (none, deny d m 0 o rREAD)
  else match stagedOf d o with
    | some (l, _) => (some (stagedReg d l), d)
    | none => match regInfo d o with
      | none => (some 0, d)
      | some i => match counterSet o with
        | some s =>
          if counterMay d m s o then ok (if s < 7 then rcCounter d s o else roCounter d m s o)
          else (none, deny d m 4 s (counterRight d m s o))
        | none =>
          if (o == 0x700018 || o == 0x70001C) && !holds (keyRights d m (liveN d 0x700010)) rREAD then
            (none, deny d m 3 (liveN d 0x700010) rREAD)
          else ok (plainRead d m o i)

/-! ### Commits and locks (R139 to R142) -/

/-- The configuration page that holds the registers of a commit group (R138). -/
def groupPage (g : Nat) : Nat :=
  if g < 4 then 32 else if g < 6 then 33 else if g == 6 then 48 else if g == 7 then 64 else if g == 8 then 80
  else if g == 9 then 112 else if g == 10 then 144 else if g < 20 then g + 5 else if g == 20 then 98 else if g == 21 then 192 else 128

/-- The device with the staged values of a group live. -/
def withStaged (d : Dev) (g : Nat) : Dev :=
  { d with reg.live := (stagedDiff d g).foldl (fun t o => tset t o (stagedReg d o)) d.reg.live }

/-- The first staged register of a group that is out of range (R139): dump areas lie on multiples of 4,096 (R534). -/
def rangeFail (d : Dev) (g : Nat) : Option Nat :=
  (stagedDiff d g).find? fun o =>
    let v := (stagedReg d o).toNat
    !inRanges (((regInfo d o).map (·.ranges)).getD []) v || (g == 21 && 0xC00018 ≤ o && v % 4096 != 0)

/-- Group 2: PIR at least CIR, CBS and PBS at least 9,216 bytes (R138). -/
def policerFail (d : Dev) (l : List Nat) : Option Nat :=
  (l.filterMap fun o =>
    if o < 0x203800 || 0x204800 ≤ o then none
    else
      let b := o / 16 * 16
      if liveN d (b + 4) < liveN d b then some b
      else if liveN d (b + 8) < 9216 then some (b + 8)
      else if liveN d (b + 12) < 9216 then some (b + 12) else none).head?

/-- Group 4: each queue's rate at most its port's, where the port's shaper is on (R138, R197). -/
def shaperFail (d : Dev) (l : List Nat) : Option Nat :=
  (l.filterMap fun o =>
    let p := if o < 0x212400 then (o - 0x211000) / 0x80 else (o - 0x212400) / 8
    ((List.range 16).find? fun q => pRate d p != 0 && pRate d p < qRate d p q).map fun q => 0x211000 + 0x80 * p + 8 * q).head?

/-- Bytes of a dump record of the sets in a mask (R525). -/
def setCounts (s : Nat) : Nat :=
  if s == 0 then 2556 else if s == 1 then 1152 else if s == 2 then 40 else if s == 3 then 16 else if s < 7 then 24
  else if s == 7 then 25 else if s == 8 then 65536 else if s == 9 then 32768 else if s == 10 then 126 else if s == 11 then 4 else 0

def recordBytes (mask : Nat) : Nat := ((List.range 12).filter (bitAt mask)).foldl (fun n s => n + 16 + 8 * setCounts s) 64

/-- Group 21 (R533). -/
def dumpFail (d : Dev) : Option Nat :=
  let r := fun (a : Nat) => liveN d (0xC00000 + a)
  let part := d.pln.plan.dumpMiB * 1048576
  if part < r 0x18 + r 0x1C then some 0xC00018
  else if part < r 0x20 + r 0x24 then some 0xC00020
  else if meets (r 0x18) (r 0x1C) (r 0x20) (r 0x24) then some 0xC00018
  else if r 0x1C < 2 * recordBytes (r 0x14) then some 0xC0001C
  else if r 0x24 < 65536 then some 0xC00024
  else none

/-- The relational checks of a group on its new values: RESULT and the register at fault (R138, R142). -/
def relationFail (d : Dev) (g : Nat) : Option (Nat × Nat) :=
  let l := stagedDiff d g
  let n := withStaged d g
  if l.isEmpty then none
  else if g == 0 then (membersFail n l).map (0x13, ·)
  else if g == 1 then (if 2 * reservedCells n ≤ 49152 * d.pln.plan.banks then none else l.head?.map (0x12, ·))
  else if g == 2 then (policerFail n l).map (0x11, ·)
  else if g == 3 then
    ((List.range 4).find? fun m =>
      let w := liveN n (0x203400 + 0x20 * m)
      bitAt w 0 && !portNamed d (fld w 6 6)).map fun m => (0x13, 0x203400 + 0x20 * m)
  else if g == 4 then (shaperFail n l).map (0x11, ·)
  else if g == 6 then (if liveN n 0x300040 ≤ liveN n 0x300044 then none else some (0x11, 0x300040))
  else if 11 ≤ g && g ≤ 19 then
    (l.find? fun o => o % 0x10000 < 0x110 && bitAt (liveN n o) 0 && fld (liveN n o) 8 8 != 0).map (0x11, ·)
  else if g == 21 then (dumpFail n).map (0x11, ·)
  else none

/-- Record an attempt's outcome (R142). -/
def commitDone (d : Dev) (g result detail : Nat) : Dev :=
  { d with pln.attempt := (d.pln.attempt + 1) % 65536, pln.result := result, pln.group := g, pln.detail := BitVec.ofNat 32 detail }

/-- A successful commit or discard by the holder releases the lock (R141). -/
def unlockBy (d : Dev) (m : Master) (g : Nat) : Dev :=
  if tget d.pln.locks g == some m then { d with pln.locks := tdel d.pln.locks g } else d

/-- The staged copies of a group equal its live values again. -/
def dropStaged (d : Dev) (g : Nat) : Dev :=
  { d with reg.staged := d.reg.staged.filter fun e => !(regInfo d e.1).any fun i => i.kind == .rws && i.group == g }

/-- Tokens as they stand now, so that a new rate counts from the apply cycle (R197). -/
def tokensNowAll (d : Dev) : Dev :=
  { d with
    swc.queues := d.swc.queues.map fun e => (e.1, { e.2 with tokens := queueTokens d (e.1 / 16) (e.1 % 16), tokensAt := d.time }),
    swc.egress := d.swc.egress.map fun e => (e.1, { e.2 with tokens := portTokens d e.1, tokensAt := d.time }) }

/-- New pause settings act on running timers: a cleared enable ends the instance, a passed limit expires it (R165, R167). -/
def pwdRecheck (d : Dev) (p : Nat) : Dev :=
  (List.range 9).foldl (fun d i =>
    let w := pwdOf d p i
    let cfg := pwdCfg d p
    let on := if i == 8 then pauseEn d p else pfcEn d p i
    if !thas (portOf d p).pwd i then d
    else if !on then setPwd d p i {}
    else if w.st == .held && w.watchAt + 1000 * fld cfg 0 20 ≤ d.time then pwdExpire d p i
    else if w.st == .recover && w.recAt + 1000000 * fld cfg 20 11 ≤ d.time then setPwd d p i {}
    else d) d

/-- What a block does as new values go live. -/
def afterCommit (d : Dev) (g : Nat) : Dev :=
  if g == 0 then fdbCheckVlans d
  else if g == 1 then xonAll d
  else if g == 3 then
    { d with swc.lfsr := (List.range 4).map fun i => (i, if d.time % 2 ^ 32 == 0 then 1 else BitVec.ofNat 32 d.time) }
  else if g == 4 then tokensNowAll d
  else if 11 ≤ g && g ≤ 18 then xonAll ((List.range 4).foldl (fun d s => pwdRecheck d (4 * (g - 11) + s)) d)
  else if g == 19 then xonAll (pwdRecheck d 32)
  else d

/-- Steps 4 to 7 of R142 for a COMMIT. -/
def commitGo (d : Dev) (m : Master) (g : Nat) : Dev :=
  if d.glb.st != .service && d.glb.st != .maint then commitDone d g 0x23 0
  else if (tget d.pln.locks g).any (· != m) then commitDone d g 0x21 0
  else match rangeFail d g with
    | some o => commitDone d g 0x10 o
    | none => match relationFail d g with
      | some (r, o) => commitDone d g r o
      | none =>
        if (stagedDiff d g).isEmpty then unlockBy (commitDone d g 2 0) m g
        else
          let d := if g == 4 then tokensNowAll d else d
          let d := dropStaged (withStaged d g) g
          let n := (tgetD d.pln.seq g 0 + 1) % 65536
          let d := unlockBy (commitDone { d with pln.seq := tset d.pln.seq g n } g 1 0) m g
          logEvent (afterCommit d g) 0x0502 0x2 .none (le 1 g ++ [0] ++ le 2 n ++ le 2 m.toNat)

/-- Steps 4 to 7 of R142 for a DISCARD. -/
def discardGo (d : Dev) (m : Master) (g : Nat) : Dev :=
  if d.glb.st != .service && d.glb.st != .maint then commitDone d g 0x23 0
  else if (tget d.pln.locks g).any (· != m) then commitDone d g 0x21 0
  else unlockBy (commitDone (dropStaged d g) g 3 0) m g

/-- Is a COMMIT or DISCARD a denial: WRITE is missing on page 3, or on the group's page (R142, steps 1 and 3)? -/
def commitDenied (d : Dev) (m : Master) (g : Nat) : Bool :=
  !pageHas d m 3 rWRITE || (g < 23 && !pageHas d m (groupPage g) rWRITE)

/-- A COMMIT or DISCARD (R142). -/
def commitWrite (d : Dev) (m : Master) (g : Nat) (discard : Bool) : Dev :=
  if commitDenied d m g then deny d m 0 (0x30100 + 4 * g) rWRITE
  else if 23 ≤ g then commitDone d g 0x22 0
  else if discard then discardGo d m g else commitGo d m g

/-- A CLAIM: the lock when it is free, and by FW_CORE from any holder (R141). -/
def lockClaim (d : Dev) (m : Master) (g : Nat) : Dev :=
  if isFw m || (tget d.pln.locks g).isNone then { d with pln.locks := tset d.pln.locks g m } else d

/-! ### Access entries (R148, R482, R534) -/

/-- The entry that a write of word 1 makes, with word 0 as latched. -/
def entryFrom (w0 : Tab Word) (t : Tab AccessEntry) (k : Nat) (v : Word) : AccessEntry :=
  { w0 := entryWord w0 t k false, w1 := v &&& entryMask1 }

/-- Entries of configuration pages. -/
def pageEntryW0 (d : Dev) (k : Nat) (v : Word) : Dev := { d with acc.w0 := tset d.acc.w0 k (v &&& entryMask0) }
def pageEntryW1 (d : Dev) (k : Nat) (v : Word) : Dev :=
  { d with acc.pages := tset d.acc.pages k (entryFrom d.acc.w0 d.acc.pages k v), acc.w0 := tdel d.acc.w0 k }

/-- Entries of counter sets. -/
def ctrEntry (d : Dev) (k : Nat) (word1 : Bool) (v : Word) : Dev :=
  if word1 then { d with acc.ctr := tset d.acc.ctr k (entryFrom d.acc.ctrW0 d.acc.ctr k v), acc.ctrW0 := tdel d.acc.ctrW0 k }
  else { d with acc.ctrW0 := tset d.acc.ctrW0 k (v &&& entryMask0) }

/-- Entries of the selected key page; in a pair the partner acknowledges the change before it applies (R482), and until then the
entry reads as written (R15). -/
def keyEntry (d : Dev) (e : Nat) (word1 : Bool) (v : Word) : Dev :=
  let page := liveN d 0x700010
  let k := 4 * page + e
  if word1 then
    let x := entryFrom d.acc.keyW0 (keysWritten d) k v
    mirrorThen { d with acc.keyW0 := tdel d.acc.keyW0 k, acc.keyPend := tset d.acc.keyPend k x }
      (.st (.keyAccess page ((keyEntries { d with acc.keys := keysWritten d } page).set e x))) (.keyAccess k x) fun d => keyApply d k x
  else { d with acc.keyW0 := tset d.acc.keyW0 k (v &&& entryMask0) }

/-! ### Privileged captures (R530) -/

/-- A signed value in 48 bits. -/
def signed48 (t : Int) : Nat := (BitVec.ofInt 48 t).toNat

/-- A privileged counter's value; eye margins are the receivers' own, and where the thermal governor rests the spec states no cap. -/
def privValue (d : Dev) (i : Nat) (free : Nat) : Nat :=
  if i == 0 then (energyNow d).pwr.energy / 1000000000
  else if i == 1 then d.pwr.powerMw
  else if i < 32 then signed48 (tempOf d (i - 2))
  else if i < 41 then d.sense.railMv.getD (i - 32) 0
  else if i < 50 then d.sense.railMa.getD (i - 41) 0
  else if i < 60 then free
  else if i == 60 then d.sense.avsMv
  else if i == 61 then d.sense.slowdown.toNat
  else if i == 62 then (match d.pwr.thermalCap with | some c => c / 1000 | none => free)
  else effectiveCap d

/-- The age that a privileged counter's source may have, in ns: 3 AON cycles, 100 µs, 1 ms or 100 ms (R530). -/
def privAge (i : Nat) : Nat :=
  if i < 2 || 60 ≤ i then 120 else if i < 32 then 100000 else if i < 50 then 1000000 else 100000000

/-- A write of CTR_PRIV_SEL captures, at most once in 10 µs, for a master that holds COUNTERS_GLOBAL on set 12; the time at which the
source measured the value is its own, within its age (R530). -/
def privSel (d : Dev) (m : Master) (v : Word) : Dev :=
  let i := v.toNat % 64
  if !isFw m && !holds (ctrRights d m 12) rGLOBAL then deny d m 4 12 rGLOBAL
  else if d.ctr.privAt.any fun t => d.time < t + 10000 then d
  else
    let (n, d) := draw d
    let (t, d) := draw d
    { putLive d 0xC00050 i with
      ctr.priv := some (i, privValue d i (Config.freeNat n) % 2 ^ 48, d.time - Config.freeNat t % (privAge i + 1)), ctr.privAt := some d.time }

/-! ### Writes -/

/-- A master that holds no lock on the group of a staged register that another master has locked (R141). -/
def stagedBy (d : Dev) (o : Nat) : Option (Nat × RegInfo) :=
  match stagedOf d o with
  | some x => some x
  | none => match regInfo d o with
    | some i => if i.kind == .rws then some (o, i) else none
    | none => none

def lockedOut (d : Dev) (m : Master) (o : Nat) : Bool :=
  match stagedBy d o with
  | some (_, i) => (tget d.pln.locks i.group).any (· != m)
  | none => false

/-- Write a staged copy, without any range check (R13, R137); the enables that PW lacks read 0 (R175). -/
def stageReg (d : Dev) (o : Nat) (v : Word) : Dev :=
  match stagedBy d o with
  | some (l, i) => { d with reg.staged := tset d.reg.staged l (BitVec.ofNat 32 (v.toNat &&& i.mask)) }
  | none => d

/-- Writes with a meaning of their own. -/
def ownWrite (d : Dev) (m : Master) (o : Nat) (v : Word) : Dev :=
  let n := v.toNat
  if o == 0x30 then (if running d then resetCtrlGo d v else d)
  else if o == 0x34 then (if running d then wdogGo d m v else d)
  else if o == 0x10000 then pwrCapGo d v
  else if o == 0x10030 then thermCfgGo d v
  else if o == 0x10048 then pwrCtrlGo d v
  else if 0x30100 ≤ o && o < 0x30200 then
    if bitAt n 0 == bitAt n 1 then d else commitWrite d m ((o - 0x30100) / 4) (bitAt n 1)
  else if 0x30200 ≤ o && o < 0x30300 then
    let g := (o - 0x30200) / 4
    let d := if bitAt n 0 then lockClaim d m g else d
    if bitAt n 1 then unlockBy d m g else d
  else if 0x38000 ≤ o && o < 0x3C000 then
    if o % 8 == 4 then pageEntryW1 d ((o - 0x38000) / 8) v else pageEntryW0 d ((o - 0x38000) / 8) v
  else if 0x100000 ≤ o && o < 0x190000 then laneCtrl d ((o - 0x100000) / 0x10000) v
  else if o == 0x20001C then fdbFlush d v
  else if o == 0x300060 then pdSelGo d v
  else if o == 0x300064 then putLive d o n
  else if o == 0x300068 then putLive { d with reg.latch := tdel d.reg.latch o } o n
  else if o == 0x30006C then pdCtrlGo d v
  else if o == 0x40005C then cmdPdSelGo d v
  else if o == 0x400060 then
    let q := n % 2 ^ 18
    if 1 ≤ q && q ≤ 131072 then
      putLive { d with cmd.quota := tset d.cmd.quota (liveN d 0x40005C % 4096) q } 0x400060 q
    else setSticky d 0x400000 18
  else if o == 0x400140 then (if serving d && bitAt n 0 then msubGo d m else d)
  else if o == 0x700010 then
    if n % 4096 < d.pln.plan.keyPages then putLive d 0x700010 (n % 4096) else setSticky d 0x700000 31
  else if 0x700020 ≤ o && o < 0x700040 then keyEntry d ((o - 0x700020) / 8) (o % 8 == 4) v
  else if o == 0xB00020 then fuseGo d v
  else if o == 0xC00050 then privSel d m v
  else if 0xC10000 ≤ o && o < 0xC10800 then ctrEntry d ((o - 0xC10000) / 8) (o % 8 == 4) v
  else if o == 0xD00108 then gpioGo d m fun x => x ||| (v &&& 0xFFFF)
  else if o == 0xD0010C then gpioGo d m fun x => x &&& ~~~(v &&& 0xFFFF)
  else d

/-- A W1C write: each 1 clears its bit (R13). -/
def clearBits (d : Dev) (o : Nat) (v : Word) (mask : Nat) : Dev :=
  if o == 0x28 then { d with glb.cause := d.glb.cause &&& ~~~(v.setWidth 6) }
  else if o == 0x10004 then
    { d with pwr.capReject := d.pwr.capReject && !bitAt v.toNat 8, pwr.thermReject := d.pwr.thermReject && !bitAt v.toNat 9 }
  else { d with reg.sticky := tset d.reg.sticky o (stickyOf d o &&& ~~~(v &&& BitVec.ofNat 32 mask)) }

/-- A write that has passed its access check. -/
def plainWrite (d : Dev) (m : Master) (o : Nat) (v : Word) : Dev :=
  if (stagedBy d o).isSome then stageReg d o v
  else match regInfo d o with
    | none => d
    | some i => match i.kind with
      | .rw => if 0xD00000 ≤ o && !isFw m then d else writeRw d o i v
      | .w1c => clearBits d o v i.mask
      | .own => ownWrite d m o v
      | .ro | .rws | .rc | .rcHi | .wo => d

/-- Why a register write is denied: some 0 by a table, some 1 by a lock (R141, R149). -/
def writeDenied (d : Dev) (m : Master) (o : Nat) (v : Word) : Option Nat :=
  if 0xE00000 ≤ o then none
  else if !pageHas d m (o / 0x10000) rWRITE then some 0
  else if 0x30100 ≤ o && o < 0x30200 && o % 4 == 0 && bitAt v.toNat 0 != bitAt v.toNat 1 && commitDenied d m ((o - 0x30100) / 4)
    then some 0
  else if o == 0xC00050 && !isFw m && !holds (ctrRights d m 12) rGLOBAL then some 0
  else if lockedOut d m o then some 1
  else none

/-- A register write by a master (R13, R33, R137, R141, R149). -/
def busWrite (d : Dev) (m : Master) (o : Nat) (v : Word) : Dev :=
  if 0xE00000 ≤ o then d
  else if !pageHas d m (o / 0x10000) rWRITE || lockedOut d m o then deny d m 0 o rWRITE
  else plainWrite d m o v

/-- Does the register bus reach an offset: the AON pages while AON is powered, the others from BOOT on except in HALT (R80, R101)? -/
def busUp (d : Dev) (o : Nat) : Bool := if aonWord o then d.glb.st != .off else running d

/-! ### The commands -/

/-- R13: REGISTER_WRITE. -/
def execRegisterWrite (m : Master) (off : Nat) (v : Word) (s : State) : Host.Outcome State Fault Refusal :=
  actIf (busUp · off) s fun d => busWrite d m off v

/-- R177: REGISTER_READ_CLEAR, the read of any register; a denied read returns 0. -/
def execRegisterReadClear (m : Master) (off : Nat) (s : State) : Host.Outcome State Fault Refusal :=
  actIf (busUp · off) s fun d =>
    let (v, d) := busRead d m off
    { d with reg.readVal := v.getD 0 }

/-- R137: STAGED_REGISTER_WRITE, a write to an RWS register. -/
def execStagedRegisterWrite (m : Master) (off : Nat) (v : Word) (s : State) : Host.Outcome State Fault Refusal :=
  actIf (fun d => busUp d off && (stagedBy d off).isSome) s fun d => busWrite d m off v

/-- R139: PLN_COMMIT. -/
def execPlnCommit (m : Master) (g : Nat) (s : State) : Host.Outcome State Fault Refusal :=
  actIf (fun d => running d && g < 64) s fun d => commitWrite d m g false

/-- R140: PLN_DISCARD. -/
def execPlnDiscard (m : Master) (g : Nat) (s : State) : Host.Outcome State Fault Refusal :=
  actIf (fun d => running d && g < 64) s fun d => commitWrite d m g true

/-- R141: PLN_LOCK_CLAIM. -/
def execPlnLockClaim (m : Master) (g : Nat) (s : State) : Host.Outcome State Fault Refusal :=
  actIf (fun d => running d && g < 64) s fun d => writeAccess d m (0x30200 + 4 * g) fun d => lockClaim d m g

/-- R141: PLN_LOCK_RELEASE. -/
def execPlnLockRelease (m : Master) (g : Nat) (s : State) : Host.Outcome State Fault Refusal :=
  actIf (fun d => running d && g < 64) s fun d => writeAccess d m (0x30200 + 4 * g) fun d => unlockBy d m g

/-- R141: 100 ms have passed without a staged write, CLAIM or COMMIT from the lock's owner. -/
def execPlnLockTimeout (g : Nat) (s : State) : Host.Outcome State Fault Refusal :=
  actIf (fun d => running d && (tget d.pln.locks g).isSome) s fun d => { d with pln.locks := tdel d.pln.locks g }

/-- R148: ACCESS_ENTRY_WORD0_WRITE. -/
def execAccessEntryWord0Write (m : Master) (page : Nat) (e : Nat) (v : Word) (s : State) : Host.Outcome State Fault Refusal :=
  actIf (fun d => running d && page < 224 && e < 8) s fun d =>
    writeAccess d m (0x38000 + 64 * page + 8 * e) fun d => pageEntryW0 d (8 * page + e) v

/-- R148: ACCESS_ENTRY_WORD1_WRITE. -/
def execAccessEntryWord1Write (m : Master) (page : Nat) (e : Nat) (v : Word) (s : State) : Host.Outcome State Fault Refusal :=
  actIf (fun d => running d && page < 224 && e < 8) s fun d =>
    writeAccess d m (0x38004 + 64 * page + 8 * e) fun d => pageEntryW1 d (8 * page + e) v

/-- R530: CTR_PRIV_SEL_WRITE. -/
def execCtrPrivSelWrite (m : Master) (v : Word) (s : State) : Host.Outcome State Fault Refusal :=
  actIf running s fun d => writeAccess d m 0xC00050 fun d => privSel d m v

/-! ### Debug unlock and the TAP (R54, R151) -/

/-- A failed attempt; the third sets LOCKED_OUT (R151, R542). -/
def unlockFail (d : Dev) : Dev :=
  let n := d.acc.dbgFails + 1
  logEvent { d with acc.dbgFails := n } 0x0503 0 .none (le 1 (if 3 ≤ n then 2 else 1))

/-- May debug unlock go on: in MAINT and HALT, with debug access powered, and before LOCKED_OUT (R79, R151)? -/
def unlockOpen (d : Dev) : Bool := (d.glb.st == .maint || d.glb.st == .halt) && domOn d pdDBG && d.acc.dbgFails < 3

/-- R151: a request draws a fresh challenge in MAINT and HALT; elsewhere it is refused and logged, and counts as no attempt. -/
def execDebugUnlockRequest (s : State) : Host.Outcome State Fault Refusal :=
  actIf (fun d => d.glb.st != .off) s fun d =>
    if d.glb.st != .maint && d.glb.st != .halt then logEvent d 0x0503 0 .none (le 1 0)
    else if !unlockOpen d then d
    else
      let (n, d) := draw d
      { d with acc.challenge := Config.free64 n, acc.challenged := true }

/-- R151: the key must hash to the owner key hash and its signature must cover the challenge and the serial number. -/
def execDebugUnlockResponse (key : List Byte) (sig : List Byte) (s : State) : Host.Outcome State Fault Refusal :=
  actIf (fun d => unlockOpen d && d.acc.challenged) s fun d =>
    let msg := le 8 d.acc.challenge.toNat ++ Config.serial
    let d := { d with acc.challenged := false }
    if key.length == 97 && ownerSigned key sig msg then { d with acc.unlocked := true } else unlockFail d

/-- R54: the boundary-scan instructions load in RESET and HALT, and in MAINT after debug unlock; else BYPASS takes their place. An
instruction loaded there stays in the TAP when the device leaves that state (DESIGN CHOICE, log entry 77). -/
def execTapInstructionLoad (i : TapInstr) (s : State) : Host.Outcome State Fault Refusal :=
  actIf (fun d => d.glb.st != .off) s fun d =>
    let ok := d.glb.st == .reset || d.glb.st == .halt || (d.glb.st == .maint && d.acc.unlocked)
    { d with acc.tap := if ok then i else .bypass }

/-! ### CONFIG_READ and CONFIG_WRITE (R33, R149) -/

/-- R149: CONFIG_READ under the command's identity. -/
def execConfigRead (cmd : Nat) (s : State) : Host.Outcome State Fault Refusal :=
  adminRun s cmd 0x81 fun x d =>
    let o := leAt x.cap 8 4
    if o % 4 != 0 then badAt d cmd 8
    else match busRead d x.master o with
      | (some v, d) => succeed d cmd v.toNat 0
      | (none, d) => answer d cmd stACCESS o 0

/-- R149: CONFIG_WRITE. -/
def execConfigWrite (cmd : Nat) (s : State) : Host.Outcome State Fault Refusal :=
  adminRun s cmd 0x82 fun x d =>
    let o := leAt x.cap 8 4
    let v := BitVec.ofNat 32 (leAt x.cap 12 4)
    if o % 4 != 0 then badAt d cmd 8
    else match writeDenied d x.master o v with
      | some r => answer (busWrite d x.master o v) cmd stACCESS o r
      | none => succeed (busWrite d x.master o v) cmd 0 0

end Sys2Proof.Machine
end

