-- ==== Sys2Proof/Machine/Counters.lean ====
section
/-! DEFINITION. The counter unit: snapshots and dump records, bandwidth windows, sampling, and COUNTER_SETUP (R520 to R533). -/

namespace Sys2Proof.Machine

/-! ### Dump records (R520, R525) -/

/-- Register offset of counter `i` of a set, in the counter order of R520. -/
def counterOff (s i : Nat) : Nat :=
  if s == 0 then
    let r := i % 284
    let b := ethBase (i / 284)
    if r < 264 then b + 0x1000 + 0x400 * (r / 66) + 8 * (r % 66) else b + 0x3000 + 0x100 * ((r - 264) / 5) + 8 * ((r - 264) % 5)
  else if s == 1 then
    if i < 576 then 0x205800 + 0x80 * (i / 16) + 8 * (i % 16) else 0x213008 + 0x100 * ((i - 576) / 16) + 16 * ((i - 576) % 16)
  else if s == 2 then (if i < 24 then 0x300100 + 8 * i else 0x300200 + 8 * (i - 24))
  else if s == 3 then 0x400200 + 8 * i
  else if s == 4 then (if i < 16 then 0x500300 + 8 * i else 0x500500 + 8 * (i - 16))
  else if s == 5 then
    (if i < 8 then 0x700100 + 8 * i else if i < 16 then 0xB00100 + 8 * (i - 8) else 0x800100 + 8 * (i - 16))
  else if s == 6 then (if i < 16 then 0x900100 + 8 * i else 0xA00800 + 8 * (i - 16))
  else if s == 7 then 0xC01000 + 8 * i
  else if s == 8 then 0xC80000 + 8 * i
  else if s == 9 then 0xC40000 + 8 * i
  else if s == 10 then 0xC02000 + 8 * i
  else 0xC03000 + 8 * i

/-- A counter's entry: the value in [47:0] and OVF in [63]. -/
def counterEntry (v : Nat) : List Byte := le 8 (v % 2 ^ 48 + (if 2 ^ 48 ≤ v then 2 ^ 63 else 0))

/-- A set's header and entries. -/
def setBytes (d : Dev) (s : Nat) : List Byte :=
  le 1 s ++ zeros 3 ++ le 4 (setCounts s) ++ le 4 (if s < 7 then tgetD d.ctr.clears s 0 else 0) ++ zeros 4
    ++ (List.range (setCounts s)).flatMap fun i => counterEntry (tgetD d.reg.cnt (counterOff s i) 0)

/-- Sets of a mask, ascending. -/
def setsOf (mask : Nat) : List Nat := (List.range 12).filter (bitAt mask)

/-- The dump record of a capture. -/
def dumpRecord (d : Dev) (mask : Nat) : List Byte :=
  let body := (setsOf mask).flatMap (setBytes d)
  let head := le 4 0x504D4443 ++ le 4 (d.ctr.seq + 1) ++ le 8 d.time ++ le 4 (64 + body.length) ++ le 2 mask
    ++ le 1 (b2n !d.ctr.topDown) ++ le 1 (stCode d.glb.st) ++ le 4 d.ctr.skipped
  let crc := crc32c (head ++ zeros 36 ++ body)
  head ++ le 4 crc.toNat ++ zeros 32 ++ body

/-! ### Snapshots (R524, R526) -/

/-- May an event of this kind be logged again: at most once per millisecond (R526, R532)? -/
def msPassed (d : Dev) (t : Option Nat) : Bool := t.all fun t => t + 1000000 ≤ d.time

/-- A snapshot falls due while the previous record is still being written (R526). -/
def skipSnapshot (d : Dev) (mask : Nat) : Dev :=
  let d := setSticky (count d 0xC03010) 0xC00000 2
  let d := { d with ctr.skipped := d.ctr.skipped + 1, ctr.skipLog := d.ctr.skipLog + 1 }
  if msPassed d d.ctr.skipAt then
    logEvent { d with ctr.skipLog := 0, ctr.skipAt := some d.time } 0x1301 0x3 (.ctrSets mask)
      (le 2 mask ++ zeros 2 ++ le 4 d.ctr.skipLog)
  else d

/-- The capture, and its record on its way to the dump area: one that would cross the area's end begins at its base (R525). -/
def takeSnapshot (d : Dev) (mask : Nat) : Dev :=
  let d := if bitAt mask 7 && d.ctr.topDown then tdDraw d else d
  let d := fecDraw d ((setsOf mask).flatMap fun s => (List.range (setCounts s)).map (counterOff s))
  let bs := dumpRecord d mask
  let at_ := if liveN d 0xC0001C < d.ctr.next + bs.length then 0 else d.ctr.next
  let off := liveN d 0xC00018 + at_
  { d with
    ctr.dump := memWrites d.ctr.dump off bs, ctr.skipped := 0,
    ctr.writing := some (off, bs.length, mask, at_ + (bs.length + 63) / 64 * 64) }

/-- R524: device time reaches a multiple of the dump period. -/
def execCounterSnapshot (s : State) : Host.Outcome State Fault Refusal :=
  actIf (fun d => running d && liveN d 0xC00010 != 0 && domOn d pdCTR) s fun d =>
    let mask := liveN d 0xC00014 % 4096
    if d.ctr.writing.isSome then skipSnapshot d mask else takeSnapshot d mask

/-- R526: the record is complete. -/
def execDumpWriteComplete (s : State) : Host.Outcome State Fault Refusal :=
  actIf (fun d => d.ctr.writing.isSome) s fun d => match d.ctr.writing with
    | some (off, len, sets, next) =>
      count { d with ctr.writing := none, ctr.seq := (d.ctr.seq + 1) % 2 ^ 32, ctr.next := next, ctr.latest := some (off, len, sets) }
        0xC03018
    | none => d

/-- R529: a window ends, after the CTR_WINDOW_US that stood at its start; `ports` is what the switch
and drive ports carried, `inner` what the HBM channels and the engines did. -/
def execWindowPublish (ports inner : List Nat) (s : State) : Host.Outcome State Fault Refusal :=
  actIf (fun d => running d && windowMode d && domOn d pdCTR) s fun d =>
    publish d (1000 * d.ctr.windowUs) fun i => (ports ++ inner).getD i 0

/-! ### Sampling (R531, R532) -/

/-- R531: the sampling LFSR is reseeded from the DRBG, or from device time while RNG_FAULT is set (R472). -/
def execSampleLfsrReseed (s : State) : Host.Outcome State Fault Refusal :=
  actIf (fun d => running d && domOn d pdCTR) s fun d =>
    if d.itg.rngFault then { d with ctr.lfsr := BitVec.ofNat 32 d.time }
    else
      let (n, d) := draw d
      { d with ctr.lfsr := (Config.free64 n).setWidth 32 }

/-- R532: the write bandwidth has not taken the newest trace record within 100 µs; the record is discarded. -/
def execTraceRecordDrop (s : State) : Host.Outcome State Fault Refusal :=
  actIf (fun d => d.ctr.traceWait.isSome) s fun d =>
    let d := setSticky (count { d with ctr.traceWait := none, ctr.dropLog := d.ctr.dropLog + 1 } 0xC03008) 0xC00000 3
    if msPassed d d.ctr.dropAt then
      logEvent { d with ctr.dropLog := 0, ctr.dropAt := some d.time } 0x1302 0x3 (.ctrSets 0x800)
        (le 2 0x800 ++ zeros 2 ++ le 4 d.ctr.dropLog)
    else d

/-! ### COUNTER_SETUP (R533) -/

/-- 1:70 COMMIT_FAILED. -/
def stCOMMIT : Nat := 0x170

/-- Go on where the command holds ADMIN on every set named; else it is denied at the first one it lacks (R296, R533). -/
def needSets (d : Dev) (c : Nat) (x : Slot) (sets : List Nat) (f : Dev → Dev) : Dev :=
  match sets.find? fun s => !holds (ctrRights d x.master s) rADMIN with
  | some s => answer (deny d x.master 4 s rADMIN) c stACCESS s rADMIN
  | none => f d

/-- Run a COUNTER_SETUP: the block must carry `action`, for which the constructor stands (an action the table lacks is answered by
whichever runs), then `first`, the rights on `sets`, and the other fields are judged. -/
def setupRun (cmd action : Nat) (blk : List Byte) (s : State) (first : List (Nat × Bool)) (sets : Dev → List Nat)
    (fields : List (Nat × Bool)) (f : Slot → Dev → Dev) : Host.Outcome State Fault Refusal :=
  actIf serving s fun d =>
    let a := byteAt blk 0
    if !(slotOf d cmd).any (blockOk · blk) || (a != action && 1 ≤ a && a ≤ 5) then d
    else match adminStart d cmd 0x92 with
      | none => d
      | some (x, d) => forCmd d cmd fun d =>
        if x.dataLen != 64 then badAt d cmd 16
        else if a != action then badBlock d cmd 0
        else match blockBad first with
          | some off => badBlock d cmd off
          | none => needSets d cmd x (sets d) fun d => match blockBad fields with
            | some off => badBlock d cmd off
            | none => f x d

/-- The staged values of group 21 that a DUMP names. -/
def stageDump (d : Dev) (b : List Byte) : Dev :=
  [(0x10, leAt b 4 4), (0x14, leAt b 8 2), (0x18, leAt b 12 4), (0x1C, leAt b 16 4), (0x20, leAt b 20 4), (0x24, leAt b 24 4)].foldl
    (fun d e => stageReg d (0xC00000 + e.1) (BitVec.ofNat 32 e.2)) d

def dumpFields (b : List Byte) : List (Nat × Bool) :=
  let head : List (Nat × Bool) := [(4, 60000000 < leAt b 4 4)]
  let areas : List (Nat × Bool) := [12, 16, 20, 24].map fun o => (o, leAt b o 4 % 4096 != 0)
  [zeroFields b 2 2, head, zeroFields b 10 2, areas, zeroFields b 28 36].flatten

/-- The sets with access tables that either mask names. -/
def setsHeld (mask : Nat) : List Nat := (List.range 13).filter (bitAt mask)

/-- The commit of a DUMP: SETS with bit 12 or above, which no register holds, fails as a relation (R142, R533). -/
def dumpCommit (d : Dev) (m : Master) (sets : Nat) : Dev :=
  let judged := (d.glb.st == .service || d.glb.st == .maint) && !(tget d.pln.locks 21).any (· != m) && (rangeFail d 21).isNone
  if 4096 ≤ sets && judged then commitDone d 21 0x11 0xC00014 else commitGo d m 21

/-- R533: DUMP stages group 21 and commits it; the commit's own failure is the command's. -/
def execCounterSetupDump (cmd : Nat) (blk : List Byte) (s : State) : Host.Outcome State Fault Refusal :=
  setupRun cmd 1 blk s [] (fun d => setsHeld (leAt blk 8 2 ||| liveN d 0xC00014)) (dumpFields blk) fun x d =>
    let locked := (tget d.pln.locks 21).any (· != x.master)
    let d := if locked then deny d x.master 0 0xC00010 rWRITE else stageDump d blk
    let d := dumpCommit d x.master (leAt blk 8 2)
    if d.pln.result == 1 || d.pln.result == 2 then succeed d cmd 0 0 else answer d cmd stCOMMIT (plnReg d 0x14) 0

/-- R533: CLEAR zeroes a set that no read clears. -/
def execClearSet (cmd : Nat) (blk : List Byte) (s : State) : Host.Outcome State Fault Refusal :=
  let k := byteAt blk 1
  setupRun cmd 2 blk s [(1, k < 7 || 11 < k)] (fun _ => [k]) (zeroFields blk 2 62) fun _ d =>
    succeed (zeroCnts d (counterOff k 0) (setCounts k)) cmd 0 0

def sampleFields (b : List Byte) : List (Nat × Bool) :=
  let head : List (Nat × Bool) := [(2, 24 < byteAt b 2), (3, 8 ≤ byteAt b 3), (4, 4096 ≤ leAt b 4 2), (6, 4096 ≤ leAt b 6 2)]
  [head, zeroFields b 8 56].flatten

/-- R533: SAMPLE writes CTR_SAMPLE_CFG and CTR_SAMPLE_FILTER. -/
def execSampleSetup (cmd : Nat) (blk : List Byte) (s : State) : Host.Outcome State Fault Refusal :=
  setupRun cmd 3 blk s [] (fun _ => [11]) (sampleFields blk) fun _ d =>
    let f := byteAt blk 3
    let cfg := f % 2 + (byteAt blk 2 <<< 1) + ((f / 2) <<< 6)
    succeed (putLive (putLive d 0xC00040 cfg) 0xC00044 (leAt blk 4 2 + (leAt blk 6 2 <<< 16))) cmd 0 0

def windowFields (b : List Byte) : List (Nat × Bool) :=
  let head : List (Nat × Bool) := [(4, leAt b 4 4 == 0 || 1000000 < leAt b 4 4)]
  [zeroFields b 2 2, head, zeroFields b 8 56].flatten

/-- R533: WINDOW writes CTR_WINDOW_US. -/
def execWindowSetup (cmd : Nat) (blk : List Byte) (s : State) : Host.Outcome State Fault Refusal :=
  setupRun cmd 4 blk s [] (fun _ => [10]) (windowFields blk) fun _ d => succeed (putLive d 0xC00030 (leAt blk 4 4)) cmd 0 0

/-- Whole records that a COPY writes: the latest dump, or the trace records from FROM_SEQ on, with SEQ modulo
2^32, as many as MAX_BYTES holds. -/
def copyBytes (d : Dev) (b : List Byte) : List Byte :=
  let most := leAt b 20 4
  if byteAt b 2 == 0 then
    match d.ctr.latest with
    | some (off, len, _) => if len ≤ most then memReads d.ctr.dump off len else []
    | none => []
  else ((d.ctr.traces.filter fun e => (e.1 + 2 ^ 32 - leAt b 4 4) % 2 ^ 32 < 2 ^ 31).take (most / 128)).flatMap (·.2)

def copyFields (b : List Byte) : List (Nat × Bool) := [zeroFields b 3 1, zeroFields b 24 40].flatten

/-- R533: COPY writes whole records to host memory; RESULT0 gives the bytes. -/
def execCopyOut (cmd : Nat) (blk : List Byte) (s : State) : Host.Outcome State Fault Refusal :=
  setupRun cmd 5 blk s [(2, 1 < byteAt blk 2)]
    (fun d => if byteAt blk 2 == 1 then [11] else setsOf ((d.ctr.latest.map (·.2.2)).getD 0)) (copyFields blk) fun x d =>
    let d := traceFlush d
    let bs := copyBytes d blk
    let d := if bs.isEmpty then d
      else match xferConn d x with
        | none => failUse d (.data cmd) 0
        | some k => sendMsg d k { kind := .write, len := bs.length, addr := leAt blk 8 8, key := leAt blk 16 4, data := bs, use := .data cmd }
    succeed d cmd bs.length 0

end Sys2Proof.Machine
end

