-- ==== Sys2Proof/Machine/Dispatch.lean ====
section
/-! DEFINITION. The meaning of every command: one arm per constructor, each one direct call of its meaning. -/

namespace Sys2Proof.Machine

def exec (i : Instr) (s : State) : Host.Outcome State Fault Refusal :=
  match i with
  | .aonPowerOn => Sys2Proof.Machine.execAonPowerOn s
  | .aonPowerLoss => Sys2Proof.Machine.execAonPowerLoss s
  | .porstAssert => Sys2Proof.Machine.execPorstAssert s
  | .resetRelease pairSide boot1 boot0 => Sys2Proof.Machine.execResetRelease pairSide boot1 boot0 s
  | .avsInitialSet marginMv => Sys2Proof.Machine.execAvsInitialSet marginMv s
  | .agingMonitorRead slowdown marginPct more => Sys2Proof.Machine.execAgingMonitorRead slowdown marginPct more s
  | .pwrFailRecognise => Sys2Proof.Machine.execPwrFailRecognise s
  | .pwrFailClear => Sys2Proof.Machine.execPwrFailClear s
  | .presenceChange slot present => Sys2Proof.Machine.execPresenceChange slot present s
  | .mgtGpioOutSet m v => Sys2Proof.Machine.execMgtGpioOutSet m v s
  | .mgtGpioOutClr m v => Sys2Proof.Machine.execMgtGpioOutClr m v s
  | .pmbusAlert rail => Sys2Proof.Machine.execPmbusAlert rail s
  | .domainSwitchOnRequest d takeover => Sys2Proof.Machine.execDomainSwitchOnRequest d takeover s
  | .domainSwitchOffRequest d takeover => Sys2Proof.Machine.execDomainSwitchOffRequest d takeover s
  | .domainReady d => Sys2Proof.Machine.execDomainReady d s
  | .domainOffComplete d => Sys2Proof.Machine.execDomainOffComplete d s
  | .deepIdleEnter m => Sys2Proof.Machine.execDeepIdleEnter m s
  | .deepIdleExit m => Sys2Proof.Machine.execDeepIdleExit m s
  | .loadGovernorTick demand => Sys2Proof.Machine.execLoadGovernorTick demand s
  | .powerEstimateTick estimateMw => Sys2Proof.Machine.execPowerEstimateTick estimateMw s
  | .powerTelemetryCorrect powerMw railMv railMa => Sys2Proof.Machine.execPowerTelemetryCorrect powerMw railMv railMa s
  | .pwrCapWrite m v => Sys2Proof.Machine.execPwrCapWrite m v s
  | .pwrThermCfgWrite m v => Sys2Proof.Machine.execPwrThermCfgWrite m v s
  | .capRefuseTimeout sq => Sys2Proof.Machine.execCapRefuseTimeout sq s
  | .powerAttnClear => Sys2Proof.Machine.execPowerAttnClear s
  | .sensorScan readings => Sys2Proof.Machine.execSensorScan readings s
  | .thermtrip sensor => Sys2Proof.Machine.execThermtrip sensor s
  | .thermalGovernorTick => Sys2Proof.Machine.execThermalGovernorTick s
  | .haltEntry => Sys2Proof.Machine.execHaltEntry s
  | .glbResetCtrlWrite m v => Sys2Proof.Machine.execGlbResetCtrlWrite m v s
  | .glbWdogKick m v => Sys2Proof.Machine.execGlbWdogKick m v s
  | .watchdogExpire => Sys2Proof.Machine.execWatchdogExpire s
  | .bootSourceRead flashB img => Sys2Proof.Machine.execBootSourceRead flashB img s
  | .mgmtImageDelivery m img => Sys2Proof.Machine.execMgmtImageDelivery m img s
  | .floorPlanCheck source img => Sys2Proof.Machine.execFloorPlanCheck source img s
  | .planApply => Sys2Proof.Machine.execPlanApply s
  | .bootBist fails found => Sys2Proof.Machine.execBootBist fails found s
  | .drivePerstRelease => Sys2Proof.Machine.execDrivePerstRelease s
  | .driveLinkUp slot rate width => Sys2Proof.Machine.execDriveLinkUp slot rate width s
  | .driveReady slot id => Sys2Proof.Machine.execDriveReady slot id s
  | .driveReadyTimeout slot => Sys2Proof.Machine.execDriveReadyTimeout slot s
  | .pairJoin j => Sys2Proof.Machine.execPairJoin j s
  | .joinTimeout => Sys2Proof.Machine.execJoinTimeout s
  | .recoveryScan group copies bitmaps => Sys2Proof.Machine.execRecoveryScan group copies bitmaps s
  | .recoveryReplay group => Sys2Proof.Machine.execRecoveryReplay group s
  | .recoveryResync group agree => Sys2Proof.Machine.execRecoveryResync group agree s
  | .recoveryComplete micros => Sys2Proof.Machine.execRecoveryComplete micros s
  | .registerWrite m off v => Sys2Proof.Machine.execRegisterWrite m off v s
  | .registerReadClear m off => Sys2Proof.Machine.execRegisterReadClear m off s
  | .stagedRegisterWrite m off v => Sys2Proof.Machine.execStagedRegisterWrite m off v s
  | .plnCommit m g => Sys2Proof.Machine.execPlnCommit m g s
  | .plnDiscard m g => Sys2Proof.Machine.execPlnDiscard m g s
  | .plnLockClaim m g => Sys2Proof.Machine.execPlnLockClaim m g s
  | .plnLockRelease m g => Sys2Proof.Machine.execPlnLockRelease m g s
  | .plnLockTimeout g => Sys2Proof.Machine.execPlnLockTimeout g s
  | .accessEntryWord0Write m page e v => Sys2Proof.Machine.execAccessEntryWord0Write m page e v s
  | .accessEntryWord1Write m page e v => Sys2Proof.Machine.execAccessEntryWord1Write m page e v s
  | .debugUnlockRequest => Sys2Proof.Machine.execDebugUnlockRequest s
  | .debugUnlockResponse key sig => Sys2Proof.Machine.execDebugUnlockResponse key sig s
  | .tapInstructionLoad inst => Sys2Proof.Machine.execTapInstructionLoad inst s
  | .portBringupAttempt p => Sys2Proof.Machine.execPortBringupAttempt p s
  | .portLinkUp p => Sys2Proof.Machine.execPortLinkUp p s
  | .portBringupTimeout p blame => Sys2Proof.Machine.execPortBringupTimeout p blame s
  | .portRetrainTrigger p cause => Sys2Proof.Machine.execPortRetrainTrigger p cause s
  | .ethLaneRetrain m mac lanes => Sys2Proof.Machine.execEthLaneRetrain m mac lanes s
  | .ethLaneRestore m mac lanes => Sys2Proof.Machine.execEthLaneRestore m mac lanes s
  | .portLinkDown p => Sys2Proof.Machine.execPortLinkDown p s
  | .linkHoldExpire p => Sys2Proof.Machine.execLinkHoldExpire p s
  | .frameIngress p f => Sys2Proof.Machine.execFrameIngress p f s
  | .pauseFrameReceive p quanta => Sys2Proof.Machine.execPauseFrameReceive p quanta s
  | .pfcFrameReceive p enable quanta => Sys2Proof.Machine.execPfcFrameReceive p enable quanta s
  | .pauseQuantaExpire p inst => Sys2Proof.Machine.execPauseQuantaExpire p inst s
  | .pwdWatchExpire p inst => Sys2Proof.Machine.execPwdWatchExpire p inst s
  | .pwdRecoveryExpire p inst => Sys2Proof.Machine.execPwdRecoveryExpire p inst s
  | .pauseRefresh p prio => Sys2Proof.Machine.execPauseRefresh p prio s
  | .internalFrameOffer f => Sys2Proof.Machine.execInternalFrameOffer f s
  | .holdoffAccept src => Sys2Proof.Machine.execHoldoffAccept src s
  | .frameTransmitStart p cellErr => Sys2Proof.Machine.execFrameTransmitStart p cellErr s
  | .frameTransmitComplete p => Sys2Proof.Machine.execFrameTransmitComplete p s
  | .frameAgeDiscard p q => Sys2Proof.Machine.execFrameAgeDiscard p q s
  | .fdbAgeOut vid addr => Sys2Proof.Machine.execFdbAgeOut vid addr s
  | .swcFdbFlush m v => Sys2Proof.Machine.execSwcFdbFlush m v s
  | .ethPtpTsRead m mac => Sys2Proof.Machine.execEthPtpTsRead m mac s
  | .trestleWrite net pk => Sys2Proof.Machine.execTrestleWrite net pk s
  | .trestleReadReq net pk => Sys2Proof.Machine.execTrestleReadReq net pk s
  | .trestleReadResp net pk => Sys2Proof.Machine.execTrestleReadResp net pk s
  | .trestleAck net pk => Sys2Proof.Machine.execTrestleAck net pk s
  | .trestleNack net pk => Sys2Proof.Machine.execTrestleNack net pk s
  | .trestleCredit net pk => Sys2Proof.Machine.execTrestleCredit net pk s
  | .trestleProbe net pk => Sys2Proof.Machine.execTrestleProbe net pk s
  | .trestleConnect net pk => Sys2Proof.Machine.execTrestleConnect net pk s
  | .trestleClose net pk => Sys2Proof.Machine.execTrestleClose net pk s
  | .trestleResumeReply net pk => Sys2Proof.Machine.execTrestleResumeReply net pk s
  | .fenceRelease c psn => Sys2Proof.Machine.execFenceRelease c psn s
  | .rtoExpire c => Sys2Proof.Machine.execRtoExpire c s
  | .pathProbeTimer c path => Sys2Proof.Machine.execPathProbeTimer c path s
  | .ackCoalesceExpire c => Sys2Proof.Machine.execAckCoalesceExpire c s
  | .deadTimerExpire c => Sys2Proof.Machine.execDeadTimerExpire c s
  | .closingTimeout c => Sys2Proof.Machine.execClosingTimeout c s
  | .timeWaitExpire c => Sys2Proof.Machine.execTimeWaitExpire c s
  | .resumeRetry c => Sys2Proof.Machine.execResumeRetry c s
  | .trsPdSelWrite m v => Sys2Proof.Machine.execTrsPdSelWrite m v s
  | .pdApply m v => Sys2Proof.Machine.execPdApply m v s
  | .pdApplyComplete => Sys2Proof.Machine.execPdApplyComplete s
  | .contextFetchComplete c eccOk late => Sys2Proof.Machine.execContextFetchComplete c eccOk late s
  | .contextWritebackDone c eccOk => Sys2Proof.Machine.execContextWritebackDone c eccOk s
  | .triggerLingerExpire => Sys2Proof.Machine.execTriggerLingerExpire s
  | .ringFetch sq => Sys2Proof.Machine.execRingFetch sq s
  | .commandAdmit => Sys2Proof.Machine.execCommandAdmit s
  | .slotWaitTimeout cls => Sys2Proof.Machine.execSlotWaitTimeout cls s
  | .holdTimeout cmd => Sys2Proof.Machine.execHoldTimeout cmd s
  | .completionGenerate cmd late waits latencyNs => Sys2Proof.Machine.execCompletionGenerate cmd late waits latencyNs s
  | .cqSpacePoll cq => Sys2Proof.Machine.execCqSpacePoll cq s
  | .cqDetachTimeout cq => Sys2Proof.Machine.execCqDetachTimeout cq s
  | .cmdPdSelWrite m v => Sys2Proof.Machine.execCmdPdSelWrite m v s
  | .msubGo m => Sys2Proof.Machine.execMsubGo m s
  | .readCmd cmd => Sys2Proof.Machine.execReadCmd cmd s
  | .writeCmd cmd => Sys2Proof.Machine.execWriteCmd cmd s
  | .writeZeroes cmd => Sys2Proof.Machine.execWriteZeroes cmd s
  | .deallocate cmd => Sys2Proof.Machine.execDeallocate cmd s
  | .flushCmd cmd => Sys2Proof.Machine.execFlushCmd cmd s
  | .verifyCmd cmd => Sys2Proof.Machine.execVerifyCmd cmd s
  | .readTags cmd => Sys2Proof.Machine.execReadTags cmd s
  | .releaseCmd cmd => Sys2Proof.Machine.execReleaseCmd cmd s
  | .abortCmd cmd => Sys2Proof.Machine.execAbortCmd cmd s
  | .identifyDevice cmd => Sys2Proof.Machine.execIdentifyDevice cmd s
  | .identifyVolume cmd => Sys2Proof.Machine.execIdentifyVolume cmd s
  | .configRead cmd => Sys2Proof.Machine.execConfigRead cmd s
  | .configWrite cmd => Sys2Proof.Machine.execConfigWrite cmd s
  | .queueCreateSq cmd => Sys2Proof.Machine.execQueueCreateSq cmd s
  | .queueCreateCq cmd => Sys2Proof.Machine.execQueueCreateCq cmd s
  | .queueAttach cmd => Sys2Proof.Machine.execQueueAttach cmd s
  | .queueDeleteSq cmd => Sys2Proof.Machine.execQueueDeleteSq cmd s
  | .queueDeleteCq cmd => Sys2Proof.Machine.execQueueDeleteCq cmd s
  | .volumeCreate cmd blk => Sys2Proof.Machine.execVolumeCreate cmd blk s
  | .volumeDelete cmd => Sys2Proof.Machine.execVolumeDelete cmd s
  | .volumeReshapeStart cmd blk => Sys2Proof.Machine.execVolumeReshapeStart cmd blk s
  | .volumeReshapeAbandon cmd blk => Sys2Proof.Machine.execVolumeReshapeAbandon cmd blk s
  | .setAccess cmd blk => Sys2Proof.Machine.execSetAccess cmd blk s
  | .volumeQuery cmd => Sys2Proof.Machine.execVolumeQuery cmd s
  | .getLog cmd => Sys2Proof.Machine.execGetLog cmd s
  | .keyLoad cmd blk => Sys2Proof.Machine.execKeyLoad cmd blk s
  | .keyClear cmd => Sys2Proof.Machine.execKeyClear cmd s
  | .sanitizeOverwrite cmd blk => Sys2Proof.Machine.execSanitizeOverwrite cmd blk s
  | .sanitizeBlockErase cmd blk => Sys2Proof.Machine.execSanitizeBlockErase cmd blk s
  | .sanitizeDriveOverwrite cmd blk => Sys2Proof.Machine.execSanitizeDriveOverwrite cmd blk s
  | .formatCmd cmd blk => Sys2Proof.Machine.execFormatCmd cmd blk s
  | .formatApply vol => Sys2Proof.Machine.execFormatApply vol s
  | .selfTestShort cmd => Sys2Proof.Machine.execSelfTestShort cmd s
  | .selfTestExtended cmd => Sys2Proof.Machine.execSelfTestExtended cmd s
  | .selfTestStop cmd => Sys2Proof.Machine.execSelfTestStop cmd s
  | .selfTestTimeout => Sys2Proof.Machine.execSelfTestTimeout s
  | .imageLoad cmd blk read => Sys2Proof.Machine.execImageLoad cmd blk read s
  | .imageActivate cmd blk fw img => Sys2Proof.Machine.execImageActivate cmd blk fw img s
  | .imageCopyFirstFlash => Sys2Proof.Machine.execImageCopyFirstFlash s
  | .memberFail cmd blk => Sys2Proof.Machine.execMemberFail cmd blk s
  | .memberRetire cmd blk => Sys2Proof.Machine.execMemberRetire cmd blk s
  | .slotOff cmd blk => Sys2Proof.Machine.execSlotOff cmd blk s
  | .slotOn cmd blk => Sys2Proof.Machine.execSlotOn cmd blk s
  | .adoptMember cmd blk => Sys2Proof.Machine.execAdoptMember cmd blk s
  | .setShare cmd blk => Sys2Proof.Machine.execSetShare cmd blk s
  | .pauseVolume cmd blk => Sys2Proof.Machine.execPauseVolume cmd blk s
  | .resumeVolume cmd blk => Sys2Proof.Machine.execResumeVolume cmd blk s
  | .counterSetupDump cmd blk => Sys2Proof.Machine.execCounterSetupDump cmd blk s
  | .clearSet cmd blk => Sys2Proof.Machine.execClearSet cmd blk s
  | .sampleSetup cmd blk => Sys2Proof.Machine.execSampleSetup cmd blk s
  | .windowSetup cmd blk => Sys2Proof.Machine.execWindowSetup cmd blk s
  | .copyOut cmd blk => Sys2Proof.Machine.execCopyOut cmd blk s
  | .regionCreate cmd => Sys2Proof.Machine.execRegionCreate cmd s
  | .regionDestroy cmd => Sys2Proof.Machine.execRegionDestroy cmd s
  | .maintRequest cmd blk => Sys2Proof.Machine.execMaintRequest cmd blk s
  | .moveGroups cmd blk => Sys2Proof.Machine.execMoveGroups cmd blk s
  | .returnRoles cmd blk => Sys2Proof.Machine.execReturnRoles cmd blk s
  | .admitPier cmd blk => Sys2Proof.Machine.execAdmitPier cmd blk s
  | .removePier cmd blk => Sys2Proof.Machine.execRemovePier cmd blk s
  | .formGroup cmd blk => Sys2Proof.Machine.execFormGroup cmd blk s
  | .dissolveGroup cmd blk => Sys2Proof.Machine.execDissolveGroup cmd blk s
  | .gateOn cmd blk => Sys2Proof.Machine.execGateOn cmd blk s
  | .gateOff cmd blk => Sys2Proof.Machine.execGateOff cmd blk s
  | .gateDrainExpire => Sys2Proof.Machine.execGateDrainExpire s
  | .groupForm g => Sys2Proof.Machine.execGroupForm g s
  | .tagComputeDone cmd granule => Sys2Proof.Machine.execTagComputeDone cmd granule s
  | .parityComputeDone cmd stripe => Sys2Proof.Machine.execParityComputeDone cmd stripe s
  | .bitmapWriteComplete vol region ok => Sys2Proof.Machine.execBitmapWriteComplete vol region ok s
  | .dirtyIdleExpire vol region => Sys2Proof.Machine.execDirtyIdleExpire vol region s
  | .journalWriteComplete group copy jseq ok => Sys2Proof.Machine.execJournalWriteComplete group copy jseq ok s
  | .journalCheckpoint group => Sys2Proof.Machine.execJournalCheckpoint group s
  | .fragmentWriteComplete cmd stripe col r => Sys2Proof.Machine.execFragmentWriteComplete cmd stripe col r s
  | .driveReadComplete cmd stripe col first r => Sys2Proof.Machine.execDriveReadComplete cmd stripe col first r s
  | .driveFaultReport slot report => Sys2Proof.Machine.execDriveFaultReport slot report s
  | .cstsPoll slot cfs => Sys2Proof.Machine.execCstsPoll slot cfs s
  | .driveCmdTimeout slot => Sys2Proof.Machine.execDriveCmdTimeout slot s
  | .healthLogPoll slot warning => Sys2Proof.Machine.execHealthLogPoll slot warning s
  | .asyncEventNotice slot warning => Sys2Proof.Machine.execAsyncEventNotice slot warning s
  | .memberAnswer slot => Sys2Proof.Machine.execMemberAnswer slot s
  | .memberFailTimeout slot cause => Sys2Proof.Machine.execMemberFailTimeout slot cause s
  | .journalRemirrorComplete group copy => Sys2Proof.Machine.execJournalRemirrorComplete group copy s
  | .catchupComplete slot => Sys2Proof.Machine.execCatchupComplete slot s
  | .bandRestoreStart group => Sys2Proof.Machine.execBandRestoreStart group s
  | .bandRestoreComplete group => Sys2Proof.Machine.execBandRestoreComplete group s
  | .copybackComplete group position => Sys2Proof.Machine.execCopybackComplete group position s
  | .rebuildProgressTick group mbps gibLeft => Sys2Proof.Machine.execRebuildProgressTick group mbps gibLeft s
  | .reshapeUnitCopy vol => Sys2Proof.Machine.execReshapeUnitCopy vol s
  | .reshapeSwitch vol => Sys2Proof.Machine.execReshapeSwitch vol s
  | .reshapeAbandonDone vol => Sys2Proof.Machine.execReshapeAbandonDone vol s
  | .sanitizeStatusPoll slot done failed => Sys2Proof.Machine.execSanitizeStatusPoll slot done failed s
  | .overwriteCursorTick vol finished => Sys2Proof.Machine.execOverwriteCursorTick vol finished s
  | .heartbeatSend => Sys2Proof.Machine.execHeartbeatSend s
  | .heartbeatReceive pathB h => Sys2Proof.Machine.execHeartbeatReceive pathB h s
  | .heartbeatMiss pathB => Sys2Proof.Machine.execHeartbeatMiss pathB s
  | .partnerHaltedReceive => Sys2Proof.Machine.execPartnerHaltedReceive s
  | .powerFailFrameReceive => Sys2Proof.Machine.execPowerFailFrameReceive s
  | .healthSend => Sys2Proof.Machine.execHealthSend s
  | .healthReceive h => Sys2Proof.Machine.execHealthReceive h s
  | .mirrorReceive mseq items => Sys2Proof.Machine.execMirrorReceive mseq items s
  | .mirrorAckReceive mseq => Sys2Proof.Machine.execMirrorAckReceive mseq s
  | .mirrorResend => Sys2Proof.Machine.execMirrorResend s
  | .snapshotAcked kcvAgree => Sys2Proof.Machine.execSnapshotAcked kcvAgree s
  | .arbiterAcquireComplete n a => Sys2Proof.Machine.execArbiterAcquireComplete n a s
  | .arbiterTimeout n => Sys2Proof.Machine.execArbiterTimeout n s
  | .arbitrationRetry => Sys2Proof.Machine.execArbitrationRetry s
  | .garpRepeat => Sys2Proof.Machine.execGarpRepeat s
  | .preemptComplete slot => Sys2Proof.Machine.execPreemptComplete slot s
  | .preemptTimeout slot => Sys2Proof.Machine.execPreemptTimeout slot s
  | .ownershipRecordDurable => Sys2Proof.Machine.execOwnershipRecordDurable s
  | .takeoverFinish => Sys2Proof.Machine.execTakeoverFinish s
  | .selfFence => Sys2Proof.Machine.execSelfFence s
  | .handoverStart => Sys2Proof.Machine.execHandoverStart s
  | .handoverDrainTimeout => Sys2Proof.Machine.execHandoverDrainTimeout s
  | .handoverReceive groups roles lastMseq => Sys2Proof.Machine.execHandoverReceive groups roles lastMseq s
  | .stableTimeExpire => Sys2Proof.Machine.execStableTimeExpire s
  | .innerConnect pier => Sys2Proof.Machine.execInnerConnect pier s
  | .innerIdleProbe pier => Sys2Proof.Machine.execInnerIdleProbe pier s
  | .pierLossTimeout pier => Sys2Proof.Machine.execPierLossTimeout pier s
  | .fwdCmd pier r => Sys2Proof.Machine.execFwdCmd pier r s
  | .fwdCpl pier r => Sys2Proof.Machine.execFwdCpl pier r s
  | .fwdTrigger pier r => Sys2Proof.Machine.execFwdTrigger pier r s
  | .fragReq pier r group => Sys2Proof.Machine.execFragReq pier r group s
  | .fragDone pier r => Sys2Proof.Machine.execFragDone pier r s
  | .directoryRec pier r => Sys2Proof.Machine.execDirectoryRec pier r s
  | .epochRec pier r group => Sys2Proof.Machine.execEpochRec pier r group s
  | .ownerWaitTimeout cmd => Sys2Proof.Machine.execOwnerWaitTimeout cmd s
  | .entropyFault => Sys2Proof.Machine.execEntropyFault s
  | .bistSliceStart => Sys2Proof.Machine.execBistSliceStart s
  | .sliceDrainTimeout => Sys2Proof.Machine.execSliceDrainTimeout s
  | .sliceSegmentEnd r => Sys2Proof.Machine.execSliceSegmentEnd r s
  | .fuseBurn m v => Sys2Proof.Machine.execFuseBurn m v s
  | .hbmEccError pc addr kind => Sys2Proof.Machine.execHbmEccError pc addr kind s
  | .pcRetireCopyDone pc => Sys2Proof.Machine.execPcRetireCopyDone pc s
  | .maintRequestRetry => Sys2Proof.Machine.execMaintRequestRetry s
  | .cpuCoreError core uncorrectable => Sys2Proof.Machine.execCpuCoreError core uncorrectable s
  | .sensorDisagree sensor => Sys2Proof.Machine.execSensorDisagree sensor s
  | .refclkLoss clk => Sys2Proof.Machine.execRefclkLoss clk s
  | .refclkRestore clk => Sys2Proof.Machine.execRefclkRestore clk s
  | .fatalClockFault => Sys2Proof.Machine.execFatalClockFault s
  | .counterSnapshot => Sys2Proof.Machine.execCounterSnapshot s
  | .windowPublish ports inner => Sys2Proof.Machine.execWindowPublish ports inner s
  | .ctrPrivSelWrite m v => Sys2Proof.Machine.execCtrPrivSelWrite m v s
  | .sampleLfsrReseed => Sys2Proof.Machine.execSampleLfsrReseed s
  | .traceRecordDrop => Sys2Proof.Machine.execTraceRecordDrop s
  | .trestleConnectReply net pk => Sys2Proof.Machine.execTrestleConnectReply net pk s
  | .trestleResume net pk => Sys2Proof.Machine.execTrestleResume net pk s
  | .epochGrantReceive pier group epoch arbiter => Sys2Proof.Machine.execEpochGrantReceive pier group epoch arbiter s
  | .selfTestComplete failed driveFails first => Sys2Proof.Machine.execSelfTestComplete failed driveFails first s
  | .fuseBurnComplete ok => Sys2Proof.Machine.execFuseBurnComplete ok s
  | .dumpWriteComplete => Sys2Proof.Machine.execDumpWriteComplete s
  | .scrubTick step => Sys2Proof.Machine.execScrubTick step s

end Sys2Proof.Machine
end

