-- ==== Sys2Proof/Safety.lean ====
section
/-! DEFINITION. What counts as a safe run, in the terms the claims use: how a command completes, the shape that every table and
memory of the state keeps, and which part of the device a command leaves alone. -/

namespace Sys2Proof.Machine

/-- A command completes: exec answers a next state, the queue stands, and the device after it satisfies `p`. -/
def Gives (c : Instr) (s : State) (p : Dev → Prop) : Prop := ∃ d, exec c s = .next { s with dev := d } ∧ p d

/-- Are the keys of a table strictly rising, above `lo`? -/
def tabWfFrom {α : Type} : Option Nat → Tab α → Bool
  | _, [] => true
  | lo, (k, _) :: t => (lo.all (· < k)) && tabWfFrom (some k) t

/-- The canonical form of a table. -/
def tabWf {α : Type} (t : Tab α) : Bool := tabWfFrom none t

/-- The addressed memories of the device are in canonical form: the submission rings, the pantry and the dump partition. -/
def Dev.memOk (d : Dev) : Bool := memWf d.trs.rings && memWf d.trs.pantry && memWf d.ctr.dump

/-- Every byte of the three addressed memories reads as before. -/
def SameMem (d d' : Dev) : Prop := ∀ a, memRead d'.trs.rings a = memRead d.trs.rings a
  ∧ memRead d'.trs.pantry a = memRead d.trs.pantry a ∧ memRead d'.ctr.dump a = memRead d.ctr.dump a

end Sys2Proof.Machine
end

