-- ==== Sys2Proof/Certificates/Slice0/Obligations.lean ====
section
/-! DEFINITION. The statements about the device for the provers: what each command gives where it completes, what families of
commands leave alone, and invariants of every step. -/

open Sys2Proof Sys2Proof.Machine

namespace Sys2Proof.Machine

/-- What every cold reset leaves: AON and all else cleared; fuses, OTP and drives kept (R108). -/
def ColdCleared (d d' : Dev) : Prop :=
  d'.time = 0 ∧ d'.reg.live = [] ∧ d'.reg.staged = [] ∧ d'.pwr = {} ∧ d'.sense = {} ∧ d'.trs = {} ∧ d'.cmd = {} ∧ d'.swc = {}
    ∧ d'.eth = {} ∧ d'.itg = {} ∧ d'.pln = {} ∧ d'.glb.otpFw = d.glb.otpFw ∧ d'.glb.otpPlan = d.glb.otpPlan
    ∧ (d.bst.burning = false → d'.bst.fuses = d.bst.fuses ∧ d'.bst.retired = repairsRetired d.bst.fuses) ∧ d'.par.epoch = d.par.epoch ∧ d'.par.owner = d.par.owner

/-- What a warm reset and the entry to HALT leave: the words of AON stand, everything outside AON is cleared (R108, R109). -/
def WarmCleared (d d' : Dev) : Prop :=
  d'.time = d.time ∧ d'.sense = d.sense ∧ d'.reg.live = tfilter d.reg.live (fun o _ => aonWord o) ∧ d'.reg.staged = []
    ∧ d'.cmd = {} ∧ d'.swc = {} ∧ d'.eth = {} ∧ d'.itg = {} ∧ d'.trs.conns = [] ∧ d'.trs.regions = [] ∧ d'.trs.rings = []
    ∧ d'.trs.pantry = [] ∧ d'.glb.planAccepted = false ∧ d'.glb.planApplied = false

/-- Nothing is at work in the storage engine: no command, no repair, no journal record. -/
def NoWork (d : Dev) : Prop := d.cmd.slots = [] ∧ d.sto.repairs = [] ∧ ∀ e ∈ d.sto.groups, e.2.journal.recs = []

/-- A received frame that MAC acceptance passes, its checksums aside (R154). -/
def frameAccepted (d : Dev) (p : Nat) (f : Frame) : Bool :=
  64 ≤ f.len && f.len ≤ maxFrameOf d p && f.etype != 0x8808 && f.pcsOk && f.fcsOk

/-- A packet that reaches step 4 of the receive checks (R217): its trailer is right, it names the connection `x` at index `c`, whose
context is resident with nothing parked, at an address that takes it, and neither version nor a field is bad. -/
def rxOk (d : Dev) (net : Net) (p : Pkt) (c : Nat) (x : Conn) : Bool :=
  serving d && domOn d (pdTRS 0) && p.crc == pktCrc p && pkVer p == 1 && namedBy d net p == some (c, x) && connOf d c == some x
    && (badField p x.r.payload).isNone && isResident d c && !d.trs.porch.any (fun e => e.1 == c)
    && (!d.par.adopted.contains net.dstIp || (x.adopted && x.r.localIp == net.dstIp))

/-- A sequenced packet with a PSN that the connection has not received, within the PSN window (R217 steps 6 and 7). -/
def newPsn (x : Conn) (p : Pkt) : Bool :=
  !below32 p.psn.toNat x.cum && !x.got.contains p.psn.toNat && !x.held.any (fun q => q.psn == p.psn)
    && sub32 p.psn.toNat x.cum < 4096

/-- Its message is within the MSN window, of the same length in every packet, and not failed (R217 steps 8 and 9). -/
def openMsg (x : Conn) (p : Pkt) : Bool :=
  (below32 p.msn.toNat x.completed || sub32 p.msn.toNat x.completed < 64) && !msgFailed x p.msn.toNat
    && !lenDiffers x p.msn.toNat p.msgLen.toNat

/-- The connection at an index satisfies `q`. -/
def connHas (d : Dev) (c : Nat) (q : Conn → Prop) : Prop := ∃ y, connOf d c = some y ∧ q y

/-- A packet of a connection as it leaves: from SRC_PORT_BASE plus its path (R202). -/
def connEmit (x : Conn) (q : Pkt) : Emit := trsEmit x.r.localIp x.r.hostIp (x.portBase + pkPath q) x.r.hostPort q

/-- The ACK that a connection sends on a path. -/
def ackOf (x : Conn) (path probe : Nat) : Emit :=
  connEmit x (sealPkt { verOp := verOp 4, path := BitVec.ofNat 16 path, dstConn := x.r.srcConn, body := ackBody x probe })

/-- No command waits in a slot for something that others do, nothing is to be repaired, and no reset waits for a completion: what a
command releases then starts nothing else. -/
def Quiet (d : Dev) : Prop := d.sto.repairs = [] ∧ d.adm.resetAfter = none ∧ d.via.early = [] ∧ d.via.heldReads = [] ∧ paired d = false

/-- An admitted command of an opcode, not yet answered, of this device's own PD in a slot. -/
def admittedOp (d : Dev) (cmd op : Nat) (x : Slot) : Prop :=
  slotOf d cmd = some x ∧ x.op = op ∧ x.phase = .admitted ∧ x.result = none ∧ x.from_ = none

/-- The status and results that a command has been given. -/
def resultOf (d : Dev) (cmd : Nat) : Option (Nat × Nat × Nat) := (slotOf d cmd).bind (·.result)

/-- A command in its turn on its volume, of a device where nothing else is under way. -/
def begins (d : Dev) (c op : Nat) (x : Slot) (vol : Volume) : Prop :=
  planned d = true ∧ Quiet d ∧ mayStart d c op = some (x, vol) ∧ x.recs = [] ∧ x.works = [] ∧ x.tags = [] ∧ x.xferFail = none
    ∧ x.recsMade = false ∧ x.allocMade = false ∧ x.replay = false ∧ x.staged = false ∧ x.cmdItem = none ∧ x.landed = 0
    ∧ x.allocRecs = [] ∧ x.mism = [] ∧ x.mismAt = none ∧ x.checked = []

/-- An admitted command of an opcode on a volume that this device owns, whose master was found to hold a right there (R24). -/
def volCmd (d : Dev) (cmd op right : Nat) (x : Slot) (vol : Volume) : Prop :=
  admittedOp d cmd op x ∧ volOf d x.vol = some vol ∧ ownsVol d vol = true ∧ holds (anyVolRights (actFor d cmd) x.master x.vol) right = true

/-- Nothing is under way that a partner's acknowledgement or a member's change could move on. -/
def Still (d : Dev) : Prop := d.sto.repairs = [] ∧ d.adm.resetAfter = none ∧ d.cmd.slots = [] ∧ d.cmd.posting = [] ∧ d.sto.groups = []

/-- A part of the device for the frame statements; event log, counters, windows of the counter unit, free values and the logged state
and pause of volumes may change with any command. -/
inductive Piece where
  | glb | pwr | sense | regs | latch | acc | pln | eth | swc | trs | bytes | cmd | sto | par | via | itg | adm | bst | outs
  deriving DecidableEq, Repr

/-- The device after a command holds a part as before. -/
def Piece.same (d e : Dev) : Piece → Prop
  | .glb => e.glb = d.glb
  | .pwr => e.pwr = d.pwr
  | .sense => e.sense = d.sense
  | .regs => e.reg.live = d.reg.live ∧ e.reg.staged = d.reg.staged ∧ e.reg.sticky = d.reg.sticky
  | .latch => e.reg.latch = d.reg.latch ∧ e.reg.readVal = d.reg.readVal
  | .acc => e.acc = d.acc
  | .pln => e.pln = d.pln
  | .eth => e.eth = d.eth
  | .swc => e.swc = d.swc
  | .trs => e.trs = d.trs
  | .bytes => SameMem d e
  | .cmd => e.cmd = d.cmd
  | .sto => ({ e.sto with volSt := [], vols := e.sto.vols.map fun x => (x.1, { x.2 with pause := false }) } : Sto)
      = { d.sto with volSt := [], vols := d.sto.vols.map fun x => (x.1, { x.2 with pause := false }) }
  | .par => e.par = d.par
  | .via => e.via = d.via
  | .itg => e.itg = d.itg
  | .adm => e.adm = d.adm
  | .bst => e.bst = d.bst
  | .outs => e.out = d.out

/-- The parts that a command may change. -/
def changes : Instr → List Piece
  | .aonPowerOn | .aonPowerLoss | .porstAssert | .heartbeatMiss .. | .partnerHaltedReceive
  | .arbiterAcquireComplete ..
    => [.glb, .pwr, .sense, .regs, .latch, .acc, .pln, .eth, .swc, .trs, .bytes, .cmd, .sto, .par, .via, .itg, .adm, .bst, .outs]
  | .resetRelease .. | .domainReady .. => [.glb, .pwr]
  | .avsInitialSet .. | .agingMonitorRead .. | .pmbusAlert .. | .sensorDisagree .. | .refclkRestore .. => [.sense]
  | .pwrFailRecognise => [.pwr, .swc, .par, .bst, .outs]
  | .pwrFailClear | .domainSwitchOnRequest .. | .domainSwitchOffRequest .. | .loadGovernorTick ..
  | .powerEstimateTick .. | .powerAttnClear | .thermalGovernorTick => [.pwr]
  | .presenceChange .. => [.glb, .sense, .acc, .trs, .cmd, .sto, .par, .via, .adm, .outs]
  | .mgtGpioOutSet .. | .mgtGpioOutClr .. | .trsPdSelWrite .. | .cmdPdSelWrite .. | .ctrPrivSelWrite .. => [.regs, .acc]
  | .domainOffComplete .. => [.glb, .pwr, .acc, .eth, .swc, .trs, .cmd, .sto, .par, .via, .itg, .adm, .bst, .outs]
  | .deepIdleEnter .. => [.pwr, .acc]
  | .deepIdleExit .. => [.glb, .pwr, .acc]
  | .powerTelemetryCorrect .. => [.pwr, .sense]
  | .pwrCapWrite .. | .pwrThermCfgWrite .. => [.pwr, .regs, .acc]
  | .capRefuseTimeout .. | .holdTimeout .. => [.trs, .cmd]
  | .sensorScan .. => [.glb, .pwr, .sense, .swc, .par, .itg, .bst, .outs]
  | .thermtrip .. | .cpuCoreError .. | .fatalClockFault => [.glb, .pwr, .par, .itg, .bst, .outs]
  | .haltEntry | .glbResetCtrlWrite .. | .watchdogExpire | .pairJoin .. | .recoveryComplete .. | .registerWrite ..
  | .stagedRegisterWrite .. | .trestleWrite .. | .trestleReadReq .. | .trestleReadResp .. | .trestleAck ..
  | .trestleNack .. | .trestleCredit .. | .trestleProbe .. | .trestleConnect .. | .trestleClose ..
  | .trestleResumeReply .. | .contextFetchComplete .. | .completionGenerate .. | .cqSpacePoll ..
  | .cqDetachTimeout .. | .configWrite .. | .queueAttach .. | .fragmentWriteComplete .. | .driveReadComplete ..
  | .heartbeatReceive .. | .mirrorAckReceive .. | .ownershipRecordDurable | .takeoverFinish | .selfFence
  | .fragDone .. | .trestleConnectReply .. | .trestleResume ..
    => [.glb, .pwr, .regs, .latch, .acc, .pln, .eth, .swc, .trs, .bytes, .cmd, .sto, .par, .via, .itg, .adm, .bst, .outs]
  | .glbWdogKick .. | .mgmtImageDelivery .. => [.glb, .acc]
  | .bootSourceRead .. => [.glb, .adm, .outs]
  | .floorPlanCheck .. => [.glb, .pwr, .pln, .outs]
  | .planApply => [.glb, .pwr, .regs, .acc, .pln, .swc, .cmd, .via]
  | .bootBist .. => [.glb, .pwr, .regs, .cmd, .sto, .par, .via, .itg, .adm, .bst, .outs]
  | .drivePerstRelease => [.sto]
  | .driveLinkUp .. => [.sto, .outs]
  | .driveReady .. => [.glb, .acc, .trs, .cmd, .sto, .par, .via, .adm, .outs]
  | .driveReadyTimeout .. => [.glb, .sto, .par, .outs]
  | .joinTimeout | .heartbeatSend | .healthSend | .arbiterTimeout .. | .arbitrationRetry | .garpRepeat => [.par, .outs]
  | .recoveryScan .. | .memberAnswer .. | .reshapeSwitch .. => [.cmd, .sto, .par, .via, .outs]
  | .recoveryReplay .. | .recoveryResync .. | .groupForm .. | .dirtyIdleExpire .. | .journalCheckpoint ..
  | .journalRemirrorComplete .. | .bandRestoreStart .. | .rebuildProgressTick .. | .reshapeUnitCopy ..
  | .reshapeAbandonDone .. | .epochGrantReceive .. => [.sto, .par, .via, .outs]
  | .registerReadClear .. => [.sense, .latch, .acc, .eth, .trs]
  | .plnCommit .. | .plnDiscard .. => [.regs, .acc, .pln, .eth, .swc, .outs]
  | .plnLockClaim .. | .plnLockRelease .. => [.acc, .pln]
  | .plnLockTimeout .. => [.pln]
  | .accessEntryWord0Write .. | .accessEntryWord1Write .. | .debugUnlockRequest | .debugUnlockResponse ..
  | .tapInstructionLoad .. => [.acc]
  | .portBringupAttempt .. | .portBringupTimeout .. | .pauseFrameReceive .. | .pfcFrameReceive ..
  | .pauseQuantaExpire .. | .pwdRecoveryExpire .. => [.eth]
  | .portLinkUp .. => [.eth, .par, .via, .outs]
  | .portRetrainTrigger .. | .linkHoldExpire .. | .pwdWatchExpire .. | .frameTransmitComplete .. => [.eth, .swc, .outs]
  | .ethLaneRetrain .. | .ethLaneRestore .. => [.acc, .eth, .swc, .outs]
  | .portLinkDown .. => [.eth, .swc, .par, .outs]
  | .frameIngress .. => [.swc, .via, .outs]
  | .pauseRefresh .. | .internalFrameOffer .. | .holdoffAccept .. | .frameAgeDiscard .. => [.swc, .outs]
  | .frameTransmitStart .. | .sliceDrainTimeout => [.swc, .bst, .outs]
  | .fdbAgeOut .. => [.swc]
  | .swcFdbFlush .. => [.acc, .swc]
  | .ethPtpTsRead .. => [.latch, .acc, .eth]
  | .fenceRelease .. => [.pwr, .acc, .trs, .bytes, .cmd, .par, .via, .adm, .outs]
  | .rtoExpire .. | .pathProbeTimer .. | .ackCoalesceExpire .. | .deadTimerExpire .. | .ringFetch ..
  | .innerIdleProbe .. => [.trs, .cmd, .sto, .par, .via, .outs]
  | .closingTimeout .. | .resumeRetry .. | .contextWritebackDone .. => [.trs, .cmd, .par, .via, .outs]
  | .timeWaitExpire .. | .pdApplyComplete | .triggerLingerExpire => [.trs]
  | .pdApply .. => [.regs, .acc, .trs, .cmd, .par, .via, .outs]
  | .commandAdmit | .msubGo .. | .releaseCmd .. | .fwdCmd .. | .fwdTrigger ..
    => [.pwr, .acc, .trs, .cmd, .par, .via, .adm, .outs]
  | .slotWaitTimeout .. | .flushCmd .. | .ownerWaitTimeout .. => [.cmd]
  | .readCmd .. | .writeCmd .. | .writeZeroes .. | .deallocate .. | .verifyCmd .. | .readTags .. | .abortCmd ..
  | .sanitizeOverwrite .. | .sanitizeBlockErase .. | .sanitizeDriveOverwrite .. | .formatCmd .. | .memberFail ..
  | .tagComputeDone .. | .parityComputeDone .. | .bitmapWriteComplete .. | .journalWriteComplete ..
  | .driveFaultReport .. | .cstsPoll .. | .driveCmdTimeout .. | .healthLogPoll .. | .asyncEventNotice ..
  | .memberFailTimeout .. | .catchupComplete .. | .bandRestoreComplete .. | .copybackComplete .. | .healthReceive ..
  | .preemptComplete .. | .preemptTimeout .. | .pierLossTimeout .. => [.acc, .trs, .cmd, .sto, .par, .via, .adm, .outs]
  | .identifyDevice .. | .gateDrainExpire | .fragReq .. => [.trs, .cmd, .via, .outs]
  | .identifyVolume .. | .volumeQuery .. | .getLog .. | .removePier .. => [.acc, .trs, .cmd, .via, .outs]
  | .configRead .. => [.sense, .latch, .acc, .eth, .trs, .cmd]
  | .queueCreateSq .. => [.acc, .trs, .bytes, .cmd, .par, .outs]
  | .queueCreateCq .. | .queueDeleteCq .. => [.acc, .cmd, .par, .outs]
  | .queueDeleteSq .. | .volumeDelete .. => [.acc, .trs, .cmd, .sto, .par, .via, .itg, .adm, .outs]
  | .volumeCreate .. | .memberRetire .. | .adoptMember .. | .formGroup .. | .dissolveGroup ..
    => [.acc, .cmd, .sto, .par, .via, .outs]
  | .volumeReshapeStart .. | .volumeReshapeAbandon .. | .setAccess .. | .setShare .. | .pauseVolume ..
  | .resumeVolume .. => [.acc, .cmd, .sto, .par, .via, .itg, .outs]
  | .keyLoad .. => [.acc, .cmd, .par, .itg, .outs]
  | .keyClear .. => [.acc, .trs, .cmd, .sto, .par, .via, .itg, .outs]
  | .formatApply .. | .sanitizeStatusPoll .. | .overwriteCursorTick .. => [.sto, .par, .via, .adm, .outs]
  | .selfTestShort .. | .selfTestExtended .. => [.acc, .cmd, .adm, .bst, .outs]
  | .selfTestStop .. => [.acc, .cmd, .adm]
  | .selfTestTimeout | .selfTestComplete .. => [.adm]
  | .imageLoad .. => [.acc, .cmd, .adm, .outs]
  | .imageActivate .. => [.glb, .acc, .cmd, .adm, .outs]
  | .imageCopyFirstFlash => [.adm, .outs]
  | .slotOff .. | .slotOn .. => [.pwr, .acc, .cmd, .sto, .par, .via, .outs]
  | .counterSetupDump .. => [.regs, .acc, .pln, .eth, .swc, .cmd, .outs]
  | .clearSet .. => [.acc, .cmd]
  | .sampleSetup .. | .windowSetup .. => [.regs, .acc, .cmd]
  | .copyOut .. => [.acc, .trs, .bytes, .cmd, .via, .outs]
  | .regionCreate .. | .regionDestroy .. => [.acc, .trs, .cmd, .par, .outs]
  | .maintRequest .. | .moveGroups .. | .returnRoles .. => [.acc, .cmd, .par]
  | .admitPier .. | .gateOn .. | .gateOff .. => [.acc, .cmd, .via, .outs]
  | .powerFailFrameReceive | .stableTimeExpire | .maintRequestRetry => [.par]
  | .mirrorReceive .. => [.acc, .trs, .bytes, .cmd, .sto, .par, .via, .itg, .outs]
  | .mirrorResend => [.par, .via, .outs]
  | .snapshotAcked .. => [.regs, .par]
  | .handoverStart | .handoverReceive .. => [.swc, .par, .bst, .outs]
  | .handoverDrainTimeout => [.cmd, .sto, .par, .outs]
  | .innerConnect .. => [.trs, .outs]
  | .fwdCpl .. => [.trs, .cmd, .outs]
  | .directoryRec .. => [.cmd, .par, .via, .outs]
  | .epochRec .. => [.via, .outs]
  | .entropyFault => [.itg]
  | .bistSliceStart => [.trs, .bst, .outs]
  | .sliceSegmentEnd .. => [.glb, .pwr, .regs, .swc, .par, .itg, .bst, .outs]
  | .fuseBurn .. => [.acc, .bst]
  | .hbmEccError .. => [.glb, .pwr, .acc, .trs, .bytes, .cmd, .sto, .par, .via, .itg, .adm, .bst, .outs]
  | .pcRetireCopyDone .. => [.par, .bst]
  | .refclkLoss .. => [.sense, .acc, .eth, .swc, .trs, .cmd, .sto, .par, .via, .adm, .outs]
  | .counterSnapshot => [.regs, .bytes]
  | .windowPublish .. | .sampleLfsrReseed | .dumpWriteComplete => []
  | .traceRecordDrop => [.regs]
  | .fuseBurnComplete .. | .scrubTick .. => [.bst]

end Sys2Proof.Machine

/-- O1 (R64, R108, R113, R123). From OFF, VDD_AON in tolerance leaves the device in RESET with cause 0x20; PORST_N low from any
state but OFF leaves it in RESET with cause bit 0 added, bit 3 when it was in HALT and bit 4 after THERMTRIP_N; VDD_AON out of
tolerance leaves it OFF. Each leaves device time 0, every register at its reset value, every connection, queue, slot, frame and
key page gone, and the fuses where no burn was under way, the OTP counters and the volume numbers on the drives as they were.
Completes: aonPowerOn, aonPowerLoss, porstAssert. -/
def Obligations.ColdResets : Prop :=
  ∀ s : State,
    (s.dev.glb.st = .off → Gives .aonPowerOn s fun d => d.glb.st = .reset ∧ d.glb.cause = 0x20 ∧ ColdCleared s.dev d)
    ∧ (s.dev.glb.st ≠ .off → Gives .porstAssert s fun d => d.glb.st = .reset ∧ ColdCleared s.dev d
        ∧ d.glb.cause = s.dev.glb.cause ||| BitVec.ofNat 6 (1 + 8 * b2n (s.dev.glb.st == .halt) + 16 * b2n s.dev.glb.thermtrip))
    ∧ Gives .aonPowerLoss s fun d => d.glb.st = .off ∧ ColdCleared s.dev d

/-- O2 (R101, R108, R109, R110, R113, R123, R431). The watchdog's expiry from PLAN on, and a GLB_RESET_CTRL write of 0xA5C3 with
bit 0 by a master that holds WRITE on the global window, leave the device in RESET with cause bit 2 or 1; a self-fence leaves it
in RESET with the cause as it was; the end of a shutdown leaves it in HALT. Each keeps the registers of AON and clears those of
every other block, and clears every connection, slot, frame and key page; device time goes on. Completes: haltEntry,
glbResetCtrlWrite, watchdogExpire, selfFence. -/
def Obligations.WarmResets : Prop :=
  ∀ s : State,
    (running s.dev = true → s.dev.glb.st ≠ .boot → Gives .watchdogExpire s fun d =>
      d.glb.st = .reset ∧ d.glb.cause = s.dev.glb.cause ||| 4 ∧ WarmCleared s.dev d)
    ∧ (∀ (m : Master) (v : Word), running s.dev = true → pageHas s.dev m 0 rWRITE = true → fld v.toNat 16 16 = 0xA5C3 →
        bitAt v.toNat 0 = true → Gives (.glbResetCtrlWrite m v) s fun d =>
          d.glb.st = .reset ∧ d.glb.cause = s.dev.glb.cause ||| 2 ∧ WarmCleared s.dev d)
    ∧ (planned s.dev = true → (s.dev.par.st = .syncing ∨ s.dev.par.st = .paired) → Gives .selfFence s fun d => d.glb.st = .reset ∧ d.glb.cause = s.dev.glb.cause ∧ WarmCleared s.dev d)
    ∧ (s.dev.glb.shutdown = true → running s.dev = true →
        ((List.range 64).all fun n => n == pdDBG || domPhase s.dev n == .off) = true →
        Gives .haltEntry s fun d => d.glb.st = .halt ∧ WarmCleared s.dev d)

/-- O3 (R67, R113, R114, R115, R116, R117, R118, R131). In RESET, the end of reset takes the straps on a cold reset, recognises
no drive yet, and enters BOOT with the boot order of BOOT_SRC. In BOOT with core 0 ready, an accepted image of the next flash in
order, and an accepted management image from a master with ADMIN on page 0 while the device waits for one, enter PLAN. In PLAN,
the next source's floor plan is checked with the result code of R131: it becomes the accepted plan where it passes every check,
and is not accepted where it fails one; an accepted plan that leaves 8,192 MiB of data staging is applied, and the device stays
in PLAN while its domains are switched on. With every domain settled, boot BIST with no essential failure enters TRAIN, which a
device without a pair leaves for RECOVERY once no drive is being brought up. Completes: resetRelease, bootSourceRead,
mgmtImageDelivery, floorPlanCheck, planApply, bootBist. -/
def Obligations.BootToTrain : Prop :=
  ∀ s : State,
    (∀ side b1 b0, s.dev.glb.st = .reset → Gives (.resetRelease side b1 b0) s fun d => d.glb.st = .boot ∧ d.glb.porst = false
        ∧ (s.dev.glb.porst = true → d.glb.side = side ∧ d.glb.bootSrc = BitVec.ofNat 2 (2 * b2n b1 + b2n b0))
        ∧ (s.dev.glb.porst = false → d.glb.side = s.dev.glb.side ∧ d.glb.bootSrc = s.dev.glb.bootSrc)
        ∧ d.sense.present = s.dev.sense.present ∧ d.glb.bootOrder = flashOrder d.glb.bootSrc s.dev.glb.loadFirst)
    ∧ (∀ flashB img, s.dev.glb.st = .boot → s.dev.glb.mgmtWait = false → domOn s.dev (pdCPU 0) = true →
        (s.dev.glb.bootOrder.find? fun f => !s.dev.glb.tried.contains f) = some (b2n flashB) → fwResult s.dev img = 1 →
        Gives (.bootSourceRead flashB img) s fun d => d.glb.st = .plan ∧ d.glb.fwSource = b2n flashB ∧ d.glb.fwVersion = img.fwVersion
          ∧ d.glb.wdog = s.dev.time)
    ∧ (∀ m img, s.dev.glb.st = .boot → s.dev.glb.mgmtWait = true → domOn s.dev (pdCPU 0) = true → pageHas s.dev m 0 rADMIN = true →
        fwResult s.dev img = 1 → Gives (.mgmtImageDelivery m img) s fun d => d.glb.st = .plan ∧ d.glb.fwSource = 2)
    ∧ (∀ source img, s.dev.glb.st = .plan → s.dev.glb.planAccepted = false →
        (planSources s.dev).find? (fun x => !s.dev.glb.planTried.contains x) = some source →
        Gives (.floorPlanCheck source img) s fun d => fld d.glb.bootStatus.toNat 14 4 = planResult s.dev img
          ∧ (planResult s.dev img = 1 → d.glb.st = .plan ∧ d.glb.planAccepted = true ∧ d.pln.cand = some (imgPlan img))
          ∧ (planResult s.dev img ≠ 1 → d.glb.planAccepted = false ∧ d.pln.cand = s.dev.pln.cand ∧ (d.glb.st = .plan ∨ d.glb.st = .maint)))
    ∧ (∀ p, s.dev.glb.st = .plan → s.dev.pln.cand = some p → 8192 ≤ stagingMiB p s.dev.bst.retired.length →
        Gives .planApply s fun d => d.glb.planApplied = true ∧ d.pln.plan = p ∧ d.pwr.heldOff = p.heldOff
          ∧ (domOn s.dev 35 = false → bitAt p.heldOff.toNat 35 = false → d.glb.st = .plan))
    ∧ (∀ fails found, s.dev.glb.st = .selftest → s.dev.pwr.reqs = [] → (s.dev.pwr.dom.all fun e => e.2 != .rising) = true →
        s.dev.sto.drives = [] →
        essentialFailed (bootTested s.dev fails found.laneFails found.repairs).1 (bootTested s.dev fails found.laneFails found.repairs).2 = none →
        Gives (.bootBist fails found) s fun d =>
          (s.dev.pln.plan.unpaired = true → d.par.st = .unpaired ∧ d.glb.joinDone = true
            ∧ d.glb.st = if drivesSettled d then .recovery else .train)
          ∧ (s.dev.pln.plan.unpaired = false → d.par.st = .alone ∧ d.glb.st = .train))

/-- O4 (R120, R316). The lowest present slot that waits leaves PERST_N; a released slot's link comes up with its rate and width
and CC.EN is set (one whose 30 s are over stays failed); a linked drive becomes ready and keeps its identify data; a drive whose
link or CSTS.RDY did not come in time has failed bring-up and, where this device decides its state, is PRESENT. Completes:
drivePerstRelease, driveLinkUp, driveReady, driveReadyTimeout. -/
def Obligations.DriveBringUp : Prop :=
  ∀ s : State, planned s.dev = true →
    (∀ k, s.dev.pwr.idle = none → s.dev.sense.clkLost.contains 2 = false →
        ((List.range 24).find? fun k => bitAt s.dev.sense.present.toNat k && !(driveOf s.dev k).off && domOn s.dev (pdD k)
          && (driveOf s.dev k).bring == .down) = some k →
        Gives .drivePerstRelease s fun d => (driveOf d k).bring = .released ∧ ∀ j, j ≠ k → driveOf d j = driveOf s.dev j)
    ∧ (∀ slot rate width, slot < 24 → (driveOf s.dev slot).bring = .released ∨ (driveOf s.dev slot).bring = .failed → Gives (.driveLinkUp slot rate width) s fun d =>
        (driveOf d slot).bring = (if (driveOf s.dev slot).bring = .failed then .failed else .link) ∧ (driveOf d slot).id.linkRate = rate ∧ (driveOf d slot).id.linkWidth = width
          ∧ d.out = s.dev.out ++ [.drive slot .enable])
    ∧ (∀ slot id, slot < 24 → (driveOf s.dev slot).bring = .link → NoWork s.dev → Gives (.driveReady slot id) s fun d =>
        (driveOf d slot).bring = .ready ∧ (driveOf d slot).id.eui64 = id.eui64)
    ∧ (∀ slot, slot < 24 → (driveOf s.dev slot).bring = .released ∨ (driveOf s.dev slot).bring = .link →
        Gives (.driveReadyTimeout slot) s fun d => (driveOf d slot).bring = .failed ∧ (decides s.dev slot = true → (driveOf d slot).st = .present))

/-- O5 (R66, R78, R98, R99, R100, R107). A sensor scan stores the 30 readings and takes TJ_MAX from the hottest die sensor; a
die sensor's comparator drives THERMTRIP_N; a tick of the thermal governor with TJ_MAX at THROTTLE_C plus n degrees lowers the
cap by 4 W times (n + 1) down to 40 W, at THROTTLE_C less HYST_C raises it by 4 W or ends throttling above 148 W; the first AVS
setting takes the fused value and the margin within 0.70 to 0.78 V; a call for more margin raises it by 5 mV, or lowers the
clocks by a sixty-fourth. Completes: avsInitialSet, agingMonitorRead, sensorScan, thermtrip, thermalGovernorTick. -/
def Obligations.SensorsAndThermal : Prop :=
  ∀ s : State, s.dev.glb.st ≠ .off →
    (∀ readings, Gives (.sensorScan readings) s fun d =>
        d.sense.temps = (readings.take 30).zipIdx.map (fun e => (e.2, e.1))
        ∧ d.sense.tjMax = (hottest { s.dev with sense.temps := (readings.take 30).zipIdx.map fun e => (e.2, e.1) }).1)
    ∧ (∀ sensor, sensor < 28 → Gives (.thermtrip sensor) s fun d =>
        d.glb.thermtrip = true ∧ (running s.dev = true → d.glb.shutdown = true))
    ∧ (∀ cap, s.dev.pwr.thermalCap = some cap → Gives .thermalGovernorTick s fun d => d.pwr.thermalCap = thermalNext s.dev cap
        ∧ (16 * throttleC s.dev ≤ s.dev.sense.tjMax → ∃ c, d.pwr.thermalCap = some c ∧ 40000 ≤ c)
        ∧ (s.dev.sense.tjMax ≤ 16 * throttleC s.dev - 16 * hystC s.dev → 0 < hystC s.dev → hbmAt s.dev 95 = false →
            (cap ≤ 144000 → d.pwr.thermalCap = some (cap + 4000)) ∧ (144000 < cap → d.pwr.thermalCap = none)))
    ∧ (∀ marginMv, s.dev.glb.st = .boot → s.dev.sense.avsSet = false → Gives (.avsInitialSet marginMv) s fun d =>
        d.sense.avsSet = true ∧ d.sense.avsMv = setpoint (Config.avsFuseMv + marginMv) ∧ 700 ≤ d.sense.avsMv ∧ d.sense.avsMv ≤ 780)
    ∧ (∀ slowdown marginPct more, s.dev.sense.avsSet = true → Gives (.agingMonitorRead slowdown marginPct more) s fun d =>
        d.sense.slowdown = slowdown ∧ d.sense.marginPct = marginPct
        ∧ (more = false → d.sense.avsMv = s.dev.sense.avsMv ∧ d.sense.clockDrop = s.dev.sense.clockDrop)
        ∧ (more = true → s.dev.sense.avsMv ≤ 775 → d.sense.avsMv = s.dev.sense.avsMv + 5)
        ∧ (more = true → 775 < s.dev.sense.avsMv → d.sense.avsMv = s.dev.sense.avsMv
            ∧ d.sense.clockDrop = min 8 (s.dev.sense.clockDrop + 1)))

/-- O6 (R59, R62, R65, R87, R88, R92, R93, R94, R95, R97). PWR_FAIL_N recognised sets PWR_FAIL and its clearing clears it;
telemetry sets the measured power, the estimate and the rails and ends a PMBus alert; an estimate above the effective cap lowers
the control cluster's clock first, not below 800 MHz; one microsecond of the load governor moves each block's activity towards
its demand by at most 25 up or 4 down in 1/200 of full rate, a block that the list does not reach demanding nothing; a presence
change sets the slot's bit; attention 0x6 of a hold is cleared once no command is held; a command held for power for REFUSE_MS
is refused. Completes: pwrFailRecognise, pwrFailClear, presenceChange, pmbusAlert, loadGovernorTick, powerEstimateTick,
powerTelemetryCorrect, capRefuseTimeout, powerAttnClear. -/
def Obligations.PowerTelemetry : Prop :=
  ∀ s : State, s.dev.glb.st ≠ .off →
    (Gives .pwrFailRecognise s fun d => d.pwr.fail = true)
    ∧ (s.dev.pwr.fail = true → Gives .pwrFailClear s fun d => d.pwr.fail = false)
    ∧ (∀ mw mv ma, Gives (.powerTelemetryCorrect mw mv ma) s fun d => d.pwr.powerMw = mw ∧ d.pwr.estimate = mw ∧ d.sense.railMv = mv
        ∧ d.sense.railMa = ma ∧ d.sense.pmbAlert = none
        ∧ d.pwr.energy = s.dev.pwr.energy + s.dev.pwr.powerMw * (s.dev.time - s.dev.pwr.energyAt))
    ∧ (∀ rail, Gives (.pmbusAlert rail) s fun d => d.sense.pmbAlert = some rail)
    ∧ (∀ mw, running s.dev = true → Gives (.powerEstimateTick mw) s fun d => d.pwr.estimate = mw
        ∧ (effectiveCap s.dev < mw → 800 < s.dev.pwr.cpuMhz → 800 ≤ d.pwr.cpuMhz ∧ d.pwr.cpuMhz < s.dev.pwr.cpuMhz)
        ∧ (mw ≤ effectiveCap s.dev → s.dev.pwr.cpuMhz ≤ 2000 → s.dev.pwr.cpuMhz ≤ d.pwr.cpuMhz))
    ∧ (∀ demand i, tabWf s.dev.pwr.activity = true → Gives (.loadGovernorTick demand) s fun d =>
        tgetD d.pwr.activity i 0 = activityNext (tgetD s.dev.pwr.activity i 0) (demandOf s.dev demand i)
        ∧ tgetD d.pwr.activity i 0 ≤ tgetD s.dev.pwr.activity i 0 + 25
        ∧ tgetD s.dev.pwr.activity i 0 ≤ tgetD d.pwr.activity i 0 + 4)
    ∧ (∀ slot present, slot < 24 → planned s.dev = false ∨ present = true → Gives (.presenceChange slot present) s fun d =>
        bitAt d.sense.present.toNat slot = present
        ∧ ∀ k, k < 24 → k ≠ slot → bitAt d.sense.present.toNat k = bitAt s.dev.sense.present.toNat k)
    ∧ (∀ slot, slot < 24 → planned s.dev = true → NoWork s.dev → Gives (.presenceChange slot false) s fun d =>
        bitAt d.sense.present.toNat slot = false ∧ (decides s.dev slot = true → (driveOf d slot).st = .absent) ∧ (driveOf d slot).bring = .down)
    ∧ (s.dev.cmd.heldSince = [] → (s.dev.cmd.slots.any fun e => releasedWaits e.2) = false → Gives .powerAttnClear s fun d => d.pwr.holdAttn = false)
    ∧ (∀ sq r f, serving s.dev = true → refuseMs s.dev ≠ 0 → releasedLate s.dev sq = [] → thas s.dev.cmd.heldSince sq = true → sqOf s.dev sq = some r →
        sqCandidate s.dev r.cls sq = some f → Gives (.capRefuseTimeout sq) s fun d =>
          d = settle (refuseCap s.dev r.cls f stPOWER (effectiveCap s.dev / 1000) 0))

/-- O7 (R70, R71, R85, R91, R103, R104, R110). By a master that holds WRITE on the register's page: PWR_CAP in range takes the
value and out of range changes nothing and sets CAP_REJECT, PWR_THERM_CFG in range takes the value; MGT_GPIO_OUT_SET and _CLR of
FW_CORE set and clear bits of MGT_GPIO_OUT; GLB_WDOG_KICK of FW_CORE with 0x5AFE restarts the watchdog; in MAINT deep idle notes
the domains that are up and takes the clock to 800 MHz, and its exit returns to 2,000 MHz. Completes: mgtGpioOutSet,
mgtGpioOutClr, deepIdleEnter, deepIdleExit, pwrCapWrite, pwrThermCfgWrite, glbWdogKick. -/
def Obligations.PowerRegisters : Prop :=
  ∀ (s : State) (m : Master) (v : Word), s.dev.glb.st ≠ .off →
    (pageHas s.dev m 1 rWRITE = true → 60 ≤ fld v.toNat 0 8 → fld v.toNat 0 8 ≤ 148 → fld v.toNat 16 8 ≤ 100 →
        Gives (.pwrCapWrite m v) s fun d => d.reg.live = tset s.dev.reg.live 0x10000 (v &&& 0xFF00FF) ∧ d.pwr = s.dev.pwr)
    ∧ (pageHas s.dev m 1 rWRITE = true → 60 ≤ fld v.toNat 0 8 → fld v.toNat 0 8 ≤ 125 → 85 ≤ fld v.toNat 8 8 →
        fld v.toNat 8 8 ≤ 115 → 1 ≤ fld v.toNat 16 8 → fld v.toNat 16 8 ≤ 10 →
        Gives (.pwrThermCfgWrite m v) s fun d => d.reg.live = tset s.dev.reg.live 0x10030 (v &&& 0xFFFFFF) ∧ d.pwr = s.dev.pwr)
    ∧ (pageHas s.dev m 1 rWRITE = true → fld v.toNat 0 8 < 60 ∨ 148 < fld v.toNat 0 8 ∨ 100 < fld v.toNat 16 8 →
        Gives (.pwrCapWrite m v) s fun d => d = settle { s.dev with pwr.capReject := true })
    ∧ (isFw m = true → Gives (.mgtGpioOutSet m v) s fun d => liveReg d 0xD00104 = liveReg s.dev 0xD00104 ||| (v &&& 0xFFFF))
    ∧ (isFw m = true → Gives (.mgtGpioOutClr m v) s fun d => liveReg d 0xD00104 = liveReg s.dev 0xD00104 &&& ~~~(v &&& 0xFFFF))
    ∧ (running s.dev = true → isFw m = true → Gives (.glbWdogKick m 0x5AFE) s fun d => d.glb.wdog = s.dev.time)
    ∧ (s.dev.glb.st = .maint → s.dev.glb.shutdown = false → pageHas s.dev m 1 rWRITE = true → s.dev.pwr.idle = none →
        Gives (.deepIdleEnter m) s fun d => d.pwr.idle = some (domsUp s.dev) ∧ d.pwr.cpuMhz = 800)
    ∧ (∀ up, s.dev.glb.st = .maint → s.dev.glb.shutdown = false → pageHas s.dev m 1 rWRITE = true → s.dev.pwr.idle = some up →
        Gives (.deepIdleExit m) s fun d => d.pwr.idle = none ∧ d.pwr.cpuMhz = 2000)

/-- O8 (R104). A write of PWR_THERM_CFG by a master that holds WRITE on page 1, with WARN_C, THROTTLE_C or HYST_C out of its
range, leaves every register as it was and sets THERM_CFG_REJECT. Whatever the registers hold, a scan with a die sensor at 130 C
or above drives THERMTRIP_N, one with an HBM sensor at 105 C or above shuts the device down, and one with neither does neither.
Completes: pwrThermCfgWrite, sensorScan. -/
def Obligations.ThermCfgOutOfRange : Prop :=
  ∀ (s : State), s.dev.glb.st ≠ .off →
    (∀ (m : Master) (v : Word), pageHas s.dev m 1 rWRITE = true → fld v.toNat 0 8 < 60 ∨ 125 < fld v.toNat 0 8 ∨ fld v.toNat 8 8 < 85
        ∨ 115 < fld v.toNat 8 8 ∨ fld v.toNat 16 8 < 1 ∨ 10 < fld v.toNat 16 8 →
      Gives (.pwrThermCfgWrite m v) s fun d => d = settle { s.dev with pwr.thermReject := true })
    ∧ (∀ (l : List Int) (n : Nat) (t : Int), n < 28 → l[n]? = some t → 16 * 130 ≤ t →
        Gives (.sensorScan l) s fun d => d.glb.thermtrip = true)
    ∧ (∀ (l : List Int) (n : Nat) (t : Int), 28 ≤ n → n < 30 → l[n]? = some t → 16 * 105 ≤ t → running s.dev = true →
        Gives (.sensorScan l) s fun d => d.glb.shutdown = true)
    ∧ (∀ (l : List Int), (∀ n t, n < 28 → l[n]? = some t → t < 16 * 130) → (∀ n t, 28 ≤ n → n < 30 → l[n]? = some t → t < 16 * 105) →
        Gives (.sensorScan l) s fun d => d.glb.thermtrip = s.dev.glb.thermtrip ∧ d.glb.shutdown = s.dev.glb.shutdown)

/-- O9 (R79, R81, R82, R83). With no other request waiting: a domain that is off, not held off, whose requirements are ready and
whose 2 us turn has come starts to rise when it is asked for; one that is on, that may go off and whose users are all off starts
to fall; a rising domain that is ready is on, and the last one of the switch-on sequence in PLAN ends it and enters
SELFTEST_BOOT; a falling one is off when its switch-off is complete, and a held-off domain's request is ignored and logged.
Completes: domainSwitchOnRequest, domainSwitchOffRequest, domainReady, domainOffComplete. -/
def Obligations.DomainSwitching : Prop :=
  ∀ (s : State) (dom : Nat) (takeover : Bool), s.dev.pwr.reqs = [] →
    (dom < 64 → running s.dev = true → s.dev.pwr.idle = none → s.dev.glb.shutdown = false → bitAt s.dev.pwr.heldOff.toNat dom = false →
        domPhase s.dev dom = .off → (domRequires dom).all (domOn s.dev) = true → s.dev.pwr.onAt.all (· + 2000 ≤ s.dev.time) = true →
        Gives (.domainSwitchOnRequest dom takeover) s fun d => domPhase d dom = .rising ∧ d.pwr.onAt = some s.dev.time ∧ d.pwr.reqs = [])
    ∧ (dom < 64 → running s.dev = true → s.dev.pwr.idle = none → s.dev.glb.shutdown = false → mustStay s.dev dom = false →
        domPhase s.dev dom = .on → ((domUsers dom).all fun k => domPhase s.dev k == .off) = true →
        s.dev.pwr.offAt.all (· + 2000 ≤ s.dev.time) = true →
        Gives (.domainSwitchOffRequest dom takeover) s fun d => domPhase d dom = .falling ∧ d.pwr.offAt = some s.dev.time ∧ d.pwr.reqs = [])
    ∧ (domPhase s.dev dom = .rising → s.dev.pwr.turn = none → Gives (.domainReady dom) s fun d => domPhase d dom = .on
        ∧ ∀ k, k ≠ dom → domPhase d k = domPhase s.dev k)
    ∧ (∀ want : Dword, domPhase s.dev dom = .rising → s.dev.pwr.turn = some want → s.dev.glb.st = .plan →
        (∀ n, n < 64 → n ≠ dom → bitAt want.toNat n = true → domOn s.dev n = true
          ∨ (domPhase s.dev n = .off ∧ bitAt s.dev.pwr.heldOff.toNat n = true)) →
        Gives (.domainReady dom) s fun d => domPhase d dom = .on ∧ d.pwr.turn = none ∧ d.glb.st = .selftest)
    ∧ (domPhase s.dev dom = .falling → s.dev.pwr.turn = none → planned s.dev = false ∨ dom < 8 ∨ 32 ≤ dom ∨ NoWork s.dev → Gives (.domainOffComplete dom) s fun d =>
        domPhase d dom = .off)
    ∧ (dom < 64 → running s.dev = true → s.dev.pwr.idle = none → s.dev.glb.shutdown = false → bitAt s.dev.pwr.heldOff.toNat dom = true →
        Gives (.domainSwitchOnRequest dom takeover) s fun d => d = settle (logEvent s.dev 0x0303 0 .none (le 1 dom)))

/-- O10 (R69, R121, R122, R370, R371, R373, R374, R375). In TRAIN a paired device that a serving partner with its volumes joins
enters SERVICE, and one joined by a partner of the same side is barred; after a second with no partner the first arbiter is
asked; the scan of a group the device recovers moves it to replay, replay to resynchronisation, resynchronisation to the end,
and once every group has ended RECOVERY ends in SERVICE. Completes: pairJoin, joinTimeout, recoveryScan, recoveryReplay,
recoveryResync, recoveryComplete. -/
def Obligations.JoinAndRecovery : Prop :=
  ∀ s : State, planned s.dev = true →
    (∀ j, s.dev.pln.plan.unpaired = false → s.dev.glb.st ≠ .takeover → s.dev.par.barred = false → j.side = s.dev.glb.side →
        s.dev.cmd.slots = [] → Gives (.pairJoin j) s fun d => d.par.barred = true ∧ d.par.st = .alone ∧ d.par.lostAttn = true)
    ∧ (∀ j, s.dev.pln.plan.unpaired = false → s.dev.glb.st = .train → s.dev.par.barred = false → j.side ≠ s.dev.glb.side →
        inPair s.dev = false → joinFails s.dev j = 0 → j.state = 7 → j.ownsMine = true → s.dev.sto.drives = [] → Gives (.pairJoin j) s fun d => d.glb.st = .service)
    ∧ (s.dev.glb.st = .train → s.dev.pln.plan.unpaired = false → s.dev.glb.joinDone = false → s.dev.par.refused = false → s.dev.par.partnerState = 0 →
        s.dev.par.step = .none → Gives .joinTimeout s fun d => d.par.step = .arbitrate)
    ∧ (∀ g copies bitmaps, recoverable s.dev g = true → recPhase s.dev g = 1 → Gives (.recoveryScan g copies bitmaps) s fun d =>
        recPhase d g = 2 ∧ ((tget d.sto.recovery g).map (·.recs)) = some (countedRecs s.dev g copies))
    ∧ (∀ g x, s.dev.glb.st = .recovery → tget s.dev.sto.recovery g = some x → recoverable s.dev g = true → x.phase = 2 → x.recs = [] →
        Gives (.recoveryReplay g) s fun d => recPhase d g = 3)
    ∧ (∀ g x agree, tget s.dev.sto.recovery g = some x → recoverable s.dev g = true → x.phase = 3 → x.dirty = [] →
        Gives (.recoveryResync g agree) s fun d => recPhase d g = 4)
    ∧ (∀ us, s.dev.glb.st = .recovery → s.dev.par.step = .none → recGroups s.dev = [] → s.dev.sto.vols = [] → Gives (.recoveryComplete us) s fun d => d.glb.st = .service)

/-- O11 (R13, R33, R137, R141, R177). By a master with the page's right: a write of an RW register within its ranges puts the
value's implemented bits in the live register and changes no other; a write of an RWS register that no other master has locked
goes to its staged copy and leaves every live register; a read of the low word of a read-clear counter returns it (an FEC
counter with what the FEC has counted meanwhile, a free value), latches the high word and leaves the counter 0. A write without
the right changes no register and counts a denial. Completes: registerWrite, registerReadClear, stagedRegisterWrite. -/
def Obligations.RegisterBus : Prop :=
  ∀ (s : State) (m : Master) (o : Nat) (v : Word), busUp s.dev o = true → o < 0xE00000 →
    (∀ i, pageHas s.dev m (o / 0x10000) rWRITE = true → stagedBy s.dev o = none → regInfo s.dev o = some i → i.kind = .rw → o < 0xD00000 →
        inRanges i.ranges (v.toNat &&& i.mask) = true → Gives (.registerWrite m o v) s fun d =>
          liveReg d o = BitVec.ofNat 32 (v.toNat &&& i.mask) ∧ (∀ x, x ≠ o → tget d.reg.live x = tget s.dev.reg.live x)
          ∧ d.reg.staged = s.dev.reg.staged)
    ∧ (∀ l i, pageHas s.dev m (o / 0x10000) rWRITE = true → stagedBy s.dev o = some (l, i) → lockedOut s.dev m o = false →
        Gives (.stagedRegisterWrite m o v) s fun d =>
          tget d.reg.staged l = some (BitVec.ofNat 32 (v.toNat &&& i.mask)) ∧ d.reg.live = s.dev.reg.live)
    ∧ (∀ k, pageHas s.dev m (o / 0x10000) rREAD = true → stagedOf s.dev o = none → (regInfo s.dev o).isSome = true → counterSet o = some k →
        k < 7 → o % 8 = 0 → counterMay s.dev m k o = true → Gives (.registerReadClear m o) s fun d =>
          d.reg.readVal = cntLow (fecDraw s.dev [o]) o ∧ tgetD d.reg.cnt o 0 = 0
            ∧ tget d.reg.latch (o + 4) = some (cntHigh (fecDraw s.dev [o]) o))
    ∧ (pageHas s.dev m (o / 0x10000) rWRITE = false → Gives (.registerWrite m o v) s fun d =>
          d.reg.live = s.dev.reg.live ∧ d.reg.staged = s.dev.reg.staged
          ∧ d.acc.denyCount = min (s.dev.acc.denyCount + 1) 0xFFFFFFFF ∧ d.acc.denyWhere = BitVec.ofNat 32 o)

/-- O12 (R138, R139, R140, R141, R142). In SERVICE or MAINT, a commit by a master that may and that no lock shuts out makes
every staged value of the group live, numbers the commit, records RESULT 1 and frees its lock; a discard makes the staged copies
equal the live values, leaves those and records RESULT 3; a claim of a free lock takes it, a release by its holder and the 100
ms limit free it. Completes: plnCommit, plnDiscard, plnLockClaim, plnLockRelease, plnLockTimeout. -/
def Obligations.CommitAndLocks : Prop :=
  ∀ (s : State) (m : Master) (g : Nat), running s.dev = true →
    (g < 23 → s.dev.glb.st = .service ∨ s.dev.glb.st = .maint → commitDenied s.dev m g = false →
        (tget s.dev.pln.locks g).any (· != m) = false → rangeFail s.dev g = none → relationFail s.dev g = none → stagedDiff s.dev g ≠ [] →
        Gives (.plnCommit m g) s fun d => d.pln.result = 1 ∧ d.pln.group = g ∧ d.pln.detail = 0
          ∧ tgetD d.pln.seq g 0 = (tgetD s.dev.pln.seq g 0 + 1) % 65536
          ∧ (∀ o, o ∈ stagedDiff s.dev g → tget d.reg.live o = some (stagedReg s.dev o))
          ∧ (∀ o, o ∉ stagedDiff s.dev g → tget d.reg.live o = tget s.dev.reg.live o) ∧ tget d.pln.locks g = none)
    ∧ (g < 23 → s.dev.glb.st = .service ∨ s.dev.glb.st = .maint → commitDenied s.dev m g = false →
        (tget s.dev.pln.locks g).any (· != m) = false → Gives (.plnDiscard m g) s fun d => d.pln.result = 3 ∧ d.reg.live = s.dev.reg.live
          ∧ d.reg.staged = s.dev.reg.staged.filter fun e => !(regInfo s.dev e.1).any fun i => i.kind == .rws && i.group == g)
    ∧ (g < 64 → pageHas s.dev m 3 rWRITE = true → tget s.dev.pln.locks g = none ∨ isFw m = true → Gives (.plnLockClaim m g) s fun d =>
        tget d.pln.locks g = some m ∧ ∀ k, k ≠ g → tget d.pln.locks k = tget s.dev.pln.locks k)
    ∧ (g < 64 → pageHas s.dev m 3 rWRITE = true → tget s.dev.pln.locks g = some m → Gives (.plnLockRelease m g) s fun d =>
        tget d.pln.locks g = none)
    ∧ ((tget s.dev.pln.locks g).isSome = true → Gives (.plnLockTimeout g) s fun d => tget d.pln.locks g = none)

/-- O13 (R54, R148, R151, R530). A write of word 1 of a page's access entry makes the entry from the latched word 0; a write of
word 0 only latches it. A CTR_PRIV_SEL write captures the counter it names. In MAINT and HALT with PD_DBG on and fewer than 3
failed attempts a request leaves a challenge outstanding, and elsewhere it is logged and changes nothing of the access state; a
response unlocks debug when the key and its signature over the challenge and the serial number are good and counts a failed
attempt otherwise. The boundary-scan instructions load in RESET and HALT, and in MAINT once unlocked, else BYPASS takes their
place. Completes: accessEntryWord0Write, accessEntryWord1Write, debugUnlockRequest, debugUnlockResponse, tapInstructionLoad,
ctrPrivSelWrite. -/
def Obligations.AccessAndDebug : Prop :=
  ∀ (s : State) (m : Master) (page e : Nat) (v : Word), s.dev.glb.st ≠ .off →
    (running s.dev = true → page < 224 → e < 8 → pageHas s.dev m 3 rWRITE = true → Gives (.accessEntryWord0Write m page e v) s fun d =>
        tget d.acc.w0 (8 * page + e) = some (v &&& entryMask0) ∧ d.acc.pages = s.dev.acc.pages)
    ∧ (∀ w, running s.dev = true → page < 224 → e < 8 → pageHas s.dev m 3 rWRITE = true → tget s.dev.acc.w0 (8 * page + e) = some w →
        Gives (.accessEntryWord1Write m page e v) s fun d => tget d.acc.pages (8 * page + e) = some { w0 := w, w1 := v &&& entryMask1 }
          ∧ ∀ k, k ≠ 8 * page + e → tget d.acc.pages k = tget s.dev.acc.pages k)
    ∧ (running s.dev = true → pageHas s.dev m 192 rWRITE = true → isFw m = true ∨ holds (ctrRights s.dev m 12) rGLOBAL = true →
        s.dev.ctr.privAt = none → Gives (.ctrPrivSelWrite m v) s fun d =>
          (d.ctr.priv.map (·.1)) = some (v.toNat % 64) ∧ d.ctr.privAt = some s.dev.time)
    ∧ (s.dev.glb.st ≠ .maint → s.dev.glb.st ≠ .halt → Gives .debugUnlockRequest s fun d => d.acc = s.dev.acc)
    ∧ (s.dev.glb.st = .maint ∨ s.dev.glb.st = .halt → domOn s.dev 62 = true → s.dev.acc.dbgFails < 3 → Gives .debugUnlockRequest s fun d =>
        d.acc.challenged = true ∧ d.acc.challenge = Config.free64 s.dev.free ∧ d.acc.dbgFails = s.dev.acc.dbgFails)
    ∧ (∀ key sig, s.dev.glb.st = .maint ∨ s.dev.glb.st = .halt → domOn s.dev 62 = true → s.dev.acc.challenged = true → s.dev.acc.dbgFails < 3 →
        Gives (.debugUnlockResponse key sig) s fun d => d.acc.challenged = false
          ∧ (key.length = 97 ∧ ownerSigned key sig (le 8 s.dev.acc.challenge.toNat ++ Config.serial) = true →
            d.acc.unlocked = true ∧ d.acc.dbgFails = s.dev.acc.dbgFails)
          ∧ (¬ (key.length = 97 ∧ ownerSigned key sig (le 8 s.dev.acc.challenge.toNat ++ Config.serial) = true) → d.acc.dbgFails = s.dev.acc.dbgFails + 1 ∧ d.acc.unlocked = s.dev.acc.unlocked))
    ∧ (∀ i, Gives (.tapInstructionLoad i) s fun d => d.acc.tap =
        if s.dev.glb.st = .reset ∨ s.dev.glb.st = .halt ∨ (s.dev.glb.st = .maint ∧ s.dev.acc.unlocked = true) then i else .bypass)

/-- O14 (R157, R158, R159, R162, R191). On a live port (its domain on and its clock present): an attempt starts on a down port
that has lanes, and link up ends it with the port up; an attempt that times out is over; a retrain, by trigger on a port that is
up or by ETH_LANE_CTRL on any port, leaves the port down and marked for a retrain; RESTORE clears the retirement and failures of
the lanes named; loss of link clears UP; and once LINK_HOLD has passed on a down port, live or not, every queue of the port is
empty and no forwarding entry learned on it is left. Completes: portBringupAttempt, portLinkUp, portBringupTimeout,
portRetrainTrigger, ethLaneRetrain, ethLaneRestore, portLinkDown, linkHoldExpire. -/
def Obligations.PortLinks : Prop :=
  ∀ (s : State) (p : Nat), planned s.dev = true → p ≤ 32 → swPortExists s.dev p = true →
    (portLive s.dev p = true →
    ((portOf s.dev p).up = false → (portOf s.dev p).attempt = none → ¬((portOf s.dev p).lanes = [] ∧ (portOf s.dev p).reformed = true) →
        Gives (.portBringupAttempt p) s fun d => (portOf d p).attempt = some s.dev.time ∧ (portOf d p).up = false)
    ∧ ((portOf s.dev p).attempt.isSome = true → Gives (.portLinkUp p) s fun d => (portOf d p).up = true ∧ (portOf d p).attempt = none)
    ∧ (∀ blame, (portOf s.dev p).attempt.isSome = true → Gives (.portBringupTimeout p blame) s fun d => (portOf d p).attempt = none)
    ∧ (∀ cause, (portOf s.dev p).up = true → (portOf s.dev p).lanes ≠ [] → Gives (.portRetrainTrigger p cause) s fun d =>
        (portOf d p).up = false ∧ (portOf d p).retrain = true ∧ (portOf d p).attempt = some s.dev.time)
    ∧ (∀ (m : Master) (lanes : BitVec 4) (l : Nat), l < 4 → pageHas s.dev m (ethBase (macroOf p) / 0x10000) rWRITE = true →
        bitAt lanes.toNat l = true → portOfLane s.dev (macroOf p) l = some p →
        Gives (.ethLaneRetrain m (macroOf p) lanes) s fun d => (portOf d p).up = false ∧ (portOf d p).retrain = true)
    ∧ (∀ (m : Master) (lanes : BitVec 4) (l : Nat), l < 4 → pageHas s.dev m (ethBase (macroOf p) / 0x10000) rWRITE = true →
        bitAt lanes.toNat l = true → Gives (.ethLaneRestore m (macroOf p) lanes) s fun d =>
          (laneOf d (macroOf p) l).retired = false ∧ (laneOf d (macroOf p) l).fails = [])
    ∧ ((portOf s.dev p).up = true → Gives (.portLinkDown p) s fun d => (portOf d p).up = false ∧ (portOf d p).attempt = none))
    ∧ ((portOf s.dev p).up = false → (portOf s.dev p).holdDone = false → Gives (.linkHoldExpire p) s fun d =>
        (portOf d p).holdDone = true ∧ (∀ q, q < 16 → (queueOf d p q).frames = []) ∧ ∀ e ∈ d.swc.fdb, e.via ≠ p)

/-- O15 (R163, R164, R165). On a live port that is up: an Annex 31B pause with PAUSE_EN, and a PFC frame for each enabled
priority with its PFC_EN bit, hold an open instance for a non-zero quanta; an expired quanta timer opens it; an expired watch
timer puts it in recovery with ACTION as configured; an expired recovery timer opens it; and a pair that is XOFF is refreshed
with quanta 0xFFFF while its condition lasts, and ended with quanta 0 once it does not. Completes: pauseFrameReceive,
pfcFrameReceive, pauseQuantaExpire, pwdWatchExpire, pwdRecoveryExpire, pauseRefresh. -/
def Obligations.FlowControl : Prop :=
  ∀ (s : State) (p : Nat), portLive s.dev p = true →
    (∀ quanta : Half, (portOf s.dev p).up = true → pauseEn s.dev p = true → (pwdOf s.dev p 8).st = .open → quanta ≠ 0 →
        Gives (.pauseFrameReceive p quanta) s fun d => (pwdOf d p 8).st = .held ∧ (pwdOf d p 8).watchAt = s.dev.time
          ∧ (pwdOf d p 8).quantaAt = s.dev.time + quantaNs s.dev p quanta.toNat)
    ∧ (∀ (enable : Byte) (quanta : List Half) (r : Nat), (portOf s.dev p).up = true → r < 8 → bitAt enable.toNat r = true →
        pfcEn s.dev p r = true → (pwdOf s.dev p r).st = .open → quanta.getD r 0 ≠ 0 →
        Gives (.pfcFrameReceive p enable quanta) s fun d => (pwdOf d p r).st = .held ∧ (pwdOf d p r).watchAt = s.dev.time)
    ∧ (∀ inst, (pwdOf s.dev p inst).st = .held → Gives (.pauseQuantaExpire p inst) s fun d => (pwdOf d p inst).st = .open)
    ∧ (∀ inst, (pwdOf s.dev p inst).st = .held → Gives (.pwdWatchExpire p inst) s fun d => (pwdOf d p inst).st = .recover
        ∧ (pwdOf d p inst).recAt = s.dev.time ∧ (pwdOf d p inst).drain = bitAt (pwdCfg s.dev p) 31)
    ∧ (∀ inst, (pwdOf s.dev p inst).st = .recover → Gives (.pwdRecoveryExpire p inst) s fun d => (pwdOf d p inst).st = .open)
    ∧ (∀ prio k, (portOf s.dev p).up = true → losslessKey s.dev p prio = some k → s.dev.swc.xoff.contains k = true →
        Gives (.pauseRefresh p prio) s fun d =>
          (xoffOver s.dev k = false → d.out = s.dev.out ++ [.pfc (keyPort k) (keyPrio k) 0xFFFF] ∧ d.swc.xoff = s.dev.swc.xoff)
          ∧ (xoffOver s.dev k = true → d.out = s.dev.out ++ [.pfc (keyPort k) (keyPrio k) 0] ∧ d.swc.xoff.contains k = false))

/-- O16 (R172, R176, R178, R181, R188, R190, R192, R193, R196, R200). An accepted frame of a VLAN that its port is a member of,
with a unicast source not yet known and learning on, leaves an entry for its VID, source and port. An internal frame that the
buffer refuses is withheld; of a source's withheld frames the first that the buffer admits, with no older one before it in its
queue, is taken. A free port starts the frame that pick chooses; when it is sent the port is free again. A queue's frames older
than 10 ms go. An aged forwarding entry goes and no other; SWC_FDB_FLUSH bit 0 empties the table and bit 1 removes the entries
learned on the port it names. A read of ETH_PTP_TS_LO takes the oldest timestamp of the macro's FIFO and returns its low word,
and with an empty FIFO returns 0. Completes: frameIngress, internalFrameOffer, holdoffAccept, frameTransmitStart,
frameTransmitComplete, frameAgeDiscard, fdbAgeOut, swcFdbFlush, ethPtpTsRead. -/
def Obligations.SwitchFrames : Prop :=
  ∀ (s : State), planned s.dev = true →
    (∀ p f v, portLive s.dev p = true → (portOf s.dev p).up = true → frameAccepted s.dev p f = true → l3l4Ok s.dev f = true →
        vlanEntry s.dev (frameVlan s.dev p f).1 = some v → vlanMember s.dev v p = true →
        policerOf s.dev p (frameVlan s.dev p f).2 (frameVlan s.dev p f).1 = none → isMulticast f.src = false →
        bitAt (liveN s.dev (0x200040 + 4 * p)) 16 = true → lagOf s.dev p = none → fdbFind s.dev (frameVlan s.dev p f).1 f.src = none →
        s.dev.swc.fdb.length < 32768 → Gives (.frameIngress p f) s fun d =>
          ⟨(frameVlan s.dev p f).1, f.src, p, p, s.dev.time⟩ ∈ d.swc.fdb)
    ∧ (∀ f, 33 ≤ f.src → f.src ≤ 35 → f.super.all (superOk f.src) = true → Gives (.internalFrameOffer f) s fun d =>
        (internalAdmit s.dev f = none → d.swc.holdoff = s.dev.swc.holdoff ++ [f])
        ∧ ∀ d', internalAdmit s.dev f = some d' → d = settle d')
    ∧ (∀ src f d', admitFirst s.dev (s.dev.swc.holdoff.filter (·.src == src)) [] = some (f, d') →
        Gives (.holdoffAccept src) s fun d => d.swc.holdoff = d'.swc.holdoff.erase f ∧ d.swc.queues = d'.swc.queues)
    ∧ (∀ p q, p < 36 → swPortExists s.dev p = true → portUp s.dev p = true → (egressOf s.dev p).tx = none →
        (∀ k, k < 16 → ∀ f ∈ (queueOf s.dev p k).frames, s.dev.time ≤ f.time + 10000000) → (pickQueue s.dev p).1 = some q →
        Gives (.frameTransmitStart p false) s fun d =>
          ((egressOf d p).tx.map fun t => (t.q, t.f, t.sending)) = (queueOf s.dev p q).frames.head?.map fun f => (q, f, true))
    ∧ (∀ p t, p < 36 → (egressOf s.dev p).tx = some t → t.sending = true → Gives (.frameTransmitComplete p) s fun d =>
        (t.f.super = none → (egressOf d p).tx = none)
        ∧ ∀ sp, t.f.super = some sp → (egressOf d p).tx = if t.seg + 1 < segCount sp then some { t with seg := t.seg + 1, sending := false } else none)
    ∧ (∀ p q, p < 36 → q < 16 → Gives (.frameAgeDiscard p q) s fun d =>
        (portUp s.dev p = false → (queueOf d p q).frames = (queueOf s.dev p q).frames.filter fun f => !(f.time + 10000000 < s.dev.time))
        ∧ (portUp s.dev p = true → (queueOf d p q).frames = (queueOf s.dev p q).frames.dropWhile fun f => f.time + 10000000 < s.dev.time))
    ∧ (∀ vid addr, Gives (.fdbAgeOut vid addr) s fun d =>
        d.swc.fdb = s.dev.swc.fdb.filter fun e => !(e.vid == vid && e.addr == addr))
    ∧ (∀ (m : Master) (v : Word), running s.dev = true → pageHas s.dev m 32 rWRITE = true → Gives (.swcFdbFlush m v) s fun d =>
        (bitAt v.toNat 0 = true → d.swc.fdb = [])
        ∧ (bitAt v.toNat 0 = false → bitAt v.toNat 1 = true → d.swc.fdb = s.dev.swc.fdb.filter (·.via != fld v.toNat 2 6)))
    ∧ (∀ (m : Master) (mac : Nat), running s.dev = true → mac ≤ 8 → pageHas s.dev m (ethBase mac / 0x10000) rREAD = true →
        Gives (.ethPtpTsRead m mac) s fun d =>
          (tgetD s.dev.eth.ptp mac [] = [] → d.reg.readVal = 0)
          ∧ ∀ t rest, tgetD s.dev.eth.ptp mac [] = t :: rest → d.reg.readVal = BitVec.ofNat 32 t.time ∧ tgetD d.eth.ptp mac [] = rest)

/-- O17 (R174). When a marked PTP event message has been sent by an Ethernet port whose macro is powered, its timestamp enters
the FIFO of the port's macro if that holds fewer than 16 entries; else it is discarded, the FIFO stands, and PTP_TS_OVERFLOW of
the port counts one. No FIFO grows beyond 16 entries. Completes: frameTransmitComplete. -/
def Obligations.TransmitTimestamps : Prop :=
  ∀ (s : State) (p sq : Nat) (t : Tx), planned s.dev = true → p ≤ 32 → domOn s.dev (portDomain p) = true → (egressOf s.dev p).tx = some t → t.sending = true → t.f.super = none →
    t.f.frame.ptp = some sq → t.f.mark = true → Gives (.frameTransmitComplete p) s fun d =>
      (∀ m, (tgetD s.dev.eth.ptp m []).length ≤ 16 → (tgetD d.eth.ptp m []).length ≤ 16)
      ∧ ((tgetD s.dev.eth.ptp (macroOf p) []).length < 16 → tgetD d.eth.ptp (macroOf p) [] =
          tgetD s.dev.eth.ptp (macroOf p) [] ++ [{ time := t.time, seqId := sq, port := subOf p }])
      ∧ (16 ≤ (tgetD s.dev.eth.ptp (macroOf p) []).length → d.eth.ptp = s.dev.eth.ptp
          ∧ tgetD d.reg.cnt (ethBase (macroOf p) + 0x1000 + 0x400 * subOf p + 8 * 60) 0
            = tgetD s.dev.reg.cnt (ethBase (macroOf p) + 0x1000 + 0x400 * subOf p + 8 * 60) 0 + 1)

/-- O18 (R22). A frame for a station address of the device, UDP to the Trestle port and to an IP address of its own, goes to
port 33 when bit 0 of its DST_CONN index is 0 and to port 34 when it is 1; a CONNECT packet goes to port 33. -/
def Obligations.TrestlePorts : Prop :=
  ∀ (d : Dev) (p v vid : Nat) (f : Frame) (h : IpHdr), f.etype ≠ 0x88B5 → isStation d f.dst = true → f.ip = some h → h.proto = 17 →
    h.dport = d.pln.plan.udpPort → ownIp d h.dst = true →
    (h.trOp ≠ 10 → connIdx h.trConn % 2 = 0 → destOf d p v vid f = .local 33)
    ∧ (h.trOp ≠ 10 → connIdx h.trConn % 2 = 1 → destOf d p v vid f = .local 34)
    ∧ (h.trOp = 10 → destOf d p v vid f = .local 33)

/-- O19 (R204, R213, R217, R221). Whatever its opcode, a packet whose trailer is wrong is counted and changes no connection, no
memory and sends nothing; one that names no connection is answered with NACK BAD_CONN at most once a millisecond per source and
changes no connection; a sequenced packet already received is counted, acknowledged again and changes no memory; a packet of
another version or an unknown opcode closes its ESTABLISHED connection. -/
def Obligations.TrestleDiscards : Prop :=
  ∀ (s : State) (net : Net) (p : Pkt), serving s.dev = true → domOn s.dev (pdTRS 0) = true → ∀ i ∈ [Instr.trestleWrite net p,
      .trestleReadReq net p, .trestleReadResp net p, .trestleAck net p, .trestleNack net p, .trestleCredit net p, .trestleProbe net p,
      .trestleConnect net p, .trestleClose net p, .trestleResumeReply net p, .trestleConnectReply net p, .trestleResume net p],
    (p.crc ≠ pktCrc p → Gives i s fun d => d.trs = s.dev.trs ∧ d.out = s.dev.out
        ∧ tgetD d.reg.cnt 0x300140 0 = tgetD s.dev.reg.cnt 0x300140 0 + 1 ∧ tgetD d.reg.cnt 0x300100 0 = tgetD s.dev.reg.cnt 0x300100 0 + 1)
    ∧ (p.crc = pktCrc p → isSequenced (pkOp p) = true → namedBy s.dev net p = none → s.dev.par.adopted.contains net.dstIp = false →
        Gives i s fun d => d.trs.conns = s.dev.trs.conns ∧ SameMem s.dev d
          ∧ ((tget s.dev.trs.badConnAt net.srcIp).any (fun t => s.dev.time < t + 1000000) = true → d.out = s.dev.out)
          ∧ ((tget s.dev.trs.badConnAt net.srcIp).any (fun t => s.dev.time < t + 1000000) = false → ∃ q base, pkOp q = 5 ∧ byteAt q.body 8 = 3
              ∧ base % 64 = 0 ∧ 0xC000 ≤ base ∧ base ≤ 0xFFC0
              ∧ d.out = s.dev.out ++ [trsEmit net.dstIp net.srcIp (base + pkPath q) net.srcPort q]))
    ∧ (∀ c x, rxOk s.dev net p c x = true → x.st = .established → isSequenced (pkOp p) = true →
        below32 p.psn.toNat x.cum = true ∨ x.got.contains p.psn.toNat = true ∨ x.held.any (fun q => q.psn == p.psn) = true → Gives i s fun d =>
          d.out = s.dev.out ++ [ackOf x (pkPath p) 0] ∧ SameMem s.dev d
          ∧ tgetD d.reg.cnt 0x300138 0 = tgetD s.dev.reg.cnt 0x300138 0 + 1)
    ∧ (∀ c x, p.crc = pktCrc p → namedBy s.dev net p = some (c, x) → connOf s.dev c = some x → x.st = .established →
        isResident s.dev c = true → s.dev.trs.porch.any (fun e => e.1 == c) = false → s.dev.par.adopted.contains net.dstIp = false →
        pkVer p ≠ 1 ∨ pkOp p = 0 ∨ 13 ≤ pkOp p → Gives i s fun d => connHas d c fun y => y.st = .closing)

/-- O20 (R217, R218, R220, R222, R252, R255). A WRITE that passes every check places its data in the region's partition, at the
region's offset plus the distance of its address from VA_BASE, and nowhere else, and its PSN counts as received: so does a
fenced WRITE held until its turn when it is released. Completes: trestleWrite, fenceRelease. -/
def Obligations.TrestleWritePlaced : Prop :=
  ∀ (s : State) (net : Net) (p : Pkt) (c : Nat) (x : Conn) (r : Region), x.st = .established → x.r.inner = none → x.got.length < 4096 →
    fTRIGGER p = false → (tget x.msgs p.msn.toNat).all (fun m => m.tag.isNone) = true →
    tget s.dev.trs.regions (p.key.toNat / 4096) = some r → regionFail s.dev x p p.body.length true = none →
    p.msgOffset.toNat + p.body.length ≤ p.msgLen.toNat → p.msgLen.toNat ≤ 16777216 → openMsg x p = true →
    (rxOk s.dev net p c x = true → pkOp p = 1 → newPsn x p = true → sub64 x.edge (x.rcvd + p.body.length) < 2 ^ 63 →
        fFENCE p = false ∨ p.psn.toNat = x.cum → Gives (.trestleWrite net p) s fun d =>
          (r.partition = 2 → d.trs.pantry = memWrites s.dev.trs.pantry (r.offset + (p.addr.toNat - r.vaBase)) p.body
            ∧ d.trs.rings = s.dev.trs.rings)
          ∧ (r.partition = 1 → d.trs.rings = memWrites s.dev.trs.rings (r.offset + (p.addr.toNat - r.vaBase)) p.body
            ∧ d.trs.pantry = s.dev.trs.pantry)
          ∧ d.ctr.dump = s.dev.ctr.dump
          ∧ connHas d c fun y => below32 p.psn.toNat y.cum = true ∨ y.got.contains p.psn.toNat = true)
    ∧ (serving s.dev = true → connOf s.dev c = some x → x.held.find? (fun q => q.psn == p.psn) = some p → p.psn.toNat = x.cum →
        Gives (.fenceRelease c p.psn) s fun d =>
          (r.partition = 2 → d.trs.pantry = memWrites s.dev.trs.pantry (r.offset + (p.addr.toNat - r.vaBase)) p.body)
          ∧ (r.partition = 1 → d.trs.rings = memWrites s.dev.trs.rings (r.offset + (p.addr.toNat - r.vaBase)) p.body)
          ∧ connHas d c fun y => below32 p.psn.toNat y.cum = true)

/-- O21 (R239, R240, R241, R242, R280). A READ_REQ of a readable region, with a free read slot and an OPEN path, is marked
received and answered by a READ_RESP that carries the bytes read there; the last READ_RESP of a read of a completion queue's
head word ends the read and sets the head from its two low bytes; an earlier one of a pull adds its bytes to the slot's data.
Completes: trestleReadReq, trestleReadResp. -/
def Obligations.TrestleReads : Prop :=
  ∀ (s : State) (net : Net) (p : Pkt) (c : Nat) (x : Conn), rxOk s.dev net p c x = true → newPsn x p = true → x.st = .established →
    x.got.length < 4096 → x.closePsn = none → x.sendQ = [] →
    (∀ r path, x.r.inner = none → pkOp p = 2 → openMsg x p = true → msgComplete x p.msn.toNat = false → 0 < p.msgLen.toNat → p.msgLen.toNat ≤ x.r.payload →
        x.r.payload ≤ 8192 → p.msgOffset.toNat ≤ p.msgLen.toNat → servedReads s.dev c x < x.slots →
        regionFail s.dev x p p.msgLen.toNat false = none → tget s.dev.trs.regions (p.key.toNat / 4096) = some r → r.partition ≠ 0 →
        nextOpen x = some path → sub32 x.psn x.peerCum < 4096 → Gives (.trestleReadReq net p) s fun d =>
          SameMem s.dev d ∧ (connHas d c fun y => below32 p.psn.toNat y.cum = true ∨ y.got.contains p.psn.toNat = true)
          ∧ ∃ q, connEmit x q ∈ d.out ∧ pkOp q = 3 ∧ q.tag = p.tag ∧ q.psn = BitVec.ofNat 32 x.psn
              ∧ q.body = partBytes s.dev r.partition (r.offset + (p.addr.toNat - r.vaBase)) p.msgLen.toNat)
    ∧ (∀ r q cq, pkOp p = 3 → x.reads.find? (fun y => y.id == p.tag.toNat && y.msn == p.msn.toNat) = some r → r.use = .cqHead q →
        cqOf s.dev q = some cq → s.dev.cmd.posting = [] → p.msgLen.toNat = r.len → p.msgOffset.toNat + p.body.length ≤ r.len →
        r.count + p.body.length = r.len → p.addr.toNat = (r.addr + p.msgOffset.toNat) % 2 ^ 64 → p.key.toNat = r.key →
        Gives (.trestleReadResp net p) s fun d => (connHas d c fun y => y.reads = x.reads.erase r)
          ∧ cqOf d q = some { cq with hostHead := unle (p.body.take 2) % 65536, reading := false })
    ∧ (∀ r cmd o sl, pkOp p = 3 → x.reads.find? (fun y => y.id == p.tag.toNat && y.msn == p.msn.toNat) = some r → r.use = .pull cmd o →
        slotOf s.dev cmd = some sl → sl.phase ≠ .answered → sl.phase ≠ .generated → s.dev.via.heldReads = [] → p.msgLen.toNat = r.len →
        p.msgOffset.toNat + p.body.length ≤ r.len → r.count + p.body.length < r.len →
        p.addr.toNat = (r.addr + p.msgOffset.toNat) % 2 ^ 64 → p.key.toNat = r.key → Gives (.trestleReadResp net p) s fun d =>
          ∃ y, slotOf d cmd = some y ∧ y.landed = sl.landed + p.body.length
            ∧ y.data = putAt (fit (pullBytes sl) sl.data) (o + p.msgOffset.toNat) p.body)

/-- O22 (R226, R227, R229, R230, R233, R235, R237). An ACK retires exactly the packets it covers and moves CUM_PSN and
COMPLETED_MSN on; a NACK of class 1 forgets the message it names, one of class 2 ends the connection in TIME_WAIT; a CREDIT
takes an edge beyond the one held; a PROBE is answered by an ACK that carries its tag. Completes: trestleAck, trestleNack,
trestleCredit, trestleProbe. -/
def Obligations.TrestleReplies : Prop :=
  ∀ (s : State) (net : Net) (p : Pkt) (c : Nat) (x : Conn), rxOk s.dev net p c x = true → x.st = .established →
    (pkOp p = 4 → x.sendQ = [] → Gives (.trestleAck net p) s fun d => connHas d c fun y =>
        y.unacked.map (·.psn) = (x.unacked.filter fun t => !ackCovers (beAt p.body 0 4)
          ((List.range (byteAt p.body 28)).map fun i => (beAt p.body (32 + 8 * i) 4, beAt p.body (36 + 8 * i) 4)) t.psn).map (·.psn)
        ∧ y.peerCum = (if below32 x.peerCum (beAt p.body 0 4) then beAt p.body 0 4 else x.peerCum)
        ∧ y.peerDone = (if below32 x.peerDone (beAt p.body 4 4) then beAt p.body 4 4 else x.peerDone)
        ∧ y.outMsgs = x.outMsgs.filter fun m => !below32 m.1 (beAt p.body 4 4))
    ∧ (pkOp p = 5 → byteAt p.body 9 = 2 → Gives (.trestleNack net p) s fun d =>
        connHas d c fun y => y.st = .timeWait ∧ y.unacked = [] ∧ y.outMsgs = [])
    ∧ (pkOp p = 5 → byteAt p.body 9 = 1 → x.sendQ = [] →
        x.unacked.any (fun t => t.psn == beAt p.body 0 4 && pkOp t.pk == 3) = false → Gives (.trestleNack net p) s fun d =>
          connHas d c fun y => y.outMsgs = x.outMsgs.filter (fun m => m.1 != beAt p.body 4 4)
            ∧ y.reads = x.reads.filter (fun r => r.msn != beAt p.body 4 4))
    ∧ (pkOp p = 6 → Gives (.trestleCredit net p) s fun d => connHas d c fun y =>
        y.peerEdge = if beyond (beAt p.body 0 8) x.peerEdge then beAt p.body 0 8 else x.peerEdge)
    ∧ (pkOp p = 9 → Gives (.trestleProbe net p) s fun d => d.out = s.dev.out ++ [ackOf x (pkPath p) p.tag.toNat]
        ∧ connHas d c fun y => y = { x with ackPend := 0, advertised := x.edge })

/-- O23 (R208, R209, R210, R211, R212, R213, R243, R244, R249, R451, R453). In SERVICE or MAINT a CONNECT with the right token,
sound parameters, a free index and, but for a pier's, room in the PD makes an ESTABLISHED connection with the edge, PSN and
addresses it names, answered with code 0; one whose token is wrong is answered with code 1 and makes none. A pier's
CONNECT_REPLY with code 0 establishes the connection and makes the pier UP; a RESUME_REPLY with result 0 establishes a RESUMING
one, whose PD is still enabled and which nothing closed meanwhile, at the PSN it names; a pier's RESUME that shows the nonce
takes its new index and PSN. A CLOSE in order takes an ESTABLISHED connection to CLOSING. Completes: trestleConnect,
trestleClose, trestleResumeReply, trestleConnectReply, trestleResume. -/
def Obligations.ConnectionsOpen : Prop :=
  ∀ (s : State) (net : Net) (p : Pkt) (c : Nat),
    (serving s.dev = true → domOn s.dev (pdTRS 0) = true → p.crc = pktCrc p → pkVer p = 1 → pkOp p = 0xA →
        s.dev.glb.st = .service ∨ s.dev.glb.st = .maint → s.dev.par.adopted.contains net.dstIp = false →
        isEndpoint s.dev net.dstIp = false ∨ s.dev.via.gate = true →
        answeredNow s.dev net.srcIp (BitVec.ofNat 32 (beAt p.body 8 4)) p.tag = none →
        (s.dev.trs.conns.any fun e => e.2.r.hostIp == net.srcIp && e.2.r.srcConn == BitVec.ofNat 32 (beAt p.body 8 4) && e.2.est) = false →
        (connDenied s.dev p (ownInner s.dev net.dstIp) = false → connBad p = false → freeConn s.dev = some c → paired s.dev = false →
            (ownInner s.dev net.dstIp = true ∧ s.dev.cmd.slots = [])
              ∨ (ownInner s.dev net.dstIp = false
                ∧ pdConns s.dev (beAt p.body 12 2 % 4096) < (tgetD s.dev.trs.pds (beAt p.body 12 2 % 4096) {}).maxConn) →
            Gives (.trestleConnect net p) s fun d => (connHas d c fun y => y.st = .established ∧ y.cum = beAt p.body 20 4
              ∧ y.sent = beAt p.body 24 8 ∧ y.peerEdge = beAt p.body 32 8 ∧ y.r.pd = beAt p.body 12 2 % 4096 ∧ y.r.hostIp = net.srcIp
              ∧ y.r.pathMask = BitVec.ofNat 64 (beAt p.body 40 8)
              ∧ y.r.inner = if ownInner s.dev net.dstIp then some (beAt p.body 12 2 % 4096) else none)
              ∧ ∃ port body, connReply net p port body ∈ d.out ∧ byteAt body 0 = 0)
        ∧ (connDenied s.dev p (ownInner s.dev net.dstIp) = true → Gives (.trestleConnect net p) s fun d => d.trs.conns = s.dev.trs.conns
              ∧ ∃ port body, d.out = s.dev.out ++ [connReply net p port body] ∧ byteAt body 0 = 1))
    ∧ ∀ x, rxOk s.dev net p c x = true →
      (∀ n, pkOp p = 0xB → x.st = .connecting → p.tag.toNat = x.id → byteAt p.body 0 = 0 → x.r.inner = some n → s.dev.cmd.slots = [] →
        Gives (.trestleConnectReply net p) s fun d => (connHas d c fun y => y.st = .established ∧ y.cum = beAt p.body 12 4)
          ∧ (n < 64 → pierUp d n = true) ∧ tget d.via.inner n = some c)
      ∧ (pkOp p = 8 → x.st = .resuming → p.tag.toNat = x.id → byteAt p.body 0 = 0 → beAt p.body 24 8 ≠ 0 → x.closeLater = none →
        (x.r.inner = none ∧ (tgetD s.dev.trs.pds x.r.pd {}).enabled = true) ∨ (x.r.inner.isSome = true ∧ s.dev.cmd.slots = []) →
        Gives (.trestleResumeReply net p) s fun d => connHas d c fun y => y.st = .established ∧ y.cum = beAt p.body 4 4 ∧ y.got = []
          ∧ y.peerEdge = beAt p.body 16 8)
      ∧ (pkOp p = 7 → x.st = .established → x.resumed.all (fun r => r.1 != p.tag) = true → x.r.inner.isSome = true →
        x.r.nonce.toNat = beAt p.body 0 8 → Gives (.trestleResume net p) s fun d => connHas d c fun y =>
          y.r.srcConn = BitVec.ofNat 32 (beAt p.body 8 4) ∧ y.cum = beAt p.body 16 4 ∧ y.r.hostIp = net.srcIp ∧ y.got = [])
      ∧ (pkOp p = 0xC → x.st = .established → p.psn.toNat = x.cum → x.got = [] → x.held = [] → x.peerClosed = false →
        Gives (.trestleClose net p) s fun d => connHas d c fun y => y.st = .closing ∧ y.peerClosed = true ∧ y.cum = (x.cum + 1) % 2 ^ 32)

/-- O24 (R212, R228, R231, R233, R234, R243, R245). On a resident connection: an RTO that has run for a packet doubles the RTO
up to its bound and, with an OPEN path, sends every such packet again; a probe timer of a CLOSED path sends a PROBE with a new
tag on it; coalesced acknowledgements go out as one ACK; the dead timer and the end of CLOSING lead to TIME_WAIT; TIME_WAIT ends
with the index free; a RESUME without reply is repeated, after the eighth a CLOSE with RESUME_FAILED goes out and the connection
ends in TIME_WAIT. Completes: rtoExpire, pathProbeTimer, ackCoalesceExpire, deadTimerExpire, closingTimeout, timeWaitExpire,
resumeRetry. -/
def Obligations.ConnectionTimers : Prop :=
  ∀ (s : State) (c : Nat) (x : Conn), planned s.dev = true → connOf s.dev c = some x →
    (isResident s.dev c = true → x.st = .established ∨ x.st = .closing →
        (x.unacked.any (fun t => t.time + rtoOf s.dev x ≤ s.dev.time) = true → Gives (.rtoExpire c) s fun d => connHas d c fun y =>
            rtoOf d y = min (2 * rtoOf s.dev x) (rtoMax s.dev) ∧ y.unacked.map (·.psn) = x.unacked.map (·.psn)
            ∧ (openPaths x ≠ [] → ∀ u ∈ y.unacked, (∃ t ∈ x.unacked, t.psn = u.psn ∧ t.time + rtoOf s.dev x ≤ s.dev.time) → u.time = s.dev.time))
        ∧ (∀ p r, tget x.paths p = some r → r.st = .closed → Gives (.pathProbeTimer c p) s fun d =>
            (connHas d c fun y => ∃ r', tget y.paths p = some r' ∧ r'.probing = true ∧ r'.tag = s.dev.trs.probeSeq % 0xFFFFFFFF + 1)
            ∧ ∃ q, d.out = s.dev.out ++ [connEmit x q] ∧ pkOp q = 9 ∧ pkPath q = p % 64
                ∧ q.tag = BitVec.ofNat 32 (s.dev.trs.probeSeq % 0xFFFFFFFF + 1))
        ∧ (x.ackPend ≠ 0 → Gives (.ackCoalesceExpire c) s fun d => d.out = s.dev.out ++ [ackOf x x.ackPath 0]
            ∧ connHas d c fun y => y = { x with ackPend := 0, advertised := x.edge })
        ∧ (x.st = .established → awaitsAck x = true → Gives (.deadTimerExpire c) s fun d =>
            connHas d c fun y => y.st = .timeWait ∧ y.since = s.dev.time))
    ∧ (x.st = .closing → Gives (.closingTimeout c) s fun d => connHas d c fun y => y.st = .timeWait ∧ y.since = s.dev.time)
    ∧ (x.st = .timeWait → Gives (.timeWaitExpire c) s fun d => connOf d c = none ∧ d.trs.connFreed = s.dev.trs.connFreed ++ [(c, s.dev.time)]
        ∧ ∀ k, k ≠ c → connOf d k = connOf s.dev k)
    ∧ (x.st = .resuming →
        (x.resumes < 8 → Gives (.resumeRetry c) s fun d => (connHas d c fun y => y = { x with resumes := x.resumes + 1 })
            ∧ ∃ q, d.out = s.dev.out ++ [connEmit x q] ∧ pkOp q = 7)
        ∧ (8 ≤ x.resumes → Gives (.resumeRetry c) s fun d => (connHas d c fun y => y.st = .timeWait)
            ∧ ∃ q, connEmit x q ∈ d.out ∧ pkOp q = 0xC ∧ byteAt q.body 0 = 5))

/-- O25 (R248, R250, R251, R264, R267, R268, R270, R273). A good context fetch with a resident slot free makes the context
resident, and so a free slot does for a context reclaimed from the writeback buffer; one with an uncorrectable error ends the
connection in TIME_WAIT; a writeback leaves the buffer. The oldest lingering trigger expires, counted. A write of TRS_PD_SEL by
a master that may loads the entry's registers; TRS_PD_CTRL with APPLY writes the selected entry from the buffers, and closes the
PD's ESTABLISHED connections where it disables the PD or changes the token with REVOKE; a MAX_CONN out of range sets REJECT and
changes no entry; BUSY ends once the partner has the entry, is lost, or is no partner. Completes: trsPdSelWrite, pdApply,
pdApplyComplete, contextFetchComplete, contextWritebackDone, triggerLingerExpire. -/
def Obligations.ContextCacheAndDomains : Prop :=
  ∀ (s : State), planned s.dev = true →
    (∀ c late, s.dev.trs.reclaim.contains c = false → s.dev.trs.fetching.contains c = true → s.dev.trs.resident.length < ctxSlots s.dev → s.dev.trs.porch.all (fun e => e.1 != c) = true →
        s.dev.trs.timers.all (fun e => e.1 != c) = true → Gives (.contextFetchComplete c true late) s fun d =>
          isResident d c = true ∧ d.trs.fetching = s.dev.trs.fetching.erase c)
    ∧ (∀ c ok late, s.dev.trs.reclaim.contains c = true → s.dev.trs.resident.length < ctxSlots s.dev →
        s.dev.trs.porch.all (fun e => e.1 != c) = true → s.dev.trs.timers.all (fun e => e.1 != c) = true →
        Gives (.contextFetchComplete c ok late) s fun d => isResident d c = true ∧ d.trs.reclaim = s.dev.trs.reclaim.erase c)
    ∧ (∀ c x late, s.dev.trs.reclaim.contains c = false → s.dev.trs.fetching.contains c = true → connOf s.dev c = some x → Gives (.contextFetchComplete c false late) s fun d =>
          connHas d c fun y => y.st = .timeWait)
    ∧ (∀ c, s.dev.trs.writeback.contains c = true → Gives (.contextWritebackDone c true) s fun d =>
          d.trs.writeback = s.dev.trs.writeback.erase c ∧ d.trs.conns = s.dev.trs.conns)
    ∧ (∀ l rest, s.dev.trs.linger = l :: rest → Gives .triggerLingerExpire s fun d => d.trs.linger = rest
          ∧ tgetD d.reg.cnt 0x300268 0 = tgetD s.dev.reg.cnt 0x300268 0 + 1)
    ∧ (∀ (m : Master) (v : Word), pageHas s.dev m 48 rWRITE = true →
        (Gives (.trsPdSelWrite m v) s fun d => tget d.reg.live 0x300060 = some (BitVec.ofNat 32 (v.toNat % 4096))
          ∧ tget d.reg.live 0x300070 = some (BitVec.ofNat 32 (tgetD s.dev.trs.pds (v.toNat % 4096) {}).regionLimit)
          ∧ tget d.reg.live 0x300074 = some (BitVec.ofNat 32 (pdConns s.dev (v.toNat % 4096)))
          ∧ tget d.reg.live 0x300078 = some (BitVec.ofNat 32 (s.dev.trs.regions.filter fun e => e.2.pd == v.toNat % 4096).length))
        ∧ (bitAt v.toNat 31 = true → s.dev.trs.pdBusy = none → 1 ≤ v.toNat % 65536 → v.toNat % 65536 ≤ 16384 → ∀ pd, pd = liveN s.dev 0x300060 % 4096 →
            Gives (.pdApply m v) s fun d => (∃ e, tget d.trs.pds pd = some e ∧ e.enabled = bitAt v.toNat 16 ∧ e.maxConn = v.toNat % 65536
                ∧ e.regionLimit = liveN s.dev 0x300070
                ∧ e.token = if bitAt v.toNat 17 then BitVec.ofNat 64 (liveN s.dev 0x300064 + 2 ^ 32 * liveN s.dev 0x300068)
                    else (tgetD s.dev.trs.pds pd {}).token)
              ∧ (∀ k, k ≠ pd → tget d.trs.pds k = tget s.dev.trs.pds k)
              ∧ ∀ c x, connOf s.dev c = some x → x.st = .established → x.r.pd = pd → x.r.inner = none →
                  ((tgetD s.dev.trs.pds pd {}).enabled = true ∧ bitAt v.toNat 16 = false) ∨ (bitAt v.toNat 17 = true ∧ bitAt v.toNat 18 = true) →
                  connHas d c fun y => y.st = .closing)
        ∧ (bitAt v.toNat 31 = true → s.dev.trs.pdBusy = none → v.toNat % 65536 = 0 ∨ 16384 < v.toNat % 65536 → Gives (.pdApply m v) s fun d =>
            d.trs.pdReject = true ∧ d.trs.pds = s.dev.trs.pds))
    ∧ (paired s.dev = false ∨ s.dev.par.lost = true ∨ s.dev.par.items.all (fun i => i.act != .pd) = true → Gives .pdApplyComplete s fun d => d.trs.pdBusy = none)

/-- O26 (R262, R275, R276, R312). With a running work request of an attached queue: when the capsule at HEAD carries the
expected phase and the fetch buffer has room, its 64 bytes go to the end of the buffer and HEAD moves on, the phase turning at
the end of the ring; when it does not, nothing is fetched and the request runs again only if a trigger came meanwhile; and every
capsule that a read adds to the buffer is of that queue. Completes: ringFetch. -/
def Obligations.RingFetch : Prop :=
  ∀ (s : State) (q : Nat) (r : SqRec), serving s.dev = true → sqOf s.dev q = some r → 0 < r.depth → (wrOf s.dev q).running = true →
    thas s.dev.trs.wrs q = true → mayFetch s.dev q r = true → (bufOf s.dev r.cls).length < 1024 →
    (Gives (.ringFetch q) s fun d => d.trs.rings = s.dev.trs.rings
        ∧ ∃ l, bufOf d r.cls = bufOf s.dev r.cls ++ l ∧ l.length ≤ r.depth ∧ (∀ f ∈ l, f.sq = q ∧ f.time = s.dev.time))
    ∧ (bitAt (byteAt (memReads s.dev.trs.rings (r.ringOff + 64 * r.head) 64) 1) 7 = r.phase → Gives (.ringFetch q) s fun d =>
        ∃ f l, bufOf d r.cls = bufOf s.dev r.cls ++ f :: l ∧ f.cap = memReads s.dev.trs.rings (r.ringOff + 64 * r.head) 64)
    ∧ (bitAt (byteAt (memReads s.dev.trs.rings (r.ringOff + 64 * r.head) 64) 1) 7 ≠ r.phase → Gives (.ringFetch q) s fun d =>
        d.cmd.bufs = s.dev.cmd.bufs ∧ sqOf d q = some r ∧ (wrOf d q).running = (wrOf s.dev q).refetch ∧ (wrOf d q).refetch = false)

/-- O27 (R94, R299, R300, R303, R305, R313, R314). With one capsule waiting, that of a class with a slot, admission takes it out
of its buffer into the lowest free slot with the next admission number. When no slot is free for its class at CMD_SLOT_WAIT_US,
the capsule is answered with REFUSED_SLOTS and the class. A held command whose hold runs out is answered with ABORTED_BY_REQUEST
and RESULT1 1. With BUSY clear, GO puts the capsule of the registers in a slot as the writing master's. A write of CMD_PD_SEL
loads quota and count of its PD. Completes: commandAdmit, slotWaitTimeout, holdTimeout, cmdPdSelWrite, msubGo. -/
def Obligations.Admission : Prop :=
  ∀ (s : State), Quiet s.dev →
    (∀ (cls : Nat) (f : Fetched) (r : Bool), serving s.dev = true → s.dev.glb.st ≠ .takeover → s.dev.pwr.fail = false → cls < 5 →
        s.dev.pwr.admPct = [100, 100, 100] → s.dev.cmd.bufs = [(cls, [f])] → s.dev.cmd.slots = [] →
        sqCandidate s.dev cls f.sq = some f → slotFor s.dev cls = some r →
        cls < 2 ∨ 0 < s.dev.cmd.budget.getD (cls - 2) 0 ∨ 0 < (weightsNow s.dev).getD (cls - 2) 0 → Gives .commandAdmit s fun d => bufOf d cls = []
          ∧ ∃ x, slotOf d 0 = some x ∧ x.cap = f.cap ∧ x.sq = f.sq ∧ x.cls = cls ∧ x.adm = s.dev.cmd.nextAdm ∧ x.reserved = r)
    ∧ (∀ cls f, serving s.dev = true → s.dev.glb.st ≠ .takeover → cls < 5 → slotFor s.dev cls = none →
        (bufOf s.dev cls).find? (fun f => (sqCandidate s.dev cls f.sq) == some f) = some f → Gives (.slotWaitTimeout cls) s fun d =>
          resultOf d (pseudoSlot s.dev) = some (stSLOTS, cls, 0) ∧ bufOf d cls = (bufOf s.dev cls).erase f)
    ∧ (∀ cmd x, planned s.dev = true → slotOf s.dev cmd = some x → x.phase = .held → x.result = none → liveN s.dev 0x400054 ≠ 0 →
        Gives (.holdTimeout cmd) s fun d => resultOf d cmd = some (stABORTED, 0, 1))
    ∧ (∀ (m : Master) (r : Bool), serving s.dev = true → pageHas s.dev m 64 rWRITE = true → s.dev.cmd.msubBusy = false → slotFor s.dev 0 = some r →
        Gives (.msubGo m) s fun d => d.cmd.msubBusy = true ∧ d.cmd.msubDone = false ∧ ∃ x, slotOf d (lowFree (tkeys s.dev.cmd.slots) 0) = some x
          ∧ x.cap = msubCapsule s.dev ∧ x.master = m ∧ x.msub = true ∧ x.reserved = r ∧ x.adm = s.dev.cmd.nextAdm)
    ∧ (∀ (m : Master) (v : Word), running s.dev = true → pageHas s.dev m 64 rWRITE = true → Gives (.cmdPdSelWrite m v) s fun d =>
        tget d.reg.live 0x40005C = some (BitVec.ofNat 32 (v.toNat % 4096))
        ∧ tget d.reg.live 0x400060 = some (BitVec.ofNat 32 (quotaOf s.dev (v.toNat % 4096)))
        ∧ tget d.reg.live 0x400064 = some (BitVec.ofNat 32 (outstanding s.dev (v.toNat % 4096))))

/-- O28 (R42, R278, R280, R281, R294, R314). An answered command whose data is sent, alone in its device, gives its entry the
slot at the CQ's tail: the tail moves on and the phase turns at the end of the queue. A management submission's entry goes to
the registers with DONE. While entries that cannot be posted wait, the head word is read. A queue that stays DETACHED goes with
the submission queues bound to it and the capsules they fetched. Completes: completionGenerate, cqSpacePoll, cqDetachTimeout. -/
def Obligations.Completions : Prop :=
  ∀ (s : State), planned s.dev = true → Quiet s.dev →
    (∀ c x q late waits lat, s.dev.cmd.slots = [(c, x)] → x.phase = .answered → x.result.isSome = true → x.after = none → x.from_ = none →
        x.own = false → x.orphan = false → x.waitFor = false → x.xferFail = none → dataSent s.dev c = true → s.dev.cmd.posting = [] →
        (x.msub = false → cqOf s.dev x.cq = some q → Gives (.completionGenerate c late waits lat) s fun d =>
            (cqOf d x.cq).map (fun y => (y.tail, y.phase)) =
              some (if q.tail + 1 = q.depth then (0, !q.phase) else (q.tail + 1, q.phase)))
        ∧ (x.msub = true → Gives (.completionGenerate c late waits lat) s fun d => d.cmd.msubDone = true ∧ d.cmd.msubBusy = false
            ∧ d.cmd.msubCpl.length = 32 ∧ leAt d.cmd.msubCpl 0 2 = x.cid % 65536 ∧ slotOf d c = none))
    ∧ (∀ cq q, cqOf s.dev cq = some q → q.detached = false → s.dev.cmd.posting.any (fun p => p.cq == cq) = true →
        s.dev.cmd.posting.all (fun p => !mayPost s.dev p) = true → Gives (.cqSpacePoll cq) s fun d =>
          (cqOf d cq).any (fun r => r.reading) = true ∧ d.cmd.posting = s.dev.cmd.posting)
    ∧ (∀ cq q, cqOf s.dev cq = some q → q.detached = true → s.dev.cmd.slots = [] → Gives (.cqDetachTimeout cq) s fun d =>
        cqOf d cq = none ∧ (∀ k r, sqOf s.dev k = some r → r.cq = cq → sqOf d k = none)
        ∧ (∀ k r, sqOf s.dev k = some r → r.cq ≠ cq → (∀ e ∈ s.dev.cmd.sqs, e.1 = k → e.2 = r) → sqOf d k = some r)
        ∧ d.cmd.posting = s.dev.cmd.posting.filter (fun p => p.cq != cq))

/-- O29 (R293, R294, R298). A completion entry has 32 bytes: COMMAND_ID, SQ, RESULT0 and RESULT1, SQ_HEAD, flags with the phase
in bit 0, status with ATTENTION in its top bits, ATTN_SEQ and the device time. -/
def Obligations.EntryBytes : Prop :=
  ∀ (d : Dev) (x : Slot) (st r0 r1 flags : Nat) (phase : Bool), st < 2048 → flags % 2 = 0 → flags < 64 →
    (entryBytes d x st r0 r1 (b2n phase) flags).length = 32
    ∧ leAt (entryBytes d x st r0 r1 (b2n phase) flags) 0 2 = x.cid % 65536
    ∧ leAt (entryBytes d x st r0 r1 (b2n phase) flags) 2 2 = x.sq % 65536
    ∧ leAt (entryBytes d x st r0 r1 (b2n phase) flags) 4 4 = r0 % 2 ^ 32
    ∧ leAt (entryBytes d x st r0 r1 (b2n phase) flags) 8 4 = r1 % 2 ^ 32
    ∧ leAt (entryBytes d x st r0 r1 (b2n phase) flags) 14 2 = b2n phase + flags
    ∧ leAt (entryBytes d x st r0 r1 (b2n phase) flags) 16 2 % 2048 = st
    ∧ leAt (entryBytes d x st r0 r1 (b2n phase) flags) 20 8 = d.time % 2 ^ 64

/-- O30 (R258, R261, R274, R275, R278, R281, R282, R283). QUEUE_CREATE with sound fields makes the submission queue it names,
with HEAD 0 and the expected phase 1 over a ring of zeros, and answers its index and trigger tag; or the completion queue,
answered with its index. ATTACH binds a DETACHED queue to the new connection. QUEUE_DELETE of a queue of the command's own PD
removes it: a submission queue with no other command, a completion queue that none is bound to. Completes: queueCreateSq,
queueCreateCq, queueAttach, queueDeleteSq, queueDeleteCq. -/
def Obligations.QueueCommands : Prop :=
  ∀ (s : State) (cmd : Nat) (x : Slot) (q : Nat), serving s.dev = true → Quiet s.dev → x.msub = false → tabWf s.dev.cmd.slots = true →
    (admittedOp s.dev cmd 0x83 x → leAt x.cap 44 2 % 4096 = x.pd →
      (∀ rg ri, byteAt x.cap 6 = 0 → namedRing s.dev (leAt x.cap 12 4) x.pd = some (ri, rg) → byteAt x.cap 7 ≤ 4 →
          rg.length = 64 * leAt x.cap 8 2 → (cqOf s.dev (leAt x.cap 10 2)).any (fun c => c.pd == x.pd) = true → queueBad x [] = none →
          takeQid s.dev.pln.plan.sqLimit (leAt x.cap 4 2) (tkeys s.dev.cmd.sqs ++ tkeys s.dev.par.store.sqs) = .ok q →
          Gives (.queueCreateSq cmd) s fun d => resultOf d cmd = some (0, q, 0x10000 + q)
            ∧ sqOf d q = some { pd := x.pd, cls := byteAt x.cap 7, depth := leAt x.cap 8 2, cq := leAt x.cap 10 2, region := ri, ringOff := rg.offset }
            ∧ d.trs.rings = memZero s.dev.trs.rings rg.offset rg.length ∧ (tget d.trs.regions ri).any (fun r => r.bound) = true)
      ∧ (∀ c, byteAt x.cap 6 = 1 → namedConn s.dev (leAt x.cap 12 4) x.pd = some c → leAt x.cap 24 8 % 32 = 0 → leAt x.cap 36 8 % 8 = 0 →
          queueBad x [] = none → takeQid s.dev.pln.plan.sqLimit (leAt x.cap 4 2) (tkeys s.dev.cmd.cqs ++ tkeys s.dev.par.store.cqs) = .ok q →
          Gives (.queueCreateCq cmd) s fun d => resultOf d cmd = some (0, q, 0) ∧ (cqOf d q).map (fun r => (r.pd, r.conn, r.tail, r.phase))
            = some (x.pd, c, 0, true))
      ∧ (∀ c r, byteAt x.cap 6 = 2 → namedConn s.dev (leAt x.cap 12 4) x.pd = some c → leAt x.cap 24 8 % 32 = 0 → leAt x.cap 36 8 % 8 = 0 →
          queueBad x [] = none → leAt x.cap 4 2 = q → cqOf s.dev q = some r → r.detached = true → r.pd = x.pd → s.dev.cmd.posting = [] →
          Gives (.queueAttach cmd) s fun d => resultOf d cmd = some (0, q, 0)
            ∧ (cqOf d q).map (fun y => (y.conn, y.detached, y.tail, y.phase)) = some (c, false, r.tail, r.phase)))
    ∧ (admittedOp s.dev cmd 0x84 x → leAt x.cap 4 2 = q →
      (∀ r, byteAt x.cap 6 = 0 → sqOf s.dev q = some r → r.pd = x.pd → s.dev.cmd.slots = [(cmd, x)] → s.dev.cmd.bufs = [] →
          Gives (.queueDeleteSq cmd) s fun d => resultOf d cmd = some (0, 0, 0) ∧ sqOf d q = none)
      ∧ (∀ r, byteAt x.cap 6 = 1 → cqOf s.dev q = some r → r.pd = x.pd → s.dev.cmd.sqs.all (fun e => e.2.cq != q) = true →
          Gives (.queueDeleteCq cmd) s fun d => resultOf d cmd = some (0, 0, 0) ∧ cqOf d q = none))

/-- O31 (R252, R254, R255, R257, R289, R290, R306, R307, R308, R309, R310). ABORT of a command of its own that has not passed
its point of no return gives it ABORTED_BY_REQUEST and answers 0; with no such command it answers 1. RELEASE answers the number
of held commands that carry its tag on volumes where its PD holds TRIGGER. IDENTIFY with CNS 0 answers SUCCESS and sends 4,096
bytes. REGION_CREATE within limits enters a region with the next generation of its index and answers its KEY; REGION_DESTROY of
an unbound region of the own PD frees it. Completes: releaseCmd, abortCmd, identifyDevice, regionCreate, regionDestroy. -/
def Obligations.AbortReleaseIdentifyRegions : Prop :=
  ∀ (s : State) (cmd : Nat) (x : Slot), serving s.dev = true → Quiet s.dev → x.msub = false → tabWf s.dev.cmd.slots = true →
    (∀ t y, admittedOp s.dev cmd 9 x → abortTarget s.dev x (leAt x.cap 4 4) = some (t, y) → t ≠ cmd → y.op ≠ 8 → y.op ≠ 9 → y.abortSeen = false →
        y.to_ = none → pastReturn y = false → s.dev.cmd.slots.all (fun e => e.1 == cmd || e.1 == t) = true →
        Gives (.abortCmd cmd) s fun d => resultOf d cmd = some (0, 0, 0) ∧ resultOf d t = some (stABORTED, 0, 0))
    ∧ (admittedOp s.dev cmd 9 x → abortTarget s.dev x (leAt x.cap 4 4) = none → s.dev.cmd.bufs = [] → s.dev.cmd.slots = [(cmd, x)] →
        Gives (.abortCmd cmd) s fun d => resultOf d cmd = some (0, 1, 0))
    ∧ (admittedOp s.dev cmd 8 x → Gives (.releaseCmd cmd) s fun d => resultOf d cmd = some (0, (s.dev.cmd.slots.filter fun e =>
        e.2.phase == .held && e.2.trig == x.trig && holds (volRights s.dev (hostPd x.pd) e.2.vol) rTRIGGER).length, 0))
    ∧ (admittedOp s.dev cmd 0x80 x → byteAt x.cap 8 = 0 → x.dataLen = 4096 → Gives (.identifyDevice cmd) s fun d =>
        resultOf d cmd = some (0, 0, 0) ∧ (identifyBytes s.dev x).length = 4096
        ∧ ∀ k y, xferConn s.dev x = some k → connOf s.dev k = some y → nextOpen y = none → ∃ z, connOf d k = some z
            ∧ z.sendQ.length = y.sendQ.length + 1 ∧ (z.sendQ.getLast?.map fun m => (m.kind, m.len, m.addr, m.key, m.data, m.use))
              = some (.write, 4096, x.hostAddr, x.hostKey, identifyBytes s.dev x, .data cmd))
    ∧ (∀ idx, admittedOp s.dev cmd 0x93 x → leAt x.cap 4 2 = x.pd → leAt x.cap 44 8 / 2 ^ 36 = 2 * 2 ^ 12 → byteAt x.cap 52 < 4 → byteAt x.cap 53 = 0 → leAt x.cap 8 8 % 64 = 0 →
        64 ≤ leAt x.cap 36 8 → leAt x.cap 36 8 ≤ 2 ^ 34 → leAt x.cap 36 8 % 64 = 0 → leAt x.cap 44 8 % 64 = 0 →
        leAt x.cap 44 8 % 2 ^ 36 + leAt x.cap 36 8 ≤ s.dev.pln.plan.pantryMiB * 1048576 →
        ringMeets s.dev 2 (leAt x.cap 44 8 % 2 ^ 36) (leAt x.cap 36 8) false = false →
        (s.dev.trs.regions.filter fun e => e.2.pd == x.pd).length < (tgetD s.dev.trs.pds x.pd {}).regionLimit → regionIndex s.dev = some idx →
        Gives (.regionCreate cmd) s fun d => resultOf d cmd = some (0, idx * 4096 + (tgetD s.dev.trs.regionGen idx 0 % 4095 + 1), 0)
          ∧ (tget d.trs.regions idx).map (fun r => (r.vaBase, r.length, r.offset, r.partition, r.pd)) =
              some (leAt x.cap 8 8, leAt x.cap 36 8, leAt x.cap 44 8 % 2 ^ 36, 2, x.pd))
    ∧ (∀ r, admittedOp s.dev cmd 0x94 x → tget s.dev.trs.regions (leAt x.cap 8 4 / 4096) = some r → r.gen = leAt x.cap 8 4 % 4096 → r.pd = x.pd →
        r.bound = false → Gives (.regionDestroy cmd) s fun d => resultOf d cmd = some (0, 0, 0)
          ∧ tget d.trs.regions (leAt x.cap 8 4 / 4096) = none
          ∧ d.trs.regionFreed = s.dev.trs.regionFreed ++
              if ownIndex s.dev (leAt x.cap 8 4 / 4096) then [(leAt x.cap 8 4 / 4096, s.dev.time)] else [])

/-- O32 (R286, R287, R333, R336, R367, R369). In its turn on a volume with no allocated unit and no lost extent, READ, READ_TAGS
and VERIFY without a comparison succeed: VERIFY answers the granules of its range, and a READ of a command of this device's own
holds zeros for every block. A lost block in the range ends any of them with DATA_LOST at the first such block. FLUSH succeeds
once no earlier write-class command of its PD on the volume is left. Completes: readCmd, flushCmd, verifyCmd, readTags. -/
def Obligations.ReadsOfCleanVolumes : Prop :=
  ∀ (s : State) (c : Nat) (x : Slot) (vol : Volume),
    (begins s.dev c 1 x vol → vol.alloc = [] → vol.lost = [] → Gives (.readCmd c) s fun d => resultOf d c = some (0, 0, 0)
        ∧ (slotOf d c).map (fun y => y.data.length) = some (4096 * x.count)
        ∧ ∀ y, slotOf d c = some y → ∀ b ∈ y.data, b = 0)
    ∧ (begins s.dev c 7 x vol → vol.alloc = [] → vol.lost = [] → Gives (.readTags c) s fun d => ∃ n, resultOf d c = some (0, n, 0))
    ∧ (begins s.dev c 6 x vol → vol.alloc = [] → vol.lost = [] → bitAt (byteAt x.cap 60) 0 = false → Gives (.verifyCmd c) s fun d =>
        resultOf d c = some (0, (gransOf vol x).length, 0))
    ∧ (∀ b, firstLost vol x = some b → (begins s.dev c 1 x vol → Gives (.readCmd c) s fun d =>
          resultOf d c = some (stDATALOST, b % 2 ^ 32, b / 2 ^ 32 % 65536))
        ∧ (begins s.dev c 7 x vol → Gives (.readTags c) s fun d => resultOf d c = some (stDATALOST, b % 2 ^ 32, b / 2 ^ 32 % 65536))
        ∧ (begins s.dev c 6 x vol → Gives (.verifyCmd c) s fun d => resultOf d c = some (stDATALOST, b % 2 ^ 32, b / 2 ^ 32 % 65536)))
    ∧ (begins s.dev c 5 x vol → flushWaits s.dev c x = false → Gives (.flushCmd c) s fun d => resultOf d c = some (0, 0, 0))

/-- O33 (R333, R345, R349, R351). In its turn a WRITE or a WRITE_ZEROES whose stripes are copies with nothing to read beforehand
is running, with one piece of work per stripe of the range that it puts in place and no result yet; WRITE_ZEROES asks for its
dirty regions at once. DEALLOCATE of a volume with no allocated unit and no lost extent succeeds and leaves the allocation map
empty. Completes: writeCmd, writeZeroes, deallocate. -/
def Obligations.WritesBegin : Prop :=
  ∀ (s : State) (c : Nat) (x : Slot) (vol : Volume),
    (begins s.dev c 2 x vol → pullBytes x ≠ 0 → worksOf s.dev x.vol vol x ≠ [] → (worksOf s.dev x.vol vol x).all (fun w => w.method == .mirror
        && (geoOf s.dev x.vol vol w.stripe).wants vol x w == []) = true → Gives (.writeCmd c) s fun d => ∃ y, slotOf d c = some y
          ∧ y.phase = .running ∧ y.planned = true ∧ y.result = none ∧ y.works = worksOf s.dev x.vol vol x)
    ∧ (begins s.dev c 3 x vol → worksOf s.dev x.vol vol x ≠ [] → (worksOf s.dev x.vol vol x).all (fun w => w.method == .mirror && w.count != 0
        && (geoOf s.dev x.vol vol w.stripe).wants vol x w == []) = true → Gives (.writeZeroes c) s fun d => ∃ y, slotOf d c = some y
          ∧ y.phase = .running ∧ y.planned = true ∧ y.staged = true ∧ y.result = none ∧ y.works = worksOf s.dev x.vol vol x)
    ∧ (begins s.dev c 4 x vol → vol.alloc = [] → vol.lost = [] → Gives (.deallocate c) s fun d => resultOf d c = some (0, 0, 0)
          ∧ (volOf d x.vol).map (fun v => (v.alloc, v.lost)) = some ([], []))

/-- O34 (R305, R345, R350, R352, R353, R384, R468, R470). A held WRITE whose data is in staging gets the tag of a granule that
it covers whole, under the key it took; a running read of a PARITY stripe whose columns are all in is marked decoded. A bitmap
write that every copy took makes a SETTING region DIRTY and a CLEARING one CLEAN; one that no copy took makes a CLEARING region
DIRTY again. A DIRTY region that is idle and owed to no member starts CLEARING. Completes: tagComputeDone, parityComputeDone,
bitmapWriteComplete, dirtyIdleExpire. -/
def Obligations.EnginesAndDirtyRegions : Prop :=
  ∀ (s : State), planned s.dev = true → Quiet s.dev →
    (∀ c x vol gr k, slotOf s.dev c = some x → x.op = 2 → x.phase = .held → x.result = none → volOf s.dev x.vol = some vol → x.key = some k →
        thas x.tags gr = false → landedAll x = true → granuleInside vol x gr = true → Gives (.tagComputeDone c gr) s fun d =>
          ∃ y, slotOf d c = some y ∧ tget y.tags gr = some (granuleTag k.key vol.granule vol.tagSize x.vol (gr * 2 ^ vol.granule)
            ((List.range (2 ^ vol.granule)).flatMap fun i => newBlock x (gr * 2 ^ vol.granule + i))))
    ∧ (∀ c x vol w, slotOf s.dev c = some x → x.works = [w] → x.op = 6 → x.phase = .running → x.planned = true → x.result = none →
        volOf s.dev x.vol = some vol → (geoOf s.dev x.vol vol w.stripe).l.scheme = 2 → x.mism = [] → x.mismAt = none → s.dev.sto.locks = [] →
        readReady (geoOf s.dev x.vol vol w.stripe) vol x { w with computed := true } = true →
        unreadable (geoOf s.dev x.vol vol w.stripe) vol x { w with computed := true } = [] → (gransToCheck vol x).all x.checked.contains = false →
        Gives (.parityComputeDone c w.stripe) s fun d => ∃ y, slotOf d c = some y ∧ y.works = [{ w with computed := true }] ∧ y.result = none)
    ∧ (∀ v vol r w, s.dev.cmd.slots = [] → volOf s.dev v = some vol → s.dev.sto.bmOut = [w] → w.vol = v → w.block = r / 32768 → w.regions = [r] →
        s.dev.sto.bmWait = [] →
        (dirtyOf vol r = .setting → Gives (.bitmapWriteComplete v r true) s fun d => (volOf d v).map (fun y => dirtyOf y r) = some .dirty)
        ∧ (dirtyOf vol r = .clearing → Gives (.bitmapWriteComplete v r true) s fun d => (volOf d v).map (fun y => dirtyOf y r) = some .clean)
        ∧ (dirtyOf vol r = .clearing → Gives (.bitmapWriteComplete v r false) s fun d => (volOf d v).map (fun y => dirtyOf y r) = some .dirty))
    ∧ (∀ v vol r, volOf s.dev v = some vol → dirtyOf vol r = .dirty → regionBusy s.dev v r = false → regionOwed s.dev v r = false →
        Gives (.dirtyIdleExpire v r) s fun d => (volOf d v).map (fun y => dirtyOf y r) = some .clearing)

/-- O35 (R359, R360, R361, R387). A journal write that completes on the last copy that it waited for makes its record durable,
with no other command under way. When the head can advance a CHECKPOINT record names the new head by JSEQ and by offset in the
ring. A re-mirrored copy that holds every record becomes live, recorded by a record of its own. Completes: journalWriteComplete,
journalCheckpoint, journalRemirrorComplete. -/
def Obligations.JournalWrites : Prop :=
  ∀ (s : State) (g : Nat), planned s.dev = true → Quiet s.dev → s.dev.cmd.slots = [] →
    (∀ copy jseq e, (groupOf s.dev g).journal.recs.find? (fun r => r.r.jseq == jseq && r.pend.contains copy) = some e → e.pend = [copy] →
        Gives (.journalWriteComplete g copy jseq true) s fun d => jDurable d g jseq = true)
    ∧ (∀ rest, (groupOf s.dev g).journal.recs.dropWhile (headPasses s.dev g (groupOf s.dev g).journal.recs) = rest →
        rest.length < (groupOf s.dev g).journal.recs.length → (groupOf s.dev g).journal.live ≠ [] → Gives (.journalCheckpoint g) s fun d =>
          (groupOf d g).journal.checkAt = s.dev.time
          ∧ ∃ x ∈ (groupOf d g).journal.recs, x.pend = (groupOf s.dev g).journal.live
            ∧ x.r.body = ((rest.head?.map fun e => JBody.checkpoint e.r.jseq (e.off / 64)).getD
                (.checkpoint (groupOf s.dev g).journal.next ((groupOf s.dev g).journal.tail / 64))))
    ∧ (∀ i j0, (groupOf s.dev g).journal.remirror.find? (fun e => e.1 == i) = some (i, j0) → Gives (.journalRemirrorComplete g i) s fun d =>
          i ∈ (groupOf d g).journal.live ∧ (∀ e ∈ (groupOf d g).journal.remirror, e.1 ≠ i)
          ∧ ∃ x ∈ (groupOf d g).journal.recs, x.r.body = .journalCopy (copyDrive s.dev g i) 1 j0)

/-- O36 (R349, R365, R367, R368, R431). A repair's fragment write ends the repair. A fragment of a running write, while another
of the stripe is still out, becomes durable and the command goes on waiting. A drive read of a running read gives the work its
blocks, while others are still awaited. A Reservation Conflict of a repair warm-resets the device. Completes:
fragmentWriteComplete, driveReadComplete. -/
def Obligations.FragmentsAndDriveReads : Prop :=
  ∀ (s : State), planned s.dev = true → Quiet { s.dev with sto.repairs := [] } →
    (∀ n x data shadow, s.dev.cmd.slots = [] → s.dev.sto.repairs = [(n, x)] → 131072 ≤ n → n < proxyBase → x.frag.st = .sent →
        (Gives (.fragmentWriteComplete n x.stripe x.frag.col (.ok data shadow)) s fun d => d.sto.repairs = [])
        ∧ (Gives (.fragmentWriteComplete n x.stripe x.frag.col .conflict) s fun d => d.glb.st = .reset))
    ∧ (∀ c x vol w f h data shadow, c < 131072 → s.dev.sto.repairs = [] → s.dev.cmd.slots = [(c, x)] → isWriteOp x.op = true → x.phase = .running →
        x.planned = true → x.result = none → x.staged = true → x.recsMade = true → x.replay = false → x.works = [w] → w.computed = true →
        volOf s.dev x.vol = some vol → w.frags = [f, h] → f.col ≠ h.col → f.st = .sent → h.st = .sent →
        (geoOf s.dev x.vol vol w.stripe).avail f.col = true → (geoOf s.dev x.vol vol w.stripe).avail h.col = true →
        Gives (.fragmentWriteComplete c w.stripe f.col (.ok data shadow)) s fun d => ∃ y, slotOf d c = some y ∧ y.result = none
          ∧ y.works = [{ w with frags := [{ f with st := .durable }, h] }])
    ∧ (∀ c x vol w col first n data shadow, c < 131072 → s.dev.sto.repairs = [] → slotOf s.dev c = some x → isReadOp x.op = true → x.phase = .running →
        x.planned = true → x.result = none → x.works = [w] → x.mism = [] → x.mismAt = none → volOf s.dev x.vol = some vol →
        w.asked.find? (fun a => a.1 == col && a.2.1 == first) = some (col, first, n) → data.length = 4096 * n →
        shadow.length = vol.tagSize * ((first + n - 1) / 2 ^ vol.granule + 1 - first / 2 ^ vol.granule) →
        ∀ w', w' = takeRead w (2 ^ vol.granule) vol.tagSize col first n data shadow →
          unreadable (geoOf s.dev x.vol vol w.stripe) vol x w' = [] →
          ((geoOf s.dev x.vol vol w.stripe).wants vol x w').all (fun e => (geoOf s.dev x.vol vol w.stripe).sources w' e.1 e.2 [] == [e.1]
            && w'.covered e.1 e.2) = true → readReady (geoOf s.dev x.vol vol w.stripe) vol x w' = false →
          Gives (.driveReadComplete c w.stripe col first (.ok data shadow)) s fun d => ∃ y, slotOf d c = some y ∧ y.result = none ∧ y.works = [w']
            ∧ ∀ i, i < n → tget w'.blk (ckey col (first + i)) = some ((data.drop (4096 * i)).take 4096))

/-- O37 (R316, R379, R381, R382, R383). With no command and no repair under way, on a drive whose state this device decides: a
PCIe error report or a failed write makes an OK member SUSPECT, a link-down report counts a retrain and fails the member above
the limit, and a presence loss leaves its slot ABSENT. A CSTS poll that finds CFS set makes an OK member SUSPECT with a
controller reset, or FAILED when one took place within 60 s; a command timeout makes it SUSPECT or, above the limit, FAILED. A
newly set critical warning makes it SUSPECT, and one of bits 1 to 4 FAILED. A SUSPECT member that answers begins catch-up, and
the end of catch-up, in SERVICE, leaves it OK and behind on nothing. A member whose failure condition is met is FAILED with that
cause. Completes: driveFaultReport, cstsPoll, driveCmdTimeout, healthLogPoll, asyncEventNotice, memberAnswer, memberFailTimeout,
catchupComplete. -/
def Obligations.DriveFaults : Prop :=
  ∀ (s : State) (k : Nat), planned s.dev = true → Quiet s.dev → s.dev.cmd.slots = [] → k < 24 → decides s.dev k = true →
    ((driveOf s.dev k).st = .ok →
      (∀ r, r = .pcieError ∨ r = .writeFailed → Gives (.driveFaultReport k r) s fun d => (driveOf d k).st = .suspect)
      ∧ (Gives (.driveFaultReport k .linkDown) s fun d =>
          (driveOf d k).retrains = recent s.dev (driveOf s.dev k).retrains 60000000000 ++ [s.dev.time]
          ∧ (driveOf d k).st = if drvRetrainLimit s.dev < (recent s.dev (driveOf s.dev k).retrains 60000000000).length + 1 then .failed else .suspect)
      ∧ (Gives (.driveFaultReport k .presenceLost) s fun d => (driveOf d k).st = .absent ∧ (driveOf d k).bring = .down)
      ∧ (Gives (.cstsPoll k true) s fun d => (driveOf d k).st =
          if (driveOf s.dev k).resetAt.any (fun t => s.dev.time < t + 60000000000) then .failed else .suspect)
      ∧ (Gives (.cstsPoll k false) s fun d => (driveOf d k).st = .ok)
      ∧ (Gives (.driveCmdTimeout k) s fun d => (driveOf d k).st =
          if drvTimeoutLimit s.dev < (recent s.dev (driveOf s.dev k).timeouts 60000000000).length + 1 then .failed else .suspect)
      ∧ (∀ w, (Gives (.healthLogPoll k w) s fun d => (driveOf d k).id.critWarning = w ∧ (driveOf d k).st =
            if w.toNat &&& 0x1E != 0 then .failed else if w &&& ~~~(driveOf s.dev k).id.critWarning != 0 then .suspect else .ok)
          ∧ ((driveOf s.dev k).async = true → Gives (.asyncEventNotice k w) s fun d => (driveOf d k).id.critWarning = w ∧ (driveOf d k).st =
            if w.toNat &&& 0x1E != 0 then .failed else if w &&& ~~~(driveOf s.dev k).id.critWarning != 0 then .suspect else .ok)))
    ∧ ((driveOf s.dev k).st = .suspect → (Gives (.memberAnswer k) s fun d => (driveOf d k).catching = true ∧ (driveOf d k).st = .suspect)
      ∧ ∀ e, (driveOf s.dev k).catching = true → s.dev.glb.st = .service → s.dev.pwr.fail = false → slotPos s.dev k = some e → Gives (.catchupComplete k) s fun d =>
          (driveOf d k).st = .ok ∧ (driveOf d k).behind = [] ∧ (driveOf d k).catching = false)
    ∧ (∀ cause, causeMet s.dev k cause = true → Gives (.memberFailTimeout k cause) s fun d =>
        (driveOf d k).st = .failed ∧ (driveOf d k).cause = cause)

/-- O38 (R389, R391, R392, R393, R396, R398). Restoration of a group with nothing under way and no claim outstanding takes the
next band. At the end of a band's last stripe a band with stripes marked for redo runs again, one pass more and none marked; a
band with none and no update holding a lock in it is restored at every position it owed, and the sequencer is free. A progress
tick records the rate and the GiB left. Copy-back puts the replacement, OK, at the failed position, which is failed no longer,
once nothing is owed. Completes: bandRestoreStart, bandRestoreComplete, copybackComplete, rebuildProgressTick. -/
def Obligations.Restoration : Prop :=
  ∀ (s : State) (g : Nat), planned s.dev = true → Quiet s.dev → s.dev.cmd.slots = [] →
    (∀ lv b, (groupOf s.dev g).restoring = none → (groupOf s.dev g).claims = [] → nextToRestore s.dev g = some (lv, b) →
        Gives (.bandRestoreStart g) s fun d => (groupOf d g).restoring = some b ∧ (groupOf d g).redo = [] ∧ (groupOf d g).passes = 0
          ∧ (groupOf d g).level = levelNum lv)
    ∧ (∀ b e, (groupOf s.dev g).restoring = some b → keyLayout s.dev b.1 = some e → (groupOf s.dev g).redo ≠ [] →
        Gives (.bandRestoreComplete g) s fun d => (groupOf d g).restoring = some b ∧ (groupOf d g).redo = []
          ∧ (groupOf d g).passes = (groupOf s.dev g).passes + 1)
    ∧ (∀ b vol l, (groupOf s.dev g).restoring = some b → keyLayout s.dev b.1 = some (vol, l) → (groupOf s.dev g).redo = [] →
        s.dev.sto.locks = [] → vol.alloc = [] → Gives (.bandRestoreComplete g) s fun d => (groupOf d g).restoring = none ∧ (groupOf d g).passes = 0
          ∧ (groupOf d g).restored = (groupOf s.dev g).restored ++ (bandOwed s.dev b.1 l b.2.1 b.2.2).map fun p => (p, b))
    ∧ (∀ rate left, s.dev.pwr.fail = false → (restoring s.dev g || (groupOf s.dev g).slots.any (fun k => (driveOf s.dev k).catching)
          || (groupOf s.dev g).failed.any (·.2.isSome)) = true → Gives (.rebuildProgressTick g rate left) s fun d =>
        (groupOf d g).rate = rate ∧ (groupOf d g).left = left)
    ∧ (∀ pos k, (groupOf s.dev g).failed.find? (fun f => f.1 == pos) = some (pos, some k) → (driveOf s.dev k).st = .rebuilding →
        (groupOf s.dev g).restoring = none → owedBands s.dev g = [] → s.dev.glb.st = .service → s.dev.pwr.fail = false → pos < (groupOf s.dev g).slots.length →
        Gives (.copybackComplete g pos) s fun d => (driveOf d k).st = .ok ∧ (driveOf d k).pos = pos ∧ (driveOf d k).behind = []
          ∧ (groupOf d g).slots[pos]? = some k ∧ (∀ f ∈ (groupOf d g).failed, f.1 ≠ pos) ∧ ∀ r ∈ (groupOf d g).restored, r.1 ≠ pos)

/-- O39 (R317, R401, R402, R403, R404). With no command under way: the next unit of a running reshape is under copy, at the
cursor, or below it where the reshape is abandoned. A reshape whose cursor is at its end with no unit under copy switches: the
new layout is the volume's and there is none to come. An abandoned one at LBA 0 leaves the old layout alone. A group whose plan
members all qualify is formed of the plan's slots. Completes: groupForm, reshapeUnitCopy, reshapeSwitch, reshapeAbandonDone. -/
def Obligations.ReshapeAndGroups : Prop :=
  ∀ (s : State), planned s.dev = true → Quiet s.dev → s.dev.cmd.slots = [] →
    (∀ v vol nl, volOf s.dev v = some vol → vol.newLay = some nl → s.dev.sto.units = [] →
        (if vol.abandoning then vol.cursor ≠ 0 else vol.cursor < reshapeEnd vol nl) →
        yields s.dev vol nl = false → bgRuns s.dev v = true → (groupOf s.dev vol.lay.group).journal.live ≠ [] →
        Gives (.reshapeUnitCopy v) s fun d => d.sto.units = [(v, if vol.abandoning then vol.cursor - layD nl else vol.cursor)])
    ∧ (∀ v vol nl, volOf s.dev v = some vol → vol.newLay = some nl → vol.abandoning = false → s.dev.sto.units = [] → s.dev.pwr.fail = false → reshapeEnd vol nl ≤ vol.cursor →
        Gives (.reshapeSwitch v) s fun d => ∃ y, volOf d v = some y ∧ y.lay = nl ∧ y.newLay = none ∧ y.cursor = 0)
    ∧ (∀ v vol nl, volOf s.dev v = some vol → vol.newLay = some nl → vol.abandoning = true → s.dev.sto.units = [] → s.dev.pwr.fail = false → vol.cursor = 0 →
        Gives (.reshapeAbandonDone v) s fun d => ∃ y, volOf d v = some y ∧ y.lay = vol.lay ∧ y.newLay = none ∧ y.abandoning = false)
    ∧ (∀ g, g ≤ 5 → s.dev.glb.joinDone = true → planSlots s.dev g ≠ [] → (groupOf s.dev g).formed = false → ownsGroup s.dev g = true →
        (∀ k ∈ planSlots s.dev g, (driveOf s.dev k).st = .spare) → Gives (.groupForm g) s fun d =>
          (groupOf d g).formed = true ∧ (groupOf d g).slots = planSlots s.dev g ∧ ∀ k ∈ planSlots s.dev g, (driveOf d k).st = .ok)

/-- O40 (R340, R341, R342). VOLUME_QUERY answers the number of bytes of the description that fit the buffer, IDENTIFY with CNS 1
and a DATA_LEN of 4,096 succeeds. SET_ACCESS with a sound block, one valid entry of which holds ADMIN, gives the volume the
block's entries. VOLUME_DELETE of a volume in a state that allows it, with no other command, removes the volume and answers
SUCCESS. Completes: identifyVolume, volumeDelete, setAccess, volumeQuery. -/
def Obligations.VolumesDescribedAndDeleted : Prop :=
  ∀ (s : State) (cmd : Nat) (x : Slot) (vol : Volume), serving s.dev = true → Quiet s.dev → tabWf s.dev.cmd.slots = true →
    (volCmd s.dev cmd 0x88 rREAD x vol → Gives (.volumeQuery cmd) s fun d => resultOf d cmd =
        some (0, ((volDescription s.dev x.vol vol ++ vol.lay.slabs.flatMap (le 4)).take x.dataLen).length, 0) ∧ (volOf d x.vol).map (·.lay) = some vol.lay)
    ∧ (volCmd s.dev cmd 0x80 rREAD x vol → byteAt x.cap 8 = 1 → x.dataLen = 4096 → Gives (.identifyVolume cmd) s fun d =>
        resultOf d cmd = some (0, 0, 0) ∧ (volDescription s.dev x.vol vol).length = 640)
    ∧ (∀ blk, volCmd s.dev cmd 0x87 rADMIN x vol → blockOk x blk = true → byteAt blk 8 = 2 → x.dataLen = 320 →
        blockBad ((0, leAt blk 0 2 != x.vol) :: zeroFields blk 2 6 ++ zeroFields blk 9 55 ++ entryFields blk) = none → vol.deleting = false →
        (blockEntries blk).any (fun e => bitAt e.w1.toNat 7 && holds (fld e.w1.toNat 0 8) rADMIN) = true → x.msub = false →
        Gives (.setAccess cmd blk) s fun d => resultOf d cmd = some (0, 0, 0) ∧ (volOf d x.vol).map (·.access) = some (blockEntries blk)
          ∧ (volOf d x.vol).map (·.lay) = some vol.lay)
    ∧ (volCmd s.dev cmd 0x86 rADMIN x vol → volState s.dev x.vol ∉ [4, 5, 6, 8] → s.dev.cmd.slots = [(cmd, x)] → x.waitFor = false →
        Gives (.volumeDelete cmd) s fun d => resultOf d cmd = some (0, 0, 0) ∧ volOf d x.vol = none
          ∧ ∀ v, v ≠ x.vol → v < 4096 → (volOf d v).map (·.lay) = (volOf s.dev v).map (·.lay))

/-- O41 (R322, R326, R334, R337, R338, R339, R399, R400, R404). VOLUME_CREATE of a sound block in a valid owned group, with its
key loaded and the right to bind it held, its number free, its slabs and metadata units to be had and a balanced seed among the
64 from its SEED, enters the volume with the block's layout, that seed, as many slabs as it needs, no allocated unit and the
block's access entries, and answers its number. RESHAPE START with the layout kept adds blocks and slabs at once; with another
layout it is recorded as the one to come, with the cursor at 0. ABANDON turns a running reshape back. Completes: volumeCreate,
volumeReshapeStart, volumeReshapeAbandon. -/
def Obligations.VolumeCreatedAndReshaped : Prop :=
  ∀ (s : State) (cmd : Nat) (x : Slot) (blk : List Byte), serving s.dev = true → Quiet s.dev → tabWf s.dev.cmd.slots = true →
    blockOk x blk = true → x.msub = false →
    (∀ key v g l need placed kept, admittedOp s.dev cmd 0x85 x → x.dataLen = 320 → g = byteAt blk 6 → g ≤ 5 → cmdPage (actFor s.dev cmd) x 80 rADMIN = true →
        holds (keyRights (actFor s.dev cmd) x.master (leAt blk 10 2)) rADMIN = true →
        createBad s.dev blk = none → ownsGroup s.dev g = true → groupValid s.dev g = true → tget s.dev.itg.pages (leAt blk 10 2) = some key →
        v = leAt blk 0 2 → v ≠ 0xFFFF → volCount s.dev < 1024 → x.replay = false → numUsed s.dev v = false → l = blockLayout blk g →
        need = slabsFor l (groupN s.dev g) l.blocks → need ≤ slabsFree s.dev g →
        growStructs s.dev (blockVolume blk { l with slabs := List.replicate need 0 } [] false) g
          (layNeeds (blockVolume blk l [] false) { l with slabs := List.replicate need 0 }) = some placed →
        leAt blk 32 8 ≠ 0 → balancedSeed l (groupN s.dev g) (leAt blk 32 8) = some kept →
        Gives (.volumeCreate cmd blk) s fun d => resultOf d cmd = some (0, v, 0) ∧ ∃ y, volOf d v = some y ∧ y.lay.seed = BitVec.ofNat 64 kept
          ∧ { y.lay with seed := 0, slabs := [] } = l ∧ y.lay.slabs.length = need ∧ (∀ b ∈ y.lay.slabs, b ∉ slabsHeld s.dev g)
          ∧ y.alloc = [] ∧ y.creating = false ∧ y.access = blockEntries blk ∧ y.keyPage = leAt blk 10 2 ∧ y.granule = byteAt blk 9 ∧ y.tagSize = byteAt blk 8)
    ∧ (∀ vol g nl all placed, volCmd s.dev cmd 0x87 rADMIN x vol → byteAt blk 8 = 0 → x.dataLen = 64 → volState s.dev x.vol = 1 →
        reshapeBad s.dev x vol blk = none → vol.lay.group < 64 → g = byteAt blk 6 → ownsGroup s.dev g = true → groupValid s.dev g = true → nl = { blockLayout blk g with shelfCap := vol.lay.shelfCap } →
        all = slabsFor nl (groupN s.dev g) nl.blocks →
        (∀ kept, sameLayout vol.lay nl = true → all ≤ slabsFree s.dev g →
          placeReshape s.dev vol { nl with slabs := List.replicate all 0 } true = some placed →
          leAt blk 32 8 ≠ 0 → balancedSeed nl (groupN s.dev g) (leAt blk 32 8) = some kept →
          Gives (.volumeReshapeStart cmd blk) s fun d => resultOf d cmd = some (0, 0, 0) ∧ ∃ y, volOf d x.vol = some y ∧ y.newLay = vol.newLay
            ∧ y.lay.blocks = nl.blocks ∧ y.lay.slabs.take vol.lay.slabs.length = vol.lay.slabs
            ∧ y.lay.slabs.length = vol.lay.slabs.length + (all - vol.lay.slabs.length))
        ∧ (∀ kept, sameLayout vol.lay nl = false → all ≤ slabsFree s.dev g → placeReshape s.dev vol { nl with slabs := List.replicate all 0 } false = some placed →
          leAt blk 32 8 ≠ 0 → balancedSeed nl (groupN s.dev g) (leAt blk 32 8) = some kept →
          Gives (.volumeReshapeStart cmd blk) s fun d => resultOf d cmd = some (0, 0, 0) ∧ ∃ y z, volOf d x.vol = some y ∧ y.newLay = some z
            ∧ y.lay = vol.lay ∧ y.cursor = 0 ∧ z.seed = BitVec.ofNat 64 kept ∧ z.slabs.length = all ∧ { z with seed := 0, slabs := [] } = nl))
    ∧ (∀ vol, volCmd s.dev cmd 0x87 rADMIN x vol → byteAt blk 8 = 1 → x.dataLen = 64 → blockBad ((0, leAt blk 0 2 != x.vol) :: zeroFields blk 9 15 ++ zeroFields blk 40 24) = none → volState s.dev x.vol = 4 →
        Gives (.volumeReshapeAbandon cmd blk) s fun d => resultOf d cmd = some (0, 0, 0) ∧ (volOf d x.vol).map (fun y => (y.abandoning, y.lay, y.newLay))
          = some (true, vol.lay, vol.newLay))

/-- O42 (R382, R385, R406). With the right on page 0x50 and a sound block, on a slot that this device answers for: FAIL of a
member OK or SUSPECT leaves it FAILED with cause 7, RETIRE of a FAILED one RETIRED, SLOT_OFF of a slot in no state of a member
held off, SLOT_ON of a slot held off on again, ADOPT of a stranger's drive SPARE where no position waits for one. SET_SHARE,
PAUSE and RESUME change the share and the pause of a volume that this device owns. Each answers SUCCESS. Completes: memberFail,
memberRetire, slotOff, slotOn, adoptMember, setShare, pauseVolume, resumeVolume. -/
def Obligations.MemberControl : Prop :=
  ∀ (s : State) (cmd : Nat) (x : Slot) (blk : List Byte), serving s.dev = true → Quiet s.dev → s.dev.cmd.slots = [(cmd, x)] →
    admittedOp s.dev cmd 0x91 x → blockOk x blk = true → (x.msub = true ∨ x.dataLen = 64) → cmdPage (actFor s.dev cmd) x 80 rADMIN = true → zeroFields blk 5 59 = (List.range 59).map (fun i => (5 + i, false)) →
    (∀ k, k = byteAt blk 1 → k ≤ 23 → ownsSlot s.dev k = true → decides s.dev k = true →
      (byteAt blk 0 = 1 → (driveOf s.dev k).st = .ok ∨ (driveOf s.dev k).st = .suspect → Gives (.memberFail cmd blk) s fun d =>
          resultOf d cmd = some (0, 0, 0) ∧ (driveOf d k).st = .failed ∧ (driveOf d k).cause = 7)
      ∧ (byteAt blk 0 = 2 → (driveOf s.dev k).st = .failed → Gives (.memberRetire cmd blk) s fun d =>
          resultOf d cmd = some (0, 0, 0) ∧ (driveOf d k).st = .retired)
      ∧ (byteAt blk 0 = 3 → (driveOf s.dev k).st ∉ [MemberSt.ok, .suspect, .rebuilding] → Gives (.slotOff cmd blk) s fun d =>
          resultOf d cmd = some (0, 0, 0) ∧ (driveOf d k).off = true)
      ∧ (byteAt blk 0 = 4 → (driveOf s.dev k).off = true → Gives (.slotOn cmd blk) s fun d =>
          resultOf d cmd = some (0, 0, 0) ∧ (driveOf d k).off = false)
      ∧ (byteAt blk 0 = 5 → strangeHeader s.dev (driveOf s.dev k) = true → s.dev.sto.groups.all (fun e => e.2.failed.isEmpty) = true →
          Gives (.adoptMember cmd blk) s fun d => resultOf d cmd = some (0, 0, 0) ∧ (driveOf d k).st = .spare))
    ∧ (∀ v vol, v = leAt blk 2 2 → volOf s.dev v = some vol → ownsVol s.dev vol = true →
      (byteAt blk 0 = 6 → (byteAt blk 4 = 0 ∨ 5 ≤ byteAt blk 4 ∧ byteAt blk 4 ≤ 95) → Gives (.setShare cmd blk) s fun d =>
          resultOf d cmd = some (0, 0, 0) ∧ (volOf d v).map (·.share) = some (byteAt blk 4))
      ∧ (byteAt blk 0 = 7 → volState s.dev v ≠ 3 → Gives (.pauseVolume cmd blk) s fun d =>
          resultOf d cmd = some (0, 0, 0) ∧ (volOf d v).map (·.pause) = some true)
      ∧ (byteAt blk 0 = 8 → Gives (.resumeVolume cmd blk) s fun d =>
          resultOf d cmd = some (0, 0, 0) ∧ (volOf d v).map (·.pause) = some false))

/-- O43 (R472, R475, R477). On an unpaired device KEY_LOAD of a sound block into an EMPTY page on which no volume rests fills
the page with the block's key and answers bytes 0 to 3 of its KCV; KEY_CLEAR of a page, with no other command, leaves it EMPTY
and answers SUCCESS. A failing entropy source sets RNG_FAULT. Completes: keyLoad, keyClear, entropyFault. -/
def Obligations.KeysAndEntropy : Prop :=
  ∀ (s : State) (cmd : Nat) (x : Slot) (page : Nat), serving s.dev = true → Quiet s.dev → s.dev.cmd.slots = [(cmd, x)] → x.msub = false → page = leAt x.cap 4 2 →
    (∀ blk, admittedOp s.dev cmd 0x8A x → blockOk x blk = true → x.dataLen = 64 → keyPageBad (actFor s.dev cmd) x = none → blockBad (keyFields blk) = none →
        (byteAt blk 1 = 0 ∨ (blk.drop 8).take 8 = kcvOf (blockKey blk)) → boundOther s.dev page (kcvOf (blockKey blk)) = none →
        tget s.dev.itg.pages page = none → Gives (.keyLoad cmd blk) s fun d => resultOf d cmd = some (0, kcvWord (blockKey blk), 0)
          ∧ tget d.itg.pages page = some (blockKey blk) ∧ ∀ p, p ≠ page → tget d.itg.pages p = tget s.dev.itg.pages p)
    ∧ (admittedOp s.dev cmd 0x8B x → keyPageBad (actFor s.dev cmd) x = none → s.dev.par.keyItems = [] → x.waitFor = false → tabWf s.dev.itg.pages = true →
        Gives (.keyClear cmd) s fun d => resultOf d cmd = some (0, 0, 0) ∧ tget d.itg.pages page = none
          ∧ ∀ p, p ≠ page → tget d.itg.pages p = tget s.dev.itg.pages p)
    ∧ (running s.dev = true → s.dev.itg.rngFault = false → Gives .entropyFault s fun d => d.itg.rngFault = true ∧ d.itg.pages = s.dev.itg.pages)

/-- O44 (R484, R485, R486, R488, R489, R491, R492, R494, R495). With nothing else under way: SANITIZE OVERWRITE of a ready
volume by a sound block puts it under the operation with the block's passes and pattern; BLOCK_ERASE and DRIVE_OVERWRITE of the
shelf, where every drive offers the method, leave every drive of the scope owed and its header marked; FORMAT, with the right to
bind a new key page held, puts a ready volume under the format. Outside TAKEOVER and with PWR_FAIL clear: an overwrite tick of a
volume not paused at the end of a slab that is not the pass's last moves the cursor on one slab; at the last slab of the last
pass with every member written the volume is SANITIZING no longer, with no allocated unit. A poll that finds a drive done takes
it off those owed. FORMAT APPLY gives the volume the block's tag size, granule and key page and clears its maps. Completes:
sanitizeOverwrite, sanitizeBlockErase, sanitizeDriveOverwrite, formatCmd, formatApply, sanitizeStatusPoll, overwriteCursorTick.
-/
def Obligations.SanitizeAndFormat : Prop :=
  ∀ (s : State) (cmd : Nat) (x : Slot) (blk : List Byte), serving s.dev = true → Quiet s.dev → s.dev.adm.ops = [] → s.dev.cmd.slots = [(cmd, x)] →
    blockOk x blk = true → x.msub = false → x.dataLen = 64 →
    (∀ vol, volCmd s.dev cmd 0x8C rADMIN x vol → x.vol ≠ 0xFFFF → byteAt blk 0 = 0 → byteAt blk 1 = 1 → blockBad (sanFields blk) = none →
        volState s.dev x.vol ∉ [0, 4, 5, 6, 8] → Gives (.sanitizeOverwrite cmd blk) s fun d => resultOf d cmd = some (0, 0, 0)
          ∧ ∃ y o, volOf d x.vol = some y ∧ y.sanitizing = true ∧ y.op = some o ∧ o.op = 1 ∧ o.action = 1 ∧ o.passes = byteAt blk 2
            ∧ o.pattern = BitVec.ofNat 32 (leAt blk 4 4) ∧ o.state = 0 ∧ o.slabsTotal = vol.lay.slabs.length ∧ y.alloc = vol.alloc)
    ∧ (admittedOp s.dev cmd 0x8C x → x.vol = 0xFFFF → byteAt blk 0 = 1 → cmdPage (actFor s.dev cmd) x 80 rADMIN = true → blockBad (sanFields blk) = none →
        busyVol s.dev (shelfVols s.dev) = none → notOwned s.dev = none → sanSlots s.dev ≠ [] → (∀ k ∈ sanSlots s.dev, k < 24) →
        (byteAt blk 1 = 2 → (∀ k ∈ sanSlots s.dev, (driveOf s.dev k).id.sanBlockErase = true) → Gives (.sanitizeBlockErase cmd blk) s fun d =>
            resultOf d cmd = some (0, 0, 0) ∧ (∀ k ∈ sanSlots s.dev, (driveOf d k).id.hdr.sanitizePending = true)
            ∧ ∃ o, d.adm.ops = [o] ∧ o.op = 1 ∧ o.action = 2 ∧ o.state = 0 ∧ o.missed = maskOf (sanSlots s.dev))
        ∧ (byteAt blk 1 = 3 → (∀ k ∈ sanSlots s.dev, (driveOf s.dev k).id.sanOverwrite = true) → Gives (.sanitizeDriveOverwrite cmd blk) s fun d =>
            resultOf d cmd = some (0, 0, 0) ∧ (∀ k ∈ sanSlots s.dev, (driveOf d k).id.hdr.sanitizePending = true)
            ∧ ∃ o, d.adm.ops = [o] ∧ o.op = 1 ∧ o.action = 3 ∧ o.state = 0 ∧ o.missed = maskOf (sanSlots s.dev)))
    ∧ (∀ vol, volCmd s.dev cmd 0x8D rADMIN x vol → x.vol ≠ 0xFFFF → byteAt blk 0 = 0 → blockBad (fmtFields s.dev blk) = none →
        (leAt blk 10 2 = 0xFFFF ∨ thas s.dev.itg.pages (leAt blk 10 2) = true ∧ holds (keyRights (actFor s.dev cmd) x.master (leAt blk 10 2)) rADMIN = true) → volState s.dev x.vol ∉ [0, 4, 5, 6, 8] →
        Gives (.formatCmd cmd blk) s fun d => resultOf d cmd = some (0, 0, 0) ∧ ∃ y o, volOf d x.vol = some y ∧ y.formatting = true
          ∧ y.sanitizing = false ∧ y.op = some o ∧ o.op = 2 ∧ o.tagSize = byteAt blk 8 ∧ o.granule = byteAt blk 9 ∧ o.keyPage = leAt blk 10 2)
    ∧ (∀ v vol o, volOf s.dev v = some vol → vol.op = some o → ownsVol s.dev vol = true → volBusy s.dev v = false → s.dev.glb.st ≠ .takeover → s.dev.pwr.fail = false → v ≠ 0xFFFF → o.vol = v →
        (vol.formatting = true → (groupOf s.dev vol.lay.group).journal.recs.all (fun r => r.r.volume != v) = true → Gives (.formatApply v) s fun d =>
            ∃ y, volOf d v = some y ∧ y.formatting = false ∧ y.tagSize = (if o.tagSize = 0 then vol.tagSize else o.tagSize)
              ∧ y.granule = (if o.granule = 255 then vol.granule else o.granule) ∧ y.keyPage = (if o.keyPage = 65535 then vol.keyPage else o.keyPage)
              ∧ y.alloc = [] ∧ y.lost = [] ∧ y.lay = vol.lay)
        ∧ (vol.sanitizing = true → vol.pause = false → s.dev.sto.bgPaused = false → o.op = 1 → o.action = 1 → o.state = 0 → o.pass < o.passes →
            (o.slabsDone + 1 < o.slabsTotal → Gives (.overwriteCursorTick v true) s fun d => ∃ y p, volOf d v = some y ∧ y.sanitizing = true
              ∧ y.op = some p ∧ p.pass = o.pass ∧ p.slabsDone = o.slabsDone + 1)
            ∧ (o.slabsTotal = o.slabsDone + 1 → o.pass + 1 = o.passes → o.missed = 0 → o.only = 0 →
              (memberSlots s.dev vol.lay.group).all (memberUp s.dev) = true → Gives (.overwriteCursorTick v true) s fun d =>
                ∃ y p, volOf d v = some y ∧ y.sanitizing = false ∧ y.alloc = [] ∧ y.lost = [] ∧ y.op = some p ∧ p.state = 1 ∧ p.percent = 100)))
    ∧ (∀ k o, sanShelf { s.dev with adm.ops := [o] } = some o → bitAt o.missed k = true → o.missed ≠ 2 ^ k → (driveOf s.dev k).sanitize = true →
        Gives (.sanitizeStatusPoll k true false) { s with dev := { s.dev with adm.ops := [o] } } fun d => (driveOf d k).sanitize = false
          ∧ ∃ p, d.adm.ops = [p] ∧ p.missed = o.missed - 2 ^ k ∧ p.state = 0)

/-- O45 (R496, R497, R498, R499, R500, R501, R502). A short or an extended self-test starts when none runs and answers SUCCESS;
STOP ends a running one with result 2, a short one that lasts 120 s fails with an item left, and one whose items are done ends
with result 0 where no item failed and 1 otherwise. The first piece of an image is held and counted; where it is the final one
too the image is checked: a good one leaves the target checked, a bad one fails with IMAGE_INVALID and the check's code.
ACTIVATE in MAINT raises the flagged OTP counters and, where the images that it names are good, has the warm reset follow its
posted completion. The copy of the second flash's images is then owed no longer. Completes: selfTestShort, selfTestExtended,
selfTestStop, selfTestTimeout, imageLoad, imageActivate, imageCopyFirstFlash, selfTestComplete. -/
def Obligations.SelfTestsAndImages : Prop :=
  ∀ (s : State) (cmd : Nat) (x : Slot), Quiet s.dev → s.dev.cmd.slots = [(cmd, x)] → x.msub = false →
    (serving s.dev = true → admittedOp s.dev cmd 0x8E x → cmdPage (actFor s.dev cmd) x 176 rADMIN = true →
      (byteAt x.cap 8 = 1 → testRunning s.dev = none → Gives (.selfTestShort cmd) s fun d => resultOf d cmd = some (0, 0, 0)
          ∧ testRunning d = some { code := 1, start := s.dev.time })
      ∧ (byteAt x.cap 8 = 2 → testRunning s.dev = none → Gives (.selfTestExtended cmd) s fun d => resultOf d cmd = some (0, 0, 0)
          ∧ testRunning d = some { code := 2, start := s.dev.time })
      ∧ (∀ t, byteAt x.cap 8 = 15 → testRunning s.dev = some t → Gives (.selfTestStop cmd) s fun d => resultOf d cmd = some (0, 0, 0)
          ∧ d.adm.tests.head? = some { t with result := 2, finish := s.dev.time }))
    ∧ (∀ t, testRunning s.dev = some t →
      (t.code = 1 → Gives .selfTestTimeout s fun d => ∃ r, d.adm.tests.head? = some r ∧ r.result = 1 ∧ r.items ≠ 0 ∧ r.start = t.start)
      ∧ (∀ failed df first, Gives (.selfTestComplete failed df first) s fun d => ∃ r, d.adm.tests.head? = some r ∧ r.percent = 100
          ∧ r.result = (if failed.toNat % 256 = 0 then 0 else 1) ∧ r.items = failed.toNat % 256 ∧ r.first = first.toNat))
    ∧ (∀ blk read target total piece, serving s.dev = true → admittedOp s.dev cmd 0x8F x → blockOk x blk = true → cmdPage (actFor s.dev cmd) x 0 rADMIN = true →
        blockBad (imageFields blk) = none → s.dev.glb.bootSrc ≠ 3 → (s.dev.glb.bootSrc ≠ 2 ∨ s.dev.glb.st = .maint) → target = byteAt blk 0 →
        total = leAt blk 8 4 → leAt blk 4 4 = 0 → piece = fit (x.dataLen - 64) (blk.drop 64) →
        (piece.length < total → piece.length % 4096 = 0 → Gives (.imageLoad cmd blk read) s fun d =>
            resultOf d cmd = some (0, piece.length, 0) ∧ tget d.adm.loads target = some (total, piece))
        ∧ (∀ check, piece.length = total → imageCheck s.dev target read.fw { bytes := piece, content := read.content, left := read.left } = check →
            Gives (.imageLoad cmd blk read) s fun d => tget d.adm.loads target = none
              ∧ (if check = 1 then resultOf d cmd = some (0, total, 0) ∧ target ∈ d.adm.checked
                else resultOf d cmd = some (stIMAGE, check, 0) ∧ target ∉ d.adm.checked)))
    ∧ (∀ blk fw img rf rp, serving s.dev = true → admittedOp s.dev cmd 0x90 x → blockOk x blk = true → x.dataLen = 64 → cmdPage (actFor s.dev cmd) x 0 rADMIN = true →
        blockBad (activateFields blk) = none → s.dev.glb.st = .maint → s.dev.glb.bootSrc ≠ 3 →
        rf = (if bitAt (byteAt blk 1) 0 then max s.dev.glb.otpFw s.dev.glb.fwRoll else s.dev.glb.otpFw) →
        rp = (if bitAt (byteAt blk 1) 1 then max s.dev.glb.otpPlan s.dev.pln.plan.rollback else s.dev.glb.otpPlan) →
        (bitList (byteAt blk 0) 2).all (fun i => imageCheck { s.dev with glb.otpFw := rf, glb.otpPlan := rp } i fw img == 1) = true →
        Gives (.imageActivate cmd blk fw img) s fun d =>
          resultOf d cmd = some (0, 0, 0) ∧ (byteAt blk 0 ≠ 0 → d.adm.resetAfter = some cmd) ∧ d.glb.otpFw = rf ∧ d.glb.otpPlan = rp)
    ∧ (s.dev.adm.copyOwed = true → s.dev.glb.st = .service ∨ s.dev.glb.st = .maint → Gives .imageCopyFirstFlash s fun d => d.adm.copyOwed = false)

/-- O46 (R149, R291, R408, R523, R533). CONFIG_READ of a register that the bus reads for its master answers the value;
CONFIG_WRITE of one that its master may write answers SUCCESS and leaves the registers as the bus write leaves them. GET_LOG of
member health answers how much it gave and how much is left of 1,536 bytes. COUNTER_SETUP: DUMP answers SUCCESS exactly when its
commit applied; CLEAR leaves every counter of its set 0; SAMPLE and WINDOW write the sampling registers and the window length;
COPY answers the bytes of whole records that it writes. Completes: configRead, configWrite, getLog, counterSetupDump, clearSet,
sampleSetup, windowSetup, copyOut. -/
def Obligations.ConfigLogAndCounterCommands : Prop :=
  ∀ (s : State) (cmd : Nat) (x : Slot) (blk : List Byte), serving s.dev = true → Quiet s.dev → s.dev.cmd.slots = [(cmd, x)] → x.msub = false →
    (∀ y d0 d1 v, adminStart s.dev cmd 0x81 = some (y, d0) → leAt x.cap 8 4 % 4 = 0 → busRead (actFor d0 cmd) x.master (leAt x.cap 8 4) = (some v, d1) → resultOf d1 cmd = none → thas d1.cmd.slots cmd = true →
        Gives (.configRead cmd) s fun d => resultOf d cmd = some (0, v.toNat, 0))
    ∧ (∀ y d0, adminStart s.dev cmd 0x82 = some (y, d0) → leAt x.cap 8 4 % 4 = 0 →
        writeDenied (actFor d0 cmd) x.master (leAt x.cap 8 4) (BitVec.ofNat 32 (leAt x.cap 12 4)) = none →
        ∀ d1, d1 = busWrite (actFor d0 cmd) x.master (leAt x.cap 8 4) (BitVec.ofNat 32 (leAt x.cap 12 4)) → resultOf d1 cmd = none → thas d1.cmd.slots cmd = true →
        Gives (.configWrite cmd) s fun d => resultOf d cmd = some (0, 0, 0) ∧ d.reg.staged = d1.reg.staged ∧ d.reg.live = d1.reg.live)
    ∧ (admittedOp s.dev cmd 0x89 x → byteAt x.cap 8 = 5 → byteAt x.cap 9 = 0 → zeroAt x.cap 10 2 = true → cmdPage (actFor s.dev cmd) x 80 rADMIN = true →
        leAt x.cap 12 4 ≤ 1536 → Gives (.getLog cmd) s fun d => resultOf d cmd =
          some (0, min x.dataLen (1536 - leAt x.cap 12 4), 1536 - leAt x.cap 12 4 - min x.dataLen (1536 - leAt x.cap 12 4)))
    ∧ (admittedOp s.dev cmd 0x92 x → blockOk x blk = true → x.dataLen = 64 →
      (byteAt blk 0 = 1 → (setsHeld (leAt blk 8 2 ||| liveN s.dev 0xC00014)).all (fun k => holds (ctrRights (actFor s.dev cmd) x.master k) rADMIN) = true →
          blockBad (dumpFields blk) = none → Gives (.counterSetupDump cmd blk) s fun d =>
            (resultOf d cmd = some (0, 0, 0) ∧ (d.pln.result = 1 ∨ d.pln.result = 2))
            ∨ ((resultOf d cmd).map (·.1) = some stCOMMIT ∧ d.pln.result ≠ 1 ∧ d.pln.result ≠ 2))
      ∧ (∀ k, byteAt blk 0 = 2 → k = byteAt blk 1 → 7 ≤ k → k ≤ 11 → holds (ctrRights (actFor s.dev cmd) x.master k) rADMIN = true → blockBad (zeroFields blk 2 62) = none →
          Gives (.clearSet cmd blk) s fun d => resultOf d cmd = some (0, 0, 0)
            ∧ (k ≠ 7 → k ≠ 10 → ∀ i, i < setCounts k → tget d.reg.cnt (counterOff k i) = none))
      ∧ (byteAt blk 0 = 3 → holds (ctrRights (actFor s.dev cmd) x.master 11) rADMIN = true → blockBad (sampleFields blk) = none → Gives (.sampleSetup cmd blk) s fun d =>
          resultOf d cmd = some (0, 0, 0) ∧ liveN d 0xC00040 % 2 = byteAt blk 3 % 2 ∧ fld (liveN d 0xC00040) 1 5 = byteAt blk 2
          ∧ fld (liveN d 0xC00040) 6 2 = byteAt blk 3 / 2 ∧ liveN d 0xC00044 = leAt blk 4 2 + 65536 * leAt blk 6 2)
      ∧ (byteAt blk 0 = 4 → holds (ctrRights (actFor s.dev cmd) x.master 10) rADMIN = true → blockBad (windowFields blk) = none → Gives (.windowSetup cmd blk) s fun d =>
          resultOf d cmd = some (0, 0, 0) ∧ liveN d 0xC00030 = leAt blk 4 4)
      ∧ (∀ off len sets, byteAt blk 0 = 5 → byteAt blk 2 = 0 → s.dev.ctr.latest = some (off, len, sets) → s.dev.ctr.traceWait = none → len ≤ leAt blk 20 4 →
          (setsOf sets).all (fun k => holds (ctrRights (actFor s.dev cmd) x.master k) rADMIN) = true → blockBad (copyFields blk) = none →
          Gives (.copyOut cmd blk) s fun d => resultOf d cmd = some (0, len, 0)))

/-- O47 (R472, R524, R525, R526, R529, R531, R532). A snapshot that falls due with no record under way puts one in memory and
has it under way; with one under way it is skipped, counted and the sticky bit set. A record that is complete is the latest one,
and the sequence moves on. A window that ends publishes each interface's bytes, its length and its end. Reseeding draws the LFSR
from device time while the entropy source has failed. A trace record that bandwidth did not take is discarded and its sticky bit
set. Completes: counterSnapshot, windowPublish, sampleLfsrReseed, traceRecordDrop, dumpWriteComplete. -/
def Obligations.CounterUnit : Prop :=
  ∀ (s : State), running s.dev = true → domOn s.dev pdCTR = true →
    (liveN s.dev 0xC00010 ≠ 0 → s.dev.ctr.writing = none → Gives .counterSnapshot s fun d => d.ctr.writing.isSome = true ∧ d.ctr.skipped = 0
        ∧ d.ctr.seq = s.dev.ctr.seq)
    ∧ (liveN s.dev 0xC00010 ≠ 0 → s.dev.ctr.writing.isSome = true → Gives .counterSnapshot s fun d => d.ctr.writing = s.dev.ctr.writing
        ∧ d.ctr.skipped = s.dev.ctr.skipped + 1 ∧ d.ctr.dump = s.dev.ctr.dump ∧ bitAt (tgetD d.reg.sticky 0xC00000 0).toNat 2 = true)
    ∧ (∀ off len sets next, s.dev.ctr.writing = some (off, len, sets, next) → Gives .dumpWriteComplete s fun d => d.ctr.writing = none
        ∧ d.ctr.latest = some (off, len, sets) ∧ d.ctr.next = next ∧ d.ctr.seq = (s.dev.ctr.seq + 1) % 2 ^ 32)
    ∧ (∀ ports inner, windowMode s.dev = true → Gives (.windowPublish ports inner) s fun d =>
        d.ctr.windowSeq = (s.dev.ctr.windowSeq + 1) % 2 ^ 32 ∧ d.ctr.windowNs = (1000 * s.dev.ctr.windowUs) % 2 ^ 32 ∧ d.ctr.windowAt = s.dev.time
        ∧ ∀ i, i < 126 → tget d.reg.cnt (0xC02000 + 8 * i) = some ((ports ++ inner).getD i 0 % 2 ^ 48))
    ∧ (s.dev.itg.rngFault = true → Gives .sampleLfsrReseed s fun d => d.ctr.lfsr = BitVec.ofNat 32 s.dev.time)
    ∧ (s.dev.ctr.traceWait.isSome = true → Gives .traceRecordDrop s fun d => d.ctr.traceWait = none ∧ d.ctr.traces = s.dev.ctr.traces
        ∧ bitAt (tgetD d.reg.sticky 0xC00000 0).toNat 3 = true)

/-- O48 (R421, R422, R423, R424, R425, R426, R427). On a device with a pair: each heartbeat interval sends a frame on PW while
it is up, tagged VID 0 and priority 7, and moves its sequence on; a valid heartbeat leaves its path up with no miss and the
sender's state known; a miss is counted, and the path goes down at the eighth. With PW up HEALTH is sent each interval, and one
that arrives is kept with its time. POWER_FAIL tells that the partner admits no new writes. A device that loses its partner
while PWR_FAIL is set starts no take-over: it keeps its state and the ownership record, is ALONE, and nothing waits for the
partner's acknowledgement. Completes: heartbeatSend, heartbeatReceive, heartbeatMiss, partnerHaltedReceive,
powerFailFrameReceive, healthSend, healthReceive. -/
def Obligations.PairLink : Prop :=
  ∀ (s : State), planned s.dev = true → s.dev.pln.plan.unpaired = false →
    (pwUp s.dev = true → Gives .heartbeatSend s fun d =>
        Emit.pair { port := 32, dst := pairDst s.dev false, tci := 0xE000, head := pairHead s.dev 1 (pairSeq s.dev 1 false) }
          (.heartbeat (heartbeatNow s.dev (pairSeq s.dev 1 false))) ∈ d.out
        ∧ pairSeq d 1 false = (pairSeq s.dev 1 false + 1) % 2 ^ 32)
    ∧ (∀ b h, s.dev.par.lost = false → heartbeatOk s.dev b h = true → s.dev.par.giving = none → Gives (.heartbeatReceive b h) s fun d =>
        (hbPath d b).up = true ∧ (hbPath d b).misses = 0 ∧ (hbPath d b).seq = some h.seq.toNat ∧ (hbPath d b).last = some s.dev.time
          ∧ d.par.partnerState = h.state ∧ hbPath d (!b) = hbPath s.dev (!b))
    ∧ (∀ b, (hbPath s.dev (!b)).misses < 8 → Gives (.heartbeatMiss b) s fun d => (hbPath d b).misses = (hbPath s.dev b).misses + 1
        ∧ (hbPath d b).up = ((hbPath s.dev b).up && decide ((hbPath s.dev b).misses + 1 < 8)) ∧ d.par.lost = s.dev.par.lost)
    ∧ (∀ b, 8 ≤ (hbPath s.dev (!b)).misses → 7 ≤ (hbPath s.dev b).misses → s.dev.par.st = .paired → s.dev.par.lost = false → s.dev.glb.joinWait = false → s.dev.pwr.fail = false →
        partnerIdle s.dev = false → s.dev.glb.st = .service → Gives (.heartbeatMiss b) s fun d =>
          d.glb.st = .takeover ∧ d.par.lost = true ∧ d.par.step = .arbitrate ∧ d.par.cause = 1 ∧ d.par.takeAt = s.dev.time)
    ∧ (Still s.dev → s.dev.par.st = .syncing ∨ s.dev.par.st = .paired → s.dev.par.lost = false → s.dev.glb.joinWait = false → s.dev.pwr.fail = true →
        Gives .partnerHaltedReceive s fun d => d.glb.st = s.dev.glb.st ∧ d.par.step = s.dev.par.step ∧ d.par.st = .alone ∧ d.par.items = []
          ∧ d.par.keyItems = [] ∧ d.par.epoch = s.dev.par.epoch ∧ d.par.owner = s.dev.par.owner ∧ d.par.newRecord = s.dev.par.newRecord)
    ∧ (inPair s.dev = true → Gives .powerFailFrameReceive s fun d => d.par.partnerPwrFail = true)
    ∧ (pwUp s.dev = true → Gives .healthSend s fun d => pairSeq d 2 false = (pairSeq s.dev 2 false + 1) % 2 ^ 32 ∧ ∃ h,
        Emit.pair { port := 32, dst := pairDst s.dev false, tci := 0xE000, head := pairHead s.dev 2 (pairSeq s.dev 2 false) } (.health h) ∈ d.out
        ∧ h.seq = BitVec.ofNat 32 (pairSeq s.dev 2 false) ∧ h.state = stCode s.dev.glb.st)
    ∧ (∀ h, inPair s.dev = true → Gives (.healthReceive h) s fun d => d.par.health = some (h, s.dev.time) ∧ d.par.partnerState = h.state)

/-- O49 (R413, R415, R417, R418, R419, R438, R439, R440, R441). In a pair: a ring item with the expected MSEQ is stored, one
behind it is skipped and one beyond a gap is not applied; an acknowledgement clears every item up to it and no other; items not
acknowledged stay to be acknowledged when they go again on path B, which is up. With both snapshots acknowledged and agreeing
the pair is PAIRED. A hand-over starts once the request's completion is acknowledged, sends HANDOVER when the drain is over, is
taken by the partner once every earlier item is applied, and its durable record gives the next epoch and the new owners. The
stable time's end gives the role back. Completes: mirrorReceive, mirrorAckReceive, mirrorResend, snapshotAcked,
ownershipRecordDurable, handoverStart, handoverDrainTimeout, handoverReceive, stableTimeExpire. -/
def Obligations.PairMirrorAndHandover : Prop :=
  ∀ (s : State), planned s.dev = true →
    (∀ m off bs, inPair s.dev = true → s.dev.par.taking = none →
        (m = s.dev.par.rxMseq → Gives (.mirrorReceive m [.ring off bs]) s fun d => d.par.rxMseq = m + 1
          ∧ d.trs.rings = memWrites s.dev.trs.rings off bs)
        ∧ (m ≠ s.dev.par.rxMseq → Gives (.mirrorReceive m [.ring off bs]) s fun d => d.par.rxMseq = s.dev.par.rxMseq
          ∧ d.trs.rings = s.dev.trs.rings ∧ d.par.store = s.dev.par.store))
    ∧ (∀ m, inPair s.dev = true → Still s.dev → m < 2 ^ 64 → s.dev.par.items.all (fun i => i.act == .nothing) = true →
        Gives (.mirrorAckReceive m) s fun d => d.par.items = s.dev.par.items.filter fun i => m < i.mseq)
    ∧ (inPair s.dev = true → pathLive s.dev true = true → Gives .mirrorResend s fun d => d.par.items.map (fun i => (i.mseq, i.item)) = s.dev.par.items.map (fun i => (i.mseq, i.item))
        ∧ d.par.items.all (·.pathB) = true)
    ∧ (s.dev.par.st = .syncing → s.dev.par.lost = false → s.dev.par.items = [] → s.dev.par.keyItems = [] → Gives (.snapshotAcked true) s fun d =>
        d.par.st = .paired ∧ d.par.resynced = true ∧ d.par.snapAcked = true)
    ∧ (paired s.dev = true → s.dev.par.lost = false → s.dev.par.giving.isSome = true → s.dev.par.givingStarted = false → s.dev.par.request = none →
        Gives .handoverStart s fun d => d.par.givingStarted = true ∧ d.par.giving = s.dev.par.giving)
    ∧ (∀ groups roles mt, paired s.dev = true → s.dev.par.lost = false → s.dev.par.giving = some (groups, roles, mt) → s.dev.par.givingStarted = true →
        s.dev.par.givingSent = false → s.dev.cmd.slots = [] → pwUp s.dev = true → Gives .handoverDrainTimeout s fun d => d.par.givingSent = true
          ∧ Emit.pair { port := 32, dst := pairDst s.dev false, tci := 0xC000, head := pairHead s.dev 6 (pairSeq s.dev 6 false) }
            (.handover groups roles (s.dev.par.nextMseq - 1)) ∈ d.out)
    ∧ (∀ groups roles last, s.dev.glb.st = .service → paired s.dev = true → s.dev.par.lost = false → s.dev.par.step = .none → s.dev.par.taking = none →
        s.dev.par.newRecord = none → last + 1 ≤ s.dev.par.rxMseq → Gives (.handoverReceive groups roles last) s fun d =>
          d.par.taking = some (groups, roles, last) ∧ d.par.newRecord = some (ownerAfter s.dev groups s.dev.glb.side,
            roleAfter s.dev.par.roleA (roles.getLsbD 0) s.dev.glb.side, roleAfter s.dev.par.roleB (roles.getLsbD 1) s.dev.glb.side))
    ∧ (∀ owner a b, s.dev.par.newRecord = some (owner, a, b) → s.dev.par.taking = none → s.dev.par.step ≠ .record →
        Gives .ownershipRecordDurable s fun d => d.par.epoch = s.dev.par.epoch + 1 ∧ d.par.owner = owner ∧ d.par.roleA = a ∧ d.par.roleB = b
          ∧ d.par.newRecord = none)
    ∧ (s.dev.glb.st = .service → s.dev.par.stableSince.isSome = true → s.dev.par.giving = none → partnerCanTake s.dev (ownGroups s.dev) = true →
        Gives .stableTimeExpire s fun d => d.par.giving = some (BitVec.ofNat 6 (returnGroups s.dev), returnRoles s.dev, false)
          ∧ d.par.givingStarted = true ∧ d.par.stableSince = none)

/-- O50 (R428, R429, R430, R431, R432, R436, R441, R515). While arbitrating: an arbiter without an answer is skipped for the
next, after the third the device waits to repeat; one on which the own key is absent fences the device; the second one won ends
arbitration with the partner's addresses adopted, its shelf addresses announced on every UP port of a host VLAN. A drive whose
preempt completes takes writes again, one that is late is counted as such. Adopted shelf addresses are announced again. With
every group recovered TAKEOVER ends in SERVICE, ALONE. An OWNERSHIP request that can be met answers SUCCESS and names what
moves. The request for MAINT is dropped once staging suffices, and is accepted once the partner can take what the device holds.
Completes: maintRequest, moveGroups, returnRoles, arbiterAcquireComplete, arbiterTimeout, arbitrationRetry, garpRepeat,
preemptComplete, preemptTimeout, takeoverFinish, maintRequestRetry. -/
def Obligations.TakeOver : Prop :=
  ∀ (s : State), planned s.dev = true →
    (∀ n, n < 3 → s.dev.par.step = .arbitrate → s.dev.par.arbiter = n →
        (Gives (.arbiterTimeout n) s fun d => d.par.arbiter = n + 1 ∧ d.par.won = s.dev.par.won)
        ∧ (∀ a, a.ownKey = false → Gives (.arbiterAcquireComplete n a) s fun d => d.glb.st = .reset)
        ∧ (∀ a, a.ownKey = true → a.partnerKey = true → (bitList s.dev.par.won 3).length < 2 → Gives (.arbiterAcquireComplete n a) s fun d =>
            d.par.arbiter = n + 1 ∧ d.par.answered = s.dev.par.answered + 1 ∧ d.par.won = s.dev.par.won)
        ∧ (∀ a, a.ownKey = true → a.partnerKey = false → 2 ≤ (bitList (setBit s.dev.par.won n) 3).length → s.dev.glb.st ≠ .train →
            Gives (.arbiterAcquireComplete n a) s fun d => (d.par.step = .fence ∨ d.par.step = .record)
              ∧ ∀ x ∈ sideAddrs s.dev !s.dev.glb.side, x ∈ d.par.adopted
                ∧ (x ∈ shelfAddrs s.dev !s.dev.glb.side → ∀ e ∈ hostPorts s.dev, Emit.garp e.1 e.2 x ∈ d.out)))
    ∧ (s.dev.par.step = .arbitrate → s.dev.par.arbiter = 3 → Gives .arbitrationRetry s fun d => d.par.arbiter = 0 ∧ d.par.won = 0 ∧ d.par.answered = 0)
    ∧ (0 < s.dev.par.garps → Gives .garpRepeat s fun d => d.par.garps = s.dev.par.garps - 1 ∧ ∀ x ∈ s.dev.par.adopted,
        x ∈ shelfAddrs s.dev false ++ shelfAddrs s.dev true → ∀ e ∈ hostPorts s.dev, Emit.garp e.1 e.2 x ∈ d.out)
    ∧ (∀ k, Still s.dev → (driveOf s.dev k).fencing = true →
        (Gives (.preemptComplete k) s fun d => (driveOf d k).fencing = false)
        ∧ (s.dev.par.step = .fence → s.dev.par.fenceLate.contains k = false → Gives (.preemptTimeout k) s fun d =>
            k ∈ d.par.fenceLate ∧ (driveOf d k).fencing = true))
    ∧ (Still s.dev → s.dev.glb.st = .takeover → s.dev.par.step = .resume → s.dev.sto.recovery = [] → s.dev.sto.vols = [] → s.dev.par.lost = true →
        Gives .takeoverFinish s fun d => d.glb.st = .service ∧ d.par.step = .none ∧ d.par.st = .alone ∧ d.sto.bgPaused = false)
    ∧ (∀ cmd x blk, serving s.dev = true → s.dev.cmd.slots = [(cmd, x)] → admittedOp s.dev cmd 0x95 x → blockOk x blk = true → x.msub = true ∨ x.dataLen = 64 →
        cmdPage (actFor s.dev cmd) x 144 rADMIN = true → blockBad (zeroFields blk 3 61) = none →
        (byteAt blk 0 = 1 → byteAt blk 1 = 0 → byteAt blk 2 = 0 → (handoverBad s.dev (ownGroups s.dev)).1 = none → Gives (.maintRequest cmd blk) s fun d =>
            resultOf d cmd = some (0, 0, 0) ∧ d.par.giving = some (BitVec.ofNat 6 (ownGroups s.dev), heldRoles s.dev, true) ∧ d.par.request = some cmd)
        ∧ (byteAt blk 0 = 2 → byteAt blk 2 = b2n (!s.dev.glb.side) → (∀ g, g < 8 → bitAt (byteAt blk 1) g = true →
            bitAt (ownGroups s.dev) g = true ∧ (groupOf s.dev g).formed = true) → (handoverBad s.dev (byteAt blk 1)).1 = none →
            Gives (.moveGroups cmd blk) s fun d => resultOf d cmd = some (0, 0, 0)
              ∧ d.par.giving = some (BitVec.ofNat 6 (byteAt blk 1), 0, false) ∧ d.par.request = some cmd)
        ∧ (byteAt blk 0 = 3 → byteAt blk 1 = 0 → byteAt blk 2 = 0 → (handoverBad s.dev (returnGroups s.dev)).1 = none → Gives (.returnRoles cmd blk) s fun d =>
            resultOf d cmd = some (0, 0, 0) ∧ d.par.giving = some (BitVec.ofNat 6 (returnGroups s.dev), returnRoles s.dev, false)))
    ∧ (s.dev.par.maintRetry = true → (8192 ≤ stagingNow s.dev → Gives .maintRequestRetry s fun d => d.par.maintRetry = false)
        ∧ (stagingNow s.dev < 8192 → s.dev.glb.st = .service → (handoverBad s.dev (ownGroups s.dev)).1 = none → Gives .maintRequestRetry s fun d =>
            d.par.maintRetry = false ∧ d.par.giving = some (BitVec.ofNat 6 (ownGroups s.dev), heldRoles s.dev, true)))

/-- O51 (R457, R462, R463). With the right on page 0xA0 and a sound block of 128 bytes, of an action on this pier itself where
it names a pier: ADMIT_PIER leaves it admitted and up, REMOVE_PIER of one that owns nothing leaves it not admitted with no pier
up; FORM_GROUP of a free group enters it at home here, and DISSOLVE_GROUP of one with no volume removes it; GATE_ON opens the
gate and GATE_OFF closes it and starts the drain, whose end leaves no drain. Each answers SUCCESS. Completes: admitPier,
removePier, formGroup, dissolveGroup, gateOn, gateOff, gateDrainExpire. -/
def Obligations.ViaductControl : Prop :=
  ∀ (s : State) (cmd : Nat) (x : Slot) (blk : List Byte), serving s.dev = true → s.dev.cmd.slots = [(cmd, x)] → admittedOp s.dev cmd 0x96 x →
    blockOk x blk = true → x.dataLen = 128 → cmdPage (actFor s.dev cmd) x 160 rADMIN = true →
    (byteAt blk 1 = ownPier s.dev → pierListed s.dev (ownPier s.dev) = true → (∀ i, i < 128 → 2 ≤ i → byteAt blk i = 0) →
      (byteAt blk 0 = 1 → Gives (.admitPier cmd blk) s fun d => resultOf d cmd = some (0, 0, 0) ∧ d.via.admitted = true
          ∧ d.via.up = BitVec.ofNat 64 (setBit s.dev.via.up.toNat (ownPier s.dev)))
      ∧ (byteAt blk 0 = 2 → removeBad s.dev (ownPier s.dev) = (none, s.dev) → s.dev.via.inner = [] → Gives (.removePier cmd blk) s fun d =>
          resultOf d cmd = some (0, 0, 0) ∧ d.via.admitted = false ∧ d.via.gate = false ∧ d.via.up = 0)
      ∧ (byteAt blk 0 = 5 → Gives (.gateOn cmd blk) s fun d => resultOf d cmd = some (0, 0, 0) ∧ d.via.gate = true ∧ d.via.draining = none)
      ∧ (byteAt blk 0 = 6 → Gives (.gateOff cmd blk) s fun d => resultOf d cmd = some (0, 0, 0) ∧ d.via.gate = false
          ∧ d.via.draining = some s.dev.time))
    ∧ (byteAt blk 0 = 3 → blockBad (formFields s.dev blk) = none → thas s.dev.via.groups (byteAt blk 2) = false →
        (∀ i, i < 128 → i ∉ [0, 2, 3, 8, 9, 10, 11] → (i < 16 ∨ 80 ≤ i) → byteAt blk i = 0) → Gives (.formGroup cmd blk) s fun d =>
          resultOf d cmd = some (0, 0, 0) ∧ (tget d.via.groups (byteAt blk 2)).map (fun g => (g.home, g.successor, g.members, g.arbiters))
            = some (ownPier s.dev, byteAt blk 3, blockMembers blk, blockArbiters blk) ∧ (groupOf d (64 + byteAt blk 2)).formed = true)
    ∧ (byteAt blk 0 = 4 → thas s.dev.via.groups (byteAt blk 2) = true → (∀ i, i < 128 → i ≠ 0 → i ≠ 2 → byteAt blk i = 0) →
        s.dev.sto.vols.all (fun e => e.2.lay.group != 64 + byteAt blk 2) = true → Gives (.dissolveGroup cmd blk) s fun d =>
          resultOf d cmd = some (0, 0, 0) ∧ tget d.via.groups (byteAt blk 2) = none ∧ tget d.sto.groups (64 + byteAt blk 2) = none)
    ∧ (∀ t, planned t.dev = true → t.dev.via.draining.isSome = true → (∀ e ∈ t.dev.trs.conns, e.2.est = false) →
        Gives .gateDrainExpire t fun d => d.via.draining = none ∧ d.via.gate = t.dev.via.gate)

/-- O52 (R451, R453, R454, R455, R456, R457, R461, R464). A pier opens its inner connection to a higher listed pier with a free
index. An idle inner connection probes its OPEN paths. A FWD_CMD whose result is known is answered again, one before its turn is
held back, and one whose turn it is is admitted, the number expected moving on. FWD_CPL of a command that failed gives the
gate's command the owner's status and results. A FWD_TRIGGER that matches nothing lingers where lingering is set. A FRAG_REQ
below the highest epoch seen is rejected; one for a ready drive is accepted, a read at once submitted. A DIRECTORY record sets
the volume's owner. An epoch above every one seen and granted is granted once the home pier has been silent for the loss time;
the first grant of a claim is counted. A pier not heard for the loss time is down. FRAG_DONE of another pier changes nothing;
that of an access whose use is over ends it. A command that waits for its owner too long answers NOT_OWNER. Completes:
innerConnect, innerIdleProbe, pierLossTimeout, fwdCmd, fwdCpl, fwdTrigger, fragReq, fragDone, directoryRec, epochRec,
ownerWaitTimeout, epochGrantReceive. -/
def Obligations.ViaductRecords : Prop :=
  ∀ (s : State) (pier : Nat) (r : InnerRec), serving s.dev = true → (viaPlan s.dev).isSome = true → pierListed s.dev pier = true →
    (∀ c, ownPier s.dev < pier → thas s.dev.via.inner pier = false → freeConn s.dev = some c → Gives (.innerConnect pier) s fun d =>
        ∃ y, connOf d c = some y ∧ y.st = .connecting ∧ y.r.inner = some pier)
    ∧ (∀ c x p, tget s.dev.via.inner pier = some c → connOf s.dev c = some x → x.est = true → isResident s.dev c = true → p ∈ openPaths x →
        Gives (.innerIdleProbe pier) s fun d => (connOf d c).any (fun y => (tgetD y.paths p {}).probing) = true)
    ∧ (∀ e, s.dev.via.done.find? (fun e => e.1 == fwdKey r && e.2.1 == r.seq) = some e → Gives (.fwdCmd pier r) s fun d =>
        Emit.inner pier (innerBytes 2 e.2.2) ∈ d.out ∧ d.via = s.dev.via)
    ∧ (s.dev.via.done = [] → s.dev.via.early = [] → s.dev.cmd.slots = [] → tgetD s.dev.via.expect (fwdKey r) 0 < r.seq → Gives (.fwdCmd pier r) s fun d =>
        d.via.early.map (fun e => (e.1, e.2.1)) = [(pier, r)] ∧ d.via.expect = s.dev.via.expect)
    ∧ (s.dev.via.done = [] → s.dev.via.early = [] → s.dev.cmd.slots = [] → tgetD s.dev.via.expect (fwdKey r) 0 = r.seq → s.dev.pwr.fail = false →
        capStops s.dev r.payload = false → 0 < sharedSlots s.dev → mirrorHolds s.dev = false → Gives (.fwdCmd pier r) s fun d =>
        d.via.early = [] ∧ tgetD d.via.expect (fwdKey r) 0 = r.seq + 1)
    ∧ (∀ c x, s.dev.cmd.slots = [(c, x)] → x.cmdTag = r.gateTag → x.from_ = none → x.msub = false → x.to_.any (fun t => t.1 == pier) = true → x.result = none →
        leAt (fit 32 r.kindFields) 16 2 % 2048 ≠ 0 → Gives (.fwdCpl pier r) s fun d => resultOf d c =
          some (leAt (fit 32 r.kindFields) 16 2 % 2048, leAt (fit 32 r.kindFields) 4 4, leAt (fit 32 r.kindFields) 8 4))
    ∧ (s.dev.glb.st ≠ .takeover → s.dev.cmd.slots = [] → s.dev.cmd.bufs = [] → liveN s.dev 0x30008C ≠ 0 → s.dev.trs.linger.length < 4096 → Gives (.fwdTrigger pier r) s fun d =>
        d.trs.linger = s.dev.trs.linger ++ [(r.hostPd % 4096, leAt r.payload 0 4, s.dev.time)])
    ∧ (∀ g, r.epoch < (vgroup s.dev g).seen → Gives (.fragReq pier r g) s fun d => d.via.frags = s.dev.via.frags ∧ d.via.nextFrag = s.dev.via.nextFrag)
    ∧ (∀ g, (vgroup s.dev g).seen ≤ r.epoch → bitAt r.flags.toNat 0 = true → byteAt r.kindFields 0 < 24 →
        (driveOf s.dev (byteAt r.kindFields 0)).st ≠ .absent → (driveOf s.dev (byteAt r.kindFields 0)).bring = .ready → Gives (.fragReq pier r g) s fun d =>
          (tget d.via.frags s.dev.via.nextFrag).map (fun f => (f.pier, f.epoch, f.sent, f.read)) = some (pier, r.epoch, true, true)
          ∧ (vgroup d g).seen = max (vgroup s.dev g).seen r.epoch)
    ∧ (∀ f, tget s.dev.via.sent r.gateTag.toNat = some f → (f.pier ≠ pier → Gives (.fragDone pier r) s fun d => d.via = s.dev.via ∧ Piece.same s.dev d .sto)
        ∧ (f.pier = pier → f.use = .none → byteAt r.kindFields 0 ≠ 3 → Gives (.fragDone pier r) s fun d =>
            d.via = { s.dev.via with sent := tdel s.dev.via.sent r.gateTag.toNat }))
    ∧ (leAt r.payload 0 2 < 4096 → byteAt r.payload 2 = ownPier s.dev → ownPier s.dev < 64 → Gives (.directoryRec pier r) s fun d =>
        tget d.via.directory (leAt r.payload 0 2) = some (ownPier s.dev))
    ∧ (∀ g, (vgroup s.dev g).seen < r.epoch → (vgroup s.dev g).granted = none → (vgroup s.dev g).homeAt + 1000 * liveN s.dev 0xA00010 ≤ s.dev.time →
        Gives (.epochRec pier r g) s fun d => (vgroup d g).granted = some (r.epoch, pier) ∧ (vgroup d g).seen = r.epoch)
    ∧ (∀ g e, (vgroup s.dev g).claim = some (e, 0) → Gives (.epochGrantReceive pier g e true) s fun d => (vgroup d g).claim = some (e, 1))
    ∧ (pierUp s.dev pier = true → pier ≠ ownPier s.dev → pier < 64 → pierUp s.dev (pier.xor 1) = true → Gives (.pierLossTimeout pier) s fun d =>
        pierUp d pier = false ∧ ∀ n, n < 64 → n ≠ pier → pierUp d n = pierUp s.dev n)
    ∧ (∀ c x, slotOf s.dev c = some x → x.ownerWait = true → x.result = none → Gives (.ownerWaitTimeout c) s fun d =>
        (resultOf d c).map (·.1) = some stNOTOWNER)

/-- O53 (R505, R507, R508, R509, R510, R511, R512, R513, R514, R515, R518). A slice is started on the next unit whose turn and
conditions have come, and is over at a drain timeout, or at its segment's end: a unit that fails for good is held out, one whose
fault takes a spare and an entry of the table is to be repeated. A burn with its KEY in MAINT starts, and its end with success
fuses every entry that fits. A first corrected HBM error of a row is only counted, short of 4,096 others in the last second; an
uncorrectable one retires the pseudo-channel and begins its copy, whose end is noted. The second uncorrectable core error in an
hour holds the core out. A sensor that disagrees is left out. A clock that is lost is absent until it is restored. A fatal clock
fault shuts the device down, UNFIT. A scrub pass is counted while the counter unit is on. Completes: bistSliceStart,
sliceDrainTimeout, sliceSegmentEnd, fuseBurn, hbmEccError, pcRetireCopyDone, cpuCoreError, sensorDisagree, refclkLoss,
refclkRestore, fatalClockFault, fuseBurnComplete, scrubTick. -/
def Obligations.SlicesAndFaults : Prop :=
  ∀ (s : State), running s.dev = true →
    (∀ u rest, slicesRun s.dev = true → s.dev.bst.active = none → s.dev.bst.urgent = u :: rest → unitIn s.dev u = true → unitFree s.dev u = true →
        Gives .bistSliceStart s fun d => d.bst.active = some u.1 ∧ d.bst.unit = u.2 ∧ d.bst.urgent = rest)
    ∧ (s.dev.bst.active.isSome = true → Gives .sliceDrainTimeout s fun d => d.bst.active = none ∧ d.bst.held = s.dev.bst.held)
    ∧ (∀ n, s.dev.bst.active = some n → (Gives (.sliceSegmentEnd .pass) s fun d => d.bst.active = none ∧ d.bst.held = s.dev.bst.held)
        ∧ (Gives (.sliceSegmentEnd .logicFail) s fun d => d.bst.active = none ∧ (n, s.dev.bst.unit) ∈ d.bst.held)
        ∧ (∀ inst column f, f = { dom := n, unit := s.dev.bst.unit, inst, column } → s.dev.bst.repeat_.contains (n, s.dev.bst.unit) = false →
            spareLeft s.dev f = true → s.dev.bst.soft.length < 4096 → Gives (.sliceSegmentEnd (.repairable inst column)) s fun d =>
            d.bst.active = none ∧ (n, s.dev.bst.unit) ∈ d.bst.repeat_ ∧ d.bst.soft = s.dev.bst.soft ++ [.sram f]))
    ∧ (∀ m v, pageHas s.dev m 176 rWRITE = true → bitAt v.toNat 0 = true → fld v.toNat 16 16 = 0x3B7D → s.dev.glb.st = .maint → s.dev.bst.burning = false →
        Gives (.fuseBurn m v) s fun d => d.bst.burning = true ∧ d.bst.burnDone = false)
    ∧ (s.dev.bst.burning = true → Gives (.fuseBurnComplete true) s fun d => d.bst.burning = false ∧ d.bst.burnDone = true ∧ d.bst.burnFail = false
        ∧ d.bst.fuseUsed = s.dev.bst.fuseUsed + min (s.dev.bst.soft.length - s.dev.bst.fused) (1024 - s.dev.bst.fuseUsed))
    ∧ (∀ pc a, pc < 64 → domOn s.dev (if pc < 32 then pdHBM0 else pdHBM1) = true →
        ((recent s.dev (tgetD s.dev.bst.corrected pc []) 1000000000).length < 4096 → Gives (.hbmEccError pc a (.corrected false false)) s fun d => d.bst.retired = s.dev.bst.retired ∧ d.bst.soft = s.dev.bst.soft)
        ∧ (s.dev.bst.retired.contains pc = false → Gives (.hbmEccError pc a (.uncorrectable true)) s fun d => pc ∈ d.bst.retired ∧ pc ∈ d.bst.copying))
    ∧ (∀ pc, s.dev.bst.copying.contains pc = true → 8192 ≤ stagingNow s.dev → Gives (.pcRetireCopyDone pc) s fun d =>
        d.bst.copying = s.dev.bst.copying.erase pc ∧ d.bst.retired = s.dev.bst.retired)
    ∧ (∀ core, 1 ≤ core → core < 16 → domOn s.dev (pdCPU (core / 4)) = true →
        (recent s.dev (tgetD s.dev.bst.coreErrs core []) 3600000000000).length = 1 → Gives (.cpuCoreError core true) s fun d =>
          (pdCPU (core / 4), core % 4) ∈ d.bst.held)
    ∧ (∀ k, k < 30 → s.dev.sense.leftOut.contains k = false → Gives (.sensorDisagree k) s fun d => k ∈ d.sense.leftOut)
    ∧ (∀ k, k < 3 → s.dev.sense.clkLost.contains k = false → planned s.dev = false → Gives (.refclkLoss k) s fun d => k ∈ d.sense.clkLost)
    ∧ (∀ k, s.dev.sense.clkLost.contains k = true → Gives (.refclkRestore k) s fun d => d.sense.clkLost = s.dev.sense.clkLost.erase k)
    ∧ (s.dev.glb.shutdown = false → Gives .fatalClockFault s fun d => d.glb.shutdown = true ∧ d.par.unfit = true)
    ∧ (s.dev.glb.st = .service → s.dev.pwr.bistPaused = false → counts s.dev 0x800120 = true → Gives (.scrubTick .hbmPass) s fun d =>
        tgetD d.reg.cnt 0x800120 0 = tgetD s.dev.reg.cnt 0x800120 0 + 1)

/-- O54 (R29, R30, R31, R60). A step of a device whose queue has a command at its front is exec of that command with the rest of
the queue; with an empty queue the device time goes on by 1 ns, by 40 ns in deep idle, and by what a forward correction steps
it; where no domain request waits and no SGPIO frame is due nothing else happens, and a frame that is due carries 72 bits, each
slot's third showing a FAILED member (the model's choices, log entries 1 and 76). -/
def Obligations.StepFront : Prop :=
  ∀ (c : Instr) (rest : List Instr) (d : Dev), step { dev := d, pending := c :: rest } = exec c { dev := d, pending := rest }
    ∧ step { dev := d, pending := [] } = .next { dev := idleTick d, pending := [] }
    ∧ (idleTick d).time = d.time + tickNs d ∧ (if d.pwr.idle.isSome then 40 else 1) ≤ tickNs d
    ∧ (d.pwr.reqs = [] → planned d = false ∨ sgpioDue d.time (d.time + tickNs d) = false → idleTick d = { d with time := d.time + tickNs d })
    ∧ (d.pwr.reqs = [] → planned d = true → sgpioDue d.time (d.time + tickNs d) = true → ∃ bits, Emit.sgpio bits ∈ (idleTick d).out
        ∧ bits.length = 72 ∧ ∀ k, k < 24 → bits[3 * k + 2]? = some ((driveOf d k).st == .failed))

/-- O55 (R29, R103, R108, R113, R123). After VDD_AON has risen the device is in RESET with cause 0x20 and device time 0, PWR_CAP
reads 0x94, PWR_THERM_CFG 0x37369 and PWR_AVS 0x2EE, no domain is on, no connection, queue, command, frame, volume or key page
exists, no plan is accepted, and its memories are in canonical form. -/
def Obligations.ResetState : Prop :=
  State.reset.pending = [] ∧ State.reset.dev.glb.st = .reset ∧ State.reset.dev.glb.cause = 0x20 ∧ State.reset.dev.time = 0
    ∧ ((busRead State.reset.dev fwCore 0x10000).1 = some 0x94 ∧ (busRead State.reset.dev fwCore 0x10030).1 = some 0x37369
        ∧ (busRead State.reset.dev fwCore 0x10040).1 = some 0x2EE)
    ∧ (∀ n, domOn State.reset.dev n = false) ∧ State.reset.dev.trs.conns = [] ∧ State.reset.dev.cmd.sqs = [] ∧ State.reset.dev.cmd.cqs = []
    ∧ State.reset.dev.cmd.slots = [] ∧ State.reset.dev.swc.queues = [] ∧ State.reset.dev.sto.vols = [] ∧ State.reset.dev.itg.pages = []
    ∧ State.reset.dev.glb.planAccepted = false ∧ State.reset.dev.memOk = true

/-- O56 (R13, R108, R123, R137, R177, R336). Every command that may change at most four parts of the device, by the list of
parts for each command, answers a next state with the queue as it stood in which every part not in its list is as before: among
the parts are the global state, power, sensors, registers, the access control, the plan, Ethernet, the switch, Trestle, every
byte of the addressed memories, the commands, storage, the pair, the viaduct, integrity, administration and self-test. -/
def Obligations.FrameOfShortCommands : Prop :=
  ∀ (c : Instr) (s : State), (changes c).length ≤ 4 →
    Gives c s fun d => ∀ p, p ∉ changes c → p.same s.dev d

/-- O57 (R108, R109, R336, R431). Every command that may change more than four parts of the device answers a next state with the
queue as it stood in which every part not in its list is as before; for a command that may end in a reset of the device only the
sensors are left out of that list, and for a cold reset nothing. -/
def Obligations.FrameOfWideCommands : Prop :=
  ∀ (c : Instr) (s : State), 4 < (changes c).length →
    Gives c s fun d => ∀ p, p ∉ changes c → p.same s.dev d

/-- O58 (R34, R255, R261, R524). If the submission rings, the pantry and the dump partition are in canonical form and a step
answers a next state, they are in canonical form there. -/
def Obligations.MemoryKept : Prop :=
  ∀ s t : State, s.dev.memOk = true → step s = .next t → t.dev.memOk = true

/-- O59 (R108, R114, R116, R502). Whatever floor an OTP anti-rollback counter of firmware and one of the floor plan have
reached, no step takes them below it: not a reset, not a cold reset, no image and no plan. -/
def Obligations.OtpNeverFalls : Prop :=
  ∀ (a b : Nat) (s t : State), a ≤ s.dev.glb.otpFw ∧ b ≤ s.dev.glb.otpPlan → step s = .next t → a ≤ t.dev.glb.otpFw ∧ b ≤ t.dev.glb.otpPlan

/-- O60 (R108, R113). A step of a device in HALT leaves it in HALT unless its command is PORST_N low or the loss of VDD_AON; a
step of one that is OFF leaves it OFF unless its command is VDD_AON rising into tolerance. -/
def Obligations.HaltAndOffEndByColdReset : Prop :=
  ∀ s t : State, step s = .next t →
    (s.dev.glb.st = .halt → s.pending.head? ≠ some .porstAssert → s.pending.head? ≠ some .aonPowerLoss → t.dev.glb.st = .halt)
    ∧ (s.dev.glb.st = .off → s.pending.head? ≠ some .aonPowerOn → t.dev.glb.st = .off)
end

