-- ==== Sys2Proof/Laws/State.lean ====
section
/-! SUPPORT. What the shared updates of the device leave as it was, field by field: projections of a record update, each true by
unfolding one definition, and what a fresh state of a structure holds. -/

namespace Sys2Proof.Machine

@[simp] theorem emit_time (d : Dev) (e : Emit) : (emit d e).time = d.time := rfl
@[simp] theorem emit_free (d : Dev) (e : Emit) : (emit d e).free = d.free := rfl
@[simp] theorem emit_glb (d : Dev) (e : Emit) : (emit d e).glb = d.glb := rfl
@[simp] theorem emit_pwr (d : Dev) (e : Emit) : (emit d e).pwr = d.pwr := rfl
@[simp] theorem emit_sense (d : Dev) (e : Emit) : (emit d e).sense = d.sense := rfl
@[simp] theorem emit_reg (d : Dev) (e : Emit) : (emit d e).reg = d.reg := rfl
@[simp] theorem emit_pln (d : Dev) (e : Emit) : (emit d e).pln = d.pln := rfl
@[simp] theorem emit_acc (d : Dev) (e : Emit) : (emit d e).acc = d.acc := rfl
@[simp] theorem emit_log (d : Dev) (e : Emit) : (emit d e).log = d.log := rfl
@[simp] theorem emit_eth (d : Dev) (e : Emit) : (emit d e).eth = d.eth := rfl
@[simp] theorem emit_swc (d : Dev) (e : Emit) : (emit d e).swc = d.swc := rfl
@[simp] theorem emit_trs (d : Dev) (e : Emit) : (emit d e).trs = d.trs := rfl
@[simp] theorem emit_cmd (d : Dev) (e : Emit) : (emit d e).cmd = d.cmd := rfl
@[simp] theorem emit_sto (d : Dev) (e : Emit) : (emit d e).sto = d.sto := rfl
@[simp] theorem emit_par (d : Dev) (e : Emit) : (emit d e).par = d.par := rfl
@[simp] theorem emit_via (d : Dev) (e : Emit) : (emit d e).via = d.via := rfl
@[simp] theorem emit_itg (d : Dev) (e : Emit) : (emit d e).itg = d.itg := rfl
@[simp] theorem emit_adm (d : Dev) (e : Emit) : (emit d e).adm = d.adm := rfl
@[simp] theorem emit_bst (d : Dev) (e : Emit) : (emit d e).bst = d.bst := rfl
@[simp] theorem emit_ctr (d : Dev) (e : Emit) : (emit d e).ctr = d.ctr := rfl

@[simp] theorem emits_time (d : Dev) (l : List Emit) : (emits d l).time = d.time := rfl
@[simp] theorem emits_free (d : Dev) (l : List Emit) : (emits d l).free = d.free := rfl
@[simp] theorem emits_glb (d : Dev) (l : List Emit) : (emits d l).glb = d.glb := rfl
@[simp] theorem emits_pwr (d : Dev) (l : List Emit) : (emits d l).pwr = d.pwr := rfl
@[simp] theorem emits_sense (d : Dev) (l : List Emit) : (emits d l).sense = d.sense := rfl
@[simp] theorem emits_reg (d : Dev) (l : List Emit) : (emits d l).reg = d.reg := rfl
@[simp] theorem emits_pln (d : Dev) (l : List Emit) : (emits d l).pln = d.pln := rfl
@[simp] theorem emits_acc (d : Dev) (l : List Emit) : (emits d l).acc = d.acc := rfl
@[simp] theorem emits_log (d : Dev) (l : List Emit) : (emits d l).log = d.log := rfl
@[simp] theorem emits_eth (d : Dev) (l : List Emit) : (emits d l).eth = d.eth := rfl
@[simp] theorem emits_swc (d : Dev) (l : List Emit) : (emits d l).swc = d.swc := rfl
@[simp] theorem emits_trs (d : Dev) (l : List Emit) : (emits d l).trs = d.trs := rfl
@[simp] theorem emits_cmd (d : Dev) (l : List Emit) : (emits d l).cmd = d.cmd := rfl
@[simp] theorem emits_sto (d : Dev) (l : List Emit) : (emits d l).sto = d.sto := rfl
@[simp] theorem emits_par (d : Dev) (l : List Emit) : (emits d l).par = d.par := rfl
@[simp] theorem emits_via (d : Dev) (l : List Emit) : (emits d l).via = d.via := rfl
@[simp] theorem emits_itg (d : Dev) (l : List Emit) : (emits d l).itg = d.itg := rfl
@[simp] theorem emits_adm (d : Dev) (l : List Emit) : (emits d l).adm = d.adm := rfl
@[simp] theorem emits_bst (d : Dev) (l : List Emit) : (emits d l).bst = d.bst := rfl
@[simp] theorem emits_ctr (d : Dev) (l : List Emit) : (emits d l).ctr = d.ctr := rfl

@[simp] theorem countN_time (d : Dev) (off n : Nat) : (countN d off n).time = d.time := by unfold countN; split <;> rfl
@[simp] theorem countN_free (d : Dev) (off n : Nat) : (countN d off n).free = d.free := by unfold countN; split <;> rfl
@[simp] theorem countN_glb (d : Dev) (off n : Nat) : (countN d off n).glb = d.glb := by unfold countN; split <;> rfl
@[simp] theorem countN_pwr (d : Dev) (off n : Nat) : (countN d off n).pwr = d.pwr := by unfold countN; split <;> rfl
@[simp] theorem countN_sense (d : Dev) (off n : Nat) : (countN d off n).sense = d.sense := by unfold countN; split <;> rfl
@[simp] theorem countN_pln (d : Dev) (off n : Nat) : (countN d off n).pln = d.pln := by unfold countN; split <;> rfl
@[simp] theorem countN_acc (d : Dev) (off n : Nat) : (countN d off n).acc = d.acc := by unfold countN; split <;> rfl
@[simp] theorem countN_log (d : Dev) (off n : Nat) : (countN d off n).log = d.log := by unfold countN; split <;> rfl
@[simp] theorem countN_eth (d : Dev) (off n : Nat) : (countN d off n).eth = d.eth := by unfold countN; split <;> rfl
@[simp] theorem countN_swc (d : Dev) (off n : Nat) : (countN d off n).swc = d.swc := by unfold countN; split <;> rfl
@[simp] theorem countN_trs (d : Dev) (off n : Nat) : (countN d off n).trs = d.trs := by unfold countN; split <;> rfl
@[simp] theorem countN_cmd (d : Dev) (off n : Nat) : (countN d off n).cmd = d.cmd := by unfold countN; split <;> rfl
@[simp] theorem countN_sto (d : Dev) (off n : Nat) : (countN d off n).sto = d.sto := by unfold countN; split <;> rfl
@[simp] theorem countN_par (d : Dev) (off n : Nat) : (countN d off n).par = d.par := by unfold countN; split <;> rfl
@[simp] theorem countN_via (d : Dev) (off n : Nat) : (countN d off n).via = d.via := by unfold countN; split <;> rfl
@[simp] theorem countN_itg (d : Dev) (off n : Nat) : (countN d off n).itg = d.itg := by unfold countN; split <;> rfl
@[simp] theorem countN_adm (d : Dev) (off n : Nat) : (countN d off n).adm = d.adm := by unfold countN; split <;> rfl
@[simp] theorem countN_bst (d : Dev) (off n : Nat) : (countN d off n).bst = d.bst := by unfold countN; split <;> rfl
@[simp] theorem countN_ctr (d : Dev) (off n : Nat) : (countN d off n).ctr = d.ctr := by unfold countN; split <;> rfl
@[simp] theorem countN_out (d : Dev) (off n : Nat) : (countN d off n).out = d.out := by unfold countN; split <;> rfl

@[simp] theorem count_time (d : Dev) (off : Nat) : (count d off).time = d.time := countN_time d off 1
@[simp] theorem count_free (d : Dev) (off : Nat) : (count d off).free = d.free := countN_free d off 1
@[simp] theorem count_glb (d : Dev) (off : Nat) : (count d off).glb = d.glb := countN_glb d off 1
@[simp] theorem count_pwr (d : Dev) (off : Nat) : (count d off).pwr = d.pwr := countN_pwr d off 1
@[simp] theorem count_sense (d : Dev) (off : Nat) : (count d off).sense = d.sense := countN_sense d off 1
@[simp] theorem count_pln (d : Dev) (off : Nat) : (count d off).pln = d.pln := countN_pln d off 1
@[simp] theorem count_acc (d : Dev) (off : Nat) : (count d off).acc = d.acc := countN_acc d off 1
@[simp] theorem count_log (d : Dev) (off : Nat) : (count d off).log = d.log := countN_log d off 1
@[simp] theorem count_eth (d : Dev) (off : Nat) : (count d off).eth = d.eth := countN_eth d off 1
@[simp] theorem count_swc (d : Dev) (off : Nat) : (count d off).swc = d.swc := countN_swc d off 1
@[simp] theorem count_trs (d : Dev) (off : Nat) : (count d off).trs = d.trs := countN_trs d off 1
@[simp] theorem count_cmd (d : Dev) (off : Nat) : (count d off).cmd = d.cmd := countN_cmd d off 1
@[simp] theorem count_sto (d : Dev) (off : Nat) : (count d off).sto = d.sto := countN_sto d off 1
@[simp] theorem count_par (d : Dev) (off : Nat) : (count d off).par = d.par := countN_par d off 1
@[simp] theorem count_via (d : Dev) (off : Nat) : (count d off).via = d.via := countN_via d off 1
@[simp] theorem count_itg (d : Dev) (off : Nat) : (count d off).itg = d.itg := countN_itg d off 1
@[simp] theorem count_adm (d : Dev) (off : Nat) : (count d off).adm = d.adm := countN_adm d off 1
@[simp] theorem count_bst (d : Dev) (off : Nat) : (count d off).bst = d.bst := countN_bst d off 1
@[simp] theorem count_ctr (d : Dev) (off : Nat) : (count d off).ctr = d.ctr := countN_ctr d off 1
@[simp] theorem count_out (d : Dev) (off : Nat) : (count d off).out = d.out := countN_out d off 1

@[simp] theorem zeroCnts_time (d : Dev) (off n : Nat) : (zeroCnts d off n).time = d.time := rfl
@[simp] theorem zeroCnts_free (d : Dev) (off n : Nat) : (zeroCnts d off n).free = d.free := rfl
@[simp] theorem zeroCnts_glb (d : Dev) (off n : Nat) : (zeroCnts d off n).glb = d.glb := rfl
@[simp] theorem zeroCnts_pwr (d : Dev) (off n : Nat) : (zeroCnts d off n).pwr = d.pwr := rfl
@[simp] theorem zeroCnts_sense (d : Dev) (off n : Nat) : (zeroCnts d off n).sense = d.sense := rfl
@[simp] theorem zeroCnts_pln (d : Dev) (off n : Nat) : (zeroCnts d off n).pln = d.pln := rfl
@[simp] theorem zeroCnts_acc (d : Dev) (off n : Nat) : (zeroCnts d off n).acc = d.acc := rfl
@[simp] theorem zeroCnts_log (d : Dev) (off n : Nat) : (zeroCnts d off n).log = d.log := rfl
@[simp] theorem zeroCnts_eth (d : Dev) (off n : Nat) : (zeroCnts d off n).eth = d.eth := rfl
@[simp] theorem zeroCnts_swc (d : Dev) (off n : Nat) : (zeroCnts d off n).swc = d.swc := rfl
@[simp] theorem zeroCnts_trs (d : Dev) (off n : Nat) : (zeroCnts d off n).trs = d.trs := rfl
@[simp] theorem zeroCnts_cmd (d : Dev) (off n : Nat) : (zeroCnts d off n).cmd = d.cmd := rfl
@[simp] theorem zeroCnts_sto (d : Dev) (off n : Nat) : (zeroCnts d off n).sto = d.sto := rfl
@[simp] theorem zeroCnts_par (d : Dev) (off n : Nat) : (zeroCnts d off n).par = d.par := rfl
@[simp] theorem zeroCnts_via (d : Dev) (off n : Nat) : (zeroCnts d off n).via = d.via := rfl
@[simp] theorem zeroCnts_itg (d : Dev) (off n : Nat) : (zeroCnts d off n).itg = d.itg := rfl
@[simp] theorem zeroCnts_adm (d : Dev) (off n : Nat) : (zeroCnts d off n).adm = d.adm := rfl
@[simp] theorem zeroCnts_bst (d : Dev) (off n : Nat) : (zeroCnts d off n).bst = d.bst := rfl
@[simp] theorem zeroCnts_ctr (d : Dev) (off n : Nat) : (zeroCnts d off n).ctr = d.ctr := rfl
@[simp] theorem zeroCnts_out (d : Dev) (off n : Nat) : (zeroCnts d off n).out = d.out := rfl

@[simp] theorem setSticky_time (d : Dev) (off bit : Nat) : (setSticky d off bit).time = d.time := rfl
@[simp] theorem setSticky_free (d : Dev) (off bit : Nat) : (setSticky d off bit).free = d.free := rfl
@[simp] theorem setSticky_glb (d : Dev) (off bit : Nat) : (setSticky d off bit).glb = d.glb := rfl
@[simp] theorem setSticky_pwr (d : Dev) (off bit : Nat) : (setSticky d off bit).pwr = d.pwr := rfl
@[simp] theorem setSticky_sense (d : Dev) (off bit : Nat) : (setSticky d off bit).sense = d.sense := rfl
@[simp] theorem setSticky_pln (d : Dev) (off bit : Nat) : (setSticky d off bit).pln = d.pln := rfl
@[simp] theorem setSticky_acc (d : Dev) (off bit : Nat) : (setSticky d off bit).acc = d.acc := rfl
@[simp] theorem setSticky_log (d : Dev) (off bit : Nat) : (setSticky d off bit).log = d.log := rfl
@[simp] theorem setSticky_eth (d : Dev) (off bit : Nat) : (setSticky d off bit).eth = d.eth := rfl
@[simp] theorem setSticky_swc (d : Dev) (off bit : Nat) : (setSticky d off bit).swc = d.swc := rfl
@[simp] theorem setSticky_trs (d : Dev) (off bit : Nat) : (setSticky d off bit).trs = d.trs := rfl
@[simp] theorem setSticky_cmd (d : Dev) (off bit : Nat) : (setSticky d off bit).cmd = d.cmd := rfl
@[simp] theorem setSticky_sto (d : Dev) (off bit : Nat) : (setSticky d off bit).sto = d.sto := rfl
@[simp] theorem setSticky_par (d : Dev) (off bit : Nat) : (setSticky d off bit).par = d.par := rfl
@[simp] theorem setSticky_via (d : Dev) (off bit : Nat) : (setSticky d off bit).via = d.via := rfl
@[simp] theorem setSticky_itg (d : Dev) (off bit : Nat) : (setSticky d off bit).itg = d.itg := rfl
@[simp] theorem setSticky_adm (d : Dev) (off bit : Nat) : (setSticky d off bit).adm = d.adm := rfl
@[simp] theorem setSticky_bst (d : Dev) (off bit : Nat) : (setSticky d off bit).bst = d.bst := rfl
@[simp] theorem setSticky_ctr (d : Dev) (off bit : Nat) : (setSticky d off bit).ctr = d.ctr := rfl
@[simp] theorem setSticky_out (d : Dev) (off bit : Nat) : (setSticky d off bit).out = d.out := rfl

@[simp] theorem draw_time (d : Dev) : ((draw d).2).time = d.time := rfl
@[simp] theorem draw_glb (d : Dev) : ((draw d).2).glb = d.glb := rfl
@[simp] theorem draw_pwr (d : Dev) : ((draw d).2).pwr = d.pwr := rfl
@[simp] theorem draw_sense (d : Dev) : ((draw d).2).sense = d.sense := rfl
@[simp] theorem draw_reg (d : Dev) : ((draw d).2).reg = d.reg := rfl
@[simp] theorem draw_pln (d : Dev) : ((draw d).2).pln = d.pln := rfl
@[simp] theorem draw_acc (d : Dev) : ((draw d).2).acc = d.acc := rfl
@[simp] theorem draw_log (d : Dev) : ((draw d).2).log = d.log := rfl
@[simp] theorem draw_eth (d : Dev) : ((draw d).2).eth = d.eth := rfl
@[simp] theorem draw_swc (d : Dev) : ((draw d).2).swc = d.swc := rfl
@[simp] theorem draw_trs (d : Dev) : ((draw d).2).trs = d.trs := rfl
@[simp] theorem draw_cmd (d : Dev) : ((draw d).2).cmd = d.cmd := rfl
@[simp] theorem draw_sto (d : Dev) : ((draw d).2).sto = d.sto := rfl
@[simp] theorem draw_par (d : Dev) : ((draw d).2).par = d.par := rfl
@[simp] theorem draw_via (d : Dev) : ((draw d).2).via = d.via := rfl
@[simp] theorem draw_itg (d : Dev) : ((draw d).2).itg = d.itg := rfl
@[simp] theorem draw_adm (d : Dev) : ((draw d).2).adm = d.adm := rfl
@[simp] theorem draw_bst (d : Dev) : ((draw d).2).bst = d.bst := rfl
@[simp] theorem draw_ctr (d : Dev) : ((draw d).2).ctr = d.ctr := rfl
@[simp] theorem draw_out (d : Dev) : ((draw d).2).out = d.out := rfl

@[simp] theorem enter_time (d : Dev) (st : DevSt) : (enter d st).time = d.time := rfl
@[simp] theorem enter_free (d : Dev) (st : DevSt) : (enter d st).free = d.free := rfl
@[simp] theorem enter_pwr (d : Dev) (st : DevSt) : (enter d st).pwr = d.pwr := rfl
@[simp] theorem enter_sense (d : Dev) (st : DevSt) : (enter d st).sense = d.sense := rfl
@[simp] theorem enter_reg (d : Dev) (st : DevSt) : (enter d st).reg = d.reg := rfl
@[simp] theorem enter_pln (d : Dev) (st : DevSt) : (enter d st).pln = d.pln := rfl
@[simp] theorem enter_acc (d : Dev) (st : DevSt) : (enter d st).acc = d.acc := rfl
@[simp] theorem enter_log (d : Dev) (st : DevSt) : (enter d st).log = d.log := rfl
@[simp] theorem enter_eth (d : Dev) (st : DevSt) : (enter d st).eth = d.eth := rfl
@[simp] theorem enter_swc (d : Dev) (st : DevSt) : (enter d st).swc = d.swc := rfl
@[simp] theorem enter_trs (d : Dev) (st : DevSt) : (enter d st).trs = d.trs := rfl
@[simp] theorem enter_cmd (d : Dev) (st : DevSt) : (enter d st).cmd = d.cmd := rfl
@[simp] theorem enter_sto (d : Dev) (st : DevSt) : (enter d st).sto = d.sto := rfl
@[simp] theorem enter_par (d : Dev) (st : DevSt) : (enter d st).par = d.par := rfl
@[simp] theorem enter_via (d : Dev) (st : DevSt) : (enter d st).via = d.via := rfl
@[simp] theorem enter_itg (d : Dev) (st : DevSt) : (enter d st).itg = d.itg := rfl
@[simp] theorem enter_adm (d : Dev) (st : DevSt) : (enter d st).adm = d.adm := rfl
@[simp] theorem enter_bst (d : Dev) (st : DevSt) : (enter d st).bst = d.bst := rfl
@[simp] theorem enter_ctr (d : Dev) (st : DevSt) : (enter d st).ctr = d.ctr := rfl
@[simp] theorem enter_out (d : Dev) (st : DevSt) : (enter d st).out = d.out := rfl

@[simp] theorem setDom_time (d : Dev) (n : Nat) (p : DomPhase) : (setDom d n p).time = d.time := rfl
@[simp] theorem setDom_free (d : Dev) (n : Nat) (p : DomPhase) : (setDom d n p).free = d.free := rfl
@[simp] theorem setDom_glb (d : Dev) (n : Nat) (p : DomPhase) : (setDom d n p).glb = d.glb := rfl
@[simp] theorem setDom_sense (d : Dev) (n : Nat) (p : DomPhase) : (setDom d n p).sense = d.sense := rfl
@[simp] theorem setDom_reg (d : Dev) (n : Nat) (p : DomPhase) : (setDom d n p).reg = d.reg := rfl
@[simp] theorem setDom_pln (d : Dev) (n : Nat) (p : DomPhase) : (setDom d n p).pln = d.pln := rfl
@[simp] theorem setDom_acc (d : Dev) (n : Nat) (p : DomPhase) : (setDom d n p).acc = d.acc := rfl
@[simp] theorem setDom_log (d : Dev) (n : Nat) (p : DomPhase) : (setDom d n p).log = d.log := rfl
@[simp] theorem setDom_eth (d : Dev) (n : Nat) (p : DomPhase) : (setDom d n p).eth = d.eth := rfl
@[simp] theorem setDom_swc (d : Dev) (n : Nat) (p : DomPhase) : (setDom d n p).swc = d.swc := rfl
@[simp] theorem setDom_trs (d : Dev) (n : Nat) (p : DomPhase) : (setDom d n p).trs = d.trs := rfl
@[simp] theorem setDom_cmd (d : Dev) (n : Nat) (p : DomPhase) : (setDom d n p).cmd = d.cmd := rfl
@[simp] theorem setDom_sto (d : Dev) (n : Nat) (p : DomPhase) : (setDom d n p).sto = d.sto := rfl
@[simp] theorem setDom_par (d : Dev) (n : Nat) (p : DomPhase) : (setDom d n p).par = d.par := rfl
@[simp] theorem setDom_via (d : Dev) (n : Nat) (p : DomPhase) : (setDom d n p).via = d.via := rfl
@[simp] theorem setDom_itg (d : Dev) (n : Nat) (p : DomPhase) : (setDom d n p).itg = d.itg := rfl
@[simp] theorem setDom_adm (d : Dev) (n : Nat) (p : DomPhase) : (setDom d n p).adm = d.adm := rfl
@[simp] theorem setDom_bst (d : Dev) (n : Nat) (p : DomPhase) : (setDom d n p).bst = d.bst := rfl
@[simp] theorem setDom_ctr (d : Dev) (n : Nat) (p : DomPhase) : (setDom d n p).ctr = d.ctr := rfl
@[simp] theorem setDom_out (d : Dev) (n : Nat) (p : DomPhase) : (setDom d n p).out = d.out := rfl

@[simp] theorem modSlot_time (d : Dev) (c : Nat) (f : Slot → Slot) : (modSlot d c f).time = d.time := rfl
@[simp] theorem modSlot_free (d : Dev) (c : Nat) (f : Slot → Slot) : (modSlot d c f).free = d.free := rfl
@[simp] theorem modSlot_glb (d : Dev) (c : Nat) (f : Slot → Slot) : (modSlot d c f).glb = d.glb := rfl
@[simp] theorem modSlot_pwr (d : Dev) (c : Nat) (f : Slot → Slot) : (modSlot d c f).pwr = d.pwr := rfl
@[simp] theorem modSlot_sense (d : Dev) (c : Nat) (f : Slot → Slot) : (modSlot d c f).sense = d.sense := rfl
@[simp] theorem modSlot_reg (d : Dev) (c : Nat) (f : Slot → Slot) : (modSlot d c f).reg = d.reg := rfl
@[simp] theorem modSlot_pln (d : Dev) (c : Nat) (f : Slot → Slot) : (modSlot d c f).pln = d.pln := rfl
@[simp] theorem modSlot_acc (d : Dev) (c : Nat) (f : Slot → Slot) : (modSlot d c f).acc = d.acc := rfl
@[simp] theorem modSlot_log (d : Dev) (c : Nat) (f : Slot → Slot) : (modSlot d c f).log = d.log := rfl
@[simp] theorem modSlot_eth (d : Dev) (c : Nat) (f : Slot → Slot) : (modSlot d c f).eth = d.eth := rfl
@[simp] theorem modSlot_swc (d : Dev) (c : Nat) (f : Slot → Slot) : (modSlot d c f).swc = d.swc := rfl
@[simp] theorem modSlot_trs (d : Dev) (c : Nat) (f : Slot → Slot) : (modSlot d c f).trs = d.trs := rfl
@[simp] theorem modSlot_sto (d : Dev) (c : Nat) (f : Slot → Slot) : (modSlot d c f).sto = d.sto := rfl
@[simp] theorem modSlot_par (d : Dev) (c : Nat) (f : Slot → Slot) : (modSlot d c f).par = d.par := rfl
@[simp] theorem modSlot_via (d : Dev) (c : Nat) (f : Slot → Slot) : (modSlot d c f).via = d.via := rfl
@[simp] theorem modSlot_itg (d : Dev) (c : Nat) (f : Slot → Slot) : (modSlot d c f).itg = d.itg := rfl
@[simp] theorem modSlot_adm (d : Dev) (c : Nat) (f : Slot → Slot) : (modSlot d c f).adm = d.adm := rfl
@[simp] theorem modSlot_bst (d : Dev) (c : Nat) (f : Slot → Slot) : (modSlot d c f).bst = d.bst := rfl
@[simp] theorem modSlot_ctr (d : Dev) (c : Nat) (f : Slot → Slot) : (modSlot d c f).ctr = d.ctr := rfl
@[simp] theorem modSlot_out (d : Dev) (c : Nat) (f : Slot → Slot) : (modSlot d c f).out = d.out := rfl

@[simp] theorem modConn_time (d : Dev) (c : Nat) (f : Conn → Conn) : (modConn d c f).time = d.time := rfl
@[simp] theorem modConn_free (d : Dev) (c : Nat) (f : Conn → Conn) : (modConn d c f).free = d.free := rfl
@[simp] theorem modConn_glb (d : Dev) (c : Nat) (f : Conn → Conn) : (modConn d c f).glb = d.glb := rfl
@[simp] theorem modConn_pwr (d : Dev) (c : Nat) (f : Conn → Conn) : (modConn d c f).pwr = d.pwr := rfl
@[simp] theorem modConn_sense (d : Dev) (c : Nat) (f : Conn → Conn) : (modConn d c f).sense = d.sense := rfl
@[simp] theorem modConn_reg (d : Dev) (c : Nat) (f : Conn → Conn) : (modConn d c f).reg = d.reg := rfl
@[simp] theorem modConn_pln (d : Dev) (c : Nat) (f : Conn → Conn) : (modConn d c f).pln = d.pln := rfl
@[simp] theorem modConn_acc (d : Dev) (c : Nat) (f : Conn → Conn) : (modConn d c f).acc = d.acc := rfl
@[simp] theorem modConn_log (d : Dev) (c : Nat) (f : Conn → Conn) : (modConn d c f).log = d.log := rfl
@[simp] theorem modConn_eth (d : Dev) (c : Nat) (f : Conn → Conn) : (modConn d c f).eth = d.eth := rfl
@[simp] theorem modConn_swc (d : Dev) (c : Nat) (f : Conn → Conn) : (modConn d c f).swc = d.swc := rfl
@[simp] theorem modConn_cmd (d : Dev) (c : Nat) (f : Conn → Conn) : (modConn d c f).cmd = d.cmd := rfl
@[simp] theorem modConn_sto (d : Dev) (c : Nat) (f : Conn → Conn) : (modConn d c f).sto = d.sto := rfl
@[simp] theorem modConn_par (d : Dev) (c : Nat) (f : Conn → Conn) : (modConn d c f).par = d.par := rfl
@[simp] theorem modConn_via (d : Dev) (c : Nat) (f : Conn → Conn) : (modConn d c f).via = d.via := rfl
@[simp] theorem modConn_itg (d : Dev) (c : Nat) (f : Conn → Conn) : (modConn d c f).itg = d.itg := rfl
@[simp] theorem modConn_adm (d : Dev) (c : Nat) (f : Conn → Conn) : (modConn d c f).adm = d.adm := rfl
@[simp] theorem modConn_bst (d : Dev) (c : Nat) (f : Conn → Conn) : (modConn d c f).bst = d.bst := rfl
@[simp] theorem modConn_ctr (d : Dev) (c : Nat) (f : Conn → Conn) : (modConn d c f).ctr = d.ctr := rfl
@[simp] theorem modConn_out (d : Dev) (c : Nat) (f : Conn → Conn) : (modConn d c f).out = d.out := rfl

@[simp] theorem setConn_time (d : Dev) (c : Nat) (x : Conn) : (setConn d c x).time = d.time := rfl
@[simp] theorem setConn_free (d : Dev) (c : Nat) (x : Conn) : (setConn d c x).free = d.free := rfl
@[simp] theorem setConn_glb (d : Dev) (c : Nat) (x : Conn) : (setConn d c x).glb = d.glb := rfl
@[simp] theorem setConn_pwr (d : Dev) (c : Nat) (x : Conn) : (setConn d c x).pwr = d.pwr := rfl
@[simp] theorem setConn_sense (d : Dev) (c : Nat) (x : Conn) : (setConn d c x).sense = d.sense := rfl
@[simp] theorem setConn_reg (d : Dev) (c : Nat) (x : Conn) : (setConn d c x).reg = d.reg := rfl
@[simp] theorem setConn_pln (d : Dev) (c : Nat) (x : Conn) : (setConn d c x).pln = d.pln := rfl
@[simp] theorem setConn_acc (d : Dev) (c : Nat) (x : Conn) : (setConn d c x).acc = d.acc := rfl
@[simp] theorem setConn_log (d : Dev) (c : Nat) (x : Conn) : (setConn d c x).log = d.log := rfl
@[simp] theorem setConn_eth (d : Dev) (c : Nat) (x : Conn) : (setConn d c x).eth = d.eth := rfl
@[simp] theorem setConn_swc (d : Dev) (c : Nat) (x : Conn) : (setConn d c x).swc = d.swc := rfl
@[simp] theorem setConn_cmd (d : Dev) (c : Nat) (x : Conn) : (setConn d c x).cmd = d.cmd := rfl
@[simp] theorem setConn_sto (d : Dev) (c : Nat) (x : Conn) : (setConn d c x).sto = d.sto := rfl
@[simp] theorem setConn_par (d : Dev) (c : Nat) (x : Conn) : (setConn d c x).par = d.par := rfl
@[simp] theorem setConn_via (d : Dev) (c : Nat) (x : Conn) : (setConn d c x).via = d.via := rfl
@[simp] theorem setConn_itg (d : Dev) (c : Nat) (x : Conn) : (setConn d c x).itg = d.itg := rfl
@[simp] theorem setConn_adm (d : Dev) (c : Nat) (x : Conn) : (setConn d c x).adm = d.adm := rfl
@[simp] theorem setConn_bst (d : Dev) (c : Nat) (x : Conn) : (setConn d c x).bst = d.bst := rfl
@[simp] theorem setConn_ctr (d : Dev) (c : Nat) (x : Conn) : (setConn d c x).ctr = d.ctr := rfl
@[simp] theorem setConn_out (d : Dev) (c : Nat) (x : Conn) : (setConn d c x).out = d.out := rfl

@[simp] theorem modDrive_time (d : Dev) (k : Nat) (f : Drive → Drive) : (modDrive d k f).time = d.time := rfl
@[simp] theorem modDrive_free (d : Dev) (k : Nat) (f : Drive → Drive) : (modDrive d k f).free = d.free := rfl
@[simp] theorem modDrive_glb (d : Dev) (k : Nat) (f : Drive → Drive) : (modDrive d k f).glb = d.glb := rfl
@[simp] theorem modDrive_pwr (d : Dev) (k : Nat) (f : Drive → Drive) : (modDrive d k f).pwr = d.pwr := rfl
@[simp] theorem modDrive_sense (d : Dev) (k : Nat) (f : Drive → Drive) : (modDrive d k f).sense = d.sense := rfl
@[simp] theorem modDrive_reg (d : Dev) (k : Nat) (f : Drive → Drive) : (modDrive d k f).reg = d.reg := rfl
@[simp] theorem modDrive_pln (d : Dev) (k : Nat) (f : Drive → Drive) : (modDrive d k f).pln = d.pln := rfl
@[simp] theorem modDrive_acc (d : Dev) (k : Nat) (f : Drive → Drive) : (modDrive d k f).acc = d.acc := rfl
@[simp] theorem modDrive_log (d : Dev) (k : Nat) (f : Drive → Drive) : (modDrive d k f).log = d.log := rfl
@[simp] theorem modDrive_eth (d : Dev) (k : Nat) (f : Drive → Drive) : (modDrive d k f).eth = d.eth := rfl
@[simp] theorem modDrive_swc (d : Dev) (k : Nat) (f : Drive → Drive) : (modDrive d k f).swc = d.swc := rfl
@[simp] theorem modDrive_trs (d : Dev) (k : Nat) (f : Drive → Drive) : (modDrive d k f).trs = d.trs := rfl
@[simp] theorem modDrive_cmd (d : Dev) (k : Nat) (f : Drive → Drive) : (modDrive d k f).cmd = d.cmd := rfl
@[simp] theorem modDrive_par (d : Dev) (k : Nat) (f : Drive → Drive) : (modDrive d k f).par = d.par := rfl
@[simp] theorem modDrive_via (d : Dev) (k : Nat) (f : Drive → Drive) : (modDrive d k f).via = d.via := rfl
@[simp] theorem modDrive_itg (d : Dev) (k : Nat) (f : Drive → Drive) : (modDrive d k f).itg = d.itg := rfl
@[simp] theorem modDrive_adm (d : Dev) (k : Nat) (f : Drive → Drive) : (modDrive d k f).adm = d.adm := rfl
@[simp] theorem modDrive_bst (d : Dev) (k : Nat) (f : Drive → Drive) : (modDrive d k f).bst = d.bst := rfl
@[simp] theorem modDrive_ctr (d : Dev) (k : Nat) (f : Drive → Drive) : (modDrive d k f).ctr = d.ctr := rfl
@[simp] theorem modDrive_out (d : Dev) (k : Nat) (f : Drive → Drive) : (modDrive d k f).out = d.out := rfl

@[simp] theorem modGroup_time (d : Dev) (g : Nat) (f : Group → Group) : (modGroup d g f).time = d.time := rfl
@[simp] theorem modGroup_free (d : Dev) (g : Nat) (f : Group → Group) : (modGroup d g f).free = d.free := rfl
@[simp] theorem modGroup_glb (d : Dev) (g : Nat) (f : Group → Group) : (modGroup d g f).glb = d.glb := rfl
@[simp] theorem modGroup_pwr (d : Dev) (g : Nat) (f : Group → Group) : (modGroup d g f).pwr = d.pwr := rfl
@[simp] theorem modGroup_sense (d : Dev) (g : Nat) (f : Group → Group) : (modGroup d g f).sense = d.sense := rfl
@[simp] theorem modGroup_reg (d : Dev) (g : Nat) (f : Group → Group) : (modGroup d g f).reg = d.reg := rfl
@[simp] theorem modGroup_pln (d : Dev) (g : Nat) (f : Group → Group) : (modGroup d g f).pln = d.pln := rfl
@[simp] theorem modGroup_acc (d : Dev) (g : Nat) (f : Group → Group) : (modGroup d g f).acc = d.acc := rfl
@[simp] theorem modGroup_log (d : Dev) (g : Nat) (f : Group → Group) : (modGroup d g f).log = d.log := rfl
@[simp] theorem modGroup_eth (d : Dev) (g : Nat) (f : Group → Group) : (modGroup d g f).eth = d.eth := rfl
@[simp] theorem modGroup_swc (d : Dev) (g : Nat) (f : Group → Group) : (modGroup d g f).swc = d.swc := rfl
@[simp] theorem modGroup_trs (d : Dev) (g : Nat) (f : Group → Group) : (modGroup d g f).trs = d.trs := rfl
@[simp] theorem modGroup_cmd (d : Dev) (g : Nat) (f : Group → Group) : (modGroup d g f).cmd = d.cmd := rfl
@[simp] theorem modGroup_par (d : Dev) (g : Nat) (f : Group → Group) : (modGroup d g f).par = d.par := rfl
@[simp] theorem modGroup_via (d : Dev) (g : Nat) (f : Group → Group) : (modGroup d g f).via = d.via := rfl
@[simp] theorem modGroup_itg (d : Dev) (g : Nat) (f : Group → Group) : (modGroup d g f).itg = d.itg := rfl
@[simp] theorem modGroup_adm (d : Dev) (g : Nat) (f : Group → Group) : (modGroup d g f).adm = d.adm := rfl
@[simp] theorem modGroup_bst (d : Dev) (g : Nat) (f : Group → Group) : (modGroup d g f).bst = d.bst := rfl
@[simp] theorem modGroup_ctr (d : Dev) (g : Nat) (f : Group → Group) : (modGroup d g f).ctr = d.ctr := rfl
@[simp] theorem modGroup_out (d : Dev) (g : Nat) (f : Group → Group) : (modGroup d g f).out = d.out := rfl

@[simp] theorem modVol_time (d : Dev) (v : Nat) (f : Volume → Volume) : (modVol d v f).time = d.time := rfl
@[simp] theorem modVol_free (d : Dev) (v : Nat) (f : Volume → Volume) : (modVol d v f).free = d.free := rfl
@[simp] theorem modVol_glb (d : Dev) (v : Nat) (f : Volume → Volume) : (modVol d v f).glb = d.glb := rfl
@[simp] theorem modVol_pwr (d : Dev) (v : Nat) (f : Volume → Volume) : (modVol d v f).pwr = d.pwr := rfl
@[simp] theorem modVol_sense (d : Dev) (v : Nat) (f : Volume → Volume) : (modVol d v f).sense = d.sense := rfl
@[simp] theorem modVol_reg (d : Dev) (v : Nat) (f : Volume → Volume) : (modVol d v f).reg = d.reg := rfl
@[simp] theorem modVol_pln (d : Dev) (v : Nat) (f : Volume → Volume) : (modVol d v f).pln = d.pln := rfl
@[simp] theorem modVol_acc (d : Dev) (v : Nat) (f : Volume → Volume) : (modVol d v f).acc = d.acc := rfl
@[simp] theorem modVol_log (d : Dev) (v : Nat) (f : Volume → Volume) : (modVol d v f).log = d.log := rfl
@[simp] theorem modVol_eth (d : Dev) (v : Nat) (f : Volume → Volume) : (modVol d v f).eth = d.eth := rfl
@[simp] theorem modVol_swc (d : Dev) (v : Nat) (f : Volume → Volume) : (modVol d v f).swc = d.swc := rfl
@[simp] theorem modVol_trs (d : Dev) (v : Nat) (f : Volume → Volume) : (modVol d v f).trs = d.trs := rfl
@[simp] theorem modVol_cmd (d : Dev) (v : Nat) (f : Volume → Volume) : (modVol d v f).cmd = d.cmd := rfl
@[simp] theorem modVol_par (d : Dev) (v : Nat) (f : Volume → Volume) : (modVol d v f).par = d.par := rfl
@[simp] theorem modVol_via (d : Dev) (v : Nat) (f : Volume → Volume) : (modVol d v f).via = d.via := rfl
@[simp] theorem modVol_itg (d : Dev) (v : Nat) (f : Volume → Volume) : (modVol d v f).itg = d.itg := rfl
@[simp] theorem modVol_adm (d : Dev) (v : Nat) (f : Volume → Volume) : (modVol d v f).adm = d.adm := rfl
@[simp] theorem modVol_bst (d : Dev) (v : Nat) (f : Volume → Volume) : (modVol d v f).bst = d.bst := rfl
@[simp] theorem modVol_ctr (d : Dev) (v : Nat) (f : Volume → Volume) : (modVol d v f).ctr = d.ctr := rfl
@[simp] theorem modVol_out (d : Dev) (v : Nat) (f : Volume → Volume) : (modVol d v f).out = d.out := rfl

@[simp] theorem modPort_time (d : Dev) (p : Nat) (f : Port → Port) : (modPort d p f).time = d.time := rfl
@[simp] theorem modPort_free (d : Dev) (p : Nat) (f : Port → Port) : (modPort d p f).free = d.free := rfl
@[simp] theorem modPort_glb (d : Dev) (p : Nat) (f : Port → Port) : (modPort d p f).glb = d.glb := rfl
@[simp] theorem modPort_pwr (d : Dev) (p : Nat) (f : Port → Port) : (modPort d p f).pwr = d.pwr := rfl
@[simp] theorem modPort_sense (d : Dev) (p : Nat) (f : Port → Port) : (modPort d p f).sense = d.sense := rfl
@[simp] theorem modPort_reg (d : Dev) (p : Nat) (f : Port → Port) : (modPort d p f).reg = d.reg := rfl
@[simp] theorem modPort_pln (d : Dev) (p : Nat) (f : Port → Port) : (modPort d p f).pln = d.pln := rfl
@[simp] theorem modPort_acc (d : Dev) (p : Nat) (f : Port → Port) : (modPort d p f).acc = d.acc := rfl
@[simp] theorem modPort_log (d : Dev) (p : Nat) (f : Port → Port) : (modPort d p f).log = d.log := rfl
@[simp] theorem modPort_swc (d : Dev) (p : Nat) (f : Port → Port) : (modPort d p f).swc = d.swc := rfl
@[simp] theorem modPort_trs (d : Dev) (p : Nat) (f : Port → Port) : (modPort d p f).trs = d.trs := rfl
@[simp] theorem modPort_cmd (d : Dev) (p : Nat) (f : Port → Port) : (modPort d p f).cmd = d.cmd := rfl
@[simp] theorem modPort_sto (d : Dev) (p : Nat) (f : Port → Port) : (modPort d p f).sto = d.sto := rfl
@[simp] theorem modPort_par (d : Dev) (p : Nat) (f : Port → Port) : (modPort d p f).par = d.par := rfl
@[simp] theorem modPort_via (d : Dev) (p : Nat) (f : Port → Port) : (modPort d p f).via = d.via := rfl
@[simp] theorem modPort_itg (d : Dev) (p : Nat) (f : Port → Port) : (modPort d p f).itg = d.itg := rfl
@[simp] theorem modPort_adm (d : Dev) (p : Nat) (f : Port → Port) : (modPort d p f).adm = d.adm := rfl
@[simp] theorem modPort_bst (d : Dev) (p : Nat) (f : Port → Port) : (modPort d p f).bst = d.bst := rfl
@[simp] theorem modPort_ctr (d : Dev) (p : Nat) (f : Port → Port) : (modPort d p f).ctr = d.ctr := rfl
@[simp] theorem modPort_out (d : Dev) (p : Nat) (f : Port → Port) : (modPort d p f).out = d.out := rfl

@[simp] theorem putLive_time (d : Dev) (o n : Nat) : (putLive d o n).time = d.time := rfl
@[simp] theorem putLive_free (d : Dev) (o n : Nat) : (putLive d o n).free = d.free := rfl
@[simp] theorem putLive_glb (d : Dev) (o n : Nat) : (putLive d o n).glb = d.glb := rfl
@[simp] theorem putLive_pwr (d : Dev) (o n : Nat) : (putLive d o n).pwr = d.pwr := rfl
@[simp] theorem putLive_sense (d : Dev) (o n : Nat) : (putLive d o n).sense = d.sense := rfl
@[simp] theorem putLive_pln (d : Dev) (o n : Nat) : (putLive d o n).pln = d.pln := rfl
@[simp] theorem putLive_acc (d : Dev) (o n : Nat) : (putLive d o n).acc = d.acc := rfl
@[simp] theorem putLive_log (d : Dev) (o n : Nat) : (putLive d o n).log = d.log := rfl
@[simp] theorem putLive_eth (d : Dev) (o n : Nat) : (putLive d o n).eth = d.eth := rfl
@[simp] theorem putLive_swc (d : Dev) (o n : Nat) : (putLive d o n).swc = d.swc := rfl
@[simp] theorem putLive_trs (d : Dev) (o n : Nat) : (putLive d o n).trs = d.trs := rfl
@[simp] theorem putLive_cmd (d : Dev) (o n : Nat) : (putLive d o n).cmd = d.cmd := rfl
@[simp] theorem putLive_sto (d : Dev) (o n : Nat) : (putLive d o n).sto = d.sto := rfl
@[simp] theorem putLive_par (d : Dev) (o n : Nat) : (putLive d o n).par = d.par := rfl
@[simp] theorem putLive_via (d : Dev) (o n : Nat) : (putLive d o n).via = d.via := rfl
@[simp] theorem putLive_itg (d : Dev) (o n : Nat) : (putLive d o n).itg = d.itg := rfl
@[simp] theorem putLive_adm (d : Dev) (o n : Nat) : (putLive d o n).adm = d.adm := rfl
@[simp] theorem putLive_bst (d : Dev) (o n : Nat) : (putLive d o n).bst = d.bst := rfl
@[simp] theorem putLive_ctr (d : Dev) (o n : Nat) : (putLive d o n).ctr = d.ctr := rfl
@[simp] theorem putLive_out (d : Dev) (o n : Nat) : (putLive d o n).out = d.out := rfl

@[simp] theorem draw_fst (d : Dev) : (draw d).1 = d.free := rfl
@[simp] theorem draw_free (d : Dev) : (draw d).2.free = d.free + 1 := rfl
@[simp] theorem emit_out (d : Dev) (e : Emit) : (emit d e).out = d.out ++ [e] := rfl
@[simp] theorem emits_out (d : Dev) (l : List Emit) : (emits d l).out = d.out ++ l := rfl
@[simp] theorem enter_st (d : Dev) (st : DevSt) : (enter d st).glb.st = st := rfl
@[simp] theorem enter_prev (d : Dev) (st : DevSt) : (enter d st).glb.prev = stCode d.glb.st := rfl
@[simp] theorem enter_entered (d : Dev) (st : DevSt) : (enter d st).glb.entered = d.time := rfl
@[simp] theorem setDom_dom (d : Dev) (n : Nat) (p : DomPhase) : (setDom d n p).pwr.dom = tset d.pwr.dom n p := rfl
theorem countN_only (d : Dev) (off n : Nat) : ∃ c, countN d off n = { d with reg.cnt := c } := by
  unfold countN; split
  · exact ⟨_, rfl⟩
  · exact ⟨d.reg.cnt, rfl⟩
@[simp] theorem setSticky_live (d : Dev) (off bit : Nat) : (setSticky d off bit).reg.live = d.reg.live := rfl
@[simp] theorem countN_live (d : Dev) (off n : Nat) : (countN d off n).reg.live = d.reg.live := by unfold countN; split <;> rfl
@[simp] theorem countN_staged (d : Dev) (off n : Nat) : (countN d off n).reg.staged = d.reg.staged := by unfold countN; split <;> rfl
@[simp] theorem countN_sticky (d : Dev) (off n : Nat) : (countN d off n).reg.sticky = d.reg.sticky := by unfold countN; split <;> rfl
@[simp] theorem reset_pending : State.reset.pending = [] := rfl
@[simp] theorem reset_st : State.reset.dev.glb.st = .reset := rfl

end Sys2Proof.Machine
end

