-- ==== Sys2Proof/Laws/Ops.lean ====
section
/-! SUPPORT. What each shared operation can do: one lemma per operation that names the only part of the device it changes, and from
it what follows from every command (`settle`) leaves as it was. -/

namespace Sys2Proof.Machine

/-- A fold of steps that each keep a property keeps it. -/
theorem foldl_keeps {α β : Type} (p : β → Prop) (f : β → α → β) (h : ∀ b a, p b → p (f b a)) :
    ∀ (l : List α) (b : β), p b → p (l.foldl f b)
  | [], _, hb => hb
  | a :: l, b, hb => foldl_keeps p f h l (f b a) (h b a hb)

theorem noteMissed_only (d : Dev) (e : LogEntry) (n : Nat) : ∃ m, noteMissed d e n = { d with log.missed := m } := by
  unfold noteMissed; split
  · exact ⟨_, rfl⟩
  · exact ⟨d.log.missed, rfl⟩

/-- The event log is all that an append changes. -/
theorem logAppend_only (d : Dev) (e : LogEntry) : ∃ l, logAppend d e = { d with log := l } := by
  have key : ∀ (o : LogEntry) (ns : List Nat), ∃ l, ns.foldl (fun d n => noteMissed d o n) d = { d with log := l } := fun o ns =>
    foldl_keeps (fun x => ∃ l, x = { d with log := l }) _ (by
      rintro b n ⟨l, rfl⟩
      obtain ⟨m, hm⟩ := noteMissed_only { d with log := l } o n
      exact ⟨_, hm⟩) ns d ⟨d.log, rfl⟩
  unfold logAppend
  split
  · split
    · obtain ⟨l, hl⟩ := key _ (List.range 4096)
      rw [hl]; exact ⟨_, rfl⟩
    · exact ⟨_, rfl⟩
  · exact ⟨_, rfl⟩

theorem logEvent_only (d : Dev) (event attn : Nat) (t : Topic) (b : List Byte) : ∃ l, logEvent d event attn t b = { d with log := l } := by
  unfold logEvent; split
  · exact logAppend_only _ _
  · exact ⟨d.log, rfl⟩

theorem logCmdEvent_only (d : Dev) (event attn : Nat) (t : Topic) (b : List Byte) (tag : Word) (pd : Option Nat) :
    ∃ l, logCmdEvent d event attn t b tag pd = { d with log := l } := by
  unfold logCmdEvent; split
  · exact logAppend_only _ _
  · exact ⟨d.log, rfl⟩

/-- A denial changes the denial registers, a counter and the event log. -/
theorem deny_only (d : Dev) (m : Master) (target wher right : Nat) :
    ∃ a c l, deny d m target wher right = { d with acc := a, reg.cnt := c, log := l } := by
  unfold deny count countN; dsimp only
  repeat' split
  all_goals first
    | exact ⟨_, _, d.log, rfl⟩
    | exact ⟨_, d.reg.cnt, d.log, rfl⟩
    | (obtain ⟨l, h⟩ := logEvent_only _ _ _ _ _; rw [h]; exact ⟨_, _, _, rfl⟩)

/-- A change of a volume's logged state changes the storage state's volumes and what was logged of them, and the event log. -/
theorem noteVol_only (d : Dev) (v : Nat) : ∃ l vs n, noteVol d v = { d with log := l, sto.vols := vs, sto.volSt := n } := by
  unfold noteVol; dsimp only
  split
  · split
    · exact ⟨d.log, d.sto.vols, d.sto.volSt, rfl⟩
    · obtain ⟨l, h⟩ := logEvent_only { d with sto.volSt := tset d.sto.volSt v (volState d v) } 0x0B03
        (if volState d v == 2 || volState d v == 3 then 0xC else 0) (.volume v) (le 2 v ++ le 1 (volState d v))
      rw [h]; split
      · unfold modVol; exact ⟨_, _, _, rfl⟩
      · exact ⟨_, d.sto.vols, _, rfl⟩
  · exact ⟨d.log, d.sto.vols, _, rfl⟩

theorem noteVols_only (d : Dev) : ∃ l vs n, noteVols d = { d with log := l, sto.vols := vs, sto.volSt := n } := by
  have key := foldl_keeps (fun x => ∃ l vs n, x = { d with log := l, sto.vols := vs, sto.volSt := n }) noteVol (by
    rintro b v ⟨l, vs, n, rfl⟩
    obtain ⟨l', vs', n', h⟩ := noteVol_only { d with log := l, sto.vols := vs, sto.volSt := n } v
    exact ⟨l', vs', n', h⟩) (tkeys d.sto.vols) d ⟨d.log, d.sto.vols, d.sto.volSt, rfl⟩
  obtain ⟨l, vs, n, h⟩ := key
  unfold noteVols; rw [h]; exact ⟨l, vs, _, rfl⟩

theorem attnCount_only (d : Dev) (n : Nat) : ∃ l, attnCount d n = { d with log := l } := by
  unfold attnCount; dsimp only; split
  · exact ⟨d.log, rfl⟩
  · exact ⟨_, rfl⟩

theorem attnRefresh_only (d : Dev) : ∃ l, attnRefresh d = { d with log := l } := by
  unfold attnRefresh; split
  · exact ⟨d.log, rfl⟩
  · exact foldl_keeps (fun x => ∃ l, x = { d with log := l }) attnCount (by
      rintro b n ⟨l, rfl⟩
      obtain ⟨l', h⟩ := attnCount_only { d with log := l } n
      exact ⟨l', h⟩) _ d ⟨d.log, rfl⟩

theorem publish_only (d : Dev) (ns : Nat) (b : Nat → Nat) : ∃ c x, publish d ns b = { d with reg.cnt := c, ctr := x } :=
  ⟨_, _, rfl⟩

theorem tdDraw_only (d : Dev) : ∃ f c, tdDraw d = { d with free := f, reg.cnt := c } := by
  unfold tdDraw; split
  · exact ⟨d.free, d.reg.cnt, rfl⟩
  · refine foldl_keeps (fun x => ∃ f c, x = { d with free := f, reg.cnt := c }) _ (fun b i hb => ?_) _ _ ?_
    · obtain ⟨f, c, rfl⟩ := hb
      obtain ⟨c', h⟩ := countN_only { d with free := f, reg.cnt := c } (0xC01000 + 8 * i) _
      exact ⟨f, c', h⟩
    · exact ⟨d.free + 25, d.reg.cnt, rfl⟩

theorem modeRefresh_only (d : Dev) : ∃ f c x, modeRefresh d = { d with free := f, reg.cnt := c, ctr := x } := by
  unfold modeRefresh; split
  · exact ⟨d.free, d.reg.cnt, d.ctr, rfl⟩
  · split
    · obtain ⟨f, c, h⟩ := tdDraw_only d
      rw [h]; exact ⟨_, _, _, rfl⟩
    · dsimp only; split
      · exact ⟨_, _, _, rfl⟩
      · exact ⟨_, d.reg.cnt, _, rfl⟩

/-- What follows from every command changes the event log, the volumes as logged, the counters of sets 7 and 8 and the counter of
free values, and nothing else. -/
theorem settle_only (d : Dev) : ∃ l vs n f c x,
    settle d = { d with log := l, sto.vols := vs, sto.volSt := n, free := f, reg.cnt := c, ctr := x } := by
  obtain ⟨l, vs, n, h⟩ := noteVols_only d
  obtain ⟨l', h'⟩ := attnRefresh_only (noteVols d)
  obtain ⟨f, c, x, h''⟩ := modeRefresh_only (attnRefresh (noteVols d))
  refine ⟨l', vs, n, f, c, x, ?_⟩
  unfold settle; rw [h'', h', h]

@[simp] theorem logEvent_time (d : Dev) (event attn : Nat) (t : Topic) (b : List Byte) : (logEvent d event attn t b).time = d.time := by
  obtain ⟨_, h⟩ := logEvent_only d event attn t b
  rw [h]
@[simp] theorem logEvent_glb (d : Dev) (event attn : Nat) (t : Topic) (b : List Byte) : (logEvent d event attn t b).glb = d.glb := by
  obtain ⟨_, h⟩ := logEvent_only d event attn t b
  rw [h]
@[simp] theorem logEvent_pwr (d : Dev) (event attn : Nat) (t : Topic) (b : List Byte) : (logEvent d event attn t b).pwr = d.pwr := by
  obtain ⟨_, h⟩ := logEvent_only d event attn t b
  rw [h]
@[simp] theorem logEvent_sense (d : Dev) (event attn : Nat) (t : Topic) (b : List Byte) : (logEvent d event attn t b).sense = d.sense := by
  obtain ⟨_, h⟩ := logEvent_only d event attn t b
  rw [h]
@[simp] theorem logEvent_pln (d : Dev) (event attn : Nat) (t : Topic) (b : List Byte) : (logEvent d event attn t b).pln = d.pln := by
  obtain ⟨_, h⟩ := logEvent_only d event attn t b
  rw [h]
@[simp] theorem logEvent_acc (d : Dev) (event attn : Nat) (t : Topic) (b : List Byte) : (logEvent d event attn t b).acc = d.acc := by
  obtain ⟨_, h⟩ := logEvent_only d event attn t b
  rw [h]
@[simp] theorem logEvent_eth (d : Dev) (event attn : Nat) (t : Topic) (b : List Byte) : (logEvent d event attn t b).eth = d.eth := by
  obtain ⟨_, h⟩ := logEvent_only d event attn t b
  rw [h]
@[simp] theorem logEvent_swc (d : Dev) (event attn : Nat) (t : Topic) (b : List Byte) : (logEvent d event attn t b).swc = d.swc := by
  obtain ⟨_, h⟩ := logEvent_only d event attn t b
  rw [h]
@[simp] theorem logEvent_trs (d : Dev) (event attn : Nat) (t : Topic) (b : List Byte) : (logEvent d event attn t b).trs = d.trs := by
  obtain ⟨_, h⟩ := logEvent_only d event attn t b
  rw [h]
@[simp] theorem logEvent_cmd (d : Dev) (event attn : Nat) (t : Topic) (b : List Byte) : (logEvent d event attn t b).cmd = d.cmd := by
  obtain ⟨_, h⟩ := logEvent_only d event attn t b
  rw [h]
@[simp] theorem logEvent_par (d : Dev) (event attn : Nat) (t : Topic) (b : List Byte) : (logEvent d event attn t b).par = d.par := by
  obtain ⟨_, h⟩ := logEvent_only d event attn t b
  rw [h]
@[simp] theorem logEvent_via (d : Dev) (event attn : Nat) (t : Topic) (b : List Byte) : (logEvent d event attn t b).via = d.via := by
  obtain ⟨_, h⟩ := logEvent_only d event attn t b
  rw [h]
@[simp] theorem logEvent_itg (d : Dev) (event attn : Nat) (t : Topic) (b : List Byte) : (logEvent d event attn t b).itg = d.itg := by
  obtain ⟨_, h⟩ := logEvent_only d event attn t b
  rw [h]
@[simp] theorem logEvent_adm (d : Dev) (event attn : Nat) (t : Topic) (b : List Byte) : (logEvent d event attn t b).adm = d.adm := by
  obtain ⟨_, h⟩ := logEvent_only d event attn t b
  rw [h]
@[simp] theorem logEvent_bst (d : Dev) (event attn : Nat) (t : Topic) (b : List Byte) : (logEvent d event attn t b).bst = d.bst := by
  obtain ⟨_, h⟩ := logEvent_only d event attn t b
  rw [h]
@[simp] theorem logEvent_out (d : Dev) (event attn : Nat) (t : Topic) (b : List Byte) : (logEvent d event attn t b).out = d.out := by
  obtain ⟨_, h⟩ := logEvent_only d event attn t b
  rw [h]
@[simp] theorem logEvent_free (d : Dev) (event attn : Nat) (t : Topic) (b : List Byte) : (logEvent d event attn t b).free = d.free := by
  obtain ⟨_, h⟩ := logEvent_only d event attn t b
  rw [h]
@[simp] theorem logEvent_reg (d : Dev) (event attn : Nat) (t : Topic) (b : List Byte) : (logEvent d event attn t b).reg = d.reg := by
  obtain ⟨_, h⟩ := logEvent_only d event attn t b
  rw [h]
@[simp] theorem logEvent_sto (d : Dev) (event attn : Nat) (t : Topic) (b : List Byte) : (logEvent d event attn t b).sto = d.sto := by
  obtain ⟨_, h⟩ := logEvent_only d event attn t b
  rw [h]
@[simp] theorem logEvent_ctr (d : Dev) (event attn : Nat) (t : Topic) (b : List Byte) : (logEvent d event attn t b).ctr = d.ctr := by
  obtain ⟨_, h⟩ := logEvent_only d event attn t b
  rw [h]

@[simp] theorem logCmdEvent_time (d : Dev) (event attn : Nat) (t : Topic) (b : List Byte) (tag : Word) (pd : Option Nat) : (logCmdEvent d event attn t b tag pd).time = d.time := by
  obtain ⟨_, h⟩ := logCmdEvent_only d event attn t b tag pd
  rw [h]
@[simp] theorem logCmdEvent_glb (d : Dev) (event attn : Nat) (t : Topic) (b : List Byte) (tag : Word) (pd : Option Nat) : (logCmdEvent d event attn t b tag pd).glb = d.glb := by
  obtain ⟨_, h⟩ := logCmdEvent_only d event attn t b tag pd
  rw [h]
@[simp] theorem logCmdEvent_pwr (d : Dev) (event attn : Nat) (t : Topic) (b : List Byte) (tag : Word) (pd : Option Nat) : (logCmdEvent d event attn t b tag pd).pwr = d.pwr := by
  obtain ⟨_, h⟩ := logCmdEvent_only d event attn t b tag pd
  rw [h]
@[simp] theorem logCmdEvent_sense (d : Dev) (event attn : Nat) (t : Topic) (b : List Byte) (tag : Word) (pd : Option Nat) : (logCmdEvent d event attn t b tag pd).sense = d.sense := by
  obtain ⟨_, h⟩ := logCmdEvent_only d event attn t b tag pd
  rw [h]
@[simp] theorem logCmdEvent_pln (d : Dev) (event attn : Nat) (t : Topic) (b : List Byte) (tag : Word) (pd : Option Nat) : (logCmdEvent d event attn t b tag pd).pln = d.pln := by
  obtain ⟨_, h⟩ := logCmdEvent_only d event attn t b tag pd
  rw [h]
@[simp] theorem logCmdEvent_acc (d : Dev) (event attn : Nat) (t : Topic) (b : List Byte) (tag : Word) (pd : Option Nat) : (logCmdEvent d event attn t b tag pd).acc = d.acc := by
  obtain ⟨_, h⟩ := logCmdEvent_only d event attn t b tag pd
  rw [h]
@[simp] theorem logCmdEvent_eth (d : Dev) (event attn : Nat) (t : Topic) (b : List Byte) (tag : Word) (pd : Option Nat) : (logCmdEvent d event attn t b tag pd).eth = d.eth := by
  obtain ⟨_, h⟩ := logCmdEvent_only d event attn t b tag pd
  rw [h]
@[simp] theorem logCmdEvent_swc (d : Dev) (event attn : Nat) (t : Topic) (b : List Byte) (tag : Word) (pd : Option Nat) : (logCmdEvent d event attn t b tag pd).swc = d.swc := by
  obtain ⟨_, h⟩ := logCmdEvent_only d event attn t b tag pd
  rw [h]
@[simp] theorem logCmdEvent_trs (d : Dev) (event attn : Nat) (t : Topic) (b : List Byte) (tag : Word) (pd : Option Nat) : (logCmdEvent d event attn t b tag pd).trs = d.trs := by
  obtain ⟨_, h⟩ := logCmdEvent_only d event attn t b tag pd
  rw [h]
@[simp] theorem logCmdEvent_cmd (d : Dev) (event attn : Nat) (t : Topic) (b : List Byte) (tag : Word) (pd : Option Nat) : (logCmdEvent d event attn t b tag pd).cmd = d.cmd := by
  obtain ⟨_, h⟩ := logCmdEvent_only d event attn t b tag pd
  rw [h]
@[simp] theorem logCmdEvent_par (d : Dev) (event attn : Nat) (t : Topic) (b : List Byte) (tag : Word) (pd : Option Nat) : (logCmdEvent d event attn t b tag pd).par = d.par := by
  obtain ⟨_, h⟩ := logCmdEvent_only d event attn t b tag pd
  rw [h]
@[simp] theorem logCmdEvent_via (d : Dev) (event attn : Nat) (t : Topic) (b : List Byte) (tag : Word) (pd : Option Nat) : (logCmdEvent d event attn t b tag pd).via = d.via := by
  obtain ⟨_, h⟩ := logCmdEvent_only d event attn t b tag pd
  rw [h]
@[simp] theorem logCmdEvent_itg (d : Dev) (event attn : Nat) (t : Topic) (b : List Byte) (tag : Word) (pd : Option Nat) : (logCmdEvent d event attn t b tag pd).itg = d.itg := by
  obtain ⟨_, h⟩ := logCmdEvent_only d event attn t b tag pd
  rw [h]
@[simp] theorem logCmdEvent_adm (d : Dev) (event attn : Nat) (t : Topic) (b : List Byte) (tag : Word) (pd : Option Nat) : (logCmdEvent d event attn t b tag pd).adm = d.adm := by
  obtain ⟨_, h⟩ := logCmdEvent_only d event attn t b tag pd
  rw [h]
@[simp] theorem logCmdEvent_bst (d : Dev) (event attn : Nat) (t : Topic) (b : List Byte) (tag : Word) (pd : Option Nat) : (logCmdEvent d event attn t b tag pd).bst = d.bst := by
  obtain ⟨_, h⟩ := logCmdEvent_only d event attn t b tag pd
  rw [h]
@[simp] theorem logCmdEvent_out (d : Dev) (event attn : Nat) (t : Topic) (b : List Byte) (tag : Word) (pd : Option Nat) : (logCmdEvent d event attn t b tag pd).out = d.out := by
  obtain ⟨_, h⟩ := logCmdEvent_only d event attn t b tag pd
  rw [h]
@[simp] theorem logCmdEvent_free (d : Dev) (event attn : Nat) (t : Topic) (b : List Byte) (tag : Word) (pd : Option Nat) : (logCmdEvent d event attn t b tag pd).free = d.free := by
  obtain ⟨_, h⟩ := logCmdEvent_only d event attn t b tag pd
  rw [h]
@[simp] theorem logCmdEvent_reg (d : Dev) (event attn : Nat) (t : Topic) (b : List Byte) (tag : Word) (pd : Option Nat) : (logCmdEvent d event attn t b tag pd).reg = d.reg := by
  obtain ⟨_, h⟩ := logCmdEvent_only d event attn t b tag pd
  rw [h]
@[simp] theorem logCmdEvent_sto (d : Dev) (event attn : Nat) (t : Topic) (b : List Byte) (tag : Word) (pd : Option Nat) : (logCmdEvent d event attn t b tag pd).sto = d.sto := by
  obtain ⟨_, h⟩ := logCmdEvent_only d event attn t b tag pd
  rw [h]
@[simp] theorem logCmdEvent_ctr (d : Dev) (event attn : Nat) (t : Topic) (b : List Byte) (tag : Word) (pd : Option Nat) : (logCmdEvent d event attn t b tag pd).ctr = d.ctr := by
  obtain ⟨_, h⟩ := logCmdEvent_only d event attn t b tag pd
  rw [h]

@[simp] theorem deny_time (d : Dev) (m : Master) (t w r : Nat) : (deny d m t w r).time = d.time := by
  obtain ⟨_, _, _, h⟩ := deny_only d m t w r
  rw [h]
@[simp] theorem deny_glb (d : Dev) (m : Master) (t w r : Nat) : (deny d m t w r).glb = d.glb := by
  obtain ⟨_, _, _, h⟩ := deny_only d m t w r
  rw [h]
@[simp] theorem deny_pwr (d : Dev) (m : Master) (t w r : Nat) : (deny d m t w r).pwr = d.pwr := by
  obtain ⟨_, _, _, h⟩ := deny_only d m t w r
  rw [h]
@[simp] theorem deny_sense (d : Dev) (m : Master) (t w r : Nat) : (deny d m t w r).sense = d.sense := by
  obtain ⟨_, _, _, h⟩ := deny_only d m t w r
  rw [h]
@[simp] theorem deny_pln (d : Dev) (m : Master) (t w r : Nat) : (deny d m t w r).pln = d.pln := by
  obtain ⟨_, _, _, h⟩ := deny_only d m t w r
  rw [h]
@[simp] theorem deny_eth (d : Dev) (m : Master) (t w r : Nat) : (deny d m t w r).eth = d.eth := by
  obtain ⟨_, _, _, h⟩ := deny_only d m t w r
  rw [h]
@[simp] theorem deny_swc (d : Dev) (m : Master) (t w r : Nat) : (deny d m t w r).swc = d.swc := by
  obtain ⟨_, _, _, h⟩ := deny_only d m t w r
  rw [h]
@[simp] theorem deny_trs (d : Dev) (m : Master) (t w r : Nat) : (deny d m t w r).trs = d.trs := by
  obtain ⟨_, _, _, h⟩ := deny_only d m t w r
  rw [h]
@[simp] theorem deny_cmd (d : Dev) (m : Master) (t w r : Nat) : (deny d m t w r).cmd = d.cmd := by
  obtain ⟨_, _, _, h⟩ := deny_only d m t w r
  rw [h]
@[simp] theorem deny_par (d : Dev) (m : Master) (t w r : Nat) : (deny d m t w r).par = d.par := by
  obtain ⟨_, _, _, h⟩ := deny_only d m t w r
  rw [h]
@[simp] theorem deny_via (d : Dev) (m : Master) (t w r : Nat) : (deny d m t w r).via = d.via := by
  obtain ⟨_, _, _, h⟩ := deny_only d m t w r
  rw [h]
@[simp] theorem deny_itg (d : Dev) (m : Master) (t w r : Nat) : (deny d m t w r).itg = d.itg := by
  obtain ⟨_, _, _, h⟩ := deny_only d m t w r
  rw [h]
@[simp] theorem deny_adm (d : Dev) (m : Master) (t w r : Nat) : (deny d m t w r).adm = d.adm := by
  obtain ⟨_, _, _, h⟩ := deny_only d m t w r
  rw [h]
@[simp] theorem deny_bst (d : Dev) (m : Master) (t w r : Nat) : (deny d m t w r).bst = d.bst := by
  obtain ⟨_, _, _, h⟩ := deny_only d m t w r
  rw [h]
@[simp] theorem deny_out (d : Dev) (m : Master) (t w r : Nat) : (deny d m t w r).out = d.out := by
  obtain ⟨_, _, _, h⟩ := deny_only d m t w r
  rw [h]
@[simp] theorem deny_free (d : Dev) (m : Master) (t w r : Nat) : (deny d m t w r).free = d.free := by
  obtain ⟨_, _, _, h⟩ := deny_only d m t w r
  rw [h]
@[simp] theorem deny_sto (d : Dev) (m : Master) (t w r : Nat) : (deny d m t w r).sto = d.sto := by
  obtain ⟨_, _, _, h⟩ := deny_only d m t w r
  rw [h]
@[simp] theorem deny_ctr (d : Dev) (m : Master) (t w r : Nat) : (deny d m t w r).ctr = d.ctr := by
  obtain ⟨_, _, _, h⟩ := deny_only d m t w r
  rw [h]
@[simp] theorem deny_reg_live (d : Dev) (m : Master) (t w r : Nat) : (deny d m t w r).reg.live = d.reg.live := by
  obtain ⟨_, _, _, h⟩ := deny_only d m t w r
  rw [h]
@[simp] theorem deny_reg_staged (d : Dev) (m : Master) (t w r : Nat) : (deny d m t w r).reg.staged = d.reg.staged := by
  obtain ⟨_, _, _, h⟩ := deny_only d m t w r
  rw [h]
@[simp] theorem deny_reg_sticky (d : Dev) (m : Master) (t w r : Nat) : (deny d m t w r).reg.sticky = d.reg.sticky := by
  obtain ⟨_, _, _, h⟩ := deny_only d m t w r
  rw [h]

@[simp] theorem settle_time (d : Dev) : (settle d).time = d.time := by
  obtain ⟨_, _, _, _, _, _, h⟩ := settle_only d
  rw [h]
@[simp] theorem settle_glb (d : Dev) : (settle d).glb = d.glb := by
  obtain ⟨_, _, _, _, _, _, h⟩ := settle_only d
  rw [h]
@[simp] theorem settle_pwr (d : Dev) : (settle d).pwr = d.pwr := by
  obtain ⟨_, _, _, _, _, _, h⟩ := settle_only d
  rw [h]
@[simp] theorem settle_sense (d : Dev) : (settle d).sense = d.sense := by
  obtain ⟨_, _, _, _, _, _, h⟩ := settle_only d
  rw [h]
@[simp] theorem settle_pln (d : Dev) : (settle d).pln = d.pln := by
  obtain ⟨_, _, _, _, _, _, h⟩ := settle_only d
  rw [h]
@[simp] theorem settle_acc (d : Dev) : (settle d).acc = d.acc := by
  obtain ⟨_, _, _, _, _, _, h⟩ := settle_only d
  rw [h]
@[simp] theorem settle_eth (d : Dev) : (settle d).eth = d.eth := by
  obtain ⟨_, _, _, _, _, _, h⟩ := settle_only d
  rw [h]
@[simp] theorem settle_swc (d : Dev) : (settle d).swc = d.swc := by
  obtain ⟨_, _, _, _, _, _, h⟩ := settle_only d
  rw [h]
@[simp] theorem settle_trs (d : Dev) : (settle d).trs = d.trs := by
  obtain ⟨_, _, _, _, _, _, h⟩ := settle_only d
  rw [h]
@[simp] theorem settle_cmd (d : Dev) : (settle d).cmd = d.cmd := by
  obtain ⟨_, _, _, _, _, _, h⟩ := settle_only d
  rw [h]
@[simp] theorem settle_par (d : Dev) : (settle d).par = d.par := by
  obtain ⟨_, _, _, _, _, _, h⟩ := settle_only d
  rw [h]
@[simp] theorem settle_via (d : Dev) : (settle d).via = d.via := by
  obtain ⟨_, _, _, _, _, _, h⟩ := settle_only d
  rw [h]
@[simp] theorem settle_itg (d : Dev) : (settle d).itg = d.itg := by
  obtain ⟨_, _, _, _, _, _, h⟩ := settle_only d
  rw [h]
@[simp] theorem settle_adm (d : Dev) : (settle d).adm = d.adm := by
  obtain ⟨_, _, _, _, _, _, h⟩ := settle_only d
  rw [h]
@[simp] theorem settle_bst (d : Dev) : (settle d).bst = d.bst := by
  obtain ⟨_, _, _, _, _, _, h⟩ := settle_only d
  rw [h]
@[simp] theorem settle_out (d : Dev) : (settle d).out = d.out := by
  obtain ⟨_, _, _, _, _, _, h⟩ := settle_only d
  rw [h]
@[simp] theorem settle_reg_live (d : Dev) : (settle d).reg.live = d.reg.live := by
  obtain ⟨_, _, _, _, _, _, h⟩ := settle_only d
  rw [h]
@[simp] theorem settle_reg_staged (d : Dev) : (settle d).reg.staged = d.reg.staged := by
  obtain ⟨_, _, _, _, _, _, h⟩ := settle_only d
  rw [h]
@[simp] theorem settle_reg_sticky (d : Dev) : (settle d).reg.sticky = d.reg.sticky := by
  obtain ⟨_, _, _, _, _, _, h⟩ := settle_only d
  rw [h]
@[simp] theorem settle_reg_latch (d : Dev) : (settle d).reg.latch = d.reg.latch := by
  obtain ⟨_, _, _, _, _, _, h⟩ := settle_only d
  rw [h]
@[simp] theorem settle_reg_readVal (d : Dev) : (settle d).reg.readVal = d.reg.readVal := by
  obtain ⟨_, _, _, _, _, _, h⟩ := settle_only d
  rw [h]
@[simp] theorem settle_sto_drives (d : Dev) : (settle d).sto.drives = d.sto.drives := by
  obtain ⟨_, _, _, _, _, _, h⟩ := settle_only d
  rw [h]
@[simp] theorem settle_sto_groups (d : Dev) : (settle d).sto.groups = d.sto.groups := by
  obtain ⟨_, _, _, _, _, _, h⟩ := settle_only d
  rw [h]
@[simp] theorem settle_sto_locks (d : Dev) : (settle d).sto.locks = d.sto.locks := by
  obtain ⟨_, _, _, _, _, _, h⟩ := settle_only d
  rw [h]
@[simp] theorem settle_sto_repairs (d : Dev) : (settle d).sto.repairs = d.sto.repairs := by
  obtain ⟨_, _, _, _, _, _, h⟩ := settle_only d
  rw [h]
@[simp] theorem settle_sto_bmOut (d : Dev) : (settle d).sto.bmOut = d.sto.bmOut := by
  obtain ⟨_, _, _, _, _, _, h⟩ := settle_only d
  rw [h]
@[simp] theorem settle_sto_bmWait (d : Dev) : (settle d).sto.bmWait = d.sto.bmWait := by
  obtain ⟨_, _, _, _, _, _, h⟩ := settle_only d
  rw [h]
@[simp] theorem settle_sto_recovery (d : Dev) : (settle d).sto.recovery = d.sto.recovery := by
  obtain ⟨_, _, _, _, _, _, h⟩ := settle_only d
  rw [h]
@[simp] theorem settle_sto_units (d : Dev) : (settle d).sto.units = d.sto.units := by
  obtain ⟨_, _, _, _, _, _, h⟩ := settle_only d
  rw [h]
@[simp] theorem settle_sto_bgPaused (d : Dev) : (settle d).sto.bgPaused = d.sto.bgPaused := by
  obtain ⟨_, _, _, _, _, _, h⟩ := settle_only d
  rw [h]

/-! ### The outcome of a command -/

/-- A command answers a next state with the queue as it stands. -/
theorem act_eq (s : State) (f : Dev → Dev) : act s f = .next { s with dev := settle (f s.dev) } := rfl

/-- A guarded command answers a next state with the queue as it stands: its effect, or nothing. -/
theorem actIf_eq (p : Dev → Bool) (s : State) (f : Dev → Dev) :
    actIf p s f = .next { s with dev := if p s.dev then settle (f s.dev) else s.dev } := by
  unfold actIf act; split <;> simp_all

theorem actIf_true {p : Dev → Bool} {s : State} {f : Dev → Dev} (h : p s.dev = true) :
    actIf p s f = .next { s with dev := settle (f s.dev) } := by rw [actIf_eq, h]; rfl

theorem actIf_false {p : Dev → Bool} {s : State} {f : Dev → Dev} (h : p s.dev = false) : actIf p s f = .next s := by
  unfold actIf; rw [h]; rfl

/-! ### Tables -/

@[simp] theorem tget_tset_same {α : Type} (t : Tab α) (k : Nat) (v : α) : tget (tset t k v) k = some v := by
  induction t with
  | nil => simp [tset, tget]
  | cons e t ih =>
    obtain ⟨k', v'⟩ := e
    unfold tset; split
    · simp [tget]
    · split
      · simp [tget]
      · rename_i h; simp only [tget]; rw [if_neg (by simp at h ⊢; omega)]; exact ih

theorem tget_tset_ne {α : Type} (t : Tab α) {k j : Nat} (v : α) (h : j ≠ k) : tget (tset t k v) j = tget t j := by
  induction t with
  | nil => simp [tset, tget]; omega
  | cons e t ih =>
    obtain ⟨k', v'⟩ := e
    unfold tset; split
    · simp only [tget]; rw [if_neg (by simp; omega)]
    · split
      · rename_i h'; simp at h'; subst h'; simp only [tget]
        rw [if_neg (by simp; omega), if_neg (by simp; omega)]
      · simp only [tget]; split
        · rfl
        · exact ih

@[simp] theorem tgetD_tset_same {α : Type} (t : Tab α) (k : Nat) (v d : α) : tgetD (tset t k v) k d = v := by simp [tgetD]

/-! ### Memory: read after write, and the canonical form -/

theorem memWfFrom_weaken (m : List (Nat × Byte)) {lo lo' : Option Nat} (h : memWfFrom lo m = true)
    (hl : ∀ a, lo.all (· < a) = true → lo'.all (· < a) = true) : memWfFrom lo' m = true := by
  cases m with
  | nil => rfl
  | cons e m =>
    obtain ⟨a, b⟩ := e
    simp only [memWfFrom, Bool.and_eq_true] at h ⊢
    exact ⟨⟨hl a h.1.1, h.1.2⟩, h.2⟩

theorem memWrite_wfFrom (m : List (Nat × Byte)) (lo : Option Nat) (x : Nat) (v : Byte) (h : memWfFrom lo m = true)
    (hx : lo.all (· < x) = true) : memWfFrom lo (memWrite m x v) = true := by
  induction m generalizing lo with
  | nil => unfold memWrite; split <;> simp_all [memWfFrom]
  | cons e m ih =>
    obtain ⟨a, b⟩ := e
    have h0 := h
    simp only [memWfFrom, Bool.and_eq_true] at h
    unfold memWrite; split
    · rename_i hlt
      split
      · exact h0
      · rename_i hv
        simp only [memWfFrom, Bool.and_eq_true]
        exact ⟨⟨hx, by simpa using hv⟩, ⟨by simpa using hlt, h.1.2⟩, h.2⟩
    · split
      · split
        · refine memWfFrom_weaken m h.2 fun c hc => ?_
          cases lo with
          | none => rfl
          | some l => simp at hc ⊢; have := h.1.1; simp at this; omega
        · rename_i hv
          simp only [memWfFrom, Bool.and_eq_true]
          exact ⟨⟨h.1.1, by simpa using hv⟩, h.2⟩
      · rename_i h1 h2
        simp only [memWfFrom, Bool.and_eq_true]
        exact ⟨h.1, ih (some a) h.2 (by simp at h2 ⊢; omega)⟩

/-- A byte write keeps the canonical form. -/
theorem memWrite_wf (m : List (Nat × Byte)) (x : Nat) (v : Byte) (h : memWf m = true) : memWf (memWrite m x v) = true :=
  memWrite_wfFrom m none x v h rfl

/-- A write of a byte string keeps the canonical form. -/
theorem memWrites_wf (bs : List Byte) (m : List (Nat × Byte)) (x : Nat) (h : memWf m = true) : memWf (memWrites m x bs) = true := by
  induction bs generalizing m x with
  | nil => exact h
  | cons b bs ih => exact ih _ _ (memWrite_wf m x b h)

theorem memWf_filter (p : Nat × Byte → Bool) (m : List (Nat × Byte)) (lo : Option Nat) (h : memWfFrom lo m = true) :
    memWfFrom lo (m.filter p) = true := by
  induction m generalizing lo with
  | nil => rfl
  | cons e m ih =>
    obtain ⟨a, b⟩ := e
    simp only [memWfFrom, Bool.and_eq_true] at h
    rw [List.filter_cons]; split
    · simp only [memWfFrom, Bool.and_eq_true]; exact ⟨h.1, ih _ h.2⟩
    · refine ih lo (memWfFrom_weaken m h.2 fun c hc => ?_)
      cases lo with
      | none => rfl
      | some l => simp at hc ⊢; have := h.1.1; simp at this; omega

/-- Zeroing a range keeps the canonical form. -/
theorem memZero_wf (m : List (Nat × Byte)) (x n : Nat) (h : memWf m = true) : memWf (memZero m x n) = true :=
  memWf_filter _ m none h

theorem reset_memOk : State.reset.dev.memOk = true := by decide

end Sys2Proof.Machine
end

