-- ==== Sys2Proof/WellFormed.lean ====
section
/-! DEFINITION. Which commands are well formed: every number within the range that the spec gives what it names. -/

namespace Sys2Proof

/-- Slots 0 to 23 (R315). -/
def isSlot (n : Nat) : Bool := decide (n < 24)
/-- Power domains 0 to 63 (R79). -/
def isDomain (n : Nat) : Bool := decide (n < 64)
/-- Temperature sensors 0 to 29 (R98). -/
def isSensor (n : Nat) : Bool := decide (n < 30)
/-- Layout groups 0 to 5 of the shelf, viaduct groups numbered from 64 on (R317, R457). -/
def isGroup (n : Nat) : Bool := decide (n < 6) || (decide (64 ≤ n) && decide (n < 128))
/-- Configuration pages 0 to 223 (R143). -/
def isPage (n : Nat) : Bool := decide (n < 224)
/-- Logical ports 0 to 31 and PW, switch port 32 (R20). -/
def isPort (n : Nat) : Bool := decide (n < 33)
/-- Switch ports 0 to 35 (R20). -/
def isEgress (n : Nat) : Bool := decide (n < 36)
/-- Ethernet macros 0 to 7 and the partywall macro (R176). -/
def isMacro (n : Nat) : Bool := decide (n < 9)
/-- Local connection indices (R208). -/
def isConn (n : Nat) : Bool := decide (n < 16384)
/-- Command slots 0 to 131,071 (R299). -/
def isCmd (n : Nat) : Bool := decide (n < 131072)
/-- Volumes 0 to 4,095 (R277). -/
def isVolume (n : Nat) : Bool := decide (n < 4096)
/-- Piers 0 to 63 (R445). -/
def isPier (n : Nat) : Bool := decide (n < 64)
/-- Paths 0 to 63 (R210). -/
def isPath (n : Nat) : Bool := decide (n < 64)
/-- Register offsets: 4-byte words of 16 MiB (R13). -/
def isOffset (n : Nat) : Bool := decide (n < 16777216) && n % 4 == 0
/-- Pseudo-channels 0 to 63 (R515). -/
def isPseudoChannel (n : Nat) : Bool := decide (n < 64)
/-- Command classes 0 to 4 (R274). -/
def isClass (n : Nat) : Bool := decide (n < 5)
/-- A volume, or 0xFFFF for the shelf (R484). -/
def isVolumeOrShelf (n : Nat) : Bool := decide (n < 4096) || n == 65535
/-- Pause watchdog instances: 0 to 7 by priority, 8 Annex 31B (R165). -/
def isInstance (n : Nat) : Bool := decide (n < 9)
/-- Egress queues 0 to 15 (R187). -/
def isQueue (n : Nat) : Bool := decide (n < 16)
/-- VLAN identifiers (R180). -/
def isVid (n : Nat) : Bool := decide (n < 4096)
/-- Submission and completion queues 0 to 65,535 (R274). -/
def isRing (n : Nat) : Bool := decide (n < 65536)
/-- Layout groups of the shelf (R317). -/
def isLocalGroup (n : Nat) : Bool := decide (n < 6)
/-- Commit groups 0 to 63, 23 to 63 of them reserved (R138). -/
def isCommitGroup (n : Nat) : Bool := decide (n < 64)
/-- Access entries of a configuration page (R146). -/
def isEntry (n : Nat) : Bool := decide (n < 8)
/-- Journal copies (R358). -/
def isCopy (n : Nat) : Bool := decide (n < 4)
/-- Reference clocks (R514). -/
def isClock (n : Nat) : Bool := decide (n < 3)
/-- A frame from ports 33 to 35 (R180); a super-frame's limits and its payload (R168, R170). -/
def internalWf (f : IntFrame) : Bool :=
  decide (33 ≤ f.src) && isEgress f.src && decide (f.dest < 96) && decide (f.prio < 8) && f.super.all fun s =>
    f.src != 35 && (s.payload == 4096 || s.payload == 8192) && decide (1 ≤ s.bytes) && decide (s.bytes ≤ 262144)
      && s.pathMask != 0 && decide (s.start < 64) && s.data.length == s.bytes
/-- Arbiter drives (R128). -/
def isArbiter (n : Nat) : Bool := decide (n < 3)
/-- Rails (R73). -/
def isRail (n : Nat) : Bool := decide (n < 9)
/-- Cores of the control cluster (R143). -/
def isCore (n : Nat) : Bool := decide (n < 16)
/-- Switch ports of the engines and the control cluster (R20). -/
def isEngine (n : Nat) : Bool := decide (33 ≤ n) && decide (n < 36)
/-- One entry per priority (R163). -/
def isPerPriority (l : List Half) : Bool := l.length == 8
/-- One reading per sensor (R98). -/
def isScan (l : List Int) : Bool := l.length == 30
/-- One value per rail (R92). -/
def isPerRail (l : List Nat) : Bool := l.length == 9
/-- One count per window counter (R529). -/
def isWindow (ports inner : List Nat) : Bool := ports.length == 120 && inner.length == 6
/-- A block of a command holds at most 1,048,576 bytes (R295). -/
def isBlock (b : List Byte) : Bool := decide (b.length ≤ 1048576)

/-- The check. -/
def Instr.wf : Instr → Bool
  | .aonPowerOn => true
  | .aonPowerLoss => true
  | .porstAssert => true
  | .resetRelease _ _ _ => true
  | .avsInitialSet _ => true
  | .agingMonitorRead _ _ _ => true
  | .pwrFailRecognise => true
  | .pwrFailClear => true
  | .presenceChange slot _ => isSlot slot
  | .mgtGpioOutSet _ _ => true
  | .mgtGpioOutClr _ _ => true
  | .pmbusAlert rail => isRail rail
  | .domainSwitchOnRequest d _ => isDomain d
  | .domainSwitchOffRequest d _ => isDomain d
  | .domainReady d => isDomain d
  | .domainOffComplete d => isDomain d
  | .deepIdleEnter _ => true
  | .deepIdleExit _ => true
  | .loadGovernorTick _ => true
  | .powerEstimateTick _ => true
  | .powerTelemetryCorrect _ railMv railMa => isPerRail railMv && isPerRail railMa
  | .pwrCapWrite _ _ => true
  | .pwrThermCfgWrite _ _ => true
  | .capRefuseTimeout sq => isRing sq
  | .powerAttnClear => true
  | .sensorScan readings => isScan readings
  | .thermtrip sensor => isSensor sensor
  | .thermalGovernorTick => true
  | .haltEntry => true
  | .glbResetCtrlWrite _ _ => true
  | .glbWdogKick _ _ => true
  | .watchdogExpire => true
  | .bootSourceRead _ _ => true
  | .mgmtImageDelivery _ _ => true
  | .floorPlanCheck _ _ => true
  | .planApply => true
  | .bootBist _ _ => true
  | .drivePerstRelease => true
  | .driveLinkUp slot _ _ => isSlot slot
  | .driveReady slot _ => isSlot slot
  | .driveReadyTimeout slot => isSlot slot
  | .pairJoin _ => true
  | .joinTimeout => true
  | .recoveryScan group _ _ => isGroup group
  | .recoveryReplay group => isGroup group
  | .recoveryResync group _ => isGroup group
  | .recoveryComplete _ => true
  | .registerWrite _ off _ => isOffset off
  | .registerReadClear _ off => isOffset off
  | .stagedRegisterWrite _ off _ => isOffset off
  | .plnCommit _ g => isCommitGroup g
  | .plnDiscard _ g => isCommitGroup g
  | .plnLockClaim _ g => isCommitGroup g
  | .plnLockRelease _ g => isCommitGroup g
  | .plnLockTimeout g => isCommitGroup g
  | .accessEntryWord0Write _ page e _ => isPage page && isEntry e
  | .accessEntryWord1Write _ page e _ => isPage page && isEntry e
  | .debugUnlockRequest => true
  | .debugUnlockResponse _ _ => true
  | .tapInstructionLoad _ => true
  | .portBringupAttempt p => isPort p
  | .portLinkUp p => isPort p
  | .portBringupTimeout p _ => isPort p
  | .portRetrainTrigger p _ => isPort p
  | .ethLaneRetrain _ mac _ => isMacro mac
  | .ethLaneRestore _ mac _ => isMacro mac
  | .portLinkDown p => isPort p
  | .linkHoldExpire p => isPort p
  | .frameIngress p _ => isPort p
  | .pauseFrameReceive p _ => isPort p
  | .pfcFrameReceive p _ quanta => isPort p && isPerPriority quanta
  | .pauseQuantaExpire p inst => isPort p && isInstance inst
  | .pwdWatchExpire p inst => isPort p && isInstance inst
  | .pwdRecoveryExpire p inst => isPort p && isInstance inst
  | .pauseRefresh p prio => isPort p && isInstance prio
  | .internalFrameOffer f => internalWf f
  | .holdoffAccept src => isEngine src
  | .frameTransmitStart p _ => isEgress p
  | .frameTransmitComplete p => isEgress p
  | .frameAgeDiscard p q => isEgress p && isQueue q
  | .fdbAgeOut vid _ => isVid vid
  | .swcFdbFlush _ _ => true
  | .ethPtpTsRead _ mac => isMacro mac
  | .trestleWrite _ _ => true
  | .trestleReadReq _ _ => true
  | .trestleReadResp _ _ => true
  | .trestleAck _ _ => true
  | .trestleNack _ _ => true
  | .trestleCredit _ _ => true
  | .trestleProbe _ _ => true
  | .trestleConnect _ _ => true
  | .trestleClose _ _ => true
  | .trestleResumeReply _ _ => true
  | .fenceRelease c _ => isConn c
  | .rtoExpire c => isConn c
  | .pathProbeTimer c path => isConn c && isPath path
  | .ackCoalesceExpire c => isConn c
  | .deadTimerExpire c => isConn c
  | .closingTimeout c => isConn c
  | .timeWaitExpire c => isConn c
  | .resumeRetry c => isConn c
  | .trsPdSelWrite _ _ => true
  | .pdApply _ _ => true
  | .pdApplyComplete => true
  | .contextFetchComplete c _ _ => isConn c
  | .contextWritebackDone c _ => isConn c
  | .triggerLingerExpire => true
  | .ringFetch sq => isRing sq
  | .commandAdmit => true
  | .slotWaitTimeout cls => isClass cls
  | .holdTimeout cmd => isCmd cmd
  | .completionGenerate _ _ _ _ => true
  | .cqSpacePoll cq => isRing cq
  | .cqDetachTimeout cq => isRing cq
  | .cmdPdSelWrite _ _ => true
  | .msubGo _ => true
  | .readCmd cmd => isCmd cmd
  | .writeCmd cmd => isCmd cmd
  | .writeZeroes cmd => isCmd cmd
  | .deallocate cmd => isCmd cmd
  | .flushCmd cmd => isCmd cmd
  | .verifyCmd cmd => isCmd cmd
  | .readTags cmd => isCmd cmd
  | .releaseCmd cmd => isCmd cmd
  | .abortCmd cmd => isCmd cmd
  | .identifyDevice cmd => isCmd cmd
  | .identifyVolume cmd => isCmd cmd
  | .configRead cmd => isCmd cmd
  | .configWrite cmd => isCmd cmd
  | .queueCreateSq cmd => isCmd cmd
  | .queueCreateCq cmd => isCmd cmd
  | .queueAttach cmd => isCmd cmd
  | .queueDeleteSq cmd => isCmd cmd
  | .queueDeleteCq cmd => isCmd cmd
  | .volumeCreate cmd blk => isCmd cmd && isBlock blk
  | .volumeDelete cmd => isCmd cmd
  | .volumeReshapeStart cmd blk => isCmd cmd && isBlock blk
  | .volumeReshapeAbandon cmd blk => isCmd cmd && isBlock blk
  | .setAccess cmd blk => isCmd cmd && isBlock blk
  | .volumeQuery cmd => isCmd cmd
  | .getLog cmd => isCmd cmd
  | .keyLoad cmd blk => isCmd cmd && isBlock blk
  | .keyClear cmd => isCmd cmd
  | .sanitizeOverwrite cmd blk => isCmd cmd && isBlock blk
  | .sanitizeBlockErase cmd blk => isCmd cmd && isBlock blk
  | .sanitizeDriveOverwrite cmd blk => isCmd cmd && isBlock blk
  | .formatCmd cmd blk => isCmd cmd && isBlock blk
  | .formatApply vol => isVolume vol
  | .selfTestShort cmd => isCmd cmd
  | .selfTestExtended cmd => isCmd cmd
  | .selfTestStop cmd => isCmd cmd
  | .selfTestTimeout => true
  | .imageLoad cmd blk _ => isCmd cmd && isBlock blk
  | .imageActivate cmd blk _ _ => isCmd cmd && isBlock blk
  | .imageCopyFirstFlash => true
  | .memberFail cmd blk => isCmd cmd && isBlock blk
  | .memberRetire cmd blk => isCmd cmd && isBlock blk
  | .slotOff cmd blk => isCmd cmd && isBlock blk
  | .slotOn cmd blk => isCmd cmd && isBlock blk
  | .adoptMember cmd blk => isCmd cmd && isBlock blk
  | .setShare cmd blk => isCmd cmd && isBlock blk
  | .pauseVolume cmd blk => isCmd cmd && isBlock blk
  | .resumeVolume cmd blk => isCmd cmd && isBlock blk
  | .counterSetupDump cmd blk => isCmd cmd && isBlock blk
  | .clearSet cmd blk => isCmd cmd && isBlock blk
  | .sampleSetup cmd blk => isCmd cmd && isBlock blk
  | .windowSetup cmd blk => isCmd cmd && isBlock blk
  | .copyOut cmd blk => isCmd cmd && isBlock blk
  | .regionCreate cmd => isCmd cmd
  | .regionDestroy cmd => isCmd cmd
  | .maintRequest cmd blk => isCmd cmd && isBlock blk
  | .moveGroups cmd blk => isCmd cmd && isBlock blk
  | .returnRoles cmd blk => isCmd cmd && isBlock blk
  | .admitPier cmd blk => isCmd cmd && isBlock blk
  | .removePier cmd blk => isCmd cmd && isBlock blk
  | .formGroup cmd blk => isCmd cmd && isBlock blk
  | .dissolveGroup cmd blk => isCmd cmd && isBlock blk
  | .gateOn cmd blk => isCmd cmd && isBlock blk
  | .gateOff cmd blk => isCmd cmd && isBlock blk
  | .gateDrainExpire => true
  | .groupForm g => isLocalGroup g
  | .tagComputeDone cmd _ => isCmd cmd
  | .parityComputeDone cmd _ => isCmd cmd
  | .bitmapWriteComplete vol _ _ => isVolume vol
  | .dirtyIdleExpire vol _ => isVolume vol
  | .journalWriteComplete group copy _ _ => isGroup group && isCopy copy
  | .journalCheckpoint group => isGroup group
  | .fragmentWriteComplete _ _ _ _ => true
  | .driveReadComplete _ _ _ _ _ => true
  | .driveFaultReport slot _ => isSlot slot
  | .cstsPoll slot _ => isSlot slot
  | .driveCmdTimeout slot => isSlot slot
  | .healthLogPoll slot _ => isSlot slot
  | .asyncEventNotice slot _ => isSlot slot
  | .memberAnswer slot => isSlot slot
  | .memberFailTimeout slot _ => isSlot slot
  | .journalRemirrorComplete group copy => isGroup group && isCopy copy
  | .catchupComplete slot => isSlot slot
  | .bandRestoreStart group => isGroup group
  | .bandRestoreComplete group => isGroup group
  | .copybackComplete group position => isGroup group && isSlot position
  | .rebuildProgressTick group _ _ => isGroup group
  | .reshapeUnitCopy vol => isVolume vol
  | .reshapeSwitch vol => isVolume vol
  | .reshapeAbandonDone vol => isVolume vol
  | .sanitizeStatusPoll slot _ _ => isSlot slot
  | .overwriteCursorTick vol _ => isVolumeOrShelf vol
  | .heartbeatSend => true
  | .heartbeatReceive _ _ => true
  | .heartbeatMiss _ => true
  | .partnerHaltedReceive => true
  | .powerFailFrameReceive => true
  | .healthSend => true
  | .healthReceive _ => true
  | .mirrorReceive _ _ => true
  | .mirrorAckReceive _ => true
  | .mirrorResend => true
  | .snapshotAcked _ => true
  | .arbiterAcquireComplete n _ => isArbiter n
  | .arbiterTimeout n => isArbiter n
  | .arbitrationRetry => true
  | .garpRepeat => true
  | .preemptComplete slot => isSlot slot
  | .preemptTimeout slot => isSlot slot
  | .ownershipRecordDurable => true
  | .takeoverFinish => true
  | .selfFence => true
  | .handoverStart => true
  | .handoverDrainTimeout => true
  | .handoverReceive _ _ _ => true
  | .stableTimeExpire => true
  | .innerConnect pier => isPier pier
  | .innerIdleProbe pier => isPier pier
  | .pierLossTimeout pier => isPier pier
  | .fwdCmd pier _ => isPier pier
  | .fwdCpl pier _ => isPier pier
  | .fwdTrigger pier _ => isPier pier
  | .fragReq pier _ group => isPier pier && isGroup group
  | .fragDone pier _ => isPier pier
  | .directoryRec pier _ => isPier pier
  | .epochRec pier _ group => isPier pier && isGroup group
  | .ownerWaitTimeout cmd => isCmd cmd
  | .entropyFault => true
  | .bistSliceStart => true
  | .sliceDrainTimeout => true
  | .sliceSegmentEnd _ => true
  | .fuseBurn _ _ => true
  | .hbmEccError pc _ _ => isPseudoChannel pc
  | .pcRetireCopyDone pc => isPseudoChannel pc
  | .maintRequestRetry => true
  | .cpuCoreError core _ => isCore core
  | .sensorDisagree sensor => isSensor sensor
  | .refclkLoss clk => isClock clk
  | .refclkRestore clk => isClock clk
  | .fatalClockFault => true
  | .counterSnapshot => true
  | .windowPublish ports inner => isWindow ports inner
  | .ctrPrivSelWrite _ _ => true
  | .sampleLfsrReseed => true
  | .traceRecordDrop => true
  | .trestleConnectReply _ _ => true
  | .trestleResume _ _ => true
  | .epochGrantReceive pier group _ _ => isPier pier && isGroup group
  | .selfTestComplete _ _ _ => true
  | .fuseBurnComplete _ => true
  | .dumpWriteComplete => true
  | .scrubTick _ => true

end Sys2Proof
end

