-- ==== Sys2Proof/Laws/PerInstr.lean ====
section
/-! SUPPORT. Per-command family WordBits: no word of the table's numbering spells the command. -/

namespace Sys2Proof.Laws.WordBits

/-- No word spells the command. -/
def Statement (i : Instr) : Prop := ∀ nbits w, decodeTableWord nbits w ≠ some i

theorem aonPowerOn : Statement (.aonPowerOn) := fun _ _ h => nomatch h
theorem aonPowerLoss : Statement (.aonPowerLoss) := fun _ _ h => nomatch h
theorem porstAssert : Statement (.porstAssert) := fun _ _ h => nomatch h
theorem resetRelease (pairSide boot1 boot0 : Bool) : Statement (.resetRelease pairSide boot1 boot0) := fun _ _ h => nomatch h
theorem avsInitialSet (marginMv : Nat) : Statement (.avsInitialSet marginMv) := fun _ _ h => nomatch h
theorem agingMonitorRead (slowdown : Half) (marginPct : Byte) (more : Bool) : Statement (.agingMonitorRead slowdown marginPct more) := fun _ _ h => nomatch h
theorem pwrFailRecognise : Statement (.pwrFailRecognise) := fun _ _ h => nomatch h
theorem pwrFailClear : Statement (.pwrFailClear) := fun _ _ h => nomatch h
theorem presenceChange (slot : Nat) (present : Bool) : Statement (.presenceChange slot present) := fun _ _ h => nomatch h
theorem mgtGpioOutSet (m : Master) (v : Word) : Statement (.mgtGpioOutSet m v) := fun _ _ h => nomatch h
theorem mgtGpioOutClr (m : Master) (v : Word) : Statement (.mgtGpioOutClr m v) := fun _ _ h => nomatch h
theorem pmbusAlert (rail : Nat) : Statement (.pmbusAlert rail) := fun _ _ h => nomatch h
theorem domainSwitchOnRequest (d : Nat) (takeover : Bool) : Statement (.domainSwitchOnRequest d takeover) := fun _ _ h => nomatch h
theorem domainSwitchOffRequest (d : Nat) (takeover : Bool) : Statement (.domainSwitchOffRequest d takeover) := fun _ _ h => nomatch h
theorem domainReady (d : Nat) : Statement (.domainReady d) := fun _ _ h => nomatch h
theorem domainOffComplete (d : Nat) : Statement (.domainOffComplete d) := fun _ _ h => nomatch h
theorem deepIdleEnter (m : Master) : Statement (.deepIdleEnter m) := fun _ _ h => nomatch h
theorem deepIdleExit (m : Master) : Statement (.deepIdleExit m) := fun _ _ h => nomatch h
theorem loadGovernorTick (demand : List Nat) : Statement (.loadGovernorTick demand) := fun _ _ h => nomatch h
theorem powerEstimateTick (estimateMw : Nat) : Statement (.powerEstimateTick estimateMw) := fun _ _ h => nomatch h
theorem powerTelemetryCorrect (powerMw : Nat) (railMv : List Nat) (railMa : List Nat) : Statement (.powerTelemetryCorrect powerMw railMv railMa) := fun _ _ h => nomatch h
theorem pwrCapWrite (m : Master) (v : Word) : Statement (.pwrCapWrite m v) := fun _ _ h => nomatch h
theorem pwrThermCfgWrite (m : Master) (v : Word) : Statement (.pwrThermCfgWrite m v) := fun _ _ h => nomatch h
theorem capRefuseTimeout (sq : Nat) : Statement (.capRefuseTimeout sq) := fun _ _ h => nomatch h
theorem powerAttnClear : Statement (.powerAttnClear) := fun _ _ h => nomatch h
theorem sensorScan (readings : List Int) : Statement (.sensorScan readings) := fun _ _ h => nomatch h
theorem thermtrip (sensor : Nat) : Statement (.thermtrip sensor) := fun _ _ h => nomatch h
theorem thermalGovernorTick : Statement (.thermalGovernorTick) := fun _ _ h => nomatch h
theorem haltEntry : Statement (.haltEntry) := fun _ _ h => nomatch h
theorem glbResetCtrlWrite (m : Master) (v : Word) : Statement (.glbResetCtrlWrite m v) := fun _ _ h => nomatch h
theorem glbWdogKick (m : Master) (v : Word) : Statement (.glbWdogKick m v) := fun _ _ h => nomatch h
theorem watchdogExpire : Statement (.watchdogExpire) := fun _ _ h => nomatch h
theorem bootSourceRead (flashB : Bool) (img : FwImage) : Statement (.bootSourceRead flashB img) := fun _ _ h => nomatch h
theorem mgmtImageDelivery (m : Master) (img : FwImage) : Statement (.mgmtImageDelivery m img) := fun _ _ h => nomatch h
theorem floorPlanCheck (source : Nat) (img : PlanImage) : Statement (.floorPlanCheck source img) := fun _ _ h => nomatch h
theorem planApply : Statement (.planApply) := fun _ _ h => nomatch h
theorem bootBist (fails : List Nat) (found : BootFound) : Statement (.bootBist fails found) := fun _ _ h => nomatch h
theorem drivePerstRelease : Statement (.drivePerstRelease) := fun _ _ h => nomatch h
theorem driveLinkUp (slot : Nat) (rate : Nat) (width : Nat) : Statement (.driveLinkUp slot rate width) := fun _ _ h => nomatch h
theorem driveReady (slot : Nat) (id : DriveIdent) : Statement (.driveReady slot id) := fun _ _ h => nomatch h
theorem driveReadyTimeout (slot : Nat) : Statement (.driveReadyTimeout slot) := fun _ _ h => nomatch h
theorem pairJoin (j : JoinInfo) : Statement (.pairJoin j) := fun _ _ h => nomatch h
theorem joinTimeout : Statement (.joinTimeout) := fun _ _ h => nomatch h
theorem recoveryScan (group : Nat) (copies : List (List JRec)) (bitmaps : List (Nat × Nat)) : Statement (.recoveryScan group copies bitmaps) := fun _ _ h => nomatch h
theorem recoveryReplay (group : Nat) : Statement (.recoveryReplay group) := fun _ _ h => nomatch h
theorem recoveryResync (group : Nat) (agree : Bool) : Statement (.recoveryResync group agree) := fun _ _ h => nomatch h
theorem recoveryComplete (micros : Nat) : Statement (.recoveryComplete micros) := fun _ _ h => nomatch h
theorem registerWrite (m : Master) (off : Nat) (v : Word) : Statement (.registerWrite m off v) := fun _ _ h => nomatch h
theorem registerReadClear (m : Master) (off : Nat) : Statement (.registerReadClear m off) := fun _ _ h => nomatch h
theorem stagedRegisterWrite (m : Master) (off : Nat) (v : Word) : Statement (.stagedRegisterWrite m off v) := fun _ _ h => nomatch h
theorem plnCommit (m : Master) (g : Nat) : Statement (.plnCommit m g) := fun _ _ h => nomatch h
theorem plnDiscard (m : Master) (g : Nat) : Statement (.plnDiscard m g) := fun _ _ h => nomatch h
theorem plnLockClaim (m : Master) (g : Nat) : Statement (.plnLockClaim m g) := fun _ _ h => nomatch h
theorem plnLockRelease (m : Master) (g : Nat) : Statement (.plnLockRelease m g) := fun _ _ h => nomatch h
theorem plnLockTimeout (g : Nat) : Statement (.plnLockTimeout g) := fun _ _ h => nomatch h
theorem accessEntryWord0Write (m : Master) (page : Nat) (e : Nat) (v : Word) : Statement (.accessEntryWord0Write m page e v) := fun _ _ h => nomatch h
theorem accessEntryWord1Write (m : Master) (page : Nat) (e : Nat) (v : Word) : Statement (.accessEntryWord1Write m page e v) := fun _ _ h => nomatch h
theorem debugUnlockRequest : Statement (.debugUnlockRequest) := fun _ _ h => nomatch h
theorem debugUnlockResponse (key : List Byte) (sig : List Byte) : Statement (.debugUnlockResponse key sig) := fun _ _ h => nomatch h
theorem tapInstructionLoad (i : TapInstr) : Statement (.tapInstructionLoad i) := fun _ _ h => nomatch h
theorem portBringupAttempt (p : Nat) : Statement (.portBringupAttempt p) := fun _ _ h => nomatch h
theorem portLinkUp (p : Nat) : Statement (.portLinkUp p) := fun _ _ h => nomatch h
theorem portBringupTimeout (p : Nat) (blame : List Nat) : Statement (.portBringupTimeout p blame) := fun _ _ h => nomatch h
theorem portRetrainTrigger (p : Nat) (cause : RetrainCause) : Statement (.portRetrainTrigger p cause) := fun _ _ h => nomatch h
theorem ethLaneRetrain (m : Master) (mac : Nat) (lanes : BitVec 4) : Statement (.ethLaneRetrain m mac lanes) := fun _ _ h => nomatch h
theorem ethLaneRestore (m : Master) (mac : Nat) (lanes : BitVec 4) : Statement (.ethLaneRestore m mac lanes) := fun _ _ h => nomatch h
theorem portLinkDown (p : Nat) : Statement (.portLinkDown p) := fun _ _ h => nomatch h
theorem linkHoldExpire (p : Nat) : Statement (.linkHoldExpire p) := fun _ _ h => nomatch h
theorem frameIngress (p : Nat) (f : Frame) : Statement (.frameIngress p f) := fun _ _ h => nomatch h
theorem pauseFrameReceive (p : Nat) (quanta : Half) : Statement (.pauseFrameReceive p quanta) := fun _ _ h => nomatch h
theorem pfcFrameReceive (p : Nat) (enable : Byte) (quanta : List Half) : Statement (.pfcFrameReceive p enable quanta) := fun _ _ h => nomatch h
theorem pauseQuantaExpire (p : Nat) (inst : Nat) : Statement (.pauseQuantaExpire p inst) := fun _ _ h => nomatch h
theorem pwdWatchExpire (p : Nat) (inst : Nat) : Statement (.pwdWatchExpire p inst) := fun _ _ h => nomatch h
theorem pwdRecoveryExpire (p : Nat) (inst : Nat) : Statement (.pwdRecoveryExpire p inst) := fun _ _ h => nomatch h
theorem pauseRefresh (p : Nat) (prio : Nat) : Statement (.pauseRefresh p prio) := fun _ _ h => nomatch h
theorem internalFrameOffer (f : IntFrame) : Statement (.internalFrameOffer f) := fun _ _ h => nomatch h
theorem holdoffAccept (src : Nat) : Statement (.holdoffAccept src) := fun _ _ h => nomatch h
theorem frameTransmitStart (p : Nat) (cellErr : Bool) : Statement (.frameTransmitStart p cellErr) := fun _ _ h => nomatch h
theorem frameTransmitComplete (p : Nat) : Statement (.frameTransmitComplete p) := fun _ _ h => nomatch h
theorem frameAgeDiscard (p : Nat) (q : Nat) : Statement (.frameAgeDiscard p q) := fun _ _ h => nomatch h
theorem fdbAgeOut (vid : Nat) (addr : Nat) : Statement (.fdbAgeOut vid addr) := fun _ _ h => nomatch h
theorem swcFdbFlush (m : Master) (v : Word) : Statement (.swcFdbFlush m v) := fun _ _ h => nomatch h
theorem ethPtpTsRead (m : Master) (mac : Nat) : Statement (.ethPtpTsRead m mac) := fun _ _ h => nomatch h
theorem trestleWrite (net : Net) (pk : Pkt) : Statement (.trestleWrite net pk) := fun _ _ h => nomatch h
theorem trestleReadReq (net : Net) (pk : Pkt) : Statement (.trestleReadReq net pk) := fun _ _ h => nomatch h
theorem trestleReadResp (net : Net) (pk : Pkt) : Statement (.trestleReadResp net pk) := fun _ _ h => nomatch h
theorem trestleAck (net : Net) (pk : Pkt) : Statement (.trestleAck net pk) := fun _ _ h => nomatch h
theorem trestleNack (net : Net) (pk : Pkt) : Statement (.trestleNack net pk) := fun _ _ h => nomatch h
theorem trestleCredit (net : Net) (pk : Pkt) : Statement (.trestleCredit net pk) := fun _ _ h => nomatch h
theorem trestleProbe (net : Net) (pk : Pkt) : Statement (.trestleProbe net pk) := fun _ _ h => nomatch h
theorem trestleConnect (net : Net) (pk : Pkt) : Statement (.trestleConnect net pk) := fun _ _ h => nomatch h
theorem trestleClose (net : Net) (pk : Pkt) : Statement (.trestleClose net pk) := fun _ _ h => nomatch h
theorem trestleResumeReply (net : Net) (pk : Pkt) : Statement (.trestleResumeReply net pk) := fun _ _ h => nomatch h
theorem fenceRelease (c : Nat) (psn : Word) : Statement (.fenceRelease c psn) := fun _ _ h => nomatch h
theorem rtoExpire (c : Nat) : Statement (.rtoExpire c) := fun _ _ h => nomatch h
theorem pathProbeTimer (c : Nat) (path : Nat) : Statement (.pathProbeTimer c path) := fun _ _ h => nomatch h
theorem ackCoalesceExpire (c : Nat) : Statement (.ackCoalesceExpire c) := fun _ _ h => nomatch h
theorem deadTimerExpire (c : Nat) : Statement (.deadTimerExpire c) := fun _ _ h => nomatch h
theorem closingTimeout (c : Nat) : Statement (.closingTimeout c) := fun _ _ h => nomatch h
theorem timeWaitExpire (c : Nat) : Statement (.timeWaitExpire c) := fun _ _ h => nomatch h
theorem resumeRetry (c : Nat) : Statement (.resumeRetry c) := fun _ _ h => nomatch h
theorem trsPdSelWrite (m : Master) (v : Word) : Statement (.trsPdSelWrite m v) := fun _ _ h => nomatch h
theorem pdApply (m : Master) (v : Word) : Statement (.pdApply m v) := fun _ _ h => nomatch h
theorem pdApplyComplete : Statement (.pdApplyComplete) := fun _ _ h => nomatch h
theorem contextFetchComplete (c : Nat) (eccOk : Bool) (late : Bool) : Statement (.contextFetchComplete c eccOk late) := fun _ _ h => nomatch h
theorem contextWritebackDone (c : Nat) (eccOk : Bool) : Statement (.contextWritebackDone c eccOk) := fun _ _ h => nomatch h
theorem triggerLingerExpire : Statement (.triggerLingerExpire) := fun _ _ h => nomatch h
theorem ringFetch (sq : Nat) : Statement (.ringFetch sq) := fun _ _ h => nomatch h
theorem commandAdmit : Statement (.commandAdmit) := fun _ _ h => nomatch h
theorem slotWaitTimeout (cls : Nat) : Statement (.slotWaitTimeout cls) := fun _ _ h => nomatch h
theorem holdTimeout (cmd : Nat) : Statement (.holdTimeout cmd) := fun _ _ h => nomatch h
theorem completionGenerate (cmd : Nat) (late : Bool) (waits : List Nat) (latencyNs : Nat) : Statement (.completionGenerate cmd late waits latencyNs) := fun _ _ h => nomatch h
theorem cqSpacePoll (cq : Nat) : Statement (.cqSpacePoll cq) := fun _ _ h => nomatch h
theorem cqDetachTimeout (cq : Nat) : Statement (.cqDetachTimeout cq) := fun _ _ h => nomatch h
theorem cmdPdSelWrite (m : Master) (v : Word) : Statement (.cmdPdSelWrite m v) := fun _ _ h => nomatch h
theorem msubGo (m : Master) : Statement (.msubGo m) := fun _ _ h => nomatch h
theorem readCmd (cmd : Nat) : Statement (.readCmd cmd) := fun _ _ h => nomatch h
theorem writeCmd (cmd : Nat) : Statement (.writeCmd cmd) := fun _ _ h => nomatch h
theorem writeZeroes (cmd : Nat) : Statement (.writeZeroes cmd) := fun _ _ h => nomatch h
theorem deallocate (cmd : Nat) : Statement (.deallocate cmd) := fun _ _ h => nomatch h
theorem flushCmd (cmd : Nat) : Statement (.flushCmd cmd) := fun _ _ h => nomatch h
theorem verifyCmd (cmd : Nat) : Statement (.verifyCmd cmd) := fun _ _ h => nomatch h
theorem readTags (cmd : Nat) : Statement (.readTags cmd) := fun _ _ h => nomatch h
theorem releaseCmd (cmd : Nat) : Statement (.releaseCmd cmd) := fun _ _ h => nomatch h
theorem abortCmd (cmd : Nat) : Statement (.abortCmd cmd) := fun _ _ h => nomatch h
theorem identifyDevice (cmd : Nat) : Statement (.identifyDevice cmd) := fun _ _ h => nomatch h
theorem identifyVolume (cmd : Nat) : Statement (.identifyVolume cmd) := fun _ _ h => nomatch h
theorem configRead (cmd : Nat) : Statement (.configRead cmd) := fun _ _ h => nomatch h
theorem configWrite (cmd : Nat) : Statement (.configWrite cmd) := fun _ _ h => nomatch h
theorem queueCreateSq (cmd : Nat) : Statement (.queueCreateSq cmd) := fun _ _ h => nomatch h
theorem queueCreateCq (cmd : Nat) : Statement (.queueCreateCq cmd) := fun _ _ h => nomatch h
theorem queueAttach (cmd : Nat) : Statement (.queueAttach cmd) := fun _ _ h => nomatch h
theorem queueDeleteSq (cmd : Nat) : Statement (.queueDeleteSq cmd) := fun _ _ h => nomatch h
theorem queueDeleteCq (cmd : Nat) : Statement (.queueDeleteCq cmd) := fun _ _ h => nomatch h
theorem volumeCreate (cmd : Nat) (blk : List Byte) : Statement (.volumeCreate cmd blk) := fun _ _ h => nomatch h
theorem volumeDelete (cmd : Nat) : Statement (.volumeDelete cmd) := fun _ _ h => nomatch h
theorem volumeReshapeStart (cmd : Nat) (blk : List Byte) : Statement (.volumeReshapeStart cmd blk) := fun _ _ h => nomatch h
theorem volumeReshapeAbandon (cmd : Nat) (blk : List Byte) : Statement (.volumeReshapeAbandon cmd blk) := fun _ _ h => nomatch h
theorem setAccess (cmd : Nat) (blk : List Byte) : Statement (.setAccess cmd blk) := fun _ _ h => nomatch h
theorem volumeQuery (cmd : Nat) : Statement (.volumeQuery cmd) := fun _ _ h => nomatch h
theorem getLog (cmd : Nat) : Statement (.getLog cmd) := fun _ _ h => nomatch h
theorem keyLoad (cmd : Nat) (blk : List Byte) : Statement (.keyLoad cmd blk) := fun _ _ h => nomatch h
theorem keyClear (cmd : Nat) : Statement (.keyClear cmd) := fun _ _ h => nomatch h
theorem sanitizeOverwrite (cmd : Nat) (blk : List Byte) : Statement (.sanitizeOverwrite cmd blk) := fun _ _ h => nomatch h
theorem sanitizeBlockErase (cmd : Nat) (blk : List Byte) : Statement (.sanitizeBlockErase cmd blk) := fun _ _ h => nomatch h
theorem sanitizeDriveOverwrite (cmd : Nat) (blk : List Byte) : Statement (.sanitizeDriveOverwrite cmd blk) := fun _ _ h => nomatch h
theorem formatCmd (cmd : Nat) (blk : List Byte) : Statement (.formatCmd cmd blk) := fun _ _ h => nomatch h
theorem formatApply (vol : Nat) : Statement (.formatApply vol) := fun _ _ h => nomatch h
theorem selfTestShort (cmd : Nat) : Statement (.selfTestShort cmd) := fun _ _ h => nomatch h
theorem selfTestExtended (cmd : Nat) : Statement (.selfTestExtended cmd) := fun _ _ h => nomatch h
theorem selfTestStop (cmd : Nat) : Statement (.selfTestStop cmd) := fun _ _ h => nomatch h
theorem selfTestTimeout : Statement (.selfTestTimeout) := fun _ _ h => nomatch h
theorem imageLoad (cmd : Nat) (blk : List Byte) (read : ImageRead) : Statement (.imageLoad cmd blk read) := fun _ _ h => nomatch h
theorem imageActivate (cmd : Nat) (blk : List Byte) (fw : FwImage) (img : PlanImage) : Statement (.imageActivate cmd blk fw img) := fun _ _ h => nomatch h
theorem imageCopyFirstFlash : Statement (.imageCopyFirstFlash) := fun _ _ h => nomatch h
theorem memberFail (cmd : Nat) (blk : List Byte) : Statement (.memberFail cmd blk) := fun _ _ h => nomatch h
theorem memberRetire (cmd : Nat) (blk : List Byte) : Statement (.memberRetire cmd blk) := fun _ _ h => nomatch h
theorem slotOff (cmd : Nat) (blk : List Byte) : Statement (.slotOff cmd blk) := fun _ _ h => nomatch h
theorem slotOn (cmd : Nat) (blk : List Byte) : Statement (.slotOn cmd blk) := fun _ _ h => nomatch h
theorem adoptMember (cmd : Nat) (blk : List Byte) : Statement (.adoptMember cmd blk) := fun _ _ h => nomatch h
theorem setShare (cmd : Nat) (blk : List Byte) : Statement (.setShare cmd blk) := fun _ _ h => nomatch h
theorem pauseVolume (cmd : Nat) (blk : List Byte) : Statement (.pauseVolume cmd blk) := fun _ _ h => nomatch h
theorem resumeVolume (cmd : Nat) (blk : List Byte) : Statement (.resumeVolume cmd blk) := fun _ _ h => nomatch h
theorem counterSetupDump (cmd : Nat) (blk : List Byte) : Statement (.counterSetupDump cmd blk) := fun _ _ h => nomatch h
theorem clearSet (cmd : Nat) (blk : List Byte) : Statement (.clearSet cmd blk) := fun _ _ h => nomatch h
theorem sampleSetup (cmd : Nat) (blk : List Byte) : Statement (.sampleSetup cmd blk) := fun _ _ h => nomatch h
theorem windowSetup (cmd : Nat) (blk : List Byte) : Statement (.windowSetup cmd blk) := fun _ _ h => nomatch h
theorem copyOut (cmd : Nat) (blk : List Byte) : Statement (.copyOut cmd blk) := fun _ _ h => nomatch h
theorem regionCreate (cmd : Nat) : Statement (.regionCreate cmd) := fun _ _ h => nomatch h
theorem regionDestroy (cmd : Nat) : Statement (.regionDestroy cmd) := fun _ _ h => nomatch h
theorem maintRequest (cmd : Nat) (blk : List Byte) : Statement (.maintRequest cmd blk) := fun _ _ h => nomatch h
theorem moveGroups (cmd : Nat) (blk : List Byte) : Statement (.moveGroups cmd blk) := fun _ _ h => nomatch h
theorem returnRoles (cmd : Nat) (blk : List Byte) : Statement (.returnRoles cmd blk) := fun _ _ h => nomatch h
theorem admitPier (cmd : Nat) (blk : List Byte) : Statement (.admitPier cmd blk) := fun _ _ h => nomatch h
theorem removePier (cmd : Nat) (blk : List Byte) : Statement (.removePier cmd blk) := fun _ _ h => nomatch h
theorem formGroup (cmd : Nat) (blk : List Byte) : Statement (.formGroup cmd blk) := fun _ _ h => nomatch h
theorem dissolveGroup (cmd : Nat) (blk : List Byte) : Statement (.dissolveGroup cmd blk) := fun _ _ h => nomatch h
theorem gateOn (cmd : Nat) (blk : List Byte) : Statement (.gateOn cmd blk) := fun _ _ h => nomatch h
theorem gateOff (cmd : Nat) (blk : List Byte) : Statement (.gateOff cmd blk) := fun _ _ h => nomatch h
theorem gateDrainExpire : Statement (.gateDrainExpire) := fun _ _ h => nomatch h
theorem groupForm (g : Nat) : Statement (.groupForm g) := fun _ _ h => nomatch h
theorem tagComputeDone (cmd : Nat) (granule : Nat) : Statement (.tagComputeDone cmd granule) := fun _ _ h => nomatch h
theorem parityComputeDone (cmd : Nat) (stripe : Nat) : Statement (.parityComputeDone cmd stripe) := fun _ _ h => nomatch h
theorem bitmapWriteComplete (vol : Nat) (region : Nat) (ok : Bool) : Statement (.bitmapWriteComplete vol region ok) := fun _ _ h => nomatch h
theorem dirtyIdleExpire (vol : Nat) (region : Nat) : Statement (.dirtyIdleExpire vol region) := fun _ _ h => nomatch h
theorem journalWriteComplete (group : Nat) (copy : Nat) (jseq : Nat) (ok : Bool) : Statement (.journalWriteComplete group copy jseq ok) := fun _ _ h => nomatch h
theorem journalCheckpoint (group : Nat) : Statement (.journalCheckpoint group) := fun _ _ h => nomatch h
theorem fragmentWriteComplete (cmd : Nat) (stripe : Nat) (col : Nat) (r : DriveResult) : Statement (.fragmentWriteComplete cmd stripe col r) := fun _ _ h => nomatch h
theorem driveReadComplete (cmd : Nat) (stripe : Nat) (col : Nat) (first : Nat) (r : DriveResult) : Statement (.driveReadComplete cmd stripe col first r) := fun _ _ h => nomatch h
theorem driveFaultReport (slot : Nat) (report : FaultReport) : Statement (.driveFaultReport slot report) := fun _ _ h => nomatch h
theorem cstsPoll (slot : Nat) (cfs : Bool) : Statement (.cstsPoll slot cfs) := fun _ _ h => nomatch h
theorem driveCmdTimeout (slot : Nat) : Statement (.driveCmdTimeout slot) := fun _ _ h => nomatch h
theorem healthLogPoll (slot : Nat) (warning : Byte) : Statement (.healthLogPoll slot warning) := fun _ _ h => nomatch h
theorem asyncEventNotice (slot : Nat) (warning : Byte) : Statement (.asyncEventNotice slot warning) := fun _ _ h => nomatch h
theorem memberAnswer (slot : Nat) : Statement (.memberAnswer slot) := fun _ _ h => nomatch h
theorem memberFailTimeout (slot : Nat) (cause : Nat) : Statement (.memberFailTimeout slot cause) := fun _ _ h => nomatch h
theorem journalRemirrorComplete (group : Nat) (copy : Nat) : Statement (.journalRemirrorComplete group copy) := fun _ _ h => nomatch h
theorem catchupComplete (slot : Nat) : Statement (.catchupComplete slot) := fun _ _ h => nomatch h
theorem bandRestoreStart (group : Nat) : Statement (.bandRestoreStart group) := fun _ _ h => nomatch h
theorem bandRestoreComplete (group : Nat) : Statement (.bandRestoreComplete group) := fun _ _ h => nomatch h
theorem copybackComplete (group : Nat) (position : Nat) : Statement (.copybackComplete group position) := fun _ _ h => nomatch h
theorem rebuildProgressTick (group : Nat) (mbps : Nat) (gibLeft : Nat) : Statement (.rebuildProgressTick group mbps gibLeft) := fun _ _ h => nomatch h
theorem reshapeUnitCopy (vol : Nat) : Statement (.reshapeUnitCopy vol) := fun _ _ h => nomatch h
theorem reshapeSwitch (vol : Nat) : Statement (.reshapeSwitch vol) := fun _ _ h => nomatch h
theorem reshapeAbandonDone (vol : Nat) : Statement (.reshapeAbandonDone vol) := fun _ _ h => nomatch h
theorem sanitizeStatusPoll (slot : Nat) (done : Bool) (failed : Bool) : Statement (.sanitizeStatusPoll slot done failed) := fun _ _ h => nomatch h
theorem overwriteCursorTick (vol : Nat) (finished : Bool) : Statement (.overwriteCursorTick vol finished) := fun _ _ h => nomatch h
theorem heartbeatSend : Statement (.heartbeatSend) := fun _ _ h => nomatch h
theorem heartbeatReceive (pathB : Bool) (h : Heartbeat) : Statement (.heartbeatReceive pathB h) := fun _ _ h => nomatch h
theorem heartbeatMiss (pathB : Bool) : Statement (.heartbeatMiss pathB) := fun _ _ h => nomatch h
theorem partnerHaltedReceive : Statement (.partnerHaltedReceive) := fun _ _ h => nomatch h
theorem powerFailFrameReceive : Statement (.powerFailFrameReceive) := fun _ _ h => nomatch h
theorem healthSend : Statement (.healthSend) := fun _ _ h => nomatch h
theorem healthReceive (h : Health) : Statement (.healthReceive h) := fun _ _ h => nomatch h
theorem mirrorReceive (mseq : Nat) (items : List MirrorItem) : Statement (.mirrorReceive mseq items) := fun _ _ h => nomatch h
theorem mirrorAckReceive (mseq : Nat) : Statement (.mirrorAckReceive mseq) := fun _ _ h => nomatch h
theorem mirrorResend : Statement (.mirrorResend) := fun _ _ h => nomatch h
theorem snapshotAcked (kcvAgree : Bool) : Statement (.snapshotAcked kcvAgree) := fun _ _ h => nomatch h
theorem arbiterAcquireComplete (n : Nat) (a : ArbAnswer) : Statement (.arbiterAcquireComplete n a) := fun _ _ h => nomatch h
theorem arbiterTimeout (n : Nat) : Statement (.arbiterTimeout n) := fun _ _ h => nomatch h
theorem arbitrationRetry : Statement (.arbitrationRetry) := fun _ _ h => nomatch h
theorem garpRepeat : Statement (.garpRepeat) := fun _ _ h => nomatch h
theorem preemptComplete (slot : Nat) : Statement (.preemptComplete slot) := fun _ _ h => nomatch h
theorem preemptTimeout (slot : Nat) : Statement (.preemptTimeout slot) := fun _ _ h => nomatch h
theorem ownershipRecordDurable : Statement (.ownershipRecordDurable) := fun _ _ h => nomatch h
theorem takeoverFinish : Statement (.takeoverFinish) := fun _ _ h => nomatch h
theorem selfFence : Statement (.selfFence) := fun _ _ h => nomatch h
theorem handoverStart : Statement (.handoverStart) := fun _ _ h => nomatch h
theorem handoverDrainTimeout : Statement (.handoverDrainTimeout) := fun _ _ h => nomatch h
theorem handoverReceive (groups : BitVec 6) (roles : BitVec 2) (lastMseq : Nat) : Statement (.handoverReceive groups roles lastMseq) := fun _ _ h => nomatch h
theorem stableTimeExpire : Statement (.stableTimeExpire) := fun _ _ h => nomatch h
theorem innerConnect (pier : Nat) : Statement (.innerConnect pier) := fun _ _ h => nomatch h
theorem innerIdleProbe (pier : Nat) : Statement (.innerIdleProbe pier) := fun _ _ h => nomatch h
theorem pierLossTimeout (pier : Nat) : Statement (.pierLossTimeout pier) := fun _ _ h => nomatch h
theorem fwdCmd (pier : Nat) (r : InnerRec) : Statement (.fwdCmd pier r) := fun _ _ h => nomatch h
theorem fwdCpl (pier : Nat) (r : InnerRec) : Statement (.fwdCpl pier r) := fun _ _ h => nomatch h
theorem fwdTrigger (pier : Nat) (r : InnerRec) : Statement (.fwdTrigger pier r) := fun _ _ h => nomatch h
theorem fragReq (pier : Nat) (r : InnerRec) (group : Nat) : Statement (.fragReq pier r group) := fun _ _ h => nomatch h
theorem fragDone (pier : Nat) (r : InnerRec) : Statement (.fragDone pier r) := fun _ _ h => nomatch h
theorem directoryRec (pier : Nat) (r : InnerRec) : Statement (.directoryRec pier r) := fun _ _ h => nomatch h
theorem epochRec (pier : Nat) (r : InnerRec) (group : Nat) : Statement (.epochRec pier r group) := fun _ _ h => nomatch h
theorem ownerWaitTimeout (cmd : Nat) : Statement (.ownerWaitTimeout cmd) := fun _ _ h => nomatch h
theorem entropyFault : Statement (.entropyFault) := fun _ _ h => nomatch h
theorem bistSliceStart : Statement (.bistSliceStart) := fun _ _ h => nomatch h
theorem sliceDrainTimeout : Statement (.sliceDrainTimeout) := fun _ _ h => nomatch h
theorem sliceSegmentEnd (r : SegResult) : Statement (.sliceSegmentEnd r) := fun _ _ h => nomatch h
theorem fuseBurn (m : Master) (v : Word) : Statement (.fuseBurn m v) := fun _ _ h => nomatch h
theorem hbmEccError (pc : Nat) (addr : Nat) (kind : EccKind) : Statement (.hbmEccError pc addr kind) := fun _ _ h => nomatch h
theorem pcRetireCopyDone (pc : Nat) : Statement (.pcRetireCopyDone pc) := fun _ _ h => nomatch h
theorem maintRequestRetry : Statement (.maintRequestRetry) := fun _ _ h => nomatch h
theorem cpuCoreError (core : Nat) (uncorrectable : Bool) : Statement (.cpuCoreError core uncorrectable) := fun _ _ h => nomatch h
theorem sensorDisagree (sensor : Nat) : Statement (.sensorDisagree sensor) := fun _ _ h => nomatch h
theorem refclkLoss (clk : Nat) : Statement (.refclkLoss clk) := fun _ _ h => nomatch h
theorem refclkRestore (clk : Nat) : Statement (.refclkRestore clk) := fun _ _ h => nomatch h
theorem fatalClockFault : Statement (.fatalClockFault) := fun _ _ h => nomatch h
theorem counterSnapshot : Statement (.counterSnapshot) := fun _ _ h => nomatch h
theorem windowPublish (ports inner : List Nat) : Statement (.windowPublish ports inner) := fun _ _ h => nomatch h
theorem ctrPrivSelWrite (m : Master) (v : Word) : Statement (.ctrPrivSelWrite m v) := fun _ _ h => nomatch h
theorem sampleLfsrReseed : Statement (.sampleLfsrReseed) := fun _ _ h => nomatch h
theorem traceRecordDrop : Statement (.traceRecordDrop) := fun _ _ h => nomatch h
theorem trestleConnectReply (net : Net) (pk : Pkt) : Statement (.trestleConnectReply net pk) := fun _ _ h => nomatch h
theorem trestleResume (net : Net) (pk : Pkt) : Statement (.trestleResume net pk) := fun _ _ h => nomatch h
theorem epochGrantReceive (pier : Nat) (group : Nat) (epoch : Nat) (arbiter : Bool) : Statement (.epochGrantReceive pier group epoch arbiter) := fun _ _ h => nomatch h
theorem selfTestComplete (failed : Word) (driveFails : BitVec 24) (first : Word) : Statement (.selfTestComplete failed driveFails first) := fun _ _ h => nomatch h
theorem fuseBurnComplete (ok : Bool) : Statement (.fuseBurnComplete ok) := fun _ _ h => nomatch h
theorem dumpWriteComplete : Statement (.dumpWriteComplete) := fun _ _ h => nomatch h
theorem scrubTick (step : ScrubStep) : Statement (.scrubTick step) := fun _ _ h => nomatch h

end Sys2Proof.Laws.WordBits
end

