-- ==== Sys2Proof/Tests/Slice0.lean ====
section
/-! SUPPORT. Own tests: ill-formed commands that the check refuses, the spec's worked examples, one small step each, and for every
obligation with hypotheses a concrete state and operands that meet them. -/

open Sys2Proof Sys2Proof.Machine

namespace Sys2Proof.Tests

set_option Elab.async false

/-! ### Small states -/

/-- The device as reset leaves it, changed by `f`, in a device state. -/
def atWith (st : DevSt) (f : Dev → Dev) : State := { dev := f { glb := { st, planApplied := st == .maint }, pwr.dom := [(59, .on)] } }
def at_ (st : DevSt) : State := atWith st id

def goodFw : FwImage := {}
def bootSt : State := atWith .boot fun d => { d with glb.bootOrder := [0, 1], pwr.dom := [(55, .on)] }
def mgmtSt : State := atWith .boot fun d => { d with glb.mgmtWait := true, pwr.dom := [(55, .on)] }
def planSt : State := atWith .plan fun d => { d with glb.fwSource := 0 }
def candSt : State := atWith .plan fun d => { d with pln.cand := some {} }

def noMacros : List MacroPlan := List.replicate 8 { present := false }
/-- Does a register exist under the small floor plan? -/
def tinyHas (o : Nat) : Bool := (regInfo (withPlan {} { macros := noMacros }) o).isSome
/-- A small floor plan that passes every check: no Ethernet macro, one group of four drives, unpaired. -/
def tinyPlan : Plan :=
  { macros := noMacros, groups := [[0, 1, 2, 3]], arbiters := [0, 1, 2],
    regs := (nonzeroRegs.filter tinyHas).map fun o =>
      (o, if o == 0x10000 then 148 else if o == 0x10030 then 0x5695F else if o == 0x300040 then 100 else if o == 0x300044 then 10000
        else if o == 0x400080 then 0x10204 else if o == 0x500400 then 0x140014 else if o == 0x620000 then 2000
        else if o == 0x620004 then 0x101003 else if o == 0x620008 then 30000 else if o == 0x62000C then 64
        else if o == 0x800010 then 24 else if o < 0x200000 then 0xC80C350 else 9216) }
/-- The TLV area of an image whose sections are empty, the header that names its PLAN_ID and CRC, and a signature block. -/
def tinyArea : List Byte := requiredSections.flatMap fun t => le 2 t ++ [1, 0] ++ le 4 0
def tinySig : List Byte := le 4 0x47534651 ++ le 2 1 ++ zeros 250
def tinyHead (crc : Nat) : List Byte :=
  le 4 0x4C504651 ++ le 2 1 ++ le 2 1 ++ le 4 416 ++ le 4 crc ++ le 8 (leAt (sha384 tinyArea) 0 8) ++ zeros 8 ++ le 2 0 ++ le 2 0x2408
    ++ le 4 0 ++ le 4 96 ++ le 2 12 ++ zeros 2 ++ zeros 16
def tinyImage : PlanImage :=
  { bytes := tinyHead (crc32c (tinyHead 0 ++ tinyArea ++ tinySig)).toNat ++ tinyArea ++ tinySig, content := tinyPlan }

theorem thas_listed {α : Type} (p : Nat → Bool) (f : Nat → α) (o : Nat) (hp : p o = true) : ∀ l : List Nat, o ∈ l →
    thas ((l.filter p).map fun o => (o, f o)) o = true := by
  intro l
  induction l with
  | nil => intro h; cases h
  | cons a l ih =>
    intro h
    by_cases ha : a = o
    · subst ha
      simp [hp, thas, tget]
    · have hl : o ∈ l := by simpa [Ne.symm ha] using h
      cases hq : p a
      · simpa [List.filter_cons, hq] using ih hl
      · have := ih hl
        simpa [List.filter_cons, hq, thas, tget, ha] using this

/-- The plan that the small image holds. -/
def readPlan : Plan := { tinyPlan with planId := 15696083204839805303, mgmtAddr := 0x5C, pmbusKhz := 400, regulators := [] }

theorem imgPlan_tiny : imgPlan tinyImage = readPlan := by
  have h : leAt tinyImage.bytes 16 8 = 15696083204839805303 := by decide +kernel
  have a : bitAt (imgHdr tinyImage 6 2) 0 = true := by decide +kernel
  have b : imgHdr tinyImage 24 8 = 0 := by decide +kernel
  have c : imgHdr tinyImage 32 2 = 0 := by decide +kernel
  have e : imgValue tinyImage 0xD = none := by decide +kernel
  have f : imgValue tinyImage 0xC = none := by decide +kernel
  have g : imgValue tinyImage 0xF = none := by decide +kernel
  have h' : imgHdr tinyImage 16 8 = 15696083204839805303 := h
  unfold imgPlan
  rw [a, b, c, e, f, g, h']
  rfl

/-- Every register that 0 is out of range for is listed where it exists. -/
theorem readPlan_lists : (nonzeroRegs.all fun o => thas readPlan.regs o || !(regInfo (withPlan planSt.dev readPlan) o).isSome) = true := by
  have same : (nonzeroRegs.all fun o => tinyHas o || !(regInfo (withPlan planSt.dev readPlan) o).isSome) = true := by decide +kernel
  rw [List.all_eq_true] at same ⊢
  intro o ho
  cases h : tinyHas o
  · have := same o ho
    rw [h, Bool.false_or] at this
    rw [this, Bool.or_true]
  · have : thas readPlan.regs o = true := thas_listed tinyHas _ o h nonzeroRegs ho
    rw [this, Bool.true_or]

set_option maxRecDepth 100000 in
/-- The content checks pass, on the plan as read. -/
theorem tinyImage_content : contentOk planSt.dev tinyImage = true := by
  have h10 : check10 planSt.dev readPlan = true := by
    unfold check10
    dsimp only
    rw [readPlan_lists]
    decide +kernel
  have h1 : check1 tinyImage = true := by decide +kernel
  have h2 : check2 planSt.dev tinyImage = true := by decide +kernel
  have h7 : check7 planSt.dev readPlan = true := by decide +kernel
  have hv : (imgValue tinyImage 0xD).all viaRanges = true := by decide +kernel
  unfold contentOk
  dsimp only
  rw [imgPlan_tiny, h1, h2, h7, h10, hv]
  decide +kernel

set_option maxRecDepth 100000 in
/-- The small image passes every check but the signature's, which `true` stands for. -/
theorem tinyImage_accepted : planJudge planSt.dev tinyImage true = 1 := by
  have hc : imgCrc tinyImage = imgHdr tinyImage 12 4 := by decide +kernel
  unfold planJudge
  rw [tinyImage_content, hc]
  decide +kernel

def drvSt (b : Bring) : State := atWith .train fun d => { d with
  sense.present := 0x800000, pwr.dom := [(31, .on)], sto.drives := [(23, { bring := b })] }
def hotSt : State := atWith .service fun d => { d with pwr.thermalCap := some 144000, sense.tjMax := 1840 }
def coolSt : State := atWith .service fun d => { d with pwr.thermalCap := some 144000, sense.tjMax := 1600 }
def avsSt (mv : Nat) : State := atWith .service fun d => { d with sense.avsMv := mv, sense.avsSet := true }
def heldSt : State := atWith .service fun d => { d with
  reg.live := [(0x10000, 0x640094)], cmd.heldSince := [(3, 0)], cmd.sqs := [(3, { cls := 0 })],
  cmd.bufs := [(0, [{ sq := 3, cap := zeros 96 }])] }
def domSt (p : DomPhase) : State := atWith .service fun d => { d with pwr.dom := [(0, p), (35, .on)] }
/-- PLAN with CPU0 rising as the last domain of the switch-on sequence. -/
def turnSt : State := atWith .plan fun d => { d with pwr.turn := some 3, pwr.dom := [(0, .rising), (1, .on)] }
/-- HALT, with the debug domain on and a challenge given. -/
def dbgSt : State := atWith .halt fun d => { d with pwr.dom := [(62, .on)], acc.challenged := true }
def haltSt : State := atWith .service fun d => { d with glb.shutdown := true, pwr.dom := [] }
def pairPlan : Plan := { unpaired := false, pwEn := true, hasPair := true }
def pairSt (st : DevSt) : State := atWith st fun d => { d with pln.plan := pairPlan }
def goodJoin : JoinInfo := { side := true, state := 7, ownsMine := true, plan := pairPlan }
def recSt (phase : Nat) : State := atWith .recovery fun d => { d with
  sto.groups := [(0, { formed := true, slots := [0, 1, 2, 3] })],
  sto.drives := (List.range 4).map fun k => (k, { st := .ok }), sto.recovery := if phase == 1 then [] else [(0, { phase })] }

def stagedSt : State := atWith .service fun d => { d with reg.staged := [(0x800010, 24)], reg.live := [(0x800010, 100)] }

/-- A live port 4 (macro 1, one port of four lanes). -/
def ethSt (x : Port) : State := atWith .service fun d => { d with
  pln.plan := { macros := List.replicate 8 { maxFrame := [9216, 9216, 9216, 9216] } }, pwr.dom := [(1, .on), (35, .on), (59, .on)], eth.ports := [(4, x)] }
def upPort : Port := { up := true, lanes := [0, 1, 2, 3] }
def fcSt : State := { dev := { (ethSt upPort).dev with reg.live := [(0x110100, 1)], swc.xoff := [268] } }
def pfcSt : State := { dev := { (ethSt upPort).dev with reg.live := [(0x110100, 0x8000)] } }
/-- VLAN 5 is entry 255 of the VLAN table, with port 4 a member. -/
def swSt : State := { dev := { (ethSt upPort).dev with reg.live := [(0x2027F0, 0x80000005), (0x2027F4, 0x10)] } }
def aFrame : Frame := { dst := 0x0200000000AA, src := 0x0200000000BB, tag := some (5, 0), etype := 0x800, len := 64 }
/-- A small frame of the ring engine is withheld; its queue could take it now. -/
def holdSt : State := { dev := { swSt.dev with swc.holdoff := [{ src := 33, dest := 4, frame := { len := 64 } }] } }
def fullSt : State := atWith .service fun d => { d with pln.plan := swSt.dev.pln.plan, eth.ports := [(4, upPort)] }
def intFrame : IntFrame := { src := 33, dest := 4, frame := { len := 9216 } }
def txSt : State := { dev := { (ethSt upPort).dev with swc.queues := [(64, { frames := [{ bytes := 64, cells := 1 }] })] } }

/-- A small packet of opcode `op` for connection `dst`, with its trailer. -/
def pk (op dst psn msn : Nat) (body : List Byte) : Pkt :=
  sealPkt { verOp := verOp op, dstConn := BitVec.ofNat 32 dst, psn := BitVec.ofNat 32 psn, msn := BitVec.ofNat 32 msn, body }
def aNet : Net := { srcIp := 10, srcPort := 0xC000, dstIp := 20 }
def baseConn : Conn := { r := { hostIp := 10 }, edge := 0x40000 }
/-- A device in SERVICE with connection 0, resident. -/
def trsSt (x : Conn) : State := atWith .service fun d => { d with
  pwr.dom := [(43, .on), (59, .on)], trs.conns := [(0, x)], trs.resident := [0] }
/-- The same with the connection's protection domain enabled. -/
def resSt (x : Conn) : State := { dev := { (trsSt x).dev with trs.pds := [(baseConn.r.pd, { enabled := true })] } }
/-- The same a long time after reset. -/
def rtoSt (x : Conn) : State := { dev := { (trsSt x).dev with time := 1000000000000 } }
def aRegion : Region := { vaBase := 0x10000, length := 0x1000, offset := 0x2000, partition := 2, gen := 5, remoteRead := true, remoteWrite := true }
def wrSt : State := { dev := { (trsSt baseConn).dev with trs.regions := [(1, aRegion)] } }
def wrPk : Pkt := sealPkt { verOp := 0x11, dstConn := 1, psn := 5, msgLen := 3, addr := 0x10100, key := 0x1005, body := [1, 2, 3] }
def rdConn : Conn := { baseConn with paths := [(0, {})] }
def rdSt : State := { dev := { (trsSt rdConn).dev with trs.regions := [(1, aRegion)], trs.pantry := [(0x2100, 9)] } }
def rdPk : Pkt := sealPkt { verOp := 0x12, dstConn := 1, psn := 5, msgLen := 64, addr := 0x10100, key := 0x1005, tag := 7, body := zeros 16 }
/-- A read of 8 bytes of the head word of CQ 0. -/
def rsRead (n : Nat) : ReadOut := { id := 77, msn := 0, len := n, addr := 0x1000, key := 5, use := .cqHead 0 }
def rsConn (n : Nat) : Conn := { baseConn with reads := [rsRead n] }
def rsSt (n : Nat) : State := { dev := { (trsSt (rsConn n)).dev with cmd.cqs := [(0, { reading := true })] } }
def rsPk : Pkt := sealPkt { verOp := 0x13, dstConn := 1, psn := 5, msgLen := 8, addr := 0x1000, key := 5, tag := 77, body := [3] ++ zeros 7 }
def plRead : ReadOut := { id := 77, msn := 0, len := 4096, addr := 0x1000, key := 5, use := .pull 3 0 }
def plConn : Conn := { baseConn with reads := [plRead] }
def plSt : State := { dev := { (trsSt plConn).dev with cmd.slots := [(3, { phase := .running, cap := [2] ++ zeros 15 ++ [1] ++ zeros 47 })] } }
def plPk : Pkt := sealPkt { verOp := 0x13, dstConn := 1, psn := 5, msgLen := 4096, addr := 0x1000, key := 5, tag := 77, body := [3, 4] }
def conSt : State := atWith .service fun d => { d with pwr.dom := [(43, .on), (59, .on)], trs.pds := [(3, { token := 9, enabled := true, maxConn := 2 })] }
def conPk : Pkt := pk 0xA 0 0 0 (be 8 9 ++ be 4 77 ++ be 2 3 ++ be 2 48131 ++ be 2 0xC000 ++ [16, 0] ++ be 4 100 ++ be 8 5 ++ be 8 0x1005 ++ be 8 1)
/-- Connection 0 is the inner connection to pier 5 of a viaduct on which this is pier 2. -/
def inConn : Conn := { baseConn with r := { baseConn.r with inner := some 5, nonce := 99 } }
def inSt (x : Conn) : State := { dev := { (trsSt x).dev with pln.plan := { pier := 2, viaduct := some {} } } }

/-- SQ 0 bound to CQ 0, with a new capsule in its ring. -/
def sqSt : State := atWith .service fun d => { d with
  cmd.sqs := [(0, {})], cmd.cqs := [(0, {})], trs.wrs := [(0, { running := true })], trs.rings := [(1, 0x80)] }
def admSt (cls : Nat) : State := atWith .service fun d => { d with
  pwr.dom := [(59, .on), (60, .on)], reg.live := [(0x400080, 0x10204)], cmd.sqs := [(0, { cls })], cmd.cqs := [(0, {})], cmd.bufs := [(cls, [{ cap := zeros 64 }])] }
/-- The plan reserves every slot for others. -/
def fullCmd : State := { dev := { (admSt 4).dev with pln.plan := { slotReserve := [131072, 0, 0, 0, 0] } } }
/-- One command in slot 3, of SQ 0 with CQ 0. -/
def slSt (x : Slot) : State := atWith .service fun d => { d with
  pwr.dom := [(59, .on), (60, .on)], reg.live := [(0x400054, 5)], cmd.sqs := [(0, {})], cmd.cqs := [(0, {})], cmd.slots := [(3, x)] }
def aRing : Region := { partition := 1, length := 1024, gen := 5, ring := true }
/-- QUEUE_CREATE of a type, for queue 5. -/
def sqc (t : Nat) : Slot :=
  let key := if t == 0 then 0x1005 else 1
  { cap := [0x83, 0, 0, 0, 5, 0, BitVec.ofNat 8 t, 0] ++ le 2 16 ++ le 2 0 ++ le 4 key ++ zeros 48 }
def sqcSt (t : Nat) : State := { dev := { (trsSt { baseConn with st := .established }).dev with
  trs.regions := [(1, aRing)], cmd.cqs := (if t == 2 then [(0, {}), (5, { detached := true })] else [(0, {})]), cmd.slots := [(3, sqc t)] } }
def sqd (t : Nat) : Slot := { cap := [0x84, 0, 0, 0, 5, 0, BitVec.ofNat 8 t, 0] ++ zeros 56 }
def sqdSt (t : Nat) : State := atWith .service fun d => { d with
  cmd.sqs := (if t == 0 then [(5, { cq := 1 })] else []), cmd.cqs := [(5, {})], cmd.slots := [(3, sqd t)] }
/-- ABORT of command 7 of SQ 0. -/
def abCmd : Slot := { cap := [9, 0, 0, 0, 7] ++ zeros 59 }
def abSt : State := { dev := { (slSt abCmd).dev with cmd.slots := [(3, abCmd), (4, { cid := 7, cap := [2] ++ zeros 63 })] } }
def idCmd : Slot := { cap := [0x80] ++ zeros 16 ++ [0x10] ++ zeros 46 }
/-- REGION_CREATE of 4,096 bytes of the pantry. -/
def rgCmd : Slot := { cap := [0x93] ++ zeros 35 ++ le 8 4096 ++ le 8 (2 * 2 ^ 48) ++ [3, 0] ++ zeros 10 }
def rgSt : State := { dev := { (slSt rgCmd).dev with trs.pds := [(0, { enabled := true, regionLimit := 4 })] } }
def rdsCmd : Slot := { cap := [0x94] ++ zeros 7 ++ le 4 0x1005 ++ zeros 52 }
def rdsSt : State := { dev := { (slSt rdsCmd).dev with trs.regions := [(1, aRegion)] } }

/-- Group 0 of four OK drives, valid, with three journal copies. -/
def aGroup : Group := { formed := true, slots := [0, 1, 2, 3], slabs := 100, journal := { copies := [(0, 0), (1, 1), (2, 2)], live := [0, 1, 2] } }
def okDrives : Tab Drive := (List.range 4).map fun k => (k, { st := .ok, bring := .ready, pos := k, group := 0 })
/-- Volume 1 of MIRROR2 on it, of 1,000 blocks, with one slab. -/
def aVol : Volume := { lay := { scheme := 0, blocks := 1000, slabs := [2], chunk := 0 }, granule := 0, kcv := [], access := [] }
def volSt (x : Slot) (v : Volume) : State := { dev := { (slSt x).dev with
  sto.groups := [(0, aGroup)], sto.drives := okDrives, sto.vols := [(1, v)] } }
/-- An I/O command of one block at LBA 3 of volume 1. -/
def ioSlot (op : Nat) : Slot :=
  { cap := [BitVec.ofNat 8 op, 0, 0, 0, 1, 0, 0, 0] ++ le 6 3 ++ [0, 0] ++ le 4 (if op == 5 then 0 else 1) ++ zeros 44, place := some 0 }
def tagSt : State := volSt { ioSlot 2 with phase := .held, key := some {}, data := zeros 4096, landed := 4096, cap := [2, 0, 0, 0, 1, 0, 0, 0] ++ zeros 8 ++ le 4 1 ++ zeros 44 } aVol
def ecVol : Volume := { aVol with lay := { aVol.lay with scheme := 2, k := 2, m := 1 }, alloc := [0] }
def ecWork : Work := { stripe := 0, lba := 3, count := 1, blk := [(ckey 0 3, zeros 4096)], shd := [(ckey 0 3, zeros 8)] }
def ecSlot : Slot := { ioSlot 6 with phase := .running, planned := true, works := [ecWork] }
def ecSt : State := volSt ecSlot ecVol
def jSt : State := atWith .service fun d => { d with
  sto.groups := [(0, { aGroup with journal := { aGroup.journal with recs := [{ r := { jseq := 1, body := .alloc [] }, pend := [2] }] } })] }
def jSt2 : State := atWith .service fun d => { d with
  sto.groups := [(0, { aGroup with journal := { aGroup.journal with recs := [{ r := { jseq := 1, body := .alloc [] }, durable := true, done := true }, { r := { jseq := 2, body := .alloc [] } }], next := 3 } })] }
def jSt3 : State := atWith .service fun d => { d with
  sto.groups := [(0, { aGroup with journal := { aGroup.journal with live := [0, 2], remirror := [(1, 7)] } })] }
def wrkWork : Work := { computed := true, frags := [{ col := 0, st := .sent }, { col := 1, st := .sent }] }
def wrkSlot : Slot := { ioSlot 2 with phase := .running, planned := true, staged := true, recsMade := true, works := [wrkWork] }
def drVol : Volume := { aVol with alloc := [0] }
def drWork : Work := { lba := 3, count := 2, asked := [(0, 3, 1), (0, 4, 1)] }
def drSlot : Slot := { ioSlot 1 with phase := .running, planned := true, works := [drWork], cap := [1, 0, 0, 0, 1, 0, 0, 0] ++ le 6 3 ++ [0, 0] ++ le 4 2 ++ zeros 44 }
def drDone : Work := takeRead drWork 1 8 0 3 1 (zeros 4096) (zeros 8)
def wrkSt (x : Slot) : State := volSt x aVol
/-- The drives of a group as `okDrives`, with slot 2 in a state. -/
def flt (st : MemberSt) : State := atWith .service fun d => { d with
  sto.groups := [(0, aGroup)], sto.drives := tset okDrives 2 { st, bring := .ready, pos := 2, group := 0, catching := true, behind := [(1, 7)], resetAt := some 0 } }
/-- Group 0 with position 1 failed, a band under restoration and redo stripes. -/
def rstGroup (b : Option BandId) (redo : List Nat) : Group := { aGroup with failed := [(1, some 9)], restoring := b, redo }
def rst (b : Option BandId) (redo : List Nat) : State := atWith .service fun d => { d with
  sto.groups := [(0, rstGroup b redo)], sto.vols := [(1, aVol)],
  sto.drives := tset (tset okDrives 1 { st := .failed, pos := 1, group := 0 }) 9 { st := .rebuilding, pos := 1, group := 0 } }
def cbSt : State := { dev := { (rst none []).dev with sto.vols := [] } }
def rshLay : Layout := { scheme := 0, blocks := 1000, slabs := [3], chunk := 1 }
def rshVol : Volume := { aVol with newLay := some rshLay }
def rshSt (v : Volume) : State := atWith .service fun d => { d with
  sto.groups := [(0, aGroup)], sto.drives := okDrives, sto.vols := [(1, v)] }
def formSt : State := atWith .service fun d => { d with
  glb.joinDone := true, pln.plan := tinyPlan, sto.drives := (List.range 4).map fun k => (k, { st := .spare }) }

theorem next_isSome (d : Dev) (g : Nat) (x : Int × BandId) (h : x ∈ owedBands d g) (hb : bgRuns d (keyVol x.2.1) = true) :
    (nextToRestore d g).isSome = true := by
  have aux : ∀ (l : List (Int × BandId)) (r : Option (Int × BandId)), (r.isSome = true ∨ l ≠ []) →
      (l.foldl (fun r x => match r with | none => some x | some y => if x.1 < y.1 then some x else r) r).isSome = true := by
    intro l
    induction l with
    | nil => intro r hr; simpa using hr
    | cons a l ih =>
      intro r _
      refine ih _ (.inl ?_)
      cases r with
      | none => rfl
      | some y => dsimp only; split <;> rfl
  exact aux _ _ (.inr (List.ne_nil_of_mem (List.mem_filter.2 ⟨h, hb⟩)))

theorem owed_mem : ∃ lv, (lv, (1, 0, 0)) ∈ owedBands (rst none []).dev 0 := by
  refine ⟨((bandLevel (rst none []).dev 1 aVol aVol.lay 0 0).getD 1000), ?_⟩
  unfold owedBands
  rw [if_neg (by decide +kernel)]
  refine List.mem_flatMap.2 ⟨(1, aVol), by decide +kernel, List.mem_flatMap.2 ⟨(1, aVol.lay), by decide +kernel, ?_⟩⟩
  refine List.mem_flatMap.2 ⟨0, by decide +kernel, List.mem_filterMap.2 ⟨0, ?_, ?_⟩⟩
  · exact List.mem_range.2 (by decide +kernel)
  · exact if_neg (by decide +kernel)

/-- An administration command of firmware with a capsule and its block in staging. -/
def adCmd (op vol len : Nat) (tail : List Byte) (blk : List Byte) : Slot :=
  { cap := fit 64 ([BitVec.ofNat 8 op, 0, 0, 0] ++ le 2 vol ++ zeros 2 ++ fit 8 tail ++ le 4 len), master := fwCore, data := blk, landed := blk.length }
def qryCmd : Slot := adCmd 0x88 1 4096 [] []
def idvCmd : Slot := adCmd 0x80 1 4096 [1] []
def delCmd : Slot := adCmd 0x86 1 0 [] []
def accBlk : List Byte := le 2 1 ++ zeros 6 ++ [2] ++ zeros 55 ++ fit 256 (le 4 0 ++ le 4 0xBF)
def accCmd : Slot := adCmd 0x87 1 320 [] accBlk
/-- The volume parameter block of volume 9: MIRROR2 of 1,000 blocks on group 0, tags of 8 bytes, key page 2, SEED 7. -/
def mkBlk : List Byte := fit 320 (le 2 9 ++ [0, 0, 0, 0, 0, 0, 8, 0] ++ le 2 2 ++ [0, 0] ++ le 2 16 ++ zeros 8 ++ le 8 1000 ++ le 8 7)
def mkCmd : Slot := adCmd 0x85 0 320 [] mkBlk
def mkLay : Layout := blockLayout mkBlk 0
def mkSt : State := { dev := { (volSt mkCmd aVol).dev with pln.plan.keyPages := 64, itg.pages := [(2, { aes256 := false, key := zeros 16 })] } }
def rshBlk (op chunk blocks : Nat) : List Byte :=
  le 2 1 ++ [0, 0, 0, BitVec.ofNat 8 chunk, 0, 0] ++ [BitVec.ofNat 8 op] ++ zeros 15 ++ le 8 blocks ++ le 8 7 ++ zeros 24
def rshCmd : Slot := { adCmd 0x87 1 64 [] (rshBlk 0 0 2000) with landed := 64 }
def mcBlk (a : Nat) : List Byte := [BitVec.ofNat 8 a, 2, 1, 0, 5] ++ zeros 59
def mcCmd : Slot := { cap := [0x91] ++ zeros 63, master := fwCore, msub := true }
def mcSt (st : MemberSt) : State := { dev := { (volSt mcCmd aVol).dev with sto.drives := tset okDrives 2 { st, pos := 2, group := 0 } } }
def mcOff : State := { dev := { (volSt mcCmd aVol).dev with sto.drives := tset okDrives 2 { st := .absent, off := true } } }
def mcStr : State := { dev := { (volSt mcCmd aVol).dev with sto.drives := tset okDrives 2 { st := .present, id.hdr := { kind := 1, groupId := 99 } } } }
def klBlk : List Byte := fit 64 (zeros 32 ++ [1, 2, 3])
def klCmd : Slot := adCmd 0x8A 2 64 [] klBlk
def klSt : State := { dev := { (slSt klCmd).dev with pln.plan := { keyPages := 64 } } }
def kcCmd : Slot := adCmd 0x8B 2 0 [] []
def kcSt : State := { dev := { (slSt kcCmd).dev with pln.plan := { keyPages := 64 }, itg.pages := [(2, { aes256 := false, key := zeros 16 })] } }

def swBlk : List Byte := fit 64 ([0, 1, 2, 0] ++ le 4 0xA5A5A5A5)
def swCmd : Slot := adCmd 0x8C 1 64 [] swBlk
def fmBlk : List Byte := fit 64 ([0, 0, 0, 0, 0, 0, 0, 0, 16, 255] ++ le 2 0xFFFF)
def fmCmd : Slot := adCmd 0x8D 1 64 [] fmBlk
def beBlk : List Byte := fit 64 [1, 2, 0, 0]
def beCmd : Slot := adCmd 0x8C 0xFFFF 64 [] beBlk
def eraseDrive : Drive := { st := .spare, bring := .ready, id.sanBlockErase := true, id.sanOverwrite := true }
def beSt : State := { dev := { (slSt beCmd).dev with pln.plan := { spares := [5, 6] }, sto.drives := [(5, eraseDrive), (6, eraseDrive)] } }
def fmVol : Volume := { aVol with formatting := true, alloc := [3], op := some { vol := 1, op := 2, tagSize := 16, granule := 255, keyPage := 0xFFFF } }
def owVol (n : Nat) : Volume := { aVol with sanitizing := true, alloc := [3], op := some { vol := 1, op := 1, action := 1, passes := 1, slabsTotal := n } }
def stCmd (code : Nat) : Slot := adCmd 0x8E 0 0 [BitVec.ofNat 8 code] []
def ilBlk (total : Nat) : List Byte := fit 64 ([0, 0, 0, 0] ++ le 4 0 ++ le 4 total)
def ilCmd (len : Nat) : Slot := adCmd 0x8F 0 len [] (ilBlk 4 ++ zeros 4)
def iaBlk : List Byte := fit 64 [1, 1]
def iaCmd : Slot := adCmd 0x90 0 64 [] iaBlk
def iaSt : State := { dev := { (slSt iaCmd).dev with glb.st := .maint, glb.planApplied := true, glb.fwRoll := 7 } }
def crCmd : Slot := adCmd 0x81 0 0 (le 4 0x800010) []
def cwCmd : Slot := adCmd 0x82 0 24 (le 4 0x800010) []
def glCmd : Slot := { cap := fit 64 ([0x89, 0, 0, 0, 0, 0, 0, 0, 5, 0, 0, 0] ++ le 4 64 ++ le 4 4096), master := fwCore }
def csBlk (a k w : Nat) : List Byte := fit 64 ([BitVec.ofNat 8 a, BitVec.ofNat 8 k, 0, 0] ++ le 4 w)
def csCmd (a : Nat) : Slot := adCmd 0x92 0 64 [] (csBlk a 0 0)
def ctrSt : State := atWith .train fun d => { d with pwr.dom := [(61, .on)], reg.live := [(0xC00010, 5)], itg.rngFault := true }

/-- A device in SERVICE in a pair, with PW up. -/
def pr (st : PairSt) : State := atWith .service fun d => { d with
  pln.plan := { unpaired := false, pwEn := true, hasPair := true }, par.st := st, par.partnerPlan := 9, eth.ports := [(32, upPort)], pwr.dom := [(32, .on), (35, .on), (59, .on)] }
def aBeat : Heartbeat := { side := true, state := 7, planId := 9, seq := 5 }
def missSt : State := { dev := { (pr .paired).dev with par.pathA.misses := 7, par.pathB.misses := 8, par.owner := 0x15, pln.plan := { unpaired := false, groups := [[0, 1, 2, 3], [4, 5, 6, 7]] } } }
def pfSt : State := { dev := { (pr .paired).dev with pwr.fail := true } }
def giveSt (started : Bool) : State := { dev := { (pr .paired).dev with par.giving := some (1, 1, false), par.givingStarted := started } }
def takeSt (r : Option (BitVec 6 × Bool × Bool)) : State := { dev := { (pr .paired).dev with par.rxMseq := 5, par.newRecord := r } }
def goodHealth : Health := { state := 7, flags := 5 }
def retSt : State := { dev := { (pr .paired).dev with par.stableSince := some 0, par.health := some (goodHealth, 0) } }
/-- A pair with port 4 as path B. -/
def pbSt : State := { dev := { (pr .paired).dev with
  pln.plan := { unpaired := false, pwEn := true, hasPair := true, hbPorts := [4] },
  eth.ports := [(4, upPort), (32, upPort)] } }
/-- Data staging below 8,192 MiB, with a partner that can take what this device holds. -/
def lowSt : State := { dev := { (pr .paired).dev with
  par.maintRetry := true, par.partnerState := 7, par.health := some (goodHealth, 0),
  pln.plan := { unpaired := false, pwEn := true, hasPair := true, pantryMiB := 16384, ringMiB := 16384 } } }
def arbSt : State := { dev := { (pr .paired).dev with pln.plan := { unpaired := false, shelfB := [77] }, glb.st := .takeover, par.step := .arbitrate, par.arbiter := 1, par.won := 1 } }
def fenSt : State := { dev := { (pr .paired).dev with glb.st := .takeover, par.step := .fence, sto.drives := [(5, { fencing := true, bring := .ready })] } }
def finSt : State := { dev := { (pr .paired).dev with glb.st := .takeover, par.step := .resume, par.lost := true } }
def owBlk (a g r : Nat) : List Byte := fit 64 [BitVec.ofNat 8 a, BitVec.ofNat 8 g, BitVec.ofNat 8 r]
def owCmd : Slot := { cap := [0x95] ++ zeros 63, master := fwCore, msub := true }
def owSt : State := { dev := { (pr .paired).dev with par.partnerState := 7, par.health := some (goodHealth, 0), cmd.slots := [(3, owCmd)] } }

/-- Pier 2 of a viaduct with piers 2 and 4 to 8 listed, with one VIADUCT_CONTROL command. -/
def viPlan : ViaPlan := { pierMask := 0x1F4, piers := List.replicate 9 (10, 20), offered := 0xF }
def viBlk (a n : Nat) : List Byte := fit 128 [BitVec.ofNat 8 a, BitVec.ofNat 8 n]
def viCmd : Slot := adCmd 0x96 0 128 [] (viBlk 1 2)
def viSt : State := { dev := { (slSt viCmd).dev with pln.plan := { pier := 2, viaduct := some viPlan } } }
/-- FORM_GROUP of group 2 at pier 2: members on the shelves 1, 2 and 3, with pier 8 as successor. -/
def fgBlk : List Byte := fit 128 ([3, 0, 2, 8, 0, 0, 0, 0, 4, 0, 1, 2] ++ zeros 4 ++ le 2 0x100 ++ le 2 0x200 ++ le 2 0x300 ++ le 2 0x101)
def fgSt : State := { dev := { viSt.dev with sto.drives := (List.range 2).map fun k => (k, { st := .spare }) } }
def dgSt : State := { dev := { viSt.dev with via.groups := [(7, { home := 2 })] } }
def lgSt : State := { dev := { viSt.dev with reg.live := [(0x30008C, 5)], cmd.slots := [] } }
def vgSt : State := { dev := { viSt.dev with time := 1000000000000, via.up := 0x30, sto.drives := [(2, { st := .ok, bring := .ready })], via.groups := [(7, { home := 6, seen := 3, claim := some (4, 0) })], via.sent := [(0, { pier := 6 })] } }
/-- The inner connection to pier 5 with its path 0 open. -/
def ipSt : State := { dev := { (inSt { inConn with paths := [(0, {})] }).dev with pln.plan := { pier := 2, viaduct := some viPlan }, via.inner := [(5, 0)] } }
/-- The first unit of bank 1 is to take a slice. -/
def bsSt : State := atWith .service fun d => { d with
  reg.live := [(0xB00000, 1)], pwr.dom := [(35, .on), (36, .on), (37, .on), (63, .on)], bst.urgent := [(36, 0)] }
def hbSt : State := atWith .service fun d => { d with
  pwr.dom := [(33, .on), (55, .on)], bst.copying := [7], bst.coreErrs := [(3, [0])] }

/-- A marked PTP event message that port 4 has sent, with `n` timestamps in the FIFO of its macro. -/
def ptpTx : Tx := { f := { frame := { ptp := some 9 }, mark := true }, sending := true }
def ptpSt (n : Nat) : State := atWith .service fun d => { d with
  pwr.dom := [(1, .on), (59, .on)], swc.egress := [(4, { tx := some ptpTx })], eth.ptp := [(macroOf 4, List.replicate n {})] }
/-- A Trestle frame for connection index 3 at an adopted address. -/
def aTrDev : Dev := { par.adopted := [20] }
def aTrHdr : IpHdr := { dst := 20, proto := 17, dport := aTrDev.pln.plan.udpPort, trOp := 1, trConn := 0x305 }
def aTrFrame : Frame := { dst := stationBase, etype := 0x800, ip := some aTrHdr }

/-! ### Ill-formed commands, one for each check -/

theorem test_wf_refuses_slot : (Instr.presenceChange 24 true).wf = false := by decide
theorem test_wf_refuses_domain : (Instr.domainReady 64).wf = false := by decide
theorem test_wf_refuses_sensor : (Instr.sensorDisagree 30).wf = false := by decide
theorem test_wf_refuses_group : (Instr.recoveryReplay 6).wf = false := by decide
theorem test_wf_refuses_page : (Instr.accessEntryWord0Write fwCore 224 0 0).wf = false := by decide
theorem test_wf_refuses_entry : (Instr.accessEntryWord0Write fwCore 0 8 0).wf = false := by decide
theorem test_wf_refuses_port : (Instr.portLinkUp 33).wf = false := by decide
theorem test_wf_refuses_egress : (Instr.frameTransmitComplete 36).wf = false := by decide
theorem test_wf_refuses_macro : (Instr.ethPtpTsRead fwCore 9).wf = false := by decide
theorem test_wf_refuses_conn : (Instr.deadTimerExpire 16384).wf = false := by decide
theorem test_wf_refuses_cmd : (Instr.readCmd 131072).wf = false := by decide
theorem test_wf_refuses_volume : (Instr.formatApply 4096).wf = false := by decide
theorem test_wf_refuses_pier : (Instr.innerConnect 64).wf = false := by decide
theorem test_wf_refuses_path : (Instr.pathProbeTimer 0 64).wf = false := by decide
theorem test_wf_refuses_offset : (Instr.registerReadClear fwCore 2).wf = false := by decide
theorem test_wf_refuses_pseudo_channel : (Instr.pcRetireCopyDone 64).wf = false := by decide
theorem test_wf_refuses_class : (Instr.slotWaitTimeout 5).wf = false := by decide
theorem test_wf_refuses_volume_or_shelf : (Instr.overwriteCursorTick 4096 true).wf = false := by decide
theorem test_wf_refuses_instance : (Instr.pauseQuantaExpire 0 9).wf = false := by decide
theorem test_wf_refuses_queue : (Instr.frameAgeDiscard 0 16).wf = false := by decide
theorem test_wf_refuses_vid : (Instr.fdbAgeOut 4096 0).wf = false := by decide
theorem test_wf_refuses_ring : (Instr.ringFetch 65536).wf = false := by decide
theorem test_wf_refuses_local_group : (Instr.groupForm 64).wf = false := by decide
theorem test_wf_refuses_commit_group : (Instr.plnCommit fwCore 64).wf = false := by decide
theorem test_wf_refuses_copy : (Instr.journalWriteComplete 0 4 0 true).wf = false := by decide
theorem test_wf_refuses_clock : (Instr.refclkRestore 3).wf = false := by decide
theorem test_wf_refuses_arbiter : (Instr.arbiterTimeout 3).wf = false := by decide
theorem test_wf_refuses_rail : (Instr.pmbusAlert 9).wf = false := by decide
theorem test_wf_refuses_core : (Instr.cpuCoreError 16 true).wf = false := by decide
theorem test_wf_refuses_engine : (Instr.holdoffAccept 32).wf = false := by decide
theorem test_wf_refuses_per_priority : (Instr.pfcFrameReceive 0 0 []).wf = false := by decide
theorem test_wf_refuses_scan : (Instr.sensorScan []).wf = false := by decide
theorem test_wf_refuses_per_rail : (Instr.powerTelemetryCorrect 0 [] []).wf = false := by decide
theorem test_wf_refuses_window : (Instr.windowPublish [] []).wf = false := by decide
theorem test_wf_refuses_block (b : List Byte) (h : 1048576 < b.length) : (Instr.keyLoad 0 b).wf = false := by
  have h' : isBlock b = false := decide_eq_false (Nat.not_le.2 h)
  change (isCmd 0 && isBlock b) = false
  rw [h', Bool.and_false]

/-! ### The spec's worked examples -/

/-- The header of the worked example under R207. -/
theorem test_trestle_header : pktHeader { verOp := 0x11, flags := 0x90, path := 3, dstConn := 0x000A2C07, psn := 0x005103E8, msn := 0x1F06, msgLen := 64, addr := 0x120040C40, key := 0x03A41002, tag := 0x00010013 }
    = [0x11, 0x90, 0, 3, 0, 0x0A, 0x2C, 7, 0, 0x51, 3, 0xE8, 0, 0, 0x1F, 6, 0, 0, 0, 0x40, 0, 0, 0, 0, 0, 0, 0, 1, 0x20, 4, 0x0C, 0x40,
       3, 0xA4, 0x10, 2, 0, 1, 0, 0x13] := by decide +kernel
/-- Credit beyond the edge, by 64-bit sequence arithmetic (R236). -/
theorem test_credit_beyond : beyond 0x6000 0xFFFFFFFFFFFFE000 = true ∧ beyond 0xFFFFFFFFFFFFF000 0x6000 = false := by decide +kernel
/-- The hash of the worked example picks entry 1 of three (R186). -/
theorem test_hash_pick : hashPick 0x9E371A5C 3 = 1 := by decide +kernel
/-- The check value of CRC-32C over the digits 1 to 9. -/
theorem test_crc32c : crc32c [0x31, 0x32, 0x33, 0x34, 0x35, 0x36, 0x37, 0x38, 0x39] = 0xE3069283 := by decide +kernel
/-- The first Cauchy coefficient, 0x47 (R541). -/
theorem test_gf_coefficient : gfCoef 0 0 = 71 ∧ gfMul 4 0x47 = 1 := by decide +kernel
/-- SubBytes, MixColumns and the first new key word of FIPS 197. -/
theorem test_aes_steps : aesSub 0x53 = 0xED ∧ aesMixCol [0xDB, 0x13, 0x53, 0x45] = [0x8E, 0x4D, 0xA1, 0xBC]
    ∧ (aesExpand 4 1 [[0x2B, 0x7E, 0x15, 0x16], [0x28, 0xAE, 0xD2, 0xA6], [0xAB, 0xF7, 0x15, 0x88], [0x09, 0xCF, 0x4F, 0x3C]]).getD 4 []
      = [0xA0, 0xFA, 0xFE, 0x17] := by decide +kernel
/-- Subkey K1 of RFC 4493. -/
theorem test_cmac_double : cmacDouble [0x7D, 0xF7, 0x6B, 0x0C, 0x1A, 0xB8, 0x99, 0xB3, 0x3E, 0x42, 0xF0, 0x47, 0xB9, 0x1B, 0x54, 0x6F]
    = [0xFB, 0xEE, 0xD6, 0x18, 0x35, 0x71, 0x33, 0x66, 0x7C, 0x85, 0xE0, 0x8F, 0x72, 0x36, 0xA8, 0xDE] := by decide +kernel
/-- The frame block of volume 18, LBA 0x42C00, 16-KiB granule and tags of 16 bytes (R467). -/
theorem test_frame_block : frameBlock 2 16 18 0x42C00 = [1, 2, 16, 0, 18, 0, 0, 0, 0, 0x2C, 4, 0, 0, 0, 0, 0] := by decide +kernel
/-- Data staging of the worked examples under R34 and R515. -/
theorem test_data_staging : stagingMiB { pantryMiB := 12288, ringMiB := 2048 } 0 = 25950
    ∧ stagingMiB { pantryMiB := 12288, ringMiB := 2048 } 3 = 25182 := by decide +kernel
/-- The access entry of the worked example matches class 0 and names 0x205, not 0x208 (R146). -/
theorem test_access_entry : entryMatches { w0 := 0x0FF80200, w1 := 0x83 } 0x205 = true
    ∧ entryMatches { w0 := 0x0FF80200, w1 := 0x83 } 0x208 = false := by decide +kernel

/-- The layout of the worked example: 8 + 3, 256 KiB chunks, 24 slots (R322, R329). -/
def exLayout : Layout := { scheme := 2, k := 8, m := 3, chunk := 2, spareCols := 1, seed := 0, slabs := [7] }
/-- Rows, stripes per band and blocks per slab of the worked example (R324, R339). -/
theorem test_layout_sizes : layB exLayout 24 = 11 ∧ layBands exLayout 24 = 372 ∧ blocksPerSlab exLayout 24 = 4380672 := by decide +kernel
/-- The drive address of slab 7, row 255 (R323, R331). -/
theorem test_chunk_address : chunkAddr exLayout 7 255 = 0x3C3FC0000 ∧ shadowAddr exLayout 59364 7 255 = 0x39FB01C3FC00 := by decide +kernel
/-- A relayed datagram's header checksum (R450): 0xB1E6 becomes 0xB2E6 where a TTL of 64 falls. -/
theorem test_relay_checksum : ttlChecksum 0xB1E6 64 17 = 0xB2E6 := by decide +kernel
/-- The region entry of the worked example under R264. -/
theorem test_region_entry : regionBytes
      { vaBase := 0x120040000, length := 16384, offset := 0x1300000, partition := 1, pd := 7, gen := 2, remoteWrite := true, ring := true, sq := 19 }
    = [0, 0, 4, 0x20, 1, 0, 0, 0, 0, 0x40, 0, 0, 0, 0, 0, 0, 0, 0, 0x30, 1, 0, 0, 1, 0, 7, 0, 2, 0, 0x82, 1, 0x13, 0] := by decide +kernel
/-- The heartbeat of the worked example under R422. -/
theorem test_heartbeat : heartbeatBytes (atWith .service fun d => { d with glb.side := false, time := 0xA3C5E217730 }).dev false
      { side := false, seq := 100000, planId := 0x5D2E9A01C4B73F18, epoch := 18, flags := 7 }
    = [1, 1, 0, 7, 0, 1, 0x86, 0xA0, 0, 0, 0x0A, 0x3C, 0x5E, 0x21, 0x77, 0x30, 0x5D, 0x2E, 0x9A, 1, 0xC4, 0xB7, 0x3F, 0x18, 0, 0, 0, 0x12, 0, 7]
      ++ zeros 12 := by decide +kernel

/-! ### One step each -/

/-- PORST_N from OFF does nothing: only VDD_AON leaves OFF (R113). -/
theorem test_off_ignores_porst : (match exec .porstAssert (at_ .off) with | .next t => t.dev.glb.st == .off | _ => false) = true := by decide +kernel
/-- PORST_N in HALT leaves causes 0 and 3 beside those that stand (R123). -/
theorem test_porst_in_halt : (match exec .porstAssert (at_ .halt) with | .next t => t.dev.glb.cause == 0x29 | _ => false) = true := by decide +kernel
/-- A die sensor 1/16 °C below 130 °C trips nothing (R99). -/
theorem test_no_thermtrip_below : (match exec (.sensorScan (List.replicate 28 2079 ++ [0, 0])) (at_ .boot) with | .next t => !t.dev.glb.thermtrip | _ => false)
    = true := by decide +kernel
/-- A step takes the command at the front (R13): a write of PWR_CAP below 60 W is rejected, the register stands. -/
theorem test_step_takes_front : (match step { at_ .boot with pending := [.pwrCapWrite fwCore 59, .haltEntry] } with
    | .next t => t.dev.pwr.capReject && t.pending == [.haltEntry] && t.dev.reg.live.isEmpty | _ => false) = true := by decide +kernel
/-- With an empty queue device time goes on by 1 ns and what a correction steps it. -/
theorem test_idle_step : (idleTick (at_ .service).dev).time = 1 + Config.forwardStep 0 := by
  have h : ∀ (b : Bool) (d : Dev), (if b = true then sgpioFrame d else d).time = d.time := fun b d => by cases b <;> rfl
  exact (h _ _).trans (Nat.zero_add _)

/-! ### Witnesses: the hypotheses of every obligation are met together -/

theorem test_witness_ColdResets_1 : (at_ .off).dev.glb.st = .off := by
  decide +kernel

theorem test_witness_ColdResets_2 : (at_ .halt).dev.glb.st ≠ .off := by
  decide +kernel

theorem test_witness_WarmResets_1 : running (at_ .plan).dev = true ∧ (at_ .plan).dev.glb.st ≠ .boot := by
  decide +kernel

theorem test_witness_WarmResets_2 : running (at_ .boot).dev = true ∧ pageHas (at_ .boot).dev fwCore 0 rWRITE = true ∧ fld (0xA5C30001 : Word).toNat 16 16 = 0xA5C3 ∧ bitAt (0xA5C30001 : Word).toNat 0 = true := by
  decide +kernel

theorem test_witness_WarmResets_3 : planned (atWith .service fun d => { d with par.st := .paired }).dev = true ∧ (atWith .service fun d => { d with par.st := .paired }).dev.par.st = .paired := by
  decide +kernel

theorem test_witness_WarmResets_4 : haltSt.dev.glb.shutdown = true ∧ running haltSt.dev = true ∧ ((List.range 64).all fun n => n == pdDBG || domPhase haltSt.dev n == .off) = true := by
  decide +kernel

theorem test_witness_BootToTrain_1 : (at_ .reset).dev.glb.st = .reset := by
  decide +kernel

theorem test_witness_BootToTrain_2 : (bootSt).dev.glb.st = .boot ∧ bootSt.dev.glb.mgmtWait = false ∧ domOn bootSt.dev (pdCPU 0) = true ∧ (bootSt.dev.glb.bootOrder.find? fun f => !bootSt.dev.glb.tried.contains f) = some (b2n false) ∧ fwResult bootSt.dev goodFw = 1 := by
  decide +kernel

theorem test_witness_BootToTrain_3 : (mgmtSt).dev.glb.st = .boot ∧ mgmtSt.dev.glb.mgmtWait = true ∧ domOn mgmtSt.dev (pdCPU 0) = true ∧ pageHas mgmtSt.dev mgmt 0 rADMIN = true ∧ fwResult mgmtSt.dev goodFw = 1 := by
  decide +kernel

theorem test_witness_BootToTrain_4 : planSt.dev.glb.st = .plan ∧ planSt.dev.glb.planAccepted = false ∧ (planSources planSt.dev).find? (fun x => !planSt.dev.glb.planTried.contains x) = some 0 ∧ planJudge planSt.dev tinyImage true = 1 := by
  exact ⟨rfl, rfl, by decide +kernel, tinyImage_accepted⟩

theorem test_witness_BootToTrain_5 : (candSt).dev.glb.st = .plan ∧ candSt.dev.pln.cand = some {} ∧ 8192 ≤ stagingMiB {} candSt.dev.bst.retired.length := by
  decide +kernel

theorem test_witness_BootToTrain_6 : (atWith .selftest id).dev.glb.st = .selftest ∧ (at_ .selftest).dev.pwr.reqs = [] ∧ ((at_ .selftest).dev.pwr.dom.all fun e => e.2 != .rising) = true ∧ (at_ .selftest).dev.sto.drives = [] ∧ essentialFailed (bootTested (at_ .selftest).dev [7] [3] []).1 (bootTested (at_ .selftest).dev [7] [3] []).2 = none := by
  decide +kernel

theorem test_witness_DriveBringUp_1 : planned (drvSt .down).dev = true ∧ (drvSt .down).dev.pwr.idle = none ∧ (drvSt .down).dev.sense.clkLost.contains 2 = false ∧ ((List.range 24).find? fun k => bitAt (drvSt .down).dev.sense.present.toNat k && !(driveOf (drvSt .down).dev k).off && domOn (drvSt .down).dev (pdD k) && (driveOf (drvSt .down).dev k).bring == .down) = some 23 := by
  decide +kernel

theorem test_witness_DriveBringUp_2 : planned (drvSt .released).dev = true ∧ (driveOf (drvSt .released).dev 23).bring = .released := by
  decide +kernel

theorem test_witness_DriveBringUp_3 : planned (drvSt .link).dev = true ∧ (driveOf (drvSt .link).dev 23).bring = .link ∧ (drvSt .link).dev.cmd.slots = [] ∧ (drvSt .link).dev.sto.repairs = [] ∧ (drvSt .link).dev.sto.groups = [] := by
  decide +kernel

theorem test_witness_SensorsAndThermal_1 : (at_ .service).dev.glb.st ≠ .off ∧ running (at_ .service).dev = true := by
  decide +kernel

theorem test_witness_SensorsAndThermal_2 : hotSt.dev.glb.st ≠ .off ∧ hotSt.dev.pwr.thermalCap = some 144000 ∧ 16 * throttleC hotSt.dev ≤ hotSt.dev.sense.tjMax := by
  decide +kernel

theorem test_witness_SensorsAndThermal_3 : coolSt.dev.glb.st ≠ .off ∧ coolSt.dev.pwr.thermalCap = some 144000 ∧ coolSt.dev.sense.tjMax ≤ 16 * throttleC coolSt.dev - 16 * hystC coolSt.dev ∧ 0 < hystC coolSt.dev ∧ hbmAt coolSt.dev 95 = false := by
  decide +kernel

theorem test_witness_SensorsAndThermal_4 : (at_ .boot).dev.glb.st = .boot ∧ (at_ .boot).dev.sense.avsSet = false := by
  decide +kernel

theorem test_witness_SensorsAndThermal_5 : (avsSt 775).dev.sense.avsSet = true ∧ (avsSt 775).dev.sense.avsMv ≤ 775 := by
  decide +kernel

theorem test_witness_SensorsAndThermal_6 : (avsSt 780).dev.sense.avsSet = true ∧ 775 < (avsSt 780).dev.sense.avsMv := by
  decide +kernel

theorem test_witness_PowerTelemetry_1 : (atWith .service fun d => { d with pwr.fail := true }).dev.pwr.fail = true := by
  decide +kernel

theorem test_witness_PowerTelemetry_2 : running (at_ .service).dev = true ∧ effectiveCap (at_ .service).dev < 200000 ∧ 800 < (at_ .service).dev.pwr.cpuMhz := by
  decide +kernel

theorem test_witness_PowerTelemetry_3 : planned (at_ .service).dev = true ∧ (at_ .service).dev.cmd.slots = [] ∧ (at_ .service).dev.sto.repairs = [] ∧ (at_ .service).dev.sto.groups = [] := by
  decide +kernel

theorem test_witness_PowerTelemetry_4 : planned (at_ .boot).dev = false := by
  decide +kernel

theorem test_witness_PowerTelemetry_5 : (at_ .service).dev.cmd.heldSince = [] ∧ ((at_ .service).dev.cmd.slots.any fun e => releasedWaits e.2) = false := by
  decide +kernel

theorem test_witness_PowerTelemetry_6 : serving heldSt.dev = true ∧ refuseMs heldSt.dev ≠ 0 ∧ releasedLate heldSt.dev 3 = [] ∧ thas heldSt.dev.cmd.heldSince 3 = true ∧ (sqOf heldSt.dev 3).isSome = true ∧ (sqCandidate heldSt.dev 0 3).isSome = true := by
  decide +kernel

theorem test_witness_PowerRegisters_1 : pageHas (at_ .service).dev fwCore 1 rWRITE = true ∧ 60 ≤ fld (0x640094 : Word).toNat 0 8 ∧ fld (0x640094 : Word).toNat 0 8 ≤ 148 ∧ fld (0x640094 : Word).toNat 16 8 ≤ 100 := by
  decide +kernel

theorem test_witness_PowerRegisters_2 : 60 ≤ fld (0x0A737D : Word).toNat 0 8 ∧ fld (0x0A737D : Word).toNat 0 8 ≤ 125 ∧ 85 ≤ fld (0x0A737D : Word).toNat 8 8 ∧ fld (0x0A737D : Word).toNat 8 8 ≤ 115 ∧ 1 ≤ fld (0x0A737D : Word).toNat 16 8 ∧ fld (0x0A737D : Word).toNat 16 8 ≤ 10 := by
  decide +kernel

theorem test_witness_PowerRegisters_3 : isFw fwCore = true ∧ running (at_ .plan).dev = true := by
  decide +kernel

theorem test_witness_PowerRegisters_4 : (at_ .maint).dev.glb.st = .maint ∧ (at_ .maint).dev.glb.shutdown = false ∧ pageHas (at_ .maint).dev fwCore 1 rWRITE = true ∧ (at_ .maint).dev.pwr.idle = none := by
  decide +kernel

theorem test_witness_ThermCfgOutOfRange_1 : (at_ .service).dev.glb.st ≠ .off ∧ pageHas (at_ .service).dev fwCore 1 rWRITE = true ∧ fld (59 : Word).toNat 0 8 < 60 ∧ running (at_ .service).dev = true := by
  decide +kernel

theorem test_witness_ThermCfgOutOfRange_2 : (List.replicate 28 (2080 : Int))[27]? = some 2080 ∧ (List.replicate 30 (1680 : Int))[29]? = some 1680 := by
  decide +kernel

theorem test_witness_DomainSwitching_1 : (at_ .service).dev.pwr.reqs = [] ∧ running (at_ .service).dev = true ∧ (at_ .service).dev.pwr.idle = none ∧ (at_ .service).dev.glb.shutdown = false ∧ bitAt (at_ .service).dev.pwr.heldOff.toNat 63 = false ∧ domPhase (at_ .service).dev 63 = .off ∧ (domRequires 63).all (domOn (at_ .service).dev) = true ∧ (at_ .service).dev.pwr.onAt.all (· + 2000 ≤ (at_ .service).dev.time) = true := by
  decide +kernel

theorem test_witness_DomainSwitching_2 : (domSt .on).dev.pwr.reqs = [] ∧ running (domSt .on).dev = true ∧ mustStay (domSt .on).dev 0 = false ∧ domPhase (domSt .on).dev 0 = .on ∧ ((domUsers 0).all fun k => domPhase (domSt .on).dev k == .off) = true := by
  decide +kernel

theorem test_witness_DomainSwitching_3 : domPhase (domSt .rising).dev 0 = .rising ∧ (domSt .rising).dev.pwr.turn = none := by
  decide +kernel

theorem test_witness_DomainSwitching_4 : domPhase (domSt .falling).dev 0 = .falling ∧ (domSt .falling).dev.pwr.turn = none := by
  decide +kernel

theorem test_witness_DomainSwitching_5 : domPhase turnSt.dev 0 = .rising ∧ turnSt.dev.pwr.turn = some 3 ∧ turnSt.dev.glb.st = .plan ∧ turnSt.dev.pwr.reqs = [] ∧ ∀ n, n < 64 → n ≠ 0 → bitAt (3 : Dword).toNat n = true → domOn turnSt.dev n = true ∨ (domPhase turnSt.dev n = .off ∧ bitAt turnSt.dev.pwr.heldOff.toNat n = true) := by
  decide +kernel

theorem test_witness_DomainSwitching_6 : bitAt (atWith .service fun d => { d with pwr.heldOff := 2 }).dev.pwr.heldOff.toNat 1 = true ∧ running (at_ .service).dev = true := by
  decide +kernel

theorem test_witness_JoinAndRecovery_1 : planned (pairSt .train).dev = true ∧ (pairSt .train).dev.pln.plan.unpaired = false ∧ (pairSt .train).dev.par.barred = false ∧ (pairSt .train).dev.cmd.slots = [] ∧ (pairSt .train).dev.glb.side = false := by
  decide +kernel

theorem test_witness_JoinAndRecovery_2 : inPair (pairSt .train).dev = false ∧ joinFails (pairSt .train).dev goodJoin = 0 ∧ goodJoin.side ≠ (pairSt .train).dev.glb.side ∧ goodJoin.state = 7 ∧ goodJoin.ownsMine = true ∧ (pairSt .train).dev.sto.drives = [] := by
  decide +kernel

theorem test_witness_JoinAndRecovery_3 : (pairSt .train).dev.glb.joinDone = false ∧ (pairSt .train).dev.par.refused = false ∧ (pairSt .train).dev.par.partnerState = 0 ∧ (pairSt .train).dev.par.step = .none := by
  decide +kernel

theorem test_witness_JoinAndRecovery_4 : planned (recSt 1).dev = true ∧ recoverable (recSt 1).dev 0 = true ∧ recPhase (recSt 1).dev 0 = 1 := by
  decide +kernel

theorem test_witness_JoinAndRecovery_5 : (recSt 2).dev.glb.st = .recovery ∧ recoverable (recSt 2).dev 0 = true ∧ recPhase (recSt 2).dev 0 = 2 ∧ ((tget (recSt 2).dev.sto.recovery 0).map (·.recs)) = some [] := by
  decide +kernel

theorem test_witness_JoinAndRecovery_6 : recoverable (recSt 3).dev 0 = true ∧ recPhase (recSt 3).dev 0 = 3 ∧ ((tget (recSt 3).dev.sto.recovery 0).map (·.dirty)) = some [] := by
  decide +kernel

theorem test_witness_JoinAndRecovery_7 : recGroups (at_ .recovery).dev = [] ∧ (at_ .recovery).dev.sto.vols = [] ∧ (at_ .recovery).dev.glb.st = .recovery ∧ (at_ .recovery).dev.par.step = .none := by
  decide +kernel

theorem test_witness_RegisterBus_1 : busUp (at_ .service).dev 0xB00004 = true ∧ pageHas (at_ .service).dev fwCore (0xB00004 / 0x10000) rWRITE = true ∧ stagedBy (at_ .service).dev 0xB00004 = none ∧ ((regInfo (at_ .service).dev 0xB00004).any fun i => i.kind == .rw && inRanges i.ranges ((500 : Word).toNat &&& i.mask)) = true := by
  decide +kernel

theorem test_witness_RegisterBus_2 : (stagedBy (at_ .service).dev 0x300040).isSome = true ∧ (stagedBy (at_ .service).dev 0x308040).isSome = true ∧ lockedOut (at_ .service).dev fwCore 0x300040 = false ∧ pageHas (at_ .service).dev fwCore (0x300040 / 0x10000) rWRITE = true := by
  decide +kernel

theorem test_witness_RegisterBus_3 : pageHas (at_ .service).dev fwCore (0x300100 / 0x10000) rREAD = true ∧ stagedOf (at_ .service).dev 0x300100 = none ∧ (regInfo (at_ .service).dev 0x300100).isSome = true ∧ counterSet 0x300100 = some 2 ∧ counterMay (at_ .service).dev fwCore 2 0x300100 = true := by
  decide +kernel

theorem test_witness_RegisterBus_4 : pageHas (at_ .service).dev (hostPd 5) (0x30100 / 0x10000) rWRITE = false := by
  decide +kernel

theorem test_witness_CommitAndLocks_1 : running stagedSt.dev = true ∧ stagedSt.dev.glb.st = .service ∧ commitDenied stagedSt.dev fwCore 22 = false ∧ (tget stagedSt.dev.pln.locks 22).any (· != fwCore) = false ∧ rangeFail stagedSt.dev 22 = none ∧ relationFail stagedSt.dev 22 = none ∧ stagedDiff stagedSt.dev 22 ≠ [] := by
  decide +kernel

theorem test_witness_CommitAndLocks_2 : pageHas (at_ .service).dev fwCore 3 rWRITE = true ∧ tget (at_ .service).dev.pln.locks 5 = none ∧ running (at_ .service).dev = true := by
  decide +kernel

theorem test_witness_CommitAndLocks_3 : tget (atWith .service fun d => { d with pln.locks := [(5, fwCore)] }).dev.pln.locks 5 = some fwCore := by
  decide +kernel

theorem test_witness_AccessAndDebug_1 : running (at_ .service).dev = true ∧ pageHas (at_ .service).dev fwCore 3 rWRITE = true ∧ tget (atWith .service fun d => { d with acc.w0 := [(8 * 223 + 7, 5)] }).dev.acc.w0 (8 * 223 + 7) = some 5 := by
  decide +kernel

theorem test_witness_AccessAndDebug_2 : pageHas (at_ .service).dev fwCore 192 rWRITE = true ∧ isFw fwCore = true ∧ (at_ .service).dev.ctr.privAt = none := by
  decide +kernel

theorem test_witness_AccessAndDebug_3 : dbgSt.dev.glb.st = .halt ∧ domOn dbgSt.dev 62 = true ∧ dbgSt.dev.acc.dbgFails < 3 := by
  decide +kernel

theorem test_witness_AccessAndDebug_4 : dbgSt.dev.acc.challenged = true ∧ dbgSt.dev.acc.dbgFails < 3 ∧ ¬ (([] : List Byte).length = 97) := by
  decide +kernel

theorem test_witness_PortLinks_1 : portLive (ethSt {}).dev 4 = true ∧ (portOf (ethSt {}).dev 4).up = false ∧ (portOf (ethSt {}).dev 4).attempt = none ∧ (portOf (ethSt {}).dev 4).reformed = false := by
  decide +kernel

theorem test_witness_PortLinks_2 : (portOf (ethSt { attempt := some 0 }).dev 4).attempt.isSome = true := by
  decide +kernel

theorem test_witness_PortLinks_3 : portLive (ethSt upPort).dev 4 = true ∧ (portOf (ethSt upPort).dev 4).up = true ∧ (portOf (ethSt upPort).dev 4).lanes ≠ [] ∧ portOfLane (ethSt upPort).dev (macroOf 4) 3 = some 4 ∧ pageHas (ethSt upPort).dev fwCore (ethBase (macroOf 4) / 0x10000) rWRITE = true ∧ bitAt (8 : BitVec 4).toNat 3 = true := by
  decide +kernel

theorem test_witness_PortLinks_4 : (portOf (ethSt { holdDone := false }).dev 4).up = false ∧ (portOf (ethSt { holdDone := false }).dev 4).holdDone = false := by
  decide +kernel

theorem test_witness_FlowControl_1 : portLive fcSt.dev 4 = true ∧ (portOf fcSt.dev 4).up = true ∧ pauseEn fcSt.dev 4 = true ∧ (pwdOf fcSt.dev 4 8).st = .open := by
  decide +kernel

theorem test_witness_FlowControl_2 : pfcEn pfcSt.dev 4 7 = true ∧ (pwdOf pfcSt.dev 4 7).st = .open ∧ bitAt (0x80 : Byte).toNat 7 = true ∧ (portOf pfcSt.dev 4).up = true := by
  decide +kernel

theorem test_witness_FlowControl_3 : portLive (ethSt { upPort with pwd := [(8, { st := .held })] }).dev 4 = true ∧ (pwdOf (ethSt { upPort with pwd := [(8, { st := .held })] }).dev 4 8).st = .held := by
  decide +kernel

theorem test_witness_FlowControl_4 : (pwdOf (ethSt { upPort with pwd := [(8, { st := .recover })] }).dev 4 8).st = .recover := by
  decide +kernel

theorem test_witness_FlowControl_5 : losslessKey fcSt.dev 4 3 = some 268 ∧ fcSt.dev.swc.xoff.contains 268 = true ∧ (portOf fcSt.dev 4).up = true := by
  decide +kernel

theorem test_witness_SwitchFrames_1 : planned swSt.dev = true ∧ portLive swSt.dev 4 = true ∧ (portOf swSt.dev 4).up = true ∧ frameAccepted swSt.dev 4 aFrame = true ∧ vlanEntry swSt.dev (frameVlan swSt.dev 4 aFrame).1 = some 255 ∧ vlanMember swSt.dev 255 4 = true ∧ policerOf swSt.dev 4 (frameVlan swSt.dev 4 aFrame).2 (frameVlan swSt.dev 4 aFrame).1 = none ∧ isMulticast aFrame.src = false ∧ bitAt (liveN swSt.dev (0x200040 + 4 * 4)) 16 = true ∧ lagOf swSt.dev 4 = none ∧ fdbFind swSt.dev (frameVlan swSt.dev 4 aFrame).1 aFrame.src = none ∧ swSt.dev.swc.fdb.length < 32768 := by
  decide +kernel

theorem test_witness_SwitchFrames_2 : l3l4Ok swSt.dev aFrame = true := by
  simp [l3l4Ok, aFrame]

theorem test_witness_SwitchFrames_3 : planned fullSt.dev = true ∧ internalAdmit fullSt.dev intFrame = none ∧ 33 ≤ intFrame.src ∧ intFrame.src ≤ 35 := by
  decide +kernel

theorem test_witness_SwitchFrames_4 : (admitFirst holdSt.dev (holdSt.dev.swc.holdoff.filter (·.src == 33)) []).isSome = true ∧ planned holdSt.dev = true := by
  decide +kernel

theorem test_witness_SwitchFrames_5 : (pickQueue txSt.dev 4).1 = some 0 ∧ (egressOf txSt.dev 4).tx = none ∧ portUp txSt.dev 4 = true ∧ swPortExists txSt.dev 4 = true ∧ ((List.range 16).all fun k => (queueOf txSt.dev 4 k).frames.all fun f => txSt.dev.time ≤ f.time + 10000000) = true := by
  decide +kernel

theorem test_witness_SwitchFrames_6 : (egressOf (atWith .service fun d => { d with swc.egress := [(4, { tx := some {} })] }).dev 4).tx = some {} := by
  decide +kernel

theorem test_witness_SwitchFrames_7 : running (at_ .service).dev = true ∧ pageHas (at_ .service).dev fwCore 32 rWRITE = true ∧ pageHas (at_ .service).dev fwCore (ethBase 8 / 0x10000) rREAD = true := by
  decide +kernel

theorem test_witness_TransmitTimestamps_1 : planned (ptpSt 15).dev = true ∧ domOn (ptpSt 15).dev (portDomain 4) = true ∧ (egressOf (ptpSt 15).dev 4).tx = some ptpTx ∧ ptpTx.sending = true ∧ ptpTx.f.super = none ∧ ptpTx.f.frame.ptp = some 9 ∧ ptpTx.f.mark = true ∧ (tgetD (ptpSt 15).dev.eth.ptp (macroOf 4) []).length < 16 ∧ 16 ≤ (tgetD (ptpSt 16).dev.eth.ptp (macroOf 4) []).length := by
  decide +kernel

theorem test_witness_TrestlePorts_1 : aTrFrame.etype ≠ 0x88B5 ∧ isStation aTrDev aTrFrame.dst = true ∧ aTrFrame.ip = some aTrHdr ∧ aTrHdr.proto = 17 ∧ aTrHdr.dport = aTrDev.pln.plan.udpPort ∧ ownIp aTrDev aTrHdr.dst = true ∧ aTrHdr.trOp ≠ 10 ∧ connIdx aTrHdr.trConn % 2 = 1 :=
  ⟨by decide, by simp [isStation, aTrFrame], rfl, rfl, rfl, by simp [ownIp, aTrDev, aTrHdr], by decide, by decide⟩

theorem test_witness_TrestleDiscards_1 : serving (trsSt baseConn).dev = true ∧ domOn (trsSt baseConn).dev (pdTRS 0) = true ∧ ({ crc := 1 } : Pkt).crc ≠ pktCrc { crc := 1 } := by
  decide +kernel

theorem test_witness_TrestleDiscards_2 : (pk 1 9 0 0 []).crc = pktCrc (pk 1 9 0 0 []) ∧ isSequenced (pkOp (pk 1 9 0 0 [])) = true ∧ namedBy (trsSt baseConn).dev aNet (pk 1 9 0 0 []) = none ∧ (trsSt baseConn).dev.par.adopted.contains aNet.dstIp = false := by
  decide +kernel

theorem test_witness_TrestleDiscards_3 : rxOk (trsSt { baseConn with cum := 8 }).dev aNet (pk 1 0x001 7 0 []) 0 { baseConn with cum := 8 } = true ∧ isSequenced (pkOp (pk 1 0x001 7 0 [])) = true ∧ below32 (pk 1 0x001 7 0 []).psn.toNat 8 = true := by
  decide +kernel

theorem test_witness_TrestleDiscards_4 : (pk 13 0x001 7 0 []).crc = pktCrc (pk 13 0x001 7 0 []) ∧ namedBy (trsSt baseConn).dev aNet (pk 13 0x001 7 0 []) = some (0, baseConn) ∧ baseConn.st = .established ∧ isResident (trsSt baseConn).dev 0 = true ∧ (trsSt baseConn).dev.trs.porch = [] ∧ pkOp (pk 13 0x001 7 0 []) = 13 := by
  decide +kernel

theorem test_witness_TrestleWritePlaced_1 : rxOk wrSt.dev aNet wrPk 0 baseConn = true ∧ baseConn.st = .established ∧ baseConn.r.inner = none ∧ fTRIGGER wrPk = false ∧ (tget wrSt.dev.trs.regions (wrPk.key.toNat / 4096)).any (fun r => r.partition == 2) = true ∧ regionFail wrSt.dev baseConn wrPk wrPk.body.length true = none ∧ openMsg baseConn wrPk = true ∧ pkOp wrPk = 1 ∧ newPsn baseConn wrPk = true ∧ sub64 baseConn.edge (baseConn.rcvd + wrPk.body.length) < 2 ^ 63 ∧ fFENCE wrPk = false := by
  decide +kernel

theorem test_witness_TrestleWritePlaced_2 : ({ baseConn with held := [wrPk], cum := 5 } : Conn).held.find? (fun q => q.psn == wrPk.psn) = some wrPk ∧ wrPk.psn.toNat = 5 ∧ connOf (trsSt { baseConn with held := [wrPk], cum := 5 }).dev 0 = some { baseConn with held := [wrPk], cum := 5 } ∧ openMsg baseConn wrPk = true := by
  decide +kernel

theorem test_witness_TrestleReads_1 : rxOk rdSt.dev aNet rdPk 0 rdConn = true ∧ newPsn rdConn rdPk = true ∧ rdConn.closePsn = none ∧ rdConn.sendQ = [] ∧ pkOp rdPk = 2 ∧ openMsg rdConn rdPk = true ∧ servedReads rdSt.dev 0 rdConn < rdConn.slots ∧ regionFail rdSt.dev rdConn rdPk rdPk.msgLen.toNat false = none ∧ nextOpen rdConn = some 0 ∧ sub32 rdConn.psn rdConn.peerCum < 4096 := by
  decide +kernel

theorem test_witness_TrestleReads_2 : rxOk (rsSt 8).dev aNet rsPk 0 (rsConn 8) = true ∧ newPsn (rsConn 8) rsPk = true ∧ pkOp rsPk = 3 ∧ (rsConn 8).reads.find? (fun y => y.id == rsPk.tag.toNat && y.msn == rsPk.msn.toNat) = some (rsRead 8) ∧ cqOf (rsSt 8).dev 0 = some { reading := true } ∧ (rsSt 8).dev.cmd.posting = [] ∧ rsPk.msgLen.toNat = 8 ∧ rsPk.body.length = 8 := by
  decide +kernel

theorem test_witness_TrestleReads_3 : rxOk plSt.dev aNet plPk 0 plConn = true ∧ newPsn plConn plPk = true ∧ plConn.reads.find? (fun y => y.id == plPk.tag.toNat && y.msn == plPk.msn.toNat) = some plRead ∧ (slotOf plSt.dev 3).map (fun x => (x.phase, x.landed)) = some (.running, 0) ∧ plPk.msgLen.toNat = plRead.len ∧ plRead.count + plPk.body.length < plRead.len ∧ plPk.addr.toNat = (plRead.addr + plPk.msgOffset.toNat) % 2 ^ 64 ∧ plPk.key.toNat = plRead.key := by
  decide +kernel

theorem test_witness_TrestleReplies_1 : rxOk (trsSt { baseConn with unacked := [{ psn := 0 }, { psn := 1 }] }).dev aNet (pk 4 0x001 0 0 (be 4 1 ++ zeros 28)) 0 { baseConn with unacked := [{ psn := 0 }, { psn := 1 }] } = true ∧ pkOp (pk 4 0x001 0 0 (be 4 1 ++ zeros 28)) = 4 := by
  decide +kernel

theorem test_witness_TrestleReplies_2 : rxOk (trsSt baseConn).dev aNet (pk 5 0x001 0 0 (zeros 8 ++ [1, 2] ++ zeros 6)) 0 baseConn = true ∧ byteAt (pk 5 0x001 0 0 (zeros 8 ++ [1, 2] ++ zeros 6)).body 9 = 2 := by
  decide +kernel

theorem test_witness_TrestleReplies_3 : rxOk (trsSt baseConn).dev aNet (pk 5 0x001 0 0 (zeros 8 ++ [8, 1] ++ zeros 6)) 0 baseConn = true ∧ byteAt (pk 5 0x001 0 0 (zeros 8 ++ [8, 1] ++ zeros 6)).body 9 = 1 := by
  decide +kernel

theorem test_witness_TrestleReplies_4 : rxOk (trsSt baseConn).dev aNet (pk 6 0x001 0 0 (zeros 16)) 0 baseConn = true ∧ rxOk (trsSt baseConn).dev aNet (pk 9 0x001 0 0 []) 0 baseConn = true := by
  decide +kernel

theorem test_witness_ConnectionsOpen_1 : serving conSt.dev = true ∧ domOn conSt.dev (pdTRS 0) = true ∧ conPk.crc = pktCrc conPk ∧ pkVer conPk = 1 ∧ pkOp conPk = 0xA ∧ isEndpoint conSt.dev aNet.dstIp = false ∧ ownInner conSt.dev aNet.dstIp = false ∧ answeredNow conSt.dev aNet.srcIp (BitVec.ofNat 32 (beAt conPk.body 8 4)) conPk.tag = none ∧ connDenied conSt.dev conPk false = false ∧ connBad conPk = false ∧ freeConn conSt.dev = some 0 ∧ paired conSt.dev = false ∧ pdConns conSt.dev 3 < (tgetD conSt.dev.trs.pds 3 {}).maxConn ∧ connDenied (at_ .service).dev conPk false = true := by
  decide +kernel

theorem test_witness_ConnectionsOpen_2 : rxOk (inSt { inConn with st := .connecting }).dev aNet (pk 0xB 0x001 0 0 (zeros 56)) 0 { inConn with st := .connecting } = true ∧ pkOp (pk 0xB 0x001 0 0 (zeros 56)) = 0xB ∧ (pk 0xB 0x001 0 0 (zeros 56)).tag.toNat = ({ inConn with st := .connecting } : Conn).id ∧ inConn.r.inner = some 5 := by
  decide +kernel

theorem test_witness_ConnectionsOpen_3 : rxOk (resSt { baseConn with st := .resuming }).dev aNet (pk 8 0x001 0 0 (zeros 24 ++ be 8 1)) 0 { baseConn with st := .resuming } = true ∧ beAt (pk 8 0x001 0 0 (zeros 24 ++ be 8 1)).body 24 8 ≠ 0 ∧ (tgetD (resSt { baseConn with st := .resuming }).dev.trs.pds baseConn.r.pd {}).enabled = true := by
  decide +kernel

theorem test_witness_ConnectionsOpen_4 : rxOk (inSt inConn).dev aNet (pk 7 0x001 0 0 (be 8 99 ++ zeros 40)) 0 inConn = true ∧ inConn.st = .established ∧ inConn.resumed = none ∧ inConn.r.inner.isSome = true ∧ inConn.r.nonce.toNat = 99 := by
  decide +kernel

theorem test_witness_ConnectionsOpen_5 : rxOk (trsSt { baseConn with cum := 7 }).dev aNet (pk 0xC 0x001 7 0 (zeros 8)) 0 { baseConn with cum := 7 } = true ∧ pkOp (pk 0xC 0x001 7 0 (zeros 8)) = 0xC := by
  decide +kernel

theorem test_witness_ConnectionTimers_1 : planned (rtoSt { baseConn with unacked := [{ psn := 3 }] }).dev = true ∧ connOf (rtoSt { baseConn with unacked := [{ psn := 3 }] }).dev 0 = some { baseConn with unacked := [{ psn := 3 }] } ∧ isResident (rtoSt { baseConn with unacked := [{ psn := 3 }] }).dev 0 = true ∧ ({ baseConn with unacked := [{ psn := 3 }] } : Conn).unacked.any (fun t => t.time + rtoOf (rtoSt { baseConn with unacked := [{ psn := 3 }] }).dev { baseConn with unacked := [{ psn := 3 }] } ≤ (rtoSt { baseConn with unacked := [{ psn := 3 }] }).dev.time) = true ∧ awaitsAck { baseConn with unacked := [{ psn := 3 }] } = true := by
  decide +kernel

theorem test_witness_ConnectionTimers_2 : connOf (trsSt { baseConn with paths := [(4, { st := .closed })], ackPend := 2 }).dev 0 = some { baseConn with paths := [(4, { st := .closed })], ackPend := 2 } := by
  decide +kernel

theorem test_witness_ConnectionTimers_3 : connOf (trsSt { baseConn with st := .closing }).dev 0 = some { baseConn with st := .closing } ∧ connOf (trsSt { baseConn with st := .timeWait }).dev 0 = some { baseConn with st := .timeWait } ∧ connOf (trsSt { baseConn with st := .resuming, resumes := 8 }).dev 0 = some { baseConn with st := .resuming, resumes := 8 } := by
  decide +kernel

theorem test_witness_ContextCacheAndDomains_1 : planned (trsSt baseConn).dev = true ∧ pageHas (trsSt baseConn).dev fwCore 48 rWRITE = true ∧ 0 < ctxSlots (trsSt baseConn).dev ∧ bitAt (0x80070004 : Word).toNat 31 = true ∧ bitAt (0x80070004 : Word).toNat 17 = true ∧ bitAt (0x80070004 : Word).toNat 18 = true ∧ (0x80070004 : Word).toNat % 65536 = 4 ∧ (trsSt baseConn).dev.trs.pdBusy = none ∧ connOf (trsSt baseConn).dev 0 = some baseConn ∧ baseConn.r.pd = liveN (trsSt baseConn).dev 0x300060 % 4096 := by
  decide +kernel

theorem test_witness_ContextCacheAndDomains_2 : planned (atWith .service fun d => { d with trs.fetching := [2], trs.writeback := [5], trs.linger := [(1, 0x20000, 0)], pwr.dom := [(43, .on)] }).dev = true ∧ 0 < ctxSlots (atWith .service fun d => { d with pwr.dom := [(43, .on)] }).dev := by
  decide +kernel

theorem test_witness_RingFetch_1 : serving sqSt.dev = true ∧ sqOf sqSt.dev 0 = some {} ∧ (wrOf sqSt.dev 0).running = true ∧ thas sqSt.dev.trs.wrs 0 = true ∧ mayFetch sqSt.dev 0 {} = true ∧ (bufOf sqSt.dev 0).length < 1024 ∧ bitAt (byteAt (memReads sqSt.dev.trs.rings 0 64) 1) 7 = true := by
  decide +kernel

theorem test_witness_RingFetch_2 : bitAt (byteAt (memReads ({ sqSt.dev with trs.rings := [] } : Dev).trs.rings 0 64) 1) 7 ≠ true := by
  decide +kernel

theorem test_witness_Admission_1 : Quiet (admSt 4).dev ∧ serving (admSt 4).dev = true ∧ sqCandidate (admSt 4).dev 4 0 = some { cap := zeros 64 } ∧ slotFor (admSt 4).dev 4 = some false ∧ 0 < (weightsNow (admSt 4).dev).getD 2 0 := by
  unfold Quiet
  decide +kernel

theorem test_witness_Admission_2 : slotFor fullCmd.dev 4 = none ∧ (bufOf fullCmd.dev 4).find? (fun f => (sqCandidate fullCmd.dev 4 f.sq) == some f) = some { cap := zeros 64 } ∧ Quiet fullCmd.dev := by
  unfold Quiet
  decide +kernel

theorem test_witness_Admission_3 : liveN (slSt { phase := .held }).dev 0x400054 ≠ 0 ∧ Quiet (slSt { phase := .held }).dev ∧ planned (slSt {}).dev = true := by
  unfold Quiet
  decide +kernel

theorem test_witness_Admission_4 : pageHas (slSt {}).dev fwCore 64 rWRITE = true ∧ slotFor (slSt {}).dev 0 = some true ∧ (slSt {}).dev.cmd.msubBusy = false := by
  decide +kernel

theorem test_witness_Completions_1 : planned (slSt { phase := .answered, result := some (0, 0, 0) }).dev = true ∧ Quiet (slSt { phase := .answered, result := some (0, 0, 0) }).dev ∧ (slSt { phase := .answered, result := some (0, 0, 0) }).dev.cmd.slots = [(3, { phase := .answered, result := some (0, 0, 0) })] ∧ cqOf (slSt {}).dev 0 = some {} ∧ dataSent (slSt {}).dev 3 = true ∧ (slSt {}).dev.cmd.posting = [] := by
  unfold Quiet
  decide +kernel

theorem test_witness_Completions_2 : (atWith .service fun d => { d with cmd.cqs := [(1, { hostHead := 1 })], cmd.posting := [{ cq := 1 }] }).dev.cmd.posting.all (fun p => !mayPost (atWith .service fun d => { d with cmd.cqs := [(1, { hostHead := 1 })], cmd.posting := [{ cq := 1 }] }).dev p) = true := by
  decide +kernel

theorem test_witness_Completions_3 : Quiet (atWith .service fun d => { d with cmd.cqs := [(1, { detached := true })], cmd.sqs := [(4, { cq := 1 }), (5, {})] }).dev := by
  unfold Quiet
  decide +kernel

theorem test_witness_EntryBytes_1 : (0x101 : Nat) < 2048 ∧ (2 : Nat) % 2 = 0 ∧ (2 : Nat) < 64 := by
  decide +kernel

theorem test_witness_QueueCommands_1 : serving (sqcSt 0).dev = true ∧ Quiet (sqcSt 0).dev ∧ admittedOp (sqcSt 0).dev 3 0x83 (sqc 0) ∧ namedRing (sqcSt 0).dev (leAt (sqc 0).cap 12 4) 0 = some (1, aRing) ∧ aRing.length = 64 * leAt (sqc 0).cap 8 2 ∧ (cqOf (sqcSt 0).dev (leAt (sqc 0).cap 10 2)).any (fun c => c.pd == 0) = true ∧ queueBad (sqc 0) [] = none ∧ (takeQid (sqcSt 0).dev.pln.plan.sqLimit (leAt (sqc 0).cap 4 2) (tkeys (sqcSt 0).dev.cmd.sqs ++ tkeys (sqcSt 0).dev.par.store.sqs)).toOption = some 5 := by
  unfold Quiet admittedOp
  decide +kernel

theorem test_witness_QueueCommands_2 : admittedOp (sqcSt 1).dev 3 0x83 (sqc 1) ∧ namedConn (sqcSt 1).dev (leAt (sqc 1).cap 12 4) 0 = some 0 ∧ queueBad (sqc 1) [] = none ∧ leAt (sqc 1).cap 24 8 % 32 = 0 ∧ leAt (sqc 1).cap 36 8 % 8 = 0 := by
  unfold admittedOp
  decide +kernel

theorem test_witness_QueueCommands_3 : admittedOp (sqcSt 2).dev 3 0x83 (sqc 2) ∧ namedConn (sqcSt 2).dev (leAt (sqc 2).cap 12 4) 0 = some 0 ∧ cqOf (sqcSt 2).dev 5 = some { detached := true } ∧ (sqcSt 2).dev.cmd.posting = [] := by
  unfold admittedOp
  decide +kernel

theorem test_witness_QueueCommands_4 : admittedOp (sqdSt 0).dev 3 0x84 (sqd 0) ∧ (sqdSt 0).dev.cmd.slots = [(3, sqd 0)] ∧ sqOf (sqdSt 0).dev 5 = some { cq := 1 } ∧ (sqdSt 0).dev.cmd.bufs = [] := by
  unfold admittedOp
  decide +kernel

theorem test_witness_QueueCommands_5 : admittedOp (sqdSt 1).dev 3 0x84 (sqd 1) ∧ cqOf (sqdSt 1).dev 5 = some {} ∧ (sqdSt 1).dev.cmd.sqs.all (fun e => e.2.cq != 5) = true := by
  unfold admittedOp
  decide +kernel

theorem test_witness_AbortReleaseIdentifyRegions_1 : serving abSt.dev = true ∧ Quiet abSt.dev ∧ admittedOp abSt.dev 3 9 abCmd ∧ abortTarget abSt.dev abCmd (leAt abCmd.cap 4 4) = some (4, { cid := 7, cap := [2] ++ zeros 63 }) ∧ pastReturn { cid := 7, cap := [2] ++ zeros 63 } = false ∧ tabWf abSt.dev.cmd.slots = true ∧ abSt.dev.cmd.slots.all (fun e => e.1 == 3 || e.1 == 4) = true := by
  unfold Quiet admittedOp
  decide +kernel

theorem test_witness_AbortReleaseIdentifyRegions_2 : admittedOp (slSt abCmd).dev 3 9 abCmd ∧ abortTarget (slSt abCmd).dev abCmd (leAt abCmd.cap 4 4) = none ∧ (slSt abCmd).dev.cmd.bufs = [] ∧ (slSt abCmd).dev.cmd.slots = [(3, abCmd)] := by
  unfold admittedOp
  decide +kernel

theorem test_witness_AbortReleaseIdentifyRegions_3 : admittedOp (slSt { cap := [8] ++ zeros 63 }).dev 3 8 { cap := [8] ++ zeros 63 } := by
  unfold admittedOp
  decide +kernel

theorem test_witness_AbortReleaseIdentifyRegions_4 : admittedOp (slSt idCmd).dev 3 0x80 idCmd ∧ idCmd.dataLen = 4096 ∧ byteAt idCmd.cap 8 = 0 := by
  unfold admittedOp
  decide +kernel

theorem test_witness_AbortReleaseIdentifyRegions_5 : admittedOp rgSt.dev 3 0x93 rgCmd ∧ leAt rgCmd.cap 4 2 = 0 ∧ leAt rgCmd.cap 44 8 / 2 ^ 36 = 2 * 2 ^ 12 ∧ leAt rgCmd.cap 36 8 = 4096 ∧ ringMeets rgSt.dev 2 (leAt rgCmd.cap 44 8 % 2 ^ 36) 4096 false = false ∧ (tgetD rgSt.dev.trs.pds 0 {}).regionLimit = 4 ∧ regionIndex rgSt.dev = some 1 ∧ Quiet rgSt.dev := by
  unfold Quiet admittedOp
  decide +kernel

theorem test_witness_AbortReleaseIdentifyRegions_6 : admittedOp rdsSt.dev 3 0x94 rdsCmd ∧ tget rdsSt.dev.trs.regions (leAt rdsCmd.cap 8 4 / 4096) = some aRegion ∧ aRegion.gen = leAt rdsCmd.cap 8 4 % 4096 ∧ Quiet rdsSt.dev := by
  unfold Quiet admittedOp
  decide +kernel

theorem test_witness_ReadsOfCleanVolumes_1 : begins (volSt (ioSlot 1) aVol).dev 3 1 (ioSlot 1) aVol := by
  unfold begins Quiet
  decide +kernel

theorem test_witness_ReadsOfCleanVolumes_2 : begins (volSt (ioSlot 7) aVol).dev 3 7 (ioSlot 7) aVol ∧ begins (volSt (ioSlot 6) aVol).dev 3 6 (ioSlot 6) aVol ∧ bitAt (byteAt (ioSlot 6).cap 60) 0 = false := by
  unfold begins Quiet
  decide +kernel

theorem test_witness_ReadsOfCleanVolumes_3 : begins (volSt (ioSlot 1) { aVol with lost := [{ lba := 3, count := 2 }] }).dev 3 1 (ioSlot 1) { aVol with lost := [{ lba := 3, count := 2 }] } ∧ firstLost { aVol with lost := [{ lba := 3, count := 2 }] } (ioSlot 1) = some 3 := by
  unfold begins Quiet
  decide +kernel

theorem test_witness_ReadsOfCleanVolumes_4 : begins (volSt (ioSlot 5) aVol).dev 3 5 (ioSlot 5) aVol ∧ flushWaits (volSt (ioSlot 5) aVol).dev 3 (ioSlot 5) = false := by
  unfold begins Quiet
  decide +kernel

theorem test_witness_WritesBegin_1 : begins (volSt (ioSlot 2) aVol).dev 3 2 (ioSlot 2) aVol ∧ pullBytes (ioSlot 2) ≠ 0 ∧ worksOf (volSt (ioSlot 2) aVol).dev 1 aVol (ioSlot 2) ≠ [] ∧ (worksOf (volSt (ioSlot 2) aVol).dev 1 aVol (ioSlot 2)).all (fun w => w.method == .mirror && (geoOf (volSt (ioSlot 2) aVol).dev 1 aVol w.stripe).wants aVol (ioSlot 2) w == []) = true := by
  unfold begins Quiet
  decide +kernel

theorem test_witness_WritesBegin_2 : begins (volSt (ioSlot 3) aVol).dev 3 3 (ioSlot 3) aVol ∧ (worksOf (volSt (ioSlot 3) aVol).dev 1 aVol (ioSlot 3)).all (fun w => w.method == .mirror && w.count != 0 && (geoOf (volSt (ioSlot 3) aVol).dev 1 aVol w.stripe).wants aVol (ioSlot 3) w == []) = true ∧ worksOf (volSt (ioSlot 3) aVol).dev 1 aVol (ioSlot 3) ≠ [] := by
  unfold begins Quiet
  decide +kernel

theorem test_witness_WritesBegin_3 : begins (volSt (ioSlot 4) aVol).dev 3 4 (ioSlot 4) aVol := by
  unfold begins Quiet
  decide +kernel

theorem test_witness_EnginesAndDirtyRegions_1 : (slotOf tagSt.dev 3).any (fun x => x.op == 2 && x.phase == .held && x.result.isNone && x.key.isSome && landedAll x && granuleInside aVol x 0 && !thas x.tags 0) = true ∧ volOf tagSt.dev 1 = some aVol ∧ Quiet tagSt.dev := by
  unfold Quiet
  decide +kernel

theorem test_witness_EnginesAndDirtyRegions_2 : (geoOf ecSt.dev 1 ecVol 0).l.scheme = 2 ∧ readReady (geoOf ecSt.dev 1 ecVol 0) ecVol ecSlot { ecWork with computed := true } = true ∧ unreadable (geoOf ecSt.dev 1 ecVol 0) ecVol ecSlot { ecWork with computed := true } = [] ∧ (gransToCheck ecVol ecSlot).all ecSlot.checked.contains = false ∧ Quiet ecSt.dev := by
  unfold Quiet
  decide +kernel

theorem test_witness_EnginesAndDirtyRegions_3 : dirtyOf { aVol with dirty := [(2, .setting)] } 2 = .setting ∧ dirtyOf { aVol with dirty := [(2, .clearing)] } 2 = .clearing ∧ (2 : Nat) / 32768 = 0 := by
  decide +kernel

theorem test_witness_EnginesAndDirtyRegions_4 : dirtyOf { aVol with dirty := [(2, .dirty)] } 2 = .dirty ∧ regionBusy (volSt {} { aVol with dirty := [(2, .dirty)] }).dev 1 2 = false ∧ regionOwed (volSt {} { aVol with dirty := [(2, .dirty)] }).dev 1 2 = false := by
  decide +kernel

theorem test_witness_JournalWrites_1 : (groupOf jSt.dev 0).journal.recs.find? (fun r => r.r.jseq == 1 && r.pend.contains 2) = some { r := { jseq := 1, body := .alloc [] }, pend := [2] } ∧ Quiet jSt.dev ∧ jSt.dev.cmd.slots = [] := by
  unfold Quiet
  decide +kernel

theorem test_witness_JournalWrites_2 : (groupOf jSt2.dev 0).journal.recs.dropWhile (headPasses jSt2.dev 0 (groupOf jSt2.dev 0).journal.recs) = [{ r := { jseq := 2, body := .alloc [] } }] ∧ (groupOf jSt2.dev 0).journal.live ≠ [] := by
  decide +kernel

theorem test_witness_JournalWrites_3 : (groupOf jSt3.dev 0).journal.remirror.find? (fun e => e.1 == 1) = some (1, 7) := by
  decide +kernel

theorem test_witness_FragmentsAndDriveReads_1 : planned (at_ .service).dev = true ∧ Quiet (at_ .service).dev ∧ ({ frag := { st := .sent } } : Repair).frag.st = .sent ∧ 131072 < proxyBase := by
  unfold Quiet
  decide +kernel

theorem test_witness_FragmentsAndDriveReads_2 : (geoOf (wrkSt wrkSlot).dev 1 aVol 0).avail 0 = true ∧ (geoOf (wrkSt wrkSlot).dev 1 aVol 0).avail 1 = true ∧ isWriteOp wrkSlot.op = true ∧ volOf (wrkSt wrkSlot).dev 1 = some aVol := by
  decide +kernel

theorem test_witness_FragmentsAndDriveReads_3 : unreadable (geoOf (wrkSt drSlot).dev 1 drVol 0) drVol drSlot drDone = [] ∧ ((geoOf (wrkSt drSlot).dev 1 drVol 0).wants drVol drSlot drDone).all (fun e => (geoOf (wrkSt drSlot).dev 1 drVol 0).sources drDone e.1 e.2 [] == [e.1] && drDone.covered e.1 e.2) = true ∧ readReady (geoOf (wrkSt drSlot).dev 1 drVol 0) drVol drSlot drDone = false := by
  decide +kernel

theorem test_witness_DriveFaults_1 : planned (volSt {} aVol).dev = true ∧ Quiet (volSt {} aVol).dev ∧ (driveOf (volSt {} aVol).dev 2).st = .ok ∧ decides (flt .ok).dev 2 = true ∧ (flt .ok).dev.cmd.slots = [] := by
  unfold Quiet
  decide +kernel

theorem test_witness_DriveFaults_2 : (driveOf (flt .suspect).dev 2).st = .suspect ∧ (driveOf (flt .suspect).dev 2).catching = true ∧ slotPos (flt .suspect).dev 2 = some (0, 2) ∧ Quiet (flt .suspect).dev := by
  unfold Quiet
  decide +kernel

theorem test_witness_DriveFaults_3 : causeMet (flt .suspect).dev 2 6 = true ∧ causeMet (flt .ok).dev 2 9 = true ∧ Quiet (flt .ok).dev := by
  unfold Quiet
  decide +kernel

theorem test_witness_Restoration_1 : (groupOf (rst none []).dev 0).restoring = none ∧ planned (rst none []).dev = true ∧ Quiet (rst none []).dev ∧ restoring (rst (some (1, 0, 0)) []).dev 0 = true := by
  unfold Quiet
  decide +kernel

theorem test_witness_Restoration_2 : (nextToRestore (rst none []).dev 0).isSome = true :=
  Exists.elim owed_mem fun _ h => next_isSome _ _ _ h (show bgRuns (rst none []).dev 1 = true by decide +kernel)

theorem test_witness_Restoration_3 : (groupOf (rst (some (1, 0, 0)) [7]).dev 0).redo ≠ [] ∧ keyLayout (rst (some (1, 0, 0)) [7]).dev 1 = some (aVol, aVol.lay) := by
  decide +kernel

theorem test_witness_Restoration_4 : (groupOf (rst (some (1, 0, 0)) []).dev 0).redo = [] ∧ (rst (some (1, 0, 0)) []).dev.sto.locks = [] ∧ bandOwed (rst (some (1, 0, 0)) []).dev 1 aVol.lay 0 0 ≠ [] := by
  decide +kernel

theorem test_witness_Restoration_5 : (groupOf cbSt.dev 0).failed.find? (fun f => f.1 == 1) = some (1, some 9) ∧ owedBands cbSt.dev 0 = [] ∧ (driveOf cbSt.dev 9).st = .rebuilding ∧ 1 < (groupOf cbSt.dev 0).slots.length ∧ Quiet cbSt.dev := by
  unfold Quiet
  decide +kernel

theorem test_witness_ReshapeAndGroups_1 : (volOf (rshSt rshVol).dev 1).isSome = true ∧ rshVol.newLay = some rshLay ∧ rshVol.cursor < reshapeEnd rshVol rshLay ∧ yields (rshSt rshVol).dev rshVol rshLay = false ∧ bgRuns (rshSt rshVol).dev 1 = true ∧ (groupOf (rshSt rshVol).dev 0).journal.live ≠ [] ∧ Quiet (rshSt rshVol).dev := by
  unfold Quiet
  decide +kernel

theorem test_witness_ReshapeAndGroups_2 : reshapeEnd rshVol rshLay ≤ 1024 ∧ { rshVol with cursor := 1024 }.abandoning = false ∧ (volOf (rshSt { rshVol with cursor := 1024 }).dev 1) = some { rshVol with cursor := 1024 } := by
  decide +kernel

theorem test_witness_ReshapeAndGroups_3 : (volOf (rshSt { rshVol with abandoning := true }).dev 1) = some { rshVol with abandoning := true } ∧ planned (rshSt rshVol).dev = true := by
  decide +kernel

theorem test_witness_ReshapeAndGroups_4 : formSt.dev.glb.joinDone = true ∧ planSlots formSt.dev 0 ≠ [] ∧ (groupOf formSt.dev 0).formed = false ∧ ownsGroup formSt.dev 0 = true ∧ (planSlots formSt.dev 0).all (fun k => (driveOf formSt.dev k).st == .spare) = true ∧ Quiet formSt.dev ∧ planned formSt.dev = true := by
  unfold Quiet
  decide +kernel

theorem test_witness_VolumesDescribedAndDeleted_1 : volCmd (volSt qryCmd aVol).dev 3 0x88 rREAD qryCmd aVol ∧ serving (volSt qryCmd aVol).dev = true ∧ Quiet (volSt qryCmd aVol).dev ∧ tabWf (volSt qryCmd aVol).dev.cmd.slots = true := by
  unfold volCmd Quiet admittedOp
  decide +kernel

theorem test_witness_VolumesDescribedAndDeleted_2 : volCmd (volSt idvCmd aVol).dev 3 0x80 rREAD idvCmd aVol ∧ byteAt idvCmd.cap 8 = 1 ∧ idvCmd.dataLen = 4096 := by
  unfold volCmd admittedOp
  decide +kernel

theorem test_witness_VolumesDescribedAndDeleted_3 : volCmd (volSt accCmd aVol).dev 3 0x87 rADMIN accCmd aVol ∧ blockOk accCmd accBlk = true ∧ byteAt accBlk 8 = 2 ∧ accCmd.dataLen = 320 ∧ blockBad ((0, leAt accBlk 0 2 != accCmd.vol) :: zeroFields accBlk 2 6 ++ zeroFields accBlk 9 55 ++ entryFields accBlk) = none ∧ (blockEntries accBlk).any (fun e => bitAt e.w1.toNat 7 && holds (fld e.w1.toNat 0 8) rADMIN) = true := by
  unfold volCmd admittedOp
  decide +kernel

theorem test_witness_VolumesDescribedAndDeleted_4 : volCmd (volSt delCmd aVol).dev 3 0x86 rADMIN delCmd aVol ∧ volState (volSt delCmd aVol).dev 1 = 1 ∧ (volSt delCmd aVol).dev.cmd.slots = [(3, delCmd)] ∧ delCmd.waitFor = false := by
  unfold volCmd admittedOp
  decide +kernel

theorem test_witness_VolumeCreatedAndReshaped_1 : admittedOp mkSt.dev 3 0x85 mkCmd ∧ blockOk mkCmd mkBlk = true ∧ mkCmd.dataLen = 320 ∧ byteAt mkBlk 6 = 0 ∧ cmdPage (actFor mkSt.dev 3) mkCmd 80 rADMIN = true ∧ holds (keyRights (actFor mkSt.dev 3) mkCmd.master 2) rADMIN = true ∧ createBad mkSt.dev mkBlk = none ∧ ownsGroup mkSt.dev 0 = true ∧ groupValid mkSt.dev 0 = true ∧ thas mkSt.dev.itg.pages (leAt mkBlk 10 2) = true ∧ leAt mkBlk 0 2 = 9 ∧ volCount mkSt.dev < 1024 ∧ numUsed mkSt.dev 9 = false ∧ slabsFor mkLay (groupN mkSt.dev 0) mkLay.blocks = 1 ∧ 1 ≤ slabsFree mkSt.dev 0 ∧ blockLayout mkBlk 0 = mkLay ∧ leAt mkBlk 32 8 = 7 ∧ mkCmd.replay = false := by
  unfold admittedOp
  decide +kernel

theorem test_witness_VolumeCreatedAndReshaped_2 : (growStructs mkSt.dev (blockVolume mkBlk { mkLay with slabs := [0] } [] false) 0 (layNeeds (blockVolume mkBlk mkLay [] false) { mkLay with slabs := [0] })).isSome = true ∧ (balancedSeed mkLay 4 7).isSome = true ∧ tabWf mkSt.dev.cmd.slots = true ∧ serving mkSt.dev = true ∧ Quiet mkSt.dev := by
  unfold Quiet
  decide +kernel

theorem test_witness_VolumeCreatedAndReshaped_3 : volCmd (volSt rshCmd aVol).dev 3 0x87 rADMIN rshCmd aVol ∧ byteAt (rshBlk 0 0 2000) 8 = 0 ∧ rshCmd.dataLen = 64 ∧ volState (volSt rshCmd aVol).dev 1 = 1 ∧ reshapeBad (volSt rshCmd aVol).dev rshCmd aVol (rshBlk 0 0 2000) = none ∧ groupValid (volSt rshCmd aVol).dev 0 = true ∧ ownsGroup (volSt rshCmd aVol).dev 0 = true ∧ (balancedSeed (blockLayout (rshBlk 0 0 2000) 0) 4 7).isSome = true ∧ 1 ≤ slabsFree (volSt rshCmd aVol).dev 0 ∧ sameLayout aVol.lay (blockLayout (rshBlk 0 0 2000) 0) = true ∧ (placeReshape (volSt rshCmd aVol).dev aVol { blockLayout (rshBlk 0 0 2000) 0 with slabs := [0] } true).isSome = true ∧ slabsFor (blockLayout (rshBlk 0 0 2000) 0) (groupN (volSt rshCmd aVol).dev 0) 2000 = 1 ∧ blockOk rshCmd (rshBlk 0 0 2000) = true := by
  unfold volCmd admittedOp
  decide +kernel

theorem test_witness_VolumeCreatedAndReshaped_4 : reshapeBad (volSt rshCmd aVol).dev rshCmd aVol (rshBlk 0 1 2000) = none ∧ sameLayout aVol.lay (blockLayout (rshBlk 0 1 2000) 0) = false ∧ (placeReshape (volSt rshCmd aVol).dev aVol { blockLayout (rshBlk 0 1 2000) 0 with slabs := [0] } false).isSome = true ∧ slabsFor (blockLayout (rshBlk 0 1 2000) 0) (groupN (volSt rshCmd aVol).dev 0) 2000 = 1 ∧ leAt (rshBlk 0 1 2000) 32 8 = 7 ∧ (balancedSeed (blockLayout (rshBlk 0 1 2000) 0) 4 7).isSome = true ∧ 1 ≤ slabsFree (volSt rshCmd aVol).dev 0 := by
  decide +kernel

theorem test_witness_VolumeCreatedAndReshaped_5 : volCmd (volSt rshCmd rshVol).dev 3 0x87 rADMIN rshCmd rshVol ∧ byteAt (rshBlk 1 0 0) 8 = 1 ∧ blockBad ((0, leAt (rshBlk 1 0 0) 0 2 != rshCmd.vol) :: zeroFields (rshBlk 1 0 0) 9 15 ++ zeroFields (rshBlk 1 0 0) 40 24) = none ∧ volState (volSt rshCmd rshVol).dev 1 = 4 := by
  unfold volCmd admittedOp
  decide +kernel

theorem test_witness_MemberControl_1 : serving (mcSt .ok).dev = true ∧ Quiet (mcSt .ok).dev ∧ (mcSt .ok).dev.cmd.slots = [(3, mcCmd)] ∧ admittedOp (mcSt .ok).dev 3 0x91 mcCmd ∧ blockOk mcCmd (mcBlk 1) = true ∧ cmdPage (actFor (mcSt .ok).dev 3) mcCmd 80 rADMIN = true ∧ zeroFields (mcBlk 1) 5 59 = (List.range 59).map (fun i => (5 + i, false)) ∧ ownsSlot (mcSt .ok).dev 2 = true ∧ decides (mcSt .ok).dev 2 = true ∧ byteAt (mcBlk 1) 1 = 2 ∧ (driveOf (mcSt .ok).dev 2).st = .ok := by
  unfold Quiet admittedOp
  decide +kernel

theorem test_witness_MemberControl_2 : (driveOf (mcSt .failed).dev 2).st = .failed ∧ (driveOf (mcSt .spare).dev 2).st = .spare ∧ ownsSlot (mcSt .spare).dev 2 = true := by
  decide +kernel

theorem test_witness_MemberControl_3 : (driveOf mcOff.dev 2).off = true ∧ strangeHeader mcStr.dev (driveOf mcStr.dev 2) = true ∧ mcStr.dev.sto.groups.all (fun e => e.2.failed.isEmpty) = true := by
  decide +kernel

theorem test_witness_MemberControl_4 : volOf (mcSt .ok).dev 1 = some aVol ∧ ownsVol (mcSt .ok).dev aVol = true ∧ volState (mcSt .ok).dev 1 = 1 ∧ leAt (mcBlk 6) 2 2 = 1 ∧ byteAt (mcBlk 6) 4 = 5 := by
  decide +kernel

theorem test_witness_KeysAndEntropy_1 : serving klSt.dev = true ∧ Quiet klSt.dev ∧ klSt.dev.cmd.slots = [(3, klCmd)] ∧ admittedOp klSt.dev 3 0x8A klCmd ∧ blockOk klCmd klBlk = true ∧ klCmd.dataLen = 64 ∧ keyPageBad (actFor klSt.dev 3) klCmd = none ∧ blockBad (keyFields klBlk) = none ∧ byteAt klBlk 1 = 0 := by
  unfold Quiet admittedOp
  decide +kernel

theorem test_witness_KeysAndEntropy_2 : boundOther klSt.dev 2 (kcvOf (blockKey klBlk)) = none ∧ tget klSt.dev.itg.pages 2 = none ∧ leAt klCmd.cap 4 2 = 2 := by
  decide +kernel

theorem test_witness_KeysAndEntropy_3 : admittedOp kcSt.dev 3 0x8B kcCmd ∧ keyPageBad (actFor kcSt.dev 3) kcCmd = none ∧ kcSt.dev.par.keyItems = [] ∧ tabWf kcSt.dev.itg.pages = true ∧ thas kcSt.dev.itg.pages 2 = true := by
  unfold admittedOp
  decide +kernel

theorem test_witness_KeysAndEntropy_4 : running kcSt.dev = true ∧ kcSt.dev.itg.rngFault = false := by
  decide +kernel

theorem test_witness_SanitizeAndFormat_1 : serving (volSt swCmd aVol).dev = true ∧ Quiet (volSt swCmd aVol).dev ∧ (volSt swCmd aVol).dev.cmd.slots = [(3, swCmd)] ∧ blockOk swCmd swBlk = true ∧ swCmd.dataLen = 64 ∧ volCmd (volSt swCmd aVol).dev 3 0x8C rADMIN swCmd aVol ∧ byteAt swBlk 0 = 0 ∧ byteAt swBlk 1 = 1 ∧ blockBad (sanFields swBlk) = none ∧ volState (volSt swCmd aVol).dev 1 = 1 := by
  unfold volCmd Quiet admittedOp
  decide +kernel

theorem test_witness_SanitizeAndFormat_2 : admittedOp beSt.dev 3 0x8C beCmd ∧ beCmd.vol = 0xFFFF ∧ byteAt beBlk 0 = 1 ∧ byteAt beBlk 1 = 2 ∧ cmdPage (actFor beSt.dev 3) beCmd 80 rADMIN = true ∧ blockBad (sanFields beBlk) = none ∧ busyVol beSt.dev (shelfVols beSt.dev) = none ∧ notOwned beSt.dev = none ∧ sanSlots beSt.dev ≠ [] ∧ (sanSlots beSt.dev).all (fun k => k < 24 && (driveOf beSt.dev k).id.sanBlockErase && (driveOf beSt.dev k).id.sanOverwrite) = true ∧ blockOk beCmd beBlk = true := by
  unfold admittedOp
  decide +kernel

theorem test_witness_SanitizeAndFormat_3 : volCmd (volSt fmCmd aVol).dev 3 0x8D rADMIN fmCmd aVol ∧ byteAt fmBlk 0 = 0 ∧ blockBad (fmtFields (volSt fmCmd aVol).dev fmBlk) = none ∧ leAt fmBlk 10 2 = 0xFFFF ∧ fmCmd.vol ≠ 0xFFFF := by
  unfold volCmd admittedOp
  decide +kernel

theorem test_witness_SanitizeAndFormat_4 : volOf (volSt swCmd fmVol).dev 1 = some fmVol ∧ ownsVol (volSt swCmd fmVol).dev fmVol = true ∧ volBusy (volSt swCmd fmVol).dev 1 = false ∧ (groupOf (volSt swCmd fmVol).dev 0).journal.recs.all (fun r => r.r.volume != 1) = true := by
  decide +kernel

theorem test_witness_SanitizeAndFormat_5 : volOf (volSt swCmd (owVol 2)).dev 1 = some (owVol 2) ∧ (memberSlots (volSt swCmd (owVol 1)).dev 0).all (memberUp (volSt swCmd (owVol 1)).dev) = true ∧ (volSt swCmd (owVol 1)).dev.sto.bgPaused = false ∧ (owVol 1).pause = false ∧ (volSt swCmd (owVol 1)).dev.pwr.fail = false := by
  decide +kernel

theorem test_witness_SanitizeAndFormat_6 : sanShelf { (volSt swCmd aVol).dev with adm.ops := [{ op := 1, action := 2, missed := 3 }] } = some { op := 1, action := 2, missed := 3 } ∧ bitAt 3 1 = true := by
  decide +kernel

theorem test_witness_SelfTestsAndImages_1 : Quiet (slSt (stCmd 1)).dev ∧ serving (slSt (stCmd 1)).dev = true ∧ admittedOp (slSt (stCmd 1)).dev 3 0x8E (stCmd 1) ∧ cmdPage (actFor (slSt (stCmd 1)).dev 3) (stCmd 1) 176 rADMIN = true ∧ byteAt (stCmd 1).cap 8 = 1 ∧ byteAt (stCmd 2).cap 8 = 2 ∧ testRunning (slSt (stCmd 1)).dev = none := by
  unfold Quiet admittedOp
  decide +kernel

theorem test_witness_SelfTestsAndImages_2 : byteAt (stCmd 15).cap 8 = 15 ∧ testRunning { (slSt (stCmd 15)).dev with adm.tests := [{}] } = some {} := by
  decide +kernel

theorem test_witness_SelfTestsAndImages_3 : admittedOp (slSt (ilCmd 68)).dev 3 0x8F (ilCmd 68) ∧ blockOk (ilCmd 68) ((ilBlk 4) ++ zeros 4) = true ∧ cmdPage (actFor (slSt (ilCmd 68)).dev 3) (ilCmd 68) 0 rADMIN = true ∧ blockBad (imageFields ((ilBlk 4) ++ zeros 4)) = none ∧ (fit ((ilCmd 68).dataLen - 64) (((ilBlk 4) ++ zeros 4).drop 64)).length = leAt (ilBlk 4) 8 4 ∧ imageCheck (slSt (ilCmd 68)).dev 0 {} {} = 1 ∧ leAt (ilBlk 8192) 8 4 = 8192 := by
  unfold admittedOp
  decide +kernel

theorem test_witness_SelfTestsAndImages_4 : serving iaSt.dev = true ∧ admittedOp iaSt.dev 3 0x90 iaCmd ∧ blockOk iaCmd iaBlk = true ∧ iaCmd.dataLen = 64 ∧ cmdPage (actFor iaSt.dev 3) iaCmd 0 rADMIN = true ∧ (bitList (byteAt iaBlk 0) 2).all (fun i => imageCheck { iaSt.dev with glb.otpFw := 7, glb.otpPlan := 0 } i { version := 7 } {} == 1) = true ∧ blockBad (activateFields iaBlk) = none ∧ iaSt.dev.glb.st = .maint ∧ byteAt iaBlk 0 = 1 ∧ Quiet iaSt.dev := by
  unfold Quiet admittedOp
  decide +kernel

theorem test_witness_SelfTestsAndImages_5 : ({ (at_ .service).dev with adm.copyOwed := true } : Dev).adm.copyOwed = true := by
  decide +kernel

theorem test_witness_ConfigLogAndCounterCommands_1 : (adminStart (slSt crCmd).dev 3 0x81).isSome = true ∧ ((adminStart (slSt crCmd).dev 3 0x81).bind (fun e => (busRead (actFor e.2 3) crCmd.master (leAt crCmd.cap 8 4)).1)).isSome = true ∧ leAt crCmd.cap 8 4 % 4 = 0 ∧ Quiet (slSt crCmd).dev ∧ serving (slSt crCmd).dev = true := by
  unfold Quiet
  decide +kernel

theorem test_witness_ConfigLogAndCounterCommands_2 : (adminStart (slSt cwCmd).dev 3 0x82).all (fun e => (writeDenied (actFor e.2 3) cwCmd.master (leAt cwCmd.cap 8 4) 24).isNone && (resultOf (busWrite (actFor e.2 3) cwCmd.master (leAt cwCmd.cap 8 4) 24) 3).isNone && thas (busWrite (actFor e.2 3) cwCmd.master (leAt cwCmd.cap 8 4) 24).cmd.slots 3) = true ∧ (adminStart (slSt cwCmd).dev 3 0x82).isSome = true := by
  decide +kernel

theorem test_witness_ConfigLogAndCounterCommands_3 : admittedOp (slSt glCmd).dev 3 0x89 glCmd ∧ byteAt glCmd.cap 8 = 5 ∧ byteAt glCmd.cap 9 = 0 ∧ zeroAt glCmd.cap 10 2 = true ∧ cmdPage (actFor (slSt glCmd).dev 3) glCmd 80 rADMIN = true ∧ leAt glCmd.cap 12 4 = 64 := by
  unfold admittedOp
  decide +kernel

theorem test_witness_ConfigLogAndCounterCommands_4 : admittedOp (slSt (csCmd 1)).dev 3 0x92 (csCmd 1) ∧ blockOk (csCmd 1) (csBlk 1 0 0) = true ∧ (csCmd 1).dataLen = 64 ∧ blockBad (dumpFields (csBlk 1 0 0)) = none ∧ (setsHeld (leAt (csBlk 1 0 0) 8 2 ||| liveN (slSt (csCmd 1)).dev 0xC00014)).all (fun k => holds (ctrRights (actFor (slSt (csCmd 1)).dev 3) fwCore k) rADMIN) = true := by
  unfold admittedOp
  decide +kernel

theorem test_witness_ConfigLogAndCounterCommands_5 : blockBad (zeroFields (csBlk 2 8 0) 2 62) = none ∧ byteAt (csBlk 2 8 0) 1 = 8 ∧ blockBad (sampleFields (csBlk 3 0 0)) = none ∧ blockBad (windowFields (csBlk 4 0 7)) = none ∧ holds (ctrRights (actFor (slSt (csCmd 4)).dev 3) fwCore 10) rADMIN = true := by
  decide +kernel

theorem test_witness_ConfigLogAndCounterCommands_6 : blockBad (copyFields (fit 64 ([5] ++ zeros 19 ++ le 4 4096))) = none ∧ leAt (fit 64 ([5] ++ zeros 19 ++ le 4 4096)) 20 4 = 4096 ∧ byteAt (fit 64 ([5] ++ zeros 19 ++ le 4 4096)) 0 = 5 := by
  decide +kernel

theorem test_witness_CounterUnit_1 : running ctrSt.dev = true ∧ domOn ctrSt.dev pdCTR = true ∧ liveN ctrSt.dev 0xC00010 = 5 ∧ ctrSt.dev.ctr.writing = none ∧ ctrSt.dev.itg.rngFault = true ∧ windowMode ctrSt.dev = true := by
  decide +kernel

theorem test_witness_CounterUnit_2 : ({ ctrSt.dev with ctr.writing := some (0, 64, 1, 64) } : Dev).ctr.writing.isSome = true ∧ ({ ctrSt.dev with ctr.traceWait := some [] } : Dev).ctr.traceWait.isSome = true := by
  decide +kernel

theorem test_witness_PairLink_1 : planned (pr .paired).dev = true ∧ (pr .paired).dev.pln.plan.unpaired = false ∧ pwUp (pr .paired).dev = true ∧ inPair (pr .paired).dev = true := by
  decide +kernel

theorem test_witness_PairLink_2 : heartbeatOk (pr .paired).dev false aBeat = true ∧ (pr .paired).dev.par.lost = false ∧ (pr .paired).dev.par.giving = none ∧ (hbPath (pr .paired).dev true).misses < 8 := by
  decide +kernel

theorem test_witness_PairLink_3 : (hbPath missSt.dev true).misses = 8 ∧ (hbPath missSt.dev false).misses = 7 ∧ missSt.dev.par.st = .paired ∧ partnerIdle missSt.dev = false ∧ missSt.dev.glb.st = .service ∧ missSt.dev.glb.joinWait = false := by
  decide +kernel

theorem test_witness_PairLink_4 : Still pfSt.dev ∧ pfSt.dev.par.st = .paired ∧ pfSt.dev.par.lost = false ∧ pfSt.dev.glb.joinWait = false ∧ pfSt.dev.pwr.fail = true := by
  unfold Still
  decide +kernel

theorem test_witness_PairMirrorAndHandover_1 : inPair (pr .paired).dev = true ∧ planned (pr .paired).dev = true ∧ (pr .paired).dev.par.rxMseq = 0 ∧ (pr .paired).dev.par.taking = none ∧ Still (pr .paired).dev := by
  unfold Still
  decide +kernel

theorem test_witness_PairMirrorAndHandover_2 : (pr .syncing).dev.par.st = .syncing ∧ (pr .syncing).dev.par.items = [] ∧ (pr .syncing).dev.par.keyItems = [] ∧ (pr .syncing).dev.par.lost = false := by
  decide +kernel

theorem test_witness_PairMirrorAndHandover_3 : paired (giveSt false).dev = true ∧ (giveSt false).dev.par.giving = some (1, 1, false) ∧ (giveSt false).dev.par.request = none ∧ (giveSt true).dev.par.givingStarted = true ∧ (giveSt true).dev.par.givingSent = false ∧ (giveSt true).dev.cmd.slots = [] ∧ pwUp (giveSt true).dev = true := by
  decide +kernel

theorem test_witness_PairMirrorAndHandover_4 : inPair pbSt.dev = true ∧ pathLive pbSt.dev true = true ∧ planned pbSt.dev = true := by
  decide +kernel

theorem test_witness_PairMirrorAndHandover_5 : (takeSt none).dev.glb.st = .service ∧ (takeSt none).dev.par.step = .none ∧ (takeSt none).dev.par.rxMseq = 5 ∧ (takeSt (some (63, true, true))).dev.par.newRecord = some (63, true, true) ∧ paired (takeSt none).dev = true := by
  decide +kernel

theorem test_witness_PairMirrorAndHandover_6 : retSt.dev.par.stableSince = some 0 ∧ retSt.dev.par.giving = none ∧ partnerCanTake retSt.dev (ownGroups retSt.dev) = true ∧ planned retSt.dev = true := by
  decide +kernel

theorem test_witness_TakeOver_1 : planned arbSt.dev = true ∧ arbSt.dev.par.step = .arbitrate ∧ arbSt.dev.par.arbiter = 1 ∧ 2 ≤ (bitList (setBit arbSt.dev.par.won 1) 3).length ∧ (bitList arbSt.dev.par.won 3).length < 2 ∧ arbSt.dev.glb.st ≠ .train ∧ (sideAddrs arbSt.dev true).length = 1 := by
  decide +kernel

theorem test_witness_TakeOver_2 : ({ arbSt.dev with par.arbiter := 3, par.garps := 2 } : Dev).par.arbiter = 3 := by
  decide +kernel

theorem test_witness_TakeOver_3 : Still fenSt.dev ∧ (driveOf fenSt.dev 5).fencing = true ∧ fenSt.dev.par.step = .fence ∧ fenSt.dev.par.fenceLate.contains 5 = false := by
  unfold Still
  decide +kernel

theorem test_witness_TakeOver_4 : Still finSt.dev ∧ finSt.dev.glb.st = .takeover ∧ finSt.dev.par.step = .resume ∧ finSt.dev.sto.recovery = [] ∧ finSt.dev.par.lost = true ∧ planned finSt.dev = true := by
  unfold Still
  decide +kernel

theorem test_witness_TakeOver_5 : serving owSt.dev = true ∧ admittedOp owSt.dev 3 0x95 owCmd ∧ blockOk owCmd (owBlk 1 0 0) = true ∧ cmdPage (actFor owSt.dev 3) owCmd 144 rADMIN = true ∧ blockBad (zeroFields (owBlk 1 0 0) 3 61) = none ∧ (handoverBad owSt.dev (ownGroups owSt.dev)).1 = none ∧ planned owSt.dev = true ∧ (handoverBad owSt.dev 0).1 = none := by
  unfold admittedOp
  decide +kernel

theorem test_witness_TakeOver_6 : 8192 ≤ stagingNow (at_ .service).dev ∧ ({ (at_ .service).dev with par.maintRetry := true } : Dev).par.maintRetry = true := by
  decide +kernel

theorem test_witness_TakeOver_7 : (lowSt.dev).par.maintRetry = true ∧ stagingNow lowSt.dev < 8192 ∧ lowSt.dev.glb.st = .service ∧ (handoverBad lowSt.dev (ownGroups lowSt.dev)).1 = none ∧ planned lowSt.dev = true := by
  decide +kernel

theorem test_witness_ViaductControl_1 : serving viSt.dev = true ∧ admittedOp viSt.dev 3 0x96 viCmd ∧ blockOk viCmd (viBlk 1 2) = true ∧ viCmd.dataLen = 128 ∧ cmdPage (actFor viSt.dev 3) viCmd 160 rADMIN = true ∧ byteAt (viBlk 1 2) 1 = ownPier viSt.dev ∧ pierListed viSt.dev (ownPier viSt.dev) = true ∧ (List.range 126).all (fun i => byteAt (viBlk 1 2) (i + 2) == 0) = true ∧ (removeBad viSt.dev 2).1 = none ∧ viSt.dev.via.inner = [] := by
  unfold admittedOp
  decide +kernel

theorem test_witness_ViaductControl_2 : blockBad (formFields fgSt.dev fgBlk) = none ∧ thas viSt.dev.via.groups (byteAt fgBlk 2) = false ∧ byteAt fgBlk 0 = 3 := by
  decide +kernel

theorem test_witness_ViaductControl_3 : thas dgSt.dev.via.groups 7 = true ∧ dgSt.dev.sto.vols.all (fun e => e.2.lay.group != 64 + 7) = true := by
  decide +kernel

theorem test_witness_ViaductControl_4 : ({ (at_ .service).dev with via.draining := some 5 } : Dev).via.draining.isSome = true ∧ (at_ .service).dev.trs.conns = [] := by
  decide +kernel

theorem test_witness_ViaductRecords_1 : serving viSt.dev = true ∧ (viaPlan viSt.dev).isSome = true ∧ pierListed viSt.dev 5 = true ∧ ownPier viSt.dev < 5 ∧ thas viSt.dev.via.inner 5 = false ∧ (freeConn viSt.dev).isSome = true := by
  decide +kernel

theorem test_witness_ViaductRecords_2 : ({ viSt.dev with via.done := [(0, 0, {})] } : Dev).via.done.find? (fun e => e.1 == fwdKey {} && e.2.1 == ({} : InnerRec).seq) = some (0, 0, {}) ∧ tgetD viSt.dev.via.expect (fwdKey { seq := 3 }) 0 < 3 ∧ viSt.dev.via.early = [] ∧ viSt.dev.via.done = [] ∧ viSt.dev.pwr.fail = false ∧ capStops viSt.dev [] = false ∧ 0 < sharedSlots viSt.dev ∧ mirrorHolds viSt.dev = false := by
  decide +kernel

theorem test_witness_ViaductRecords_3 : leAt (fit 32 ({ kindFields := zeros 16 ++ [1, 1] } : InnerRec).kindFields) 16 2 % 2048 = 257 ∧ ({ to_ := some (5, 0) } : Slot).to_.any (fun t => t.1 == 5) = true ∧ ({ to_ := some (5, 0) } : Slot).cmdTag = ({} : InnerRec).gateTag := by
  decide +kernel

theorem test_witness_ViaductRecords_4 : liveN lgSt.dev 0x30008C ≠ 0 ∧ lgSt.dev.glb.st ≠ .takeover ∧ lgSt.dev.cmd.slots = [] ∧ lgSt.dev.cmd.bufs = [] ∧ pierListed lgSt.dev 5 = true ∧ serving lgSt.dev = true := by
  decide +kernel

theorem test_witness_ViaductRecords_5 : (vgroup vgSt.dev 7).seen = 3 ∧ (driveOf vgSt.dev 2).st = .ok ∧ (driveOf vgSt.dev 2).bring = .ready ∧ (vgroup vgSt.dev 7).granted = none ∧ (vgroup vgSt.dev 7).homeAt + 1000 * liveN vgSt.dev 0xA00010 ≤ vgSt.dev.time ∧ (vgroup vgSt.dev 7).claim = some (4, 0) := by
  decide +kernel

theorem test_witness_ViaductRecords_6 : (tget vgSt.dev.via.sent 0).map (·.pier) = some 6 ∧ pierUp vgSt.dev 5 = true ∧ pierUp vgSt.dev 4 = true ∧ (5 : Nat).xor 1 = 4 ∧ pierListed vgSt.dev 5 = true ∧ serving vgSt.dev = true ∧ ownPier vgSt.dev = 2 ∧ (tget vgSt.dev.via.sent 0).map (·.use) = some .none := by
  decide +kernel

theorem test_witness_ViaductRecords_7 : tget ipSt.dev.via.inner 5 = some 0 ∧ (connOf ipSt.dev 0).map (·.est) = some true ∧ isResident ipSt.dev 0 = true ∧ (connOf ipSt.dev 0).map openPaths = some [0] ∧ serving ipSt.dev = true ∧ pierListed ipSt.dev 5 = true := by
  decide +kernel

theorem test_witness_SlicesAndFaults_1 : slicesRun bsSt.dev = true ∧ bsSt.dev.bst.active = none ∧ bsSt.dev.bst.urgent = [(36, 0)] ∧ unitIn bsSt.dev (36, 0) = true ∧ unitFree bsSt.dev (36, 0) = true ∧ running bsSt.dev = true := by
  decide +kernel

theorem test_witness_SlicesAndFaults_2 : ({ bsSt.dev with bst.active := some 36 } : Dev).bst.active = some 36 ∧ bsSt.dev.bst.repeat_.contains (36, 0) = false ∧ bsSt.dev.bst.soft.length < 4096 ∧ spareLeft bsSt.dev { dom := 36, unit := 0, inst := 0, column := false } = true := by
  decide +kernel

theorem test_witness_SlicesAndFaults_3 : (recent hbSt.dev (tgetD hbSt.dev.bst.corrected 5 []) 1000000000).length < 4096 ∧ counts hbSt.dev 0x800120 = true ∧ hbSt.dev.glb.st = .service ∧ hbSt.dev.pwr.bistPaused = false := by
  decide +kernel

theorem test_witness_SlicesAndFaults_4 : pageHas (at_ .maint).dev fwCore 176 rWRITE = true ∧ bitAt (0x3B7D0001 : Word).toNat 0 = true ∧ fld (0x3B7D0001 : Word).toNat 16 16 = 0x3B7D ∧ (at_ .maint).dev.bst.burning = false ∧ ({ bsSt.dev with bst.burning := true } : Dev).bst.burning = true := by
  decide +kernel

theorem test_witness_SlicesAndFaults_5 : domOn hbSt.dev pdHBM0 = true ∧ hbSt.dev.bst.retired.contains 5 = false ∧ hbSt.dev.bst.copying.contains 7 = true ∧ 8192 ≤ stagingNow hbSt.dev ∧ domOn hbSt.dev (pdCPU (3 / 4)) = true ∧ (recent hbSt.dev (tgetD hbSt.dev.bst.coreErrs 3 []) 3600000000000).length = 1 := by
  decide +kernel

theorem test_witness_SlicesAndFaults_6 : planned (at_ .plan).dev = false ∧ running (at_ .plan).dev = true ∧ (at_ .plan).dev.sense.clkLost = [] ∧ (at_ .plan).dev.sense.leftOut = [] ∧ (at_ .plan).dev.glb.shutdown = false := by
  decide +kernel

theorem test_witness_StepFront_1 : ({} : Dev).pwr.reqs = [] := by
  decide +kernel

theorem test_witness_FrameOfShortCommands_1 : (changes (.scrubTick .hbmPass)).length ≤ 4 ∧ (changes .pwrFailClear).length ≤ 4 ∧ Piece.bytes ∉ changes .pwrFailClear := by
  decide +kernel

theorem test_witness_FrameOfWideCommands_1 : 4 < (changes (.readCmd 3)).length ∧ Piece.itg ∉ changes (.readCmd 3) ∧ Piece.bytes ∉ changes (.readCmd 3) := by
  decide +kernel

theorem test_witness_MemoryKept_1 : (at_ .service).dev.memOk = true ∧ (match step (at_ .service) with | .next _ => true | _ => false) = true := by
  decide +kernel

theorem test_witness_OtpNeverFalls_1 : 0 ≤ (at_ .service).dev.glb.otpFw ∧ 0 ≤ (at_ .service).dev.glb.otpPlan ∧ (match step (at_ .service) with | .next _ => true | _ => false) = true := by
  decide +kernel

theorem test_witness_HaltAndOffEndByColdReset_1 : (at_ .halt).dev.glb.st = .halt ∧ (at_ .halt).pending = [] ∧ (match step (at_ .halt) with | .next t => t.dev.glb.st == .halt | _ => false) = true := by
  decide +kernel

theorem test_witness_HaltAndOffEndByColdReset_2 : (at_ .off).dev.glb.st = .off ∧ (at_ .off).pending = [] := by
  decide +kernel

end Sys2Proof.Tests
end

/-! ## What a command leaves alone

`Piece.same` asks of each part of the device that it is as it was. One lemma per operation of the model, `same_<operation>`,
says which parts the operation may write: a hypothesis `part ≠ .p` for each of them, and every other part of the device after
it agrees with `d₀` just where the device before it does. The lemmas rewrite an operation away by those of the operations it
is made of, so each names what its operation calls and nothing of what those do. -/

namespace Sys2Proof.Machine

section
variable {part : Piece} {d₀ d : Dev}

/-! ### Record updates -/

theorem same_refl (part : Piece) (d : Dev) : part.same d d := by
  cases part <;> simp [Piece.same, SameMem]

/-- A device that agrees with another on a part has it as in `d₀` where the other has. -/
theorem same_congr {e : Dev} (h : part.same d e) : part.same d₀ e ↔ part.same d₀ d := by
  cases part <;> simp_all [Piece.same, SameMem]

/-- What a record update leaves: every part of which it writes no field. The device updated is read off device time, which no
update writes. -/
theorem same_mk {free : Nat} {glb : Glb} {pwr : Pwr} {sense : Sense} {reg : Reg} {pln : Pln} {acc : Acc} {log : Log} {eth : Eth}
    {swc : Swc} {trs : Trs} {cmd : Cmd} {sto : Sto} {par : Par} {via : Via} {itg : Itg} {adm : Adm} {bst : Bst} {ctr : Ctr}
    {out : List Emit}
    (hglb : part = .glb → glb = d.glb) (hpwr : part = .pwr → pwr = d.pwr) (hsense : part = .sense → sense = d.sense)
    (hregs : part = .regs → reg.live = d.reg.live ∧ reg.staged = d.reg.staged ∧ reg.sticky = d.reg.sticky)
    (hlatch : part = .latch → reg.latch = d.reg.latch ∧ reg.readVal = d.reg.readVal)
    (hacc : part = .acc → acc = d.acc) (hpln : part = .pln → pln = d.pln) (heth : part = .eth → eth = d.eth)
    (hswc : part = .swc → swc = d.swc) (htrs : part = .trs → trs = d.trs)
    (hbytes : part = .bytes → trs.rings = d.trs.rings ∧ trs.pantry = d.trs.pantry ∧ ctr.dump = d.ctr.dump)
    (hcmd : part = .cmd → cmd = d.cmd) (hsto : part = .sto → sto = d.sto) (hpar : part = .par → par = d.par)
    (hvia : part = .via → via = d.via) (hitg : part = .itg → itg = d.itg) (hadm : part = .adm → adm = d.adm)
    (hbst : part = .bst → bst = d.bst) (houts : part = .outs → out = d.out) :
    part.same d₀ ⟨d.time, free, glb, pwr, sense, reg, pln, acc, log, eth, swc, trs, cmd, sto, par, via, itg, adm, bst, ctr, out⟩
      ↔ part.same d₀ d := by
  apply same_congr
  cases part <;> simp_all [Piece.same, SameMem]

theorem same_ite {c : Prop} [Decidable c] {a b : Dev} :
    part.same d₀ (if c then a else b) ↔ if c then part.same d₀ a else part.same d₀ b := by split <;> rfl

theorem same_foldl {α : Type} {f : Dev → α → Dev} (h : ∀ d a, part.same d₀ (f d a) ↔ part.same d₀ d) (l : List α) (d : Dev) :
    part.same d₀ (l.foldl f d) ↔ part.same d₀ d := by
  induction l generalizing d with
  | nil => exact Iff.rfl
  | cons a l ih => exact (ih _).trans (h d a)

theorem same_glb (h : part ≠ .glb) {x : Glb} : part.same d₀ { d with glb := x } ↔ part.same d₀ d := by
  simp only [same_mk, h, false_implies, implies_true, and_self]

theorem same_pwr (h : part ≠ .pwr) {x : Pwr} : part.same d₀ { d with pwr := x } ↔ part.same d₀ d := by
  simp only [same_mk, h, false_implies, implies_true, and_self]

theorem same_sense (h : part ≠ .sense) {x : Sense} : part.same d₀ { d with sense := x } ↔ part.same d₀ d := by
  simp only [same_mk, h, false_implies, implies_true, and_self]

theorem same_regs (h : part ≠ .regs) {live staged sticky : Tab Word} :
    part.same d₀ { d with reg.live := live, reg.staged := staged, reg.sticky := sticky } ↔ part.same d₀ d := by
  simp only [same_mk, h, false_implies, implies_true, and_self]

theorem same_cnt {x : Tab Nat} : part.same d₀ { d with reg.cnt := x } ↔ part.same d₀ d := by simp only [same_mk, implies_true, and_self]

theorem same_free {x : Nat} : part.same d₀ { d with free := x } ↔ part.same d₀ d := by simp only [same_mk, implies_true, and_self]

theorem same_log {x : Log} : part.same d₀ { d with log := x } ↔ part.same d₀ d := by simp only [same_mk, implies_true, and_self]

theorem same_acc (h : part ≠ .acc) {x : Acc} : part.same d₀ { d with acc := x } ↔ part.same d₀ d := by
  simp only [same_mk, h, false_implies, implies_true, and_self]

theorem same_pln (h : part ≠ .pln) {x : Pln} : part.same d₀ { d with pln := x } ↔ part.same d₀ d := by
  simp only [same_mk, h, false_implies, implies_true, and_self]

theorem same_eth (h : part ≠ .eth) {x : Eth} : part.same d₀ { d with eth := x } ↔ part.same d₀ d := by
  simp only [same_mk, h, false_implies, implies_true, and_self]

theorem same_swc (h : part ≠ .swc) {x : Swc} : part.same d₀ { d with swc := x } ↔ part.same d₀ d := by
  simp only [same_mk, h, false_implies, implies_true, and_self]

theorem same_trs (h : part ≠ .trs) {x : Trs} (hr : x.rings = d.trs.rings) (hp : x.pantry = d.trs.pantry) :
    part.same d₀ { d with trs := x } ↔ part.same d₀ d := by
  simp only [same_mk, h, hr, hp, false_implies, implies_true, and_self]

theorem same_cmd (h : part ≠ .cmd) {x : Cmd} : part.same d₀ { d with cmd := x } ↔ part.same d₀ d := by
  simp only [same_mk, h, false_implies, implies_true, and_self]

theorem same_sto (h : part ≠ .sto) {x : Sto} : part.same d₀ { d with sto := x } ↔ part.same d₀ d := by
  simp only [same_mk, h, false_implies, implies_true, and_self]

theorem same_par (h : part ≠ .par) {x : Par} : part.same d₀ { d with par := x } ↔ part.same d₀ d := by
  simp only [same_mk, h, false_implies, implies_true, and_self]

theorem same_via (h : part ≠ .via) {x : Via} : part.same d₀ { d with via := x } ↔ part.same d₀ d := by
  simp only [same_mk, h, false_implies, implies_true, and_self]

theorem same_itg (h : part ≠ .itg) {x : Itg} : part.same d₀ { d with itg := x } ↔ part.same d₀ d := by
  simp only [same_mk, h, false_implies, implies_true, and_self]

theorem same_adm (h : part ≠ .adm) {x : Adm} : part.same d₀ { d with adm := x } ↔ part.same d₀ d := by
  simp only [same_mk, h, false_implies, implies_true, and_self]

theorem same_bst (h : part ≠ .bst) {x : Bst} : part.same d₀ { d with bst := x } ↔ part.same d₀ d := by
  simp only [same_mk, h, false_implies, implies_true, and_self]

theorem same_ctr {x : Ctr} (h : x.dump = d.ctr.dump) : part.same d₀ { d with ctr := x } ↔ part.same d₀ d := by
  simp only [same_mk, h, implies_true, and_self]

theorem same_out (h : part ≠ .outs) {x : List Emit} : part.same d₀ { d with out := x } ↔ part.same d₀ d := by
  simp only [same_mk, h, false_implies, implies_true, and_self]

/-! ### Counters, log, denials and device states -/

theorem same_logAppend {e : LogEntry} : part.same d₀ (logAppend d e) ↔ part.same d₀ d := by
  obtain ⟨l, h⟩ := logAppend_only d e
  rw [h, same_log]

theorem same_logEvent {event attn : Nat} {topic : Topic} {detail : List Byte} :
    part.same d₀ (logEvent d event attn topic detail) ↔ part.same d₀ d := by
  obtain ⟨l, h⟩ := logEvent_only d event attn topic detail
  rw [h, same_log]

theorem same_draw : part.same d₀ (draw d).2 ↔ part.same d₀ d := same_free

theorem same_drawBits {n : Nat} : part.same d₀ (drawBits d n).2 ↔ part.same d₀ d := same_free

theorem same_drawId : part.same d₀ (drawId d).2 ↔ part.same d₀ d := same_free

theorem same_drawPortBase : part.same d₀ (drawPortBase d).2 ↔ part.same d₀ d := same_free

/-! ### Layout -/

theorem same_modDrive (hsto : part ≠ .sto) {k : Nat} {f : Drive → Drive} : part.same d₀ (modDrive d k f) ↔ part.same d₀ d := by
  simp only [modDrive, same_sto hsto]

theorem same_modGroup (hsto : part ≠ .sto) {g : Nat} {f : Group → Group} : part.same d₀ (modGroup d g f) ↔ part.same d₀ d := by
  simp only [modGroup, same_sto hsto]

theorem same_modVol (hsto : part ≠ .sto) {v : Nat} {f : Volume → Volume} : part.same d₀ (modVol d v f) ↔ part.same d₀ d := by
  simp only [modVol, same_sto hsto]

/-! ### Counters, log, denials and device states -/

theorem same_emit (houts : part ≠ .outs) {e : Emit} : part.same d₀ (emit d e) ↔ part.same d₀ d := by
  simp only [emit, same_out houts]

theorem same_emits (houts : part ≠ .outs) {l : List Emit} : part.same d₀ (emits d l) ↔ part.same d₀ d := by
  simp only [emits, same_out houts]

theorem same_countN {off n : Nat} : part.same d₀ (countN d off n) ↔ part.same d₀ d := by
  simp only [countN, same_cnt, same_ite, ite_self]

theorem same_count {off : Nat} : part.same d₀ (count d off) ↔ part.same d₀ d := by
  simp only [count, same_countN]

theorem same_zeroCnts {off n : Nat} : part.same d₀ (zeroCnts d off n) ↔ part.same d₀ d := by
  simp only [zeroCnts, same_cnt]

theorem same_setSticky (hregs : part ≠ .regs) {off bit : Nat} : part.same d₀ (setSticky d off bit) ↔ part.same d₀ d := by
  simp only [setSticky, same_regs hregs]

theorem same_deny (hacc : part ≠ .acc) {m : Master} {target wher right : Nat} :
    part.same d₀ (deny d m target wher right) ↔ part.same d₀ d := by
  simp only [deny, same_logEvent, same_count, same_acc hacc, same_ite, ite_self]

theorem same_enter (hglb : part ≠ .glb) {st : DevSt} : part.same d₀ (enter d st) ↔ part.same d₀ d := by
  simp only [enter, same_glb hglb]

theorem same_publish {ns : Nat} {bytes : Nat → Nat} : part.same d₀ (publish d ns bytes) ↔ part.same d₀ d := by
  simp only [publish, same_mk, implies_true, and_self]

theorem same_tdDraw : part.same d₀ (tdDraw d) ↔ part.same d₀ d := by
  simp only [tdDraw, same_countN, same_free, same_ite, ite_self, same_foldl, implies_true]

/-! ### Power domains -/

theorem same_setDom (hpwr : part ≠ .pwr) {n : Nat} {p : DomPhase} : part.same d₀ (setDom d n p) ↔ part.same d₀ d := by
  simp only [setDom, same_pwr hpwr]

theorem same_startReq (hpwr : part ≠ .pwr) {r : DomReq} : part.same d₀ (startReq d r) ↔ part.same d₀ d := by
  simp only [startReq, same_setDom hpwr, same_pwr hpwr, same_ite, ite_self]

theorem same_domServe (hpwr : part ≠ .pwr) : part.same d₀ (domServe d) ↔ part.same d₀ d := by
  unfold domServe
  extract_lets go
  have same_go (d : Dev) (on : Bool) : part.same d₀ (go d on) ↔ part.same d₀ d := by
    simp only [go]
    split
    · exact same_startReq hpwr
    · split
      · exact same_startReq hpwr
      · rfl
  exact (same_go _ _).trans (same_go _ _)

theorem same_domRequestOn (hpwr : part ≠ .pwr) {n : Nat} {takeover : Bool} :
    part.same d₀ (domRequestOn d n takeover) ↔ part.same d₀ d := by
  simp only [domRequestOn, same_logEvent, same_domServe hpwr, same_pwr hpwr, same_ite, ite_self]

theorem same_domQueueOff (hpwr : part ≠ .pwr) {n : Nat} {takeover : Bool} :
    part.same d₀ (domQueueOff d n takeover) ↔ part.same d₀ d := by
  simp only [domQueueOff, same_domServe hpwr, same_pwr hpwr, same_ite, ite_self]

theorem same_turnStep (hglb : part ≠ .glb) (hpwr : part ≠ .pwr) : part.same d₀ (turnStep d) ↔ part.same d₀ d := by
  simp only [turnStep]
  split
  · rfl
  · simp only [same_ite]
    split
    · rfl
    · split <;> simp only [same_domRequestOn hpwr, same_enter hglb, same_pwr hpwr, same_ite, ite_self]

theorem same_turnOn (hglb : part ≠ .glb) (hpwr : part ≠ .pwr) {want : Dword} : part.same d₀ (turnOn d want) ↔ part.same d₀ d := by
  simp only [turnOn, same_turnStep hglb hpwr, same_pwr hpwr]

/-! ### Register writes -/

theorem same_writeAccess (hacc : part ≠ .acc) {m : Master} {off : Nat} {f : Dev → Dev}
    (hf : ∀ d, part.same d₀ (f d) ↔ part.same d₀ d) : part.same d₀ (writeAccess d m off f) ↔ part.same d₀ d := by
  simp only [writeAccess, hf, same_deny hacc, same_ite, ite_self]

/-! ### Ethernet ports -/

theorem same_modPort (heth : part ≠ .eth) {p : Nat} {f : Port → Port} : part.same d₀ (modPort d p f) ↔ part.same d₀ d := by
  simp only [modPort, same_eth heth]

theorem same_modLane (heth : part ≠ .eth) {m l : Nat} {f : Lane → Lane} : part.same d₀ (modLane d m l f) ↔ part.same d₀ d := by
  simp only [modLane, same_eth heth]

theorem same_ethStatN {p i n : Nat} : part.same d₀ (ethStatN d p i n) ↔ part.same d₀ d := by
  simp only [ethStatN, same_countN]

theorem same_ethStat {p i : Nat} : part.same d₀ (ethStat d p i) ↔ part.same d₀ d := by
  simp only [ethStat, same_ethStatN]

theorem same_laneStat {m l i : Nat} : part.same d₀ (laneStat d m l i) ↔ part.same d₀ d := by
  simp only [laneStat, same_count]

theorem same_pwdClear (heth : part ≠ .eth) {p : Nat} : part.same d₀ (pwdClear d p) ↔ part.same d₀ d := by
  simp only [pwdClear, same_modPort heth]

theorem same_linkLost (heth : part ≠ .eth) {p : Nat} : part.same d₀ (linkLost d p) ↔ part.same d₀ d := by
  simp only [linkLost, same_modPort heth, same_pwdClear heth, same_modLane heth, same_ethStat, same_foldl, implies_true]

theorem same_retireLane (heth : part ≠ .eth) {p l : Nat} : part.same d₀ (retireLane d p l) ↔ part.same d₀ d := by
  simp only [retireLane, same_modPort heth, same_logEvent, same_laneStat, same_modLane heth, same_ethStat, same_ite, ite_self,
    same_foldl, implies_true]

theorem same_chargeLane (heth : part ≠ .eth) {p l : Nat} : part.same d₀ (chargeLane d p l) ↔ part.same d₀ d := by
  simp only [chargeLane, same_retireLane heth, same_laneStat, same_modLane heth, same_ite, ite_self]

theorem same_fecDraw {offs : List Nat} : part.same d₀ (fecDraw d offs) ↔ part.same d₀ d := by
  simp only [fecDraw, same_draw, same_countN, same_foldl, implies_true]

theorem same_startAttempt (heth : part ≠ .eth) {p : Nat} : part.same d₀ (startAttempt d p) ↔ part.same d₀ d := by
  simp only [startAttempt, same_modPort heth, same_laneStat, same_ite, ite_self, same_foldl, implies_true]

theorem same_setPwd (heth : part ≠ .eth) {p inst : Nat} {w : Pwd} : part.same d₀ (setPwd d p inst w) ↔ part.same d₀ d := by
  simp only [setPwd, same_modPort heth]

theorem same_pwdPause (heth : part ≠ .eth) {p inst quanta : Nat} : part.same d₀ (pwdPause d p inst quanta) ↔ part.same d₀ d := by
  simp only [pwdPause]
  split <;> simp only [same_setPwd heth, same_ethStat, same_ite, ite_self]

theorem same_macControl {p i : Nat} : part.same d₀ (macControl d p i) ↔ part.same d₀ d := by
  simp only [macControl, same_ethStatN, same_ethStat]

theorem same_sendPfc (houts : part ≠ .outs) {p r quanta : Nat} : part.same d₀ (sendPfc d p r quanta) ↔ part.same d₀ d := by
  simp only [sendPfc, same_macControl, same_emit houts, same_ethStat]

/-! ### The switch core -/

theorem same_swcCnt {p i : Nat} : part.same d₀ (swcCnt d p i) ↔ part.same d₀ d := by
  simp only [swcCnt, same_count]

theorem same_qDrop {p q : Nat} : part.same d₀ (qDrop d p q) ↔ part.same d₀ d := by
  simp only [qDrop, same_count]

theorem same_modQueue (hswc : part ≠ .swc) {p q : Nat} {f : Queue → Queue} : part.same d₀ (modQueue d p q f) ↔ part.same d₀ d := by
  simp only [modQueue, same_swc hswc]

theorem same_modEgress (hswc : part ≠ .swc) {p : Nat} {f : Egress → Egress} : part.same d₀ (modEgress d p f) ↔ part.same d₀ d := by
  simp only [modEgress, same_swc hswc]

theorem same_enqueue (hswc : part ≠ .swc) {p q : Nat} {f : QFrame} : part.same d₀ (enqueue d p q f) ↔ part.same d₀ d := by
  simp only [enqueue, same_modEgress hswc, same_modQueue hswc, same_ite, ite_self]

theorem same_sendXoff (hswc : part ≠ .swc) (houts : part ≠ .outs) {k : Nat} : part.same d₀ (sendXoff d k) ↔ part.same d₀ d := by
  simp only [sendXoff, same_sendPfc houts, same_swc hswc, same_ite, ite_self]

theorem same_sendXon (hswc : part ≠ .swc) (houts : part ≠ .outs) {k : Nat} : part.same d₀ (sendXon d k) ↔ part.same d₀ d := by
  simp only [sendXon, same_sendPfc houts, same_swc hswc, same_ite, ite_self]

theorem same_xonAll (hswc : part ≠ .swc) (houts : part ≠ .outs) : part.same d₀ (xonAll d) ↔ part.same d₀ d := by
  simp only [xonAll, same_sendXon hswc houts, same_foldl, implies_true]

theorem same_placeCopy (hswc : part ≠ .swc) {p q : Nat} {f : QFrame} {a : Admit} {key : Option Nat} :
    part.same d₀ (placeCopy d p q f a key) ↔ part.same d₀ d := by
  simp only [placeCopy]
  split <;> simp only [same_enqueue hswc, same_swc hswc]

theorem same_dropAt {p q i : Nat} : part.same d₀ (dropAt d p q i) ↔ part.same d₀ d := by
  simp only [dropAt, same_swcCnt, same_qDrop]

theorem same_dropDrain {p q : Nat} : part.same d₀ (dropDrain d p q) ↔ part.same d₀ d := by
  simp only [dropDrain, same_dropAt, same_ethStat, same_ite, ite_self]

theorem same_freeCopy (hswc : part ≠ .swc) (houts : part ≠ .outs) {f : QFrame} : part.same d₀ (freeCopy d f) ↔ part.same d₀ d := by
  simp only [freeCopy, same_xonAll hswc houts, same_swc hswc, same_ite]
  split
  · split <;> simp only [same_swc hswc]
  · rfl

theorem same_leaveIfEmpty (hswc : part ≠ .swc) {p q : Nat} : part.same d₀ (leaveIfEmpty d p q) ↔ part.same d₀ d := by
  simp only [leaveIfEmpty, same_modEgress hswc, same_modQueue hswc, same_ite, ite_self]

theorem same_discardFrames (hswc : part ≠ .swc) (houts : part ≠ .outs) {p q i : Nat} {sel : QFrame → Bool} :
    part.same d₀ (discardFrames d p q i sel) ↔ part.same d₀ d := by
  simp only [discardFrames, same_dropAt, same_dropDrain, same_leaveIfEmpty hswc, same_modQueue hswc, same_freeCopy hswc houts, same_ite,
    ite_self, same_foldl, implies_true]

theorem same_offerCopy (hswc : part ≠ .swc) (houts : part ≠ .outs) {p : Nat} {f : QFrame} {yellow flooded : Bool} :
    part.same d₀ (offerCopy d p f yellow flooded).2 ↔ part.same d₀ d := by
  simp only [offerCopy]
  split
  · simp only [same_dropAt]
  · split
    · simp only [same_dropDrain]
    · split
      · simp only [same_dropAt]
        split <;> simp only [same_sendXoff hswc houts]
      · simp only [same_dropAt, same_swcCnt, same_qDrop, same_ite, ite_self]
        split <;> simp only [same_sendXoff hswc houts]
      · simp only [same_placeCopy hswc]
        split <;> simp only [same_sendXoff hswc houts]

theorem same_storeFrame (hswc : part ≠ .swc) (houts : part ≠ .outs) {f : QFrame} {ports : List (Nat × Frame)} {yellow flooded : Bool} :
    part.same d₀ (storeFrame d f ports yellow flooded) ↔ part.same d₀ d := by
  simp only [storeFrame, same_offerCopy hswc houts, same_swc hswc, same_ite, ite_self, same_foldl, implies_true]

theorem same_policeJudge (hswc : part ≠ .swc) {pol b : Nat} : part.same d₀ (policeJudge d pol b).2 ↔ part.same d₀ d := by
  simp only [policeJudge, same_swc hswc]
  split
  · simp only [same_swc hswc]
  · split <;> simp only [same_swc hswc]

theorem same_mirrorOne (hswc : part ≠ .swc) {s p vid : Nat} {inbound : Bool} {f : Frame} :
    part.same d₀ (mirrorOne s p vid inbound f d) ↔ part.same d₀ d := by
  simp only [mirrorOne, same_dropDrain, same_draw, same_swc hswc, same_ite]
  split
  · rfl
  · split
    · rfl
    · split
      · rfl
      · split <;> simp only [same_dropAt, same_enqueue hswc, same_draw, same_swc hswc]

theorem same_mirrorAll (hswc : part ≠ .swc) {p vid : Nat} {inbound : Bool} {f : Frame} :
    part.same d₀ (mirrorAll d p vid inbound f) ↔ part.same d₀ d := by
  simp only [mirrorAll, same_mirrorOne hswc, same_foldl, implies_true]

theorem same_learn (hswc : part ≠ .swc) {p vid addr : Nat} : part.same d₀ (learn d p vid addr) ↔ part.same d₀ d := by
  simp only [learn, same_swcCnt, same_swc hswc, same_ite, ite_self]

theorem same_fdbDropPort (hswc : part ≠ .swc) {p : Nat} : part.same d₀ (fdbDropPort d p) ↔ part.same d₀ d := by
  simp only [fdbDropPort, same_swc hswc]

theorem same_dwrrPick (hswc : part ≠ .swc) {p fuel skipped : Nat} :
    part.same d₀ (dwrrPick d p fuel skipped).2 ↔ part.same d₀ d := by
  induction fuel generalizing d skipped with
  | zero => rfl
  | succ fuel ih =>
    unfold dwrrPick
    dsimp only
    split
    · rfl
    · simp only [apply_ite Prod.snd, same_ite, ih, same_modEgress hswc, same_modQueue hswc, ite_self]

theorem same_pickQueue (hswc : part ≠ .swc) {p : Nat} : part.same d₀ (pickQueue d p).2 ↔ part.same d₀ d := by
  simp only [pickQueue]
  split
  · rfl
  · split
    · rfl
    · split
      · rfl
      · split <;> simp only [same_dwrrPick hswc]

theorem same_payTokens (hswc : part ≠ .swc) {p q n : Nat} : part.same d₀ (payTokens d p q n) ↔ part.same d₀ d := by
  simp only [payTokens, same_modEgress hswc, same_modQueue hswc, same_ite, ite_self]

theorem same_startWire (hswc : part ≠ .swc) (houts : part ≠ .outs) {p : Nat} {t : Tx} :
    part.same d₀ (startWire d p t) ↔ part.same d₀ d := by
  simp only [startWire, same_mirrorAll hswc, same_ite, ite_self]
  split <;> simp only [same_emit houts]

theorem same_startFrom (hswc : part ≠ .swc) (houts : part ≠ .outs) {p q : Nat} : part.same d₀ (startFrom d p q) ↔ part.same d₀ d := by
  simp only [startFrom]
  split <;> simp only [same_modEgress hswc, same_leaveIfEmpty hswc, same_modQueue hswc, same_payTokens hswc, same_startWire hswc houts]

theorem same_ageHeads (hswc : part ≠ .swc) (houts : part ≠ .outs) {p q : Nat} : part.same d₀ (ageHeads d p q) ↔ part.same d₀ d := by
  simp only [ageHeads, same_dropAt, same_leaveIfEmpty hswc, same_modQueue hswc, same_freeCopy hswc houts, same_ite, ite_self,
    same_foldl, implies_true]

theorem same_txStats {p : Nat} {f : QFrame} {bytes : Nat} : part.same d₀ (txStats d p f bytes) ↔ part.same d₀ d := by
  simp only [txStats, same_ethStatN, same_ethStat, same_ite, ite_self]

theorem same_abortSegs {p q n : Nat} : part.same d₀ (abortSegs d p q n) ↔ part.same d₀ d := by
  simp only [abortSegs, same_ethStatN, same_countN]

theorem same_abortTx (hswc : part ≠ .swc) (houts : part ≠ .outs) {p : Nat} : part.same d₀ (abortTx d p) ↔ part.same d₀ d := by
  simp only [abortTx, same_leaveIfEmpty hswc, same_modQueue hswc, same_freeCopy hswc houts, same_abortSegs, same_ite, ite_self,
    same_foldl, implies_true]
  split
  · rfl
  · simp only [same_freeCopy hswc houts]
    split <;> simp only [same_dropAt, same_modEgress hswc, same_abortSegs, same_ite, ite_self]

theorem same_holdExpired (heth : part ≠ .eth) (hswc : part ≠ .swc) (houts : part ≠ .outs) {p : Nat} :
    part.same d₀ (holdExpired d p) ↔ part.same d₀ d := by
  simp only [holdExpired, same_modPort heth, same_discardFrames hswc houts, same_fdbDropPort hswc, same_foldl, implies_true]

theorem same_portDown (heth : part ≠ .eth) (hswc : part ≠ .swc) (houts : part ≠ .outs) {p : Nat} :
    part.same d₀ (portDown d p) ↔ part.same d₀ d := by
  simp only [portDown, same_abortTx hswc houts, same_holdExpired heth hswc houts, same_linkLost heth, same_ite, ite_self]

theorem same_restartPort (heth : part ≠ .eth) (hswc : part ≠ .swc) (houts : part ≠ .outs) {p : Nat} {retrain : Bool} :
    part.same d₀ (restartPort d p retrain) ↔ part.same d₀ d := by
  simp only [restartPort, same_modPort heth, same_portDown heth hswc houts, same_startAttempt heth, same_ite, ite_self]

theorem same_restoreLane (heth : part ≠ .eth) (hswc : part ≠ .swc) (houts : part ≠ .outs) {m l : Nat} :
    part.same d₀ (restoreLane d m l) ↔ part.same d₀ d := by
  simp only [restoreLane]
  split <;> simp only [same_modPort heth, same_portDown heth hswc houts, same_modLane heth, same_startAttempt heth, same_ite, ite_self,
    same_foldl, implies_true]

theorem same_laneCtrl (heth : part ≠ .eth) (hswc : part ≠ .swc) (houts : part ≠ .outs) {m : Nat} {v : Word} :
    part.same d₀ (laneCtrl d m v) ↔ part.same d₀ d := by
  simp only [laneCtrl, same_restoreLane heth hswc houts, same_restartPort heth hswc houts, same_ite, ite_self, same_foldl, implies_true]

theorem same_fdbFlush (hswc : part ≠ .swc) {v : Word} : part.same d₀ (fdbFlush d v) ↔ part.same d₀ d := by
  simp only [fdbFlush, same_fdbDropPort hswc, same_swc hswc, same_ite, ite_self]

theorem same_ptpRead (heth : part ≠ .eth) {m : Nat} : part.same d₀ (ptpRead d m).2 ↔ part.same d₀ d := by
  simp only [ptpRead, same_eth heth]
  split <;> simp only [same_eth heth]

theorem same_ptpPush (heth : part ≠ .eth) {p seqId time : Nat} : part.same d₀ (ptpPush d p seqId time) ↔ part.same d₀ d := by
  simp only [ptpPush, same_ethStat, same_eth heth, same_ite, ite_self]

/-! ### Messages to the partner -/

theorem same_pairOn (hpar : part ≠ .par) (houts : part ≠ .outs) {pathB : Bool} {m : PairMsg} :
    part.same d₀ (pairOn d pathB m) ↔ part.same d₀ d := by
  simp only [pairOn, same_emits houts, same_par hpar, same_ite, ite_self]

theorem same_pairSend (hpar : part ≠ .par) (houts : part ≠ .outs) {m : PairMsg} : part.same d₀ (pairSend d m) ↔ part.same d₀ d := by
  simp only [pairSend, same_pairOn hpar houts]

theorem same_mirrorQueue (hpar : part ≠ .par) (houts : part ≠ .outs) {item : MirrorItem} {a : OnAck} :
    part.same d₀ (mirrorQueue d item a) ↔ part.same d₀ d := by
  simp only [mirrorQueue, same_pairSend hpar houts, same_count, same_par hpar, same_ite, ite_self]

theorem same_resendB (hpar : part ≠ .par) (houts : part ≠ .outs) : part.same d₀ (resendB d) ↔ part.same d₀ d := by
  simp only [resendB, same_pairOn hpar houts, same_count, same_par hpar, same_ite, ite_self, same_foldl, implies_true]

theorem same_sendLeft (hpar : part ≠ .par) (houts : part ≠ .outs) : part.same d₀ (sendLeft d) ↔ part.same d₀ d := by
  simp only [sendLeft, same_pairOn hpar houts, same_par hpar, same_ite, ite_self, same_foldl, implies_true]

theorem same_sendKeys (hpar : part ≠ .par) (houts : part ≠ .outs) : part.same d₀ (sendKeys d) ↔ part.same d₀ d := by
  simp only [sendKeys, same_pairOn hpar houts, same_ite, ite_self, same_foldl, implies_true]

theorem same_mirror (hpar : part ≠ .par) (houts : part ≠ .outs) {item : MirrorItem} :
    part.same d₀ (mirror d item) ↔ part.same d₀ d := by
  simp only [mirror, same_mirrorQueue hpar houts]

/-! ### Relaying, forwarding and ingress -/

theorem same_deliverUnicast (hswc : part ≠ .swc) (houts : part ≠ .outs) {p k vid prio : Nat} {v : Option Nat} {f : Frame}
    {yellow stomp : Bool} : part.same d₀ (deliverUnicast d p k vid prio v f yellow stomp) ↔ part.same d₀ d := by
  simp only [deliverUnicast, same_startFrom hswc houts, same_storeFrame hswc houts, same_swcCnt, same_ite, ite_self]

theorem same_relayFrame (hswc : part ≠ .swc) (houts : part ≠ .outs) {p n prio : Nat} {f : Frame} {yellow stomp : Bool} :
    part.same d₀ (relayFrame d p n prio f yellow stomp) ↔ part.same d₀ d := by
  simp only [relayFrame]
  split
  · rfl
  · simp only [same_count, same_ite]
    split
    · rfl
    · split
      · rfl
      · split <;> simp only [same_emit houts, same_swcCnt, same_deliverUnicast hswc houts, same_count]

theorem same_forward (hswc : part ≠ .swc) (houts : part ≠ .outs) {p v vid prio : Nat} {f : Frame} {yellow stomp : Bool} :
    part.same d₀ (forward d p v vid prio f yellow stomp) ↔ part.same d₀ d := by
  simp only [forward]
  split
  · simp only [same_swcCnt]
  · simp only [same_count]
  · simp only [same_emit houts]
  · simp only [same_deliverUnicast hswc houts, same_count, same_ite]
    split
    · rfl
    · split <;> simp only [same_emit houts, same_ethStat, same_ite, ite_self]
  · simp only [same_deliverUnicast hswc houts]
  · simp only [same_relayFrame hswc houts]
  · simp only [same_storeFrame hswc houts, same_swcCnt, same_ite, ite_self]

theorem same_lookup (hswc : part ≠ .swc) (houts : part ≠ .outs) {p : Nat} {f : Frame} {stomp : Bool} :
    part.same d₀ (lookup d p f stomp) ↔ part.same d₀ d := by
  simp only [lookup]
  split
  · simp only [same_mirrorAll hswc, same_swcCnt]
  · simp only [same_mirrorAll hswc, same_swcCnt, same_learn hswc, same_forward hswc houts, same_ite, ite_self]
    split
    · rfl
    · split <;> simp only [same_mirrorAll hswc, same_policeJudge hswc]

theorem same_ingress (hswc : part ≠ .swc) (houts : part ≠ .outs) {p : Nat} {f : Frame} :
    part.same d₀ (ingress d p f) ↔ part.same d₀ d := by
  simp only [ingress, same_lookup hswc houts, same_draw, same_ethStatN, same_ethStat, same_ite, ite_self, same_foldl, implies_true]

/-! ### Trestle connections -/

theorem same_trsCnt {i : Nat} : part.same d₀ (trsCnt d i) ↔ part.same d₀ d := by
  simp only [trsCnt, same_count]

theorem same_trsCntN {i n : Nat} : part.same d₀ (trsCntN d i n) ↔ part.same d₀ d := by
  simp only [trsCntN, same_countN]

theorem same_ctxCnt {i : Nat} : part.same d₀ (ctxCnt d i) ↔ part.same d₀ d := by
  simp only [ctxCnt, same_count]

theorem same_pdCnt {pd i n : Nat} : part.same d₀ (pdCnt d pd i n) ↔ part.same d₀ d := by
  simp only [pdCnt, same_countN]

theorem same_modConn (htrs : part ≠ .trs) {c : Nat} {f : Conn → Conn} : part.same d₀ (modConn d c f) ↔ part.same d₀ d := by
  simp only [modConn, same_trs htrs]

theorem same_setConn (htrs : part ≠ .trs) {c : Nat} {x : Conn} : part.same d₀ (setConn d c x) ↔ part.same d₀ d := by
  simp only [setConn, same_trs htrs]

theorem same_touch (htrs : part ≠ .trs) {c : Nat} : part.same d₀ (touch d c) ↔ part.same d₀ d := by
  simp only [touch, same_trs htrs]

theorem same_sendPkt (houts : part ≠ .outs) {x : Conn} {p : Pkt} : part.same d₀ (sendPkt d x p) ↔ part.same d₀ d := by
  simp only [sendPkt, same_trsCntN, same_pdCnt, same_trsCnt, same_emit houts, same_ite, ite_self]

theorem same_sendAck (htrs : part ≠ .trs) (houts : part ≠ .outs) {c path probe : Nat} :
    part.same d₀ (sendAck d c path probe) ↔ part.same d₀ d := by
  simp only [sendAck]
  split <;> simp only [same_sendPkt houts, same_modConn htrs]

theorem same_sendCredit (htrs : part ≠ .trs) (houts : part ≠ .outs) {c : Nat} : part.same d₀ (sendCredit d c) ↔ part.same d₀ d := by
  simp only [sendCredit]
  split <;> simp only [same_sendPkt houts, same_modConn htrs]

theorem same_creditIfDue (htrs : part ≠ .trs) (houts : part ≠ .outs) {c : Nat} : part.same d₀ (creditIfDue d c) ↔ part.same d₀ d := by
  simp only [creditIfDue]
  split <;> simp only [same_sendCredit htrs houts, same_ite, ite_self]

theorem same_evict (htrs : part ≠ .trs) (houts : part ≠ .outs) {c : Nat} : part.same d₀ (evict d c) ↔ part.same d₀ d := by
  simp only [evict, same_ctxCnt, same_trs htrs]
  split <;> simp only [same_creditIfDue htrs houts, same_sendAck htrs houts, same_ite, ite_self]

theorem same_makeRoom (htrs : part ≠ .trs) (houts : part ≠ .outs) : part.same d₀ (makeRoom d).2 ↔ part.same d₀ d := by
  simp only [makeRoom]
  split
  · rfl
  · split
    · rfl
    · split <;> simp only [same_evict htrs houts]

theorem same_makeResident (htrs : part ≠ .trs) {c : Nat} : part.same d₀ (makeResident d c) ↔ part.same d₀ d := by
  simp only [makeResident, same_trs htrs]

theorem same_wantCtx (htrs : part ≠ .trs) (houts : part ≠ .outs) {c : Nat} : part.same d₀ (wantCtx d c).2 ↔ part.same d₀ d := by
  simp only [wantCtx, same_trs htrs]
  split
  · simp only [same_touch htrs]
  · split
    · rfl
    · split
      · split <;> simp only [same_makeRoom htrs houts, same_makeResident htrs, same_ctxCnt, same_trs htrs]
      · split <;> simp only [same_makeRoom htrs houts, same_ctxCnt, same_trs htrs]

theorem same_chargeWait (hcmd : part ≠ .cmd) {u : Use} {reason ns : Nat} :
    part.same d₀ (chargeWait d u reason ns) ↔ part.same d₀ d := by
  simp only [chargeWait]
  split <;> simp only [same_cmd hcmd, same_ite, ite_self]

theorem same_chargeMsg (hcmd : part ≠ .cmd) {m : OutMsg} : part.same d₀ (chargeMsg d m) ↔ part.same d₀ d := by
  simp only [chargeMsg, same_chargeWait hcmd]

theorem same_sendOne (htrs : part ≠ .trs) (hcmd : part ≠ .cmd) (houts : part ≠ .outs) {c : Nat} {x : Conn} {i : Nat} {m : OutMsg}
    {path : Nat} : part.same d₀ (sendOne d c x i m path) ↔ part.same d₀ d := by
  simp only [sendOne, same_sendPkt houts, same_modConn htrs, same_chargeMsg hcmd]

theorem same_pumpGo (htrs : part ≠ .trs) (hcmd : part ≠ .cmd) (houts : part ≠ .outs) {c fuel : Nat} :
    part.same d₀ (pumpGo c fuel d) ↔ part.same d₀ d := by
  induction fuel generalizing d with
  | zero => rfl
  | succ fuel ih =>
    unfold pumpGo
    split
    · rfl
    · split
      · exact ih.trans (same_sendOne htrs hcmd houts)
      · rfl

theorem same_pump (htrs : part ≠ .trs) (hcmd : part ≠ .cmd) (houts : part ≠ .outs) {c : Nat} :
    part.same d₀ (pump d c) ↔ part.same d₀ d := by
  simp only [pump]
  split <;> simp only [same_pumpGo htrs hcmd houts, same_modConn htrs, same_wantCtx htrs houts, same_ite, ite_self]

theorem same_sendMsg (htrs : part ≠ .trs) (hcmd : part ≠ .cmd) (houts : part ≠ .outs) {c : Nat} {m : OutMsg} :
    part.same d₀ (sendMsg d c m) ↔ part.same d₀ d := by
  simp only [sendMsg, same_modConn htrs, same_pump htrs hcmd houts]

theorem same_sendRead (htrs : part ≠ .trs) (hcmd : part ≠ .cmd) (houts : part ≠ .outs) {c : Nat} {addr key len : Nat} {u : Use} :
    part.same d₀ (sendRead d c addr key len u) ↔ part.same d₀ d := by
  simp only [sendRead]
  split <;> simp only [same_sendMsg htrs hcmd houts, same_draw]

theorem same_failUse (hcmd : part ≠ .cmd) (hvia : part ≠ .via) {u : Use} {code : Nat} :
    part.same d₀ (failUse d u code) ↔ part.same d₀ d := by
  simp only [failUse]
  split <;> simp only [same_cmd hcmd, same_via hvia]

theorem same_failOpen (htrs : part ≠ .trs) (hcmd : part ≠ .cmd) (hvia : part ≠ .via) {c : Nat} {code : Nat} :
    part.same d₀ (failOpen d c code) ↔ part.same d₀ d := by
  simp only [failOpen]
  split <;> simp only [same_modConn htrs, same_failUse hcmd hvia, same_foldl, implies_true]

theorem same_closeConn (htrs : part ≠ .trs) (hcmd : part ≠ .cmd) (hvia : part ≠ .via) (houts : part ≠ .outs) {c reason : Nat} :
    part.same d₀ (closeConn d c reason) ↔ part.same d₀ d := by
  simp only [closeConn]
  split <;> simp only [same_sendMsg htrs hcmd houts, same_modConn htrs, same_failOpen htrs hcmd hvia, same_ite, ite_self]

/-! ### Paths -/

theorem same_takeConn (htrs : part ≠ .trs) (houts : part ≠ .outs) {c : Nat} {x : Conn} :
    part.same d₀ (takeConn d c x) ↔ part.same d₀ d := by
  simp only [takeConn, same_makeRoom htrs houts, same_setConn htrs, same_makeResident htrs, same_trs htrs, same_ite, ite_self]

/-! ### Structures on the drives and the journal -/

theorem same_stoCnt {i : Nat} : part.same d₀ (stoCnt d i) ↔ part.same d₀ d := by
  simp only [stoCnt, same_count]

theorem same_stoCntN {i n : Nat} : part.same d₀ (stoCntN d i n) ↔ part.same d₀ d := by
  simp only [stoCntN, same_countN]

theorem same_rbCnt {i : Nat} : part.same d₀ (rbCnt d i) ↔ part.same d₀ d := by
  simp only [rbCnt, same_count]

theorem same_innerSend (houts : part ≠ .outs) {pier kind : Nat} {r : InnerRec} :
    part.same d₀ (innerSend d pier kind r) ↔ part.same d₀ d := by
  simp only [innerSend, same_emit houts]

theorem same_driveGo (hvia : part ≠ .via) (houts : part ≠ .outs) {g key : Nat} {c : DriveCmd} {use : FragUse} :
    part.same d₀ (driveGo d g key c use) ↔ part.same d₀ d := by
  simp only [driveGo, same_innerSend houts, same_draw, same_emit houts, same_via hvia, same_ite, ite_self]

theorem same_driveSendFor (hpar : part ≠ .par) (hvia : part ≠ .via) (houts : part ≠ .outs) {g key : Nat} {c : DriveCmd}
    {use : FragUse} : part.same d₀ (driveSendFor d g key c use) ↔ part.same d₀ d := by
  simp only [driveSendFor, same_driveGo hvia houts, same_par hpar, same_ite, ite_self]

theorem same_driveSend (hpar : part ≠ .par) (hvia : part ≠ .via) (houts : part ≠ .outs) {g key : Nat} {c : DriveCmd} :
    part.same d₀ (driveSend d g key c) ↔ part.same d₀ d := by
  simp only [driveSend, same_driveSendFor hpar hvia houts]

theorem same_gatedGo (hpar : part ≠ .par) (hvia : part ≠ .via) (houts : part ≠ .outs) : part.same d₀ (gatedGo d) ↔ part.same d₀ d := by
  simp only [gatedGo, same_driveSendFor hpar hvia houts, same_par hpar, same_foldl, implies_true]

theorem same_metaDo (hpar : part ≠ .par) (hvia : part ≠ .via) (houts : part ≠ .outs) {g at_ : Nat} {c : Nat → DriveCmd} :
    part.same d₀ (metaDo d g at_ c) ↔ part.same d₀ d := by
  simp only [metaDo, same_driveSend hpar hvia houts, same_ite, ite_self, same_foldl, implies_true]

theorem same_structWrite (hpar : part ≠ .par) (hvia : part ≠ .via) (houts : part ≠ .outs) {v g kind b : Nat} {bs : List Byte} :
    part.same d₀ (structWrite d v g kind b bs) ↔ part.same d₀ d := by
  unfold structWrite
  split
  · rfl
  · refine same_foldl (fun d e => ?_) _ _
    split
    · exact same_metaDo hpar hvia houts
    · rfl

theorem same_writeAllocBlock (hpar : part ≠ .par) (hvia : part ≠ .via) (houts : part ≠ .outs) {v au : Nat} :
    part.same d₀ (writeAllocBlock d v au) ↔ part.same d₀ d := by
  simp only [writeAllocBlock]
  split <;> simp only [same_structWrite hpar hvia houts]

theorem same_structPut (hpar : part ≠ .par) (hvia : part ≠ .via) (houts : part ≠ .outs) {v g kind : Nat} {bs : List Byte} :
    part.same d₀ (structPut d v g kind bs) ↔ part.same d₀ d := by
  simp only [structPut, same_structWrite hpar hvia houts]

theorem same_writeLost (hpar : part ≠ .par) (hvia : part ≠ .via) (houts : part ≠ .outs) {v : Nat} :
    part.same d₀ (writeLost d v) ↔ part.same d₀ d := by
  simp only [writeLost]
  split <;> simp only [same_structPut hpar hvia houts]

theorem same_writeHead (hpar : part ≠ .par) (hvia : part ≠ .via) (houts : part ≠ .outs) {g k epoch : Nat} :
    part.same d₀ (writeHead d g k epoch) ↔ part.same d₀ d := by
  simp only [writeHead, same_driveSend hpar hvia houts, same_ite, ite_self]

theorem same_writeVols (hpar : part ≠ .par) (hvia : part ≠ .via) (houts : part ≠ .outs) {g k : Nat} {vols : List (List Byte)} :
    part.same d₀ (writeVols d g k vols) ↔ part.same d₀ d := by
  simp only [writeVols, same_driveSend hpar hvia houts, same_foldl, implies_true]

theorem same_headWritten (hsto : part ≠ .sto) {g k epoch : Nat} : part.same d₀ (headWritten d g k epoch) ↔ part.same d₀ d := by
  simp only [headWritten, same_modDrive hsto]

theorem same_writeRecordsFor (hsto : part ≠ .sto) (hpar : part ≠ .par) (hvia : part ≠ .via) (houts : part ≠ .outs) {g : Nat}
    {shrink : Bool} : part.same d₀ (writeRecordsFor d g shrink) ↔ part.same d₀ d := by
  simp only [writeRecordsFor, same_modGroup hsto, same_driveSend hpar hvia houts, same_headWritten hsto, same_writeHead hpar hvia houts,
    same_mirror hpar houts, same_writeVols hpar hvia houts, same_ite, ite_self, same_foldl, implies_true]

theorem same_writeRecords (hsto : part ≠ .sto) (hpar : part ≠ .par) (hvia : part ≠ .via) (houts : part ≠ .outs) {g : Nat} :
    part.same d₀ (writeRecords d g) ↔ part.same d₀ d := by
  simp only [writeRecords, same_writeRecordsFor hsto hpar hvia houts]

theorem same_journalHold (hsto : part ≠ .sto) {g : Nat} : part.same d₀ (journalHold d g) ↔ part.same d₀ d := by
  simp only [journalHold, same_modGroup hsto, same_stoCnt, same_ite, ite_self]

theorem same_jPlace (hsto : part ≠ .sto) (hpar : part ≠ .par) (hvia : part ≠ .via) (houts : part ≠ .outs) {g : Nat} {r : JRec}
    {len off : Nat} {bs : List Byte} : part.same d₀ (jPlace d g r len off bs) ↔ part.same d₀ d := by
  simp only [jPlace, same_driveSendFor hpar hvia houts, same_modGroup hsto, same_journalHold hsto, same_mirror hpar houts, same_foldl,
    implies_true]

theorem same_jAppend (hsto : part ≠ .sto) (hpar : part ≠ .par) (hvia : part ≠ .via) (houts : part ≠ .outs)
    {g vol piece last : Nat} {tag : Word} {body : JBody} :
    part.same d₀ (jAppend d g vol tag piece last body).2 ↔ part.same d₀ d := by
  unfold jAppend
  dsimp only
  split <;> simp only [same_jPlace hsto hpar hvia houts]

theorem same_jLog (hsto : part ≠ .sto) (hpar : part ≠ .par) (hvia : part ≠ .via) (houts : part ≠ .outs)
    {g vol : Nat} {body : JBody} : part.same d₀ (jLog d g vol body) ↔ part.same d₀ d :=
  same_jAppend hsto hpar hvia houts

theorem same_bmSubmit (hsto : part ≠ .sto) (hpar : part ≠ .par) (hvia : part ≠ .via) (houts : part ≠ .outs) {v b : Nat} :
    part.same d₀ (bmSubmit d v b) ↔ part.same d₀ d := by
  simp only [bmSubmit]
  split <;> simp only [same_mirror hpar houts, same_structWrite hpar hvia houts, same_sto hsto, same_ite, ite_self, same_foldl,
    implies_true]

theorem same_setDirty (hsto : part ≠ .sto) {v r : Nat} {s : DirtySt} : part.same d₀ (setDirty d v r s) ↔ part.same d₀ d := by
  simp only [setDirty, same_modVol hsto]

theorem same_lockDropAll (hsto : part ≠ .sto) {cmd : Nat} : part.same d₀ (lockDropAll d cmd) ↔ part.same d₀ d := by
  simp only [lockDropAll, same_sto hsto]

theorem same_putLost (hsto : part ≠ .sto) (hpar : part ≠ .par) (hvia : part ≠ .via) (houts : part ≠ .outs) {v : Nat} {x : LostExt} :
    part.same d₀ (putLost d v x) ↔ part.same d₀ d := by
  simp only [putLost]
  split <;> simp only [same_writeRecords hsto hpar hvia houts, same_writeLost hpar hvia houts, same_modVol hsto, same_ite, ite_self]

theorem same_recordLost (hsto : part ≠ .sto) (hpar : part ≠ .par) (hvia : part ≠ .via) (houts : part ≠ .outs)
    {v lba n cause slot : Nat} : part.same d₀ (recordLost d v lba n cause slot) ↔ part.same d₀ d := by
  simp only [recordLost]
  split <;> simp only [same_logEvent, same_rbCnt, same_putLost hsto hpar hvia houts, same_jLog hsto hpar hvia houts]

/-! ### Command slots -/

theorem same_cmdCnt {i : Nat} : part.same d₀ (cmdCnt d i) ↔ part.same d₀ d := by
  simp only [cmdCnt, same_count]

theorem same_modSlot (hcmd : part ≠ .cmd) {c : Nat} {f : Slot → Slot} : part.same d₀ (modSlot d c f) ↔ part.same d₀ d := by
  simp only [modSlot, same_cmd hcmd]

theorem same_actFor (hacc : part ≠ .acc) {c : Nat} : part.same d₀ (actFor d c) ↔ part.same d₀ d := by
  simp only [actFor, same_acc hacc]

theorem same_forCmd (hacc : part ≠ .acc) (hcmd : part ≠ .cmd) {c : Nat} {f : Dev → Dev}
    (hf : ∀ d, part.same d₀ (f d) ↔ part.same d₀ d) : part.same d₀ (forCmd d c f) ↔ part.same d₀ d := by
  unfold forCmd
  dsimp only
  split <;> simp only [same_modSlot hcmd, same_mk, same_actFor hacc, same_ite, ite_self, hf, hacc, false_implies, implies_true,
    and_self]

theorem same_answer (hcmd : part ≠ .cmd) {c st r0 r1 : Nat} : part.same d₀ (answer d c st r0 r1) ↔ part.same d₀ d := by
  simp only [answer, same_modSlot hcmd]

theorem same_succeed (hcmd : part ≠ .cmd) {c r0 r1 : Nat} : part.same d₀ (succeed d c r0 r1) ↔ part.same d₀ d := by
  simp only [succeed, same_answer hcmd]

theorem same_answerAfter (hcmd : part ≠ .cmd) (hpar : part ≠ .par) (houts : part ≠ .outs) {c : Nat} {item : MirrorItem}
    {st r0 r1 : Nat} : part.same d₀ (answerAfter d c item st r0 r1) ↔ part.same d₀ d := by
  simp only [answerAfter, same_mirror hpar houts, same_answer hcmd, same_mirrorQueue hpar houts, same_modSlot hcmd, same_ite, ite_self]

/-- A command that is begun is marked so in its slot. -/
theorem same_adminStart (hcmd : part ≠ .cmd) {c op : Nat} {x : Slot} {e : Dev} (h : adminStart d c op = some (x, e)) :
    part.same d₀ e ↔ part.same d₀ d := by
  unfold adminStart at h
  split at h
  · split at h
    · cases h
      exact same_modSlot hcmd
    · cases h
  · cases h

theorem same_sendHost (htrs : part ≠ .trs) (hcmd : part ≠ .cmd) (hvia : part ≠ .via) (houts : part ≠ .outs) {c : Nat} {addr : Nat}
    {bs : List Byte} : part.same d₀ (sendHost d c addr bs) ↔ part.same d₀ d := by
  simp only [sendHost]
  split
  · rfl
  · simp only [same_modSlot hcmd, same_ite]
    split
    · rfl
    · split
      · rfl
      · split <;> simp only [same_sendMsg htrs hcmd houts, same_failUse hcmd hvia]

theorem same_dropTransfers (htrs : part ≠ .trs) {c : Nat} : part.same d₀ (dropTransfers d c) ↔ part.same d₀ d := by
  simp only [dropTransfers, same_trs htrs]

/-! ### Members -/

theorem same_rbEvent {ev attn : Nat} {t : Topic} {vol slot pos g kind lba : Nat} :
    part.same d₀ (rbEvent d ev attn t vol slot pos g kind lba) ↔ part.same d₀ d := by
  simp only [rbEvent, same_logEvent]

theorem same_setMember (hsto : part ≠ .sto) (hpar : part ≠ .par) (houts : part ≠ .outs) {k : Nat} {st : MemberSt} :
    part.same d₀ (setMember d k st) ↔ part.same d₀ d := by
  simp only [setMember, same_modDrive hsto, same_mirror hpar houts, same_ite, ite_self]

theorem same_reserveOn (houts : part ≠ .outs) {k : Nat} : part.same d₀ (reserveOn d k) ↔ part.same d₀ d := by
  simp only [reserveOn, same_emit houts, same_ite, ite_self]

/-! ### Execution of commands on volumes -/

theorem same_loseBlocks (hsto : part ≠ .sto) (hpar : part ≠ .par) (hvia : part ≠ .via) (houts : part ≠ .outs) {v : Nat}
    {lbas : List Nat} {cause : Nat} : part.same d₀ (loseBlocks d v lbas cause) ↔ part.same d₀ d := by
  simp only [loseBlocks, same_stoCntN, same_recordLost hsto hpar hvia houts, same_foldl, implies_true]

/-! ### Background work of the storage engine -/

theorem same_takeCursor (hsto : part ≠ .sto) {g v : Nat} : part.same d₀ (takeCursor d g v) ↔ part.same d₀ d := by
  simp only [takeCursor]
  split <;> simp only [same_modVol hsto, same_sto hsto]

theorem same_epochAcks (hvia : part ≠ .via) (houts : part ≠ .outs) : part.same d₀ (epochAcks d) ↔ part.same d₀ d := by
  simp only [epochAcks, same_innerSend houts, same_via hvia, same_foldl, implies_true]

theorem same_sendFragDone (hvia : part ≠ .via) (houts : part ≠ .outs) {pier : Nat} {tag : Word} {status : Nat} {data : List Byte} :
    part.same d₀ (sendFragDone d pier tag status data) ↔ part.same d₀ d := by
  simp only [sendFragDone, same_innerSend houts, same_drawBits, same_via hvia, same_ite, ite_self]

/-! ### Fault events -/

theorem same_progressRec (hsto : part ≠ .sto) (hpar : part ≠ .par) (hvia : part ≠ .via) (houts : part ≠ .outs)
    {g v work entry band : Nat} : part.same d₀ (progressRec d g v work entry band) ↔ part.same d₀ d := by
  simp only [progressRec, same_jLog hsto hpar hvia houts]

/-! ### Self-test slices -/

theorem same_memCnt {i : Nat} : part.same d₀ (memCnt d i) ↔ part.same d₀ d := by
  simp only [memCnt, same_count]

theorem same_bstCnt {i : Nat} : part.same d₀ (bstCnt d i) ↔ part.same d₀ d := by
  simp only [bstCnt, same_count]

theorem same_faultEvent {ev attn dom unit what : Nat} : part.same d₀ (faultEvent d ev attn dom unit what) ↔ part.same d₀ d := by
  simp only [faultEvent, same_logEvent]

theorem same_itgEvent {ev : Nat} {page : Option Nat} {lane vol : Nat} :
    part.same d₀ (itgEvent d ev page lane vol) ↔ part.same d₀ d := by
  simp only [itgEvent]
  split <;> simp only [same_logEvent, same_drawBits]

theorem same_maybeRecover (hglb : part ≠ .glb) : part.same d₀ (maybeRecover d) ↔ part.same d₀ d := by
  simp only [maybeRecover, same_enter hglb, same_ite, ite_self]

theorem same_sliceOver (hswc : part ≠ .swc) (hbst : part ≠ .bst) (houts : part ≠ .outs) :
    part.same d₀ (sliceOver d) ↔ part.same d₀ d := by
  simp only [sliceOver, same_xonAll hswc houts, same_bst hbst]

theorem same_sliceInterrupt (hswc : part ≠ .swc) (hbst : part ≠ .bst) (houts : part ≠ .outs) :
    part.same d₀ (sliceInterrupt d) ↔ part.same d₀ d := by
  simp only [sliceInterrupt]
  split <;> simp only [same_sliceOver hswc hbst houts, same_bstCnt]

theorem same_sliceAbandon (hswc : part ≠ .swc) (hbst : part ≠ .bst) (houts : part ≠ .outs) :
    part.same d₀ (sliceAbandon d) ↔ part.same d₀ d := by
  simp only [sliceAbandon]
  split <;> simp only [same_sliceOver hswc hbst houts, same_bstCnt]

/-! ### Power and temperature -/

theorem same_energyNow (hpwr : part ≠ .pwr) : part.same d₀ (energyNow d) ↔ part.same d₀ d := by
  simp only [energyNow, same_pwr hpwr]

theorem same_gpioGo (hregs : part ≠ .regs) {m : Master} {f : Word → Word} : part.same d₀ (gpioGo d m f) ↔ part.same d₀ d := by
  simp only [gpioGo, same_regs hregs, same_ite, ite_self]

theorem same_gpioWrite (hregs : part ≠ .regs) (hacc : part ≠ .acc) {m : Master} {off : Nat} {f : Word → Word} :
    part.same d₀ (gpioWrite d m off f) ↔ part.same d₀ d := by
  simp only [gpioWrite, same_writeAccess hacc, same_gpioGo hregs, implies_true]

theorem same_quarterDown (htrs : part ≠ .trs) (houts : part ≠ .outs) {t : Nat} : part.same d₀ (quarterDown d t) ↔ part.same d₀ d := by
  simp only [quarterDown, same_evict htrs houts, same_trs htrs, same_ite, ite_self, same_foldl, implies_true]

theorem same_pwrCtrlIgnored {bits : Nat} : part.same d₀ (pwrCtrlIgnored d bits) ↔ part.same d₀ d := by
  simp only [pwrCtrlIgnored, same_logAppend, same_ite, ite_self]

theorem same_idleEnter (hpwr : part ≠ .pwr) : part.same d₀ (idleEnter d) ↔ part.same d₀ d := by
  simp only [idleEnter, same_domQueueOff hpwr, same_pwr hpwr, same_ite, ite_self, same_foldl, implies_true]

theorem same_idleExit (hglb : part ≠ .glb) (hpwr : part ≠ .pwr) : part.same d₀ (idleExit d) ↔ part.same d₀ d := by
  simp only [idleExit]
  split <;> simp only [same_turnOn hglb hpwr, same_pwr hpwr]

theorem same_pwrCtrl (hacc : part ≠ .acc) {m : Master} {bits : Nat} {f : Dev → Dev}
    (hf : ∀ d, part.same d₀ (f d) ↔ part.same d₀ d) : part.same d₀ (pwrCtrl d m bits f) ↔ part.same d₀ d := by
  simp only [pwrCtrl, same_writeAccess hacc, hf, same_pwrCtrlIgnored, same_ite, ite_self, implies_true]

theorem same_lowerTo {lo x : Nat} : part.same d₀ (lowerTo d lo x).2 ↔ part.same d₀ d := by
  simp only [lowerTo, same_draw]

theorem same_capDown (hpwr : part ≠ .pwr) : part.same d₀ (capDown d) ↔ part.same d₀ d := by
  simp only [capDown, same_lowerTo, same_pwr hpwr, same_ite]
  split
  · rfl
  · split
    · rfl
    · split
      · rfl
      · split <;> simp only [same_lowerTo, same_pwr hpwr]

theorem same_capUp (hpwr : part ≠ .pwr) : part.same d₀ (capUp d) ↔ part.same d₀ d := by
  simp only [capUp]
  split <;> simp only [same_pwr hpwr, same_ite, ite_self]

theorem same_pwrCapGo (hpwr : part ≠ .pwr) (hregs : part ≠ .regs) {v : Word} : part.same d₀ (pwrCapGo d v) ↔ part.same d₀ d := by
  simp only [pwrCapGo, same_pwr hpwr, same_regs hregs, same_ite, ite_self]

theorem same_thermCfgGo (hpwr : part ≠ .pwr) (hregs : part ≠ .regs) {v : Word} : part.same d₀ (thermCfgGo d v) ↔ part.same d₀ d := by
  simp only [thermCfgGo, same_pwr hpwr, same_regs hregs, same_ite, ite_self]

theorem same_wdogGo (hglb : part ≠ .glb) {m : Master} {v : Word} : part.same d₀ (wdogGo d m v) ↔ part.same d₀ d := by
  simp only [wdogGo, same_glb hglb, same_ite, ite_self]

/-! ### Start-up -/

theorem same_bootField (hglb : part ≠ .glb) {lsb width x : Nat} : part.same d₀ (bootField d lsb width x) ↔ part.same d₀ d := by
  simp only [bootField, same_glb hglb]

theorem same_fwStart (hglb : part ≠ .glb) {source : Nat} {i : FwImage} : part.same d₀ (fwStart d source i) ↔ part.same d₀ d := by
  simp only [fwStart, same_enter hglb, same_bootField hglb, same_glb hglb]

theorem same_spiRead (houts : part ≠ .outs) {flashB header : Bool} : part.same d₀ (spiRead d flashB header) ↔ part.same d₀ d := by
  simp only [spiRead, same_emit houts]

theorem same_toMaint (hglb : part ≠ .glb) (hpwr : part ≠ .pwr) : part.same d₀ (toMaint d) ↔ part.same d₀ d := by
  simp only [toMaint, same_domRequestOn hpwr, same_enter hglb, same_pwr hpwr]

theorem same_noPlan (hglb : part ≠ .glb) (hpwr : part ≠ .pwr) {source result staging : Nat} :
    part.same d₀ (noPlan d source result staging) ↔ part.same d₀ d := by
  simp only [noPlan, same_logEvent, same_toMaint hglb hpwr]

/-! ### Admission -/

theorem same_forwardTo (hcmd : part ≠ .cmd) (hpar : part ≠ .par) (hvia : part ≠ .via) (houts : part ≠ .outs) {c pier : Nat} :
    part.same d₀ (forwardTo d c pier) ↔ part.same d₀ d := by
  simp only [forwardTo]
  split
  · rfl
  · simp only [same_innerSend houts, same_count, same_via hvia]
    split <;> simp only [same_mirror hpar houts, same_drawBits, same_modSlot hcmd, same_via hvia, same_ite, ite_self]

theorem same_unbuffer (hcmd : part ≠ .cmd) {cls : Nat} {f : Fetched} : part.same d₀ (unbuffer d cls f) ↔ part.same d₀ d := by
  simp only [unbuffer, same_cmd hcmd]

theorem same_refuseCap (hcmd : part ≠ .cmd) {cls : Nat} {f : Fetched} {st r0 r1 : Nat} :
    part.same d₀ (refuseCap d cls f st r0 r1) ↔ part.same d₀ d := by
  simp only [refuseCap, same_unbuffer hcmd, same_cmd hcmd]

theorem same_refuseClass (hcmd : part ≠ .cmd) {cls : Nat} : part.same d₀ (refuseClass d cls) ↔ part.same d₀ d := by
  simp only [refuseClass, same_ite]
  split
  · rfl
  · split <;> simp only [same_refuseCap hcmd]

/-! ### Queue administration -/

theorem same_needPage (hacc : part ≠ .acc) (hcmd : part ≠ .cmd) {c : Nat} {x : Slot} {page right : Nat} {f : Dev → Dev}
    (hf : ∀ d, part.same d₀ (f d) ↔ part.same d₀ d) : part.same d₀ (needPage d c x page right f) ↔ part.same d₀ d := by
  simp only [needPage, hf, same_answer hcmd, same_deny hacc, same_ite, ite_self]

theorem same_badAt (hcmd : part ≠ .cmd) {c off : Nat} : part.same d₀ (badAt d c off) ↔ part.same d₀ d := by
  simp only [badAt, same_answer hcmd]

theorem same_badBlock (hcmd : part ≠ .cmd) {c off : Nat} : part.same d₀ (badBlock d c off) ↔ part.same d₀ d := by
  simp only [badBlock, same_answer hcmd]

theorem same_createCq (hcmd : part ≠ .cmd) (hpar : part ≠ .par) (houts : part ≠ .outs) {cmd : Nat} {x : Slot} {pd : Nat} :
    part.same d₀ (createCq cmd x pd d) ↔ part.same d₀ d := by
  simp only [createCq]
  split <;> simp only [same_answer hcmd, same_answerAfter hcmd hpar houts, same_badAt hcmd, same_cmd hcmd]

theorem same_needQueue (hacc : part ≠ .acc) (hcmd : part ≠ .cmd) {c : Nat} {x : Slot} {pd : Nat} {f : Dev → Dev}
    (hf : ∀ d, part.same d₀ (f d) ↔ part.same d₀ d) : part.same d₀ (needQueue d c x pd f) ↔ part.same d₀ d := by
  simp only [needQueue, hf, same_needPage hacc hcmd, same_ite, ite_self, implies_true]

theorem same_cmdPdSelGo (hregs : part ≠ .regs) {v : Word} : part.same d₀ (cmdPdSelGo d v) ↔ part.same d₀ d := by
  simp only [cmdPdSelGo, same_regs hregs]

/-! ### Trestle receive side -/

theorem same_fragSubmit (hvia : part ≠ .via) (houts : part ≠ .outs) {n : Nat} {f : FragIn} :
    part.same d₀ (fragSubmit d n f) ↔ part.same d₀ d := by
  simp only [fragSubmit, same_emit houts, same_via hvia]

theorem same_sendDirectory (houts : part ≠ .outs) {pier : Nat} : part.same d₀ (sendDirectory d pier) ↔ part.same d₀ d := by
  simp only [sendDirectory, same_innerSend houts, same_foldl, implies_true]

theorem same_reForward (hcmd : part ≠ .cmd) (hpar : part ≠ .par) (hvia : part ≠ .via) (houts : part ≠ .outs) {pier : Nat} :
    part.same d₀ (reForward d pier) ↔ part.same d₀ d := by
  simp only [reForward, same_forwardTo hcmd hpar hvia houts, same_ite, ite_self, same_foldl, implies_true]

theorem same_putLive (hregs : part ≠ .regs) {o v : Nat} : part.same d₀ (putLive d o v) ↔ part.same d₀ d := by
  simp only [putLive, same_regs hregs]

theorem same_pdSelGo (hregs : part ≠ .regs) {v : Word} : part.same d₀ (pdSelGo d v) ↔ part.same d₀ d := by
  simp only [pdSelGo, same_putLive hregs]

/-! ### Volumes -/

theorem same_metaSeedGo {l : Layout} {n fuel : Nat} : part.same d₀ (metaSeedGo d l n fuel).2 ↔ part.same d₀ d := by
  induction fuel generalizing d with
  | zero => exact same_drawBits
  | succ fuel ih =>
    unfold metaSeedGo
    dsimp only
    split
    · exact same_drawBits (n := 64)
    · exact ih.trans same_drawBits

theorem same_makeGroup (hsto : part ≠ .sto) (hpar : part ≠ .par) (hvia : part ≠ .via) (houts : part ≠ .outs)
    {g : Nat} {slots : List Nat} {key : Nat → Nat} : part.same d₀ (makeGroup d g slots key) ↔ part.same d₀ d := by
  simp only [makeGroup, same_writeRecords hsto hpar hvia houts, same_foldl, same_setMember hsto hpar houts, same_modDrive hsto,
    same_sto hsto, same_metaSeedGo, same_drawId, implies_true]

/-! ### Recovery -/

theorem same_freeBytes {n : Nat} : part.same d₀ (freeBytes d n).2 ↔ part.same d₀ d := by
  simp only [freeBytes, same_free]

theorem same_putRows (hpar : part ≠ .par) (hvia : part ≠ .via) (houts : part ≠ .outs) {g : Geo} {col first : Nat} {bs : List Byte} :
    part.same d₀ (putRows d g col first bs) ↔ part.same d₀ d := by
  simp only [putRows]
  split <;> simp only [same_driveSend hpar hvia houts]

theorem same_putShadow (hpar : part ≠ .par) (hvia : part ≠ .via) (houts : part ≠ .outs) {g : Geo} {col gi : Nat} {bs : List Byte} :
    part.same d₀ (putShadow d g col gi bs) ↔ part.same d₀ d := by
  simp only [putShadow]
  split <;> simp only [same_driveSend hpar hvia houts, same_ite, ite_self]

theorem same_replayData (hsto : part ≠ .sto) (hpar : part ≠ .par) (hvia : part ≠ .via) (houts : part ≠ .outs) {v : Nat} {vol : Volume}
    {stripe lba n : Nat} {bytes tags : List Byte} : part.same d₀ (replayData d v vol stripe lba n bytes tags) ↔ part.same d₀ d := by
  simp only [replayData, same_putRows hpar hvia houts, same_freeBytes, same_putShadow hpar hvia houts,
    same_loseBlocks hsto hpar hvia houts, same_ite, ite_self, same_foldl, implies_true]

theorem same_replayRec (hsto : part ≠ .sto) (hpar : part ≠ .par) (hvia : part ≠ .via) (houts : part ≠ .outs) {g : Nat} {r : JRec} :
    part.same d₀ (replayRec d g r) ↔ part.same d₀ d := by
  simp only [replayRec]
  split <;> simp only [same_modDrive hsto, same_putRows hpar hvia houts, same_writeLost hpar hvia houts, same_putShadow hpar hvia houts,
    same_stoCnt, same_replayData hsto hpar hvia houts, same_modVol hsto, same_putLost hsto hpar hvia houts,
    same_writeAllocBlock hpar hvia houts, same_sto hsto, same_ite, ite_self, same_foldl, implies_true]

theorem same_resyncWhole (hpar : part ≠ .par) (hvia : part ≠ .via) (houts : part ≠ .outs) {g : Geo} :
    part.same d₀ (resyncWhole d g) ↔ part.same d₀ d := by
  simp only [resyncWhole, same_foldl, same_ite, same_putRows hpar hvia houts, same_putShadow hpar hvia houts, same_freeBytes,
    same_draw, ite_self, implies_true]
  refine same_foldl (fun d c => ?_) _ _
  split
  · exact same_driveSend hpar hvia houts
  · rfl

theorem same_resyncStripe (hsto : part ≠ .sto) (hpar : part ≠ .par) (hvia : part ≠ .via) (houts : part ≠ .outs) {x : Recovery}
    {agree : Bool} {v stripe region : Nat} : part.same d₀ (resyncStripe d x agree v stripe region) ↔ part.same d₀ d := by
  simp only [resyncStripe]
  split <;> simp only [same_resyncWhole hpar hvia houts, same_stoCnt, same_loseBlocks hsto hpar hvia houts, same_ite, ite_self]

/-! ### Mirror sessions -/

theorem same_stableRefresh (hpar : part ≠ .par) : part.same d₀ (stableRefresh d) ↔ part.same d₀ d := by
  simp only [stableRefresh, same_par hpar]

/-! ### Take-over -/

theorem same_writeOwnership (hpar : part ≠ .par) (houts : part ≠ .outs) {owner : BitVec 6} {roleA roleB : Bool} :
    part.same d₀ (writeOwnership d owner roleA roleB) ↔ part.same d₀ d := by
  simp only [writeOwnership, same_emits houts, same_par hpar]

theorem same_announceAddrs (houts : part ≠ .outs) {l : List Nat} : part.same d₀ (announceAddrs d l) ↔ part.same d₀ d := by
  simp only [announceAddrs, same_emits houts]

theorem same_askArbiter (hpar : part ≠ .par) (houts : part ≠ .outs) {n : Nat} : part.same d₀ (askArbiter d n) ↔ part.same d₀ d := by
  simp only [askArbiter]
  split <;> simp only [same_emit houts, same_par hpar]

theorem same_nextArbiter (hpar : part ≠ .par) (houts : part ≠ .outs) {n : Nat} : part.same d₀ (nextArbiter d n) ↔ part.same d₀ d := by
  simp only [nextArbiter, same_askArbiter hpar houts, same_par hpar, same_ite, ite_self]

/-! ### The pair -/

theorem same_heartbeatOn (hpar : part ≠ .par) (houts : part ≠ .outs) {pathB : Bool} :
    part.same d₀ (heartbeatOn d pathB) ↔ part.same d₀ d := by
  simp only [heartbeatOn, same_pairOn hpar houts, same_countN]

theorem same_takingStep (hpar : part ≠ .par) (houts : part ≠ .outs) : part.same d₀ (takingStep d) ↔ part.same d₀ d := by
  simp only [takingStep]
  split <;> simp only [same_writeOwnership hpar houts, same_ite, ite_self]

theorem same_firstMoving {mask : Nat} : part.same d₀ (firstMoving d mask).2 ↔ part.same d₀ d := by
  simp only [firstMoving]
  split <;> simp only [same_drawBits]

theorem same_handoverBad {mask : Nat} : part.same d₀ (handoverBad d mask).2 ↔ part.same d₀ d := by
  simp only [handoverBad]
  split
  · rfl
  · split <;> simp only [same_firstMoving]

theorem same_giveAfter (hcmd : part ≠ .cmd) (hpar : part ≠ .par) {c mask : Nat} {roles : BitVec 2} {maint : Bool} :
    part.same d₀ (giveAfter d c mask roles maint) ↔ part.same d₀ d := by
  simp only [giveAfter]
  split <;> simp only [same_handoverBad, same_succeed hcmd, same_answer hcmd, same_par hpar]

theorem same_leaveRunning (hcmd : part ≠ .cmd) (hsto : part ≠ .sto) {groups : BitVec 6} {roles : BitVec 2} :
    part.same d₀ (leaveRunning d groups roles) ↔ part.same d₀ d := by
  simp only [leaveRunning, same_answer hcmd, same_lockDropAll hsto, same_modSlot hcmd, same_cmd hcmd, same_ite, ite_self, same_foldl,
    implies_true]

/-! ### The viaduct -/

theorem same_viaCnt {i : Nat} : part.same d₀ (viaCnt d i) ↔ part.same d₀ d := by
  simp only [viaCnt, same_count]

theorem same_backParts {s : Slot} {r0 : Nat} : part.same d₀ (backParts d s r0).2 ↔ part.same d₀ d := by
  simp only [backParts]
  split
  · rfl
  · split <;> simp only [same_drawBits]

theorem same_setVGroup (hpar : part ≠ .par) (hvia : part ≠ .via) (houts : part ≠ .outs) {g : Nat} {x : VGroup} :
    part.same d₀ (setVGroup d g x) ↔ part.same d₀ d := by
  simp only [setVGroup, same_mirror hpar houts, same_via hvia]

theorem same_shelfRecord (hsto : part ≠ .sto) (hpar : part ≠ .par) (hvia : part ≠ .via) (houts : part ≠ .outs) {g : Nat} :
    part.same d₀ (shelfRecord d g) ↔ part.same d₀ d := by
  simp only [shelfRecord, same_writeRecords hsto hpar hvia houts, same_drawBits, same_par hpar, same_sto hsto, same_mk, implies_true,
    false_implies, and_self, hsto, hpar, hvia, houts, same_ite, ite_self]

theorem same_shelfWon (hsto : part ≠ .sto) (hpar : part ≠ .par) (hvia : part ≠ .via) (houts : part ≠ .outs) {g epoch : Nat} :
    part.same d₀ (shelfWon d g epoch) ↔ part.same d₀ d := by
  simp only [shelfWon, same_viaCnt, same_shelfRecord hsto hpar hvia houts, same_innerSend houts, same_setVGroup hpar hvia houts,
    same_ite, ite_self, same_foldl, implies_true]

theorem same_epochAcked (hsto : part ≠ .sto) (hpar : part ≠ .par) (hvia : part ≠ .via) (houts : part ≠ .outs) {g pier : Nat} :
    part.same d₀ (epochAcked d g pier) ↔ part.same d₀ d := by
  simp only [epochAcked, same_shelfRecord hsto hpar hvia houts, same_via hvia, same_ite, ite_self]

theorem same_propagate (houts : part ≠ .outs) {blk : List Byte} : part.same d₀ (propagate d blk) ↔ part.same d₀ d := by
  simp only [propagate, same_innerSend houts, same_foldl, implies_true]

/-! ### Administration -/

theorem same_admEvent {ev attn vol what code : Nat} : part.same d₀ (admEvent d ev attn vol what code) ↔ part.same d₀ d := by
  simp only [admEvent, same_logEvent]

theorem same_testEnd (hadm : part ≠ .adm) {f : TestRes → TestRes} : part.same d₀ (testEnd d f) ↔ part.same d₀ d := by
  simp only [testEnd]
  split <;> simp only [same_admEvent, same_adm hadm]

theorem same_spiOps (houts : part ≠ .outs) {flashB : Bool} {ops : List Byte} : part.same d₀ (spiOps d flashB ops) ↔ part.same d₀ d := by
  simp only [spiOps, same_emits houts]

theorem same_imagePiece (hcmd : part ≠ .cmd) (hadm : part ≠ .adm) (houts : part ≠ .outs) {c : Nat} {b : List Byte} {piece : List Byte}
    {fw : FwImage} {content : Plan} {left : List Nat} : part.same d₀ (imagePiece d c b piece fw content left) ↔ part.same d₀ d := by
  simp only [imagePiece, same_admEvent, same_succeed hcmd, same_answer hcmd, same_badBlock hcmd, same_spiOps houts, same_badAt hcmd,
    same_adm hadm, same_ite, ite_self]

/-! ### Ethernet -/

theorem same_portComesUp (heth : part ≠ .eth) (hpar : part ≠ .par) (hvia : part ≠ .via) (houts : part ≠ .outs) {p : Nat} :
    part.same d₀ (portComesUp d p) ↔ part.same d₀ d := by
  simp only [portComesUp, same_modPort heth, same_sendKeys hpar houts, same_gatedGo hpar hvia houts, same_modLane heth,
    same_sendLeft hpar houts, same_ite, ite_self, same_foldl, implies_true]

theorem same_pwdExpire (heth : part ≠ .eth) (hswc : part ≠ .swc) (houts : part ≠ .outs) {p inst : Nat} :
    part.same d₀ (pwdExpire d p inst) ↔ part.same d₀ d := by
  simp only [pwdExpire, same_logEvent, same_discardFrames hswc houts, same_setPwd heth, same_ethStat, same_ite, ite_self, same_foldl,
    implies_true]

/-- A frame from an engine that is admitted goes to the store, or is dropped and counted. -/
theorem same_internalAdmit (hswc : part ≠ .swc) (houts : part ≠ .outs) {f : IntFrame} {e : Dev} (h : internalAdmit d f = some e) :
    part.same d₀ e ↔ part.same d₀ d := by
  unfold internalAdmit at h
  split at h
  · cases h
    exact same_swcCnt
  · dsimp only at h
    split at h
    · cases h
      exact same_dropAt
    · split at h
      · cases h
        exact same_storeFrame hswc houts
      · cases h

theorem same_admitFirst (hswc : part ≠ .swc) (houts : part ≠ .outs) {l : List IntFrame} {full : List (Nat × Nat)} {f : IntFrame}
    {e : Dev} (h : admitFirst d l full = some (f, e)) : part.same d₀ e ↔ part.same d₀ d := by
  induction l generalizing full with
  | nil => cases h
  | cons g l ih =>
    unfold admitFirst at h
    split at h
    · exact ih h
    · split at h
      · rename_i e' he
        cases h
        exact same_internalAdmit hswc houts he
      · exact ih h

theorem same_bankError (hbst : part ≠ .bst) : part.same d₀ (bankError d) ↔ part.same d₀ d := by
  simp only [bankError, same_draw, same_bst hbst, same_ite, ite_self]

theorem same_startNext (hswc : part ≠ .swc) (hbst : part ≠ .bst) (houts : part ≠ .outs) {p : Nat} {cellErr : Bool} :
    part.same d₀ (startNext d p cellErr) ↔ part.same d₀ d := by
  have aged : part.same d₀ (pickQueue ((List.range 16).foldl (fun d q => ageHeads d p q) d) p).2 ↔ part.same d₀ d := by
    simp only [same_pickQueue hswc, same_foldl, same_ageHeads hswc houts, implies_true]
  unfold startNext
  dsimp only
  split
  · rename_i e he
    rwa [he] at aged
  · rename_i q e he
    rw [he] at aged
    refine Iff.trans ?_ aged
    split
    · split
      · rfl
      · simp only [same_bankError hbst, same_leaveIfEmpty hswc, same_freeCopy hswc houts, same_dropAt, same_modQueue hswc]
    · exact same_startFrom hswc houts

theorem same_setAside (hswc : part ≠ .swc) {p : Nat} {t : Tx} : part.same d₀ (setAside d p t) ↔ part.same d₀ d := by
  simp only [setAside, same_modEgress hswc, same_modQueue hswc, same_enqueue hswc]

theorem same_nextSegment (hswc : part ≠ .swc) (houts : part ≠ .outs) {p : Nat} {t : Tx} {sp : Super} :
    part.same d₀ (nextSegment d p t sp) ↔ part.same d₀ d := by
  simp only [nextSegment, same_modEgress hswc, same_freeCopy hswc houts, same_ethStat, same_ite, ite_self]

theorem same_txComplete (heth : part ≠ .eth) (hswc : part ≠ .swc) (houts : part ≠ .outs) {p : Nat} :
    part.same d₀ (txComplete d p) ↔ part.same d₀ d := by
  simp only [txComplete]
  split
  · rfl
  · simp only [same_ite]
    split
    · rfl
    · split
      · simp only [same_nextSegment hswc houts, same_txStats, same_ethStat, same_ite, ite_self]
      · simp only [same_modEgress hswc, same_freeCopy hswc houts]
        split <;> simp only [same_ptpPush heth, same_txStats, same_ite, ite_self]

/-! ### Self-test -/

theorem same_sliceTake (htrs : part ≠ .trs) (hbst : part ≠ .bst) (houts : part ≠ .outs) {u : Nat × Nat} :
    part.same d₀ (sliceTake d u) ↔ part.same d₀ d := by
  simp only [sliceTake, same_bstCnt, same_quarterDown htrs houts, same_bst hbst, same_ite, ite_self]

theorem same_fuseGo (hbst : part ≠ .bst) {v : Word} : part.same d₀ (fuseGo d v) ↔ part.same d₀ d := by
  simp only [fuseGo, same_faultEvent, same_bst hbst, same_ite, ite_self]

theorem same_maintAsk (hpar : part ≠ .par) : part.same d₀ (maintAsk d) ↔ part.same d₀ d := by
  simp only [maintAsk, same_handoverBad, same_par hpar, same_ite, ite_self]

/-! ### The register bus -/

theorem same_unlockBy (hpln : part ≠ .pln) {m : Master} {g : Nat} : part.same d₀ (unlockBy d m g) ↔ part.same d₀ d := by
  simp only [unlockBy, same_pln hpln, same_ite, ite_self]

theorem same_lockClaim (hpln : part ≠ .pln) {m : Master} {g : Nat} : part.same d₀ (lockClaim d m g) ↔ part.same d₀ d := by
  simp only [lockClaim, same_pln hpln, same_ite, ite_self]

theorem same_pageEntryW0 (hacc : part ≠ .acc) {k : Nat} {v : Word} : part.same d₀ (pageEntryW0 d k v) ↔ part.same d₀ d := by
  simp only [pageEntryW0, same_acc hacc]

theorem same_pageEntryW1 (hacc : part ≠ .acc) {k : Nat} {v : Word} : part.same d₀ (pageEntryW1 d k v) ↔ part.same d₀ d := by
  simp only [pageEntryW1, same_acc hacc]

theorem same_privSel (hregs : part ≠ .regs) (hacc : part ≠ .acc) {m : Master} {v : Word} :
    part.same d₀ (privSel d m v) ↔ part.same d₀ d := by
  simp only [privSel, same_putLive hregs, same_deny hacc, same_draw, same_ctr, same_ite, ite_self]

theorem same_unlockFail (hacc : part ≠ .acc) : part.same d₀ (unlockFail d) ↔ part.same d₀ d := by
  simp only [unlockFail, same_logEvent, same_acc hacc]

/-! ### The counter unit -/

theorem same_skipSnapshot (hregs : part ≠ .regs) {mask : Nat} : part.same d₀ (skipSnapshot d mask) ↔ part.same d₀ d := by
  simp only [skipSnapshot, same_logEvent, same_setSticky hregs, same_count, same_ctr, same_ite, ite_self]

theorem same_takeSnapshot (hbytes : part ≠ .bytes) {mask : Nat} : part.same d₀ (takeSnapshot d mask) ↔ part.same d₀ d := by
  simp only [takeSnapshot, same_tdDraw, same_fecDraw, same_mk, implies_true, false_implies, and_self, hbytes, same_ite, ite_self]

theorem same_needSets (hacc : part ≠ .acc) (hcmd : part ≠ .cmd) {c : Nat} {x : Slot} {sets : List Nat} {f : Dev → Dev}
    (hf : ∀ d, part.same d₀ (f d) ↔ part.same d₀ d) : part.same d₀ (needSets d c x sets f) ↔ part.same d₀ d := by
  unfold needSets
  split
  · simp only [same_answer hcmd, same_deny hacc]
  · exact hf d


/-! ### What follows from every command -/

/-- A volume that becomes CRITICAL loses its PAUSE, which the storage part leaves out. -/
theorem same_unpause {v : Nat} : part.same d₀ (modVol d v fun x => { x with pause := false }) ↔ part.same d₀ d := by
  apply same_congr
  cases part with
  | sto =>
    simp only [Piece.same, modVol, tupd, List.map_map, Sto.mk.injEq, true_and, and_true]
    refine List.map_congr_left fun e _ => ?_
    simp only [Function.comp_apply]
    split <;> rfl
  | bytes => exact fun _ => ⟨rfl, rfl, rfl⟩
  | regs => exact ⟨rfl, rfl, rfl⟩
  | latch => exact ⟨rfl, rfl⟩
  | _ => rfl

/-- The logged state of volumes belongs to no part. -/
theorem same_volSt {x : Tab Nat} : part.same d₀ { d with sto.volSt := x } ↔ part.same d₀ d := by
  apply same_congr
  cases part with
  | bytes => exact fun _ => ⟨rfl, rfl, rfl⟩
  | regs => exact ⟨rfl, rfl, rfl⟩
  | latch => exact ⟨rfl, rfl⟩
  | _ => rfl

theorem same_noteVol {v : Nat} : part.same d₀ (noteVol d v) ↔ part.same d₀ d := by
  unfold noteVol
  dsimp only
  split <;> simp only [same_unpause, same_volSt, same_logEvent, same_ite, ite_self]

theorem same_noteVols : part.same d₀ (noteVols d) ↔ part.same d₀ d := by
  simp only [noteVols, same_volSt, same_foldl, same_noteVol, implies_true]

theorem same_attnRefresh : part.same d₀ (attnRefresh d) ↔ part.same d₀ d := by
  obtain ⟨l, h⟩ := attnRefresh_only d
  rw [h, same_log]

theorem same_modeRefresh : part.same d₀ (modeRefresh d) ↔ part.same d₀ d := by
  simp only [modeRefresh, same_mk, same_draw, same_tdDraw, same_publish, same_ite, ite_self, implies_true, and_self]

theorem same_settle : part.same d₀ (settle d) ↔ part.same d₀ d := by
  simp only [settle, same_modeRefresh, same_attnRefresh, same_noteVols]

end

/-! ### Outcomes -/

/-- An outcome is a next state with the queue as it stood in which every part outside `parts` is as before. -/
def Framed (parts : List Piece) (s : State) (o : Host.Outcome State Fault Refusal) : Prop :=
  ∃ d, o = .next { s with dev := d } ∧ ∀ p, p ∉ parts → p.same s.dev d

theorem framed_act {parts : List Piece} {s : State} {f : Dev → Dev}
    (h : ∀ part, parts.Forall (part ≠ ·) → ∀ d₀ d, part.same d₀ (f d) ↔ part.same d₀ d) : Framed parts s (act s f) :=
  ⟨_, act_eq s f, fun p hp => same_settle.2 <|
    (h p (List.forall_iff_forall_mem.2 fun _ hq e => hp (e ▸ hq)) _ _).2 (same_refl p s.dev)⟩

theorem framed_actIf {parts : List Piece} {s : State} {g : Dev → Bool} {f : Dev → Dev}
    (h : ∀ part, parts.Forall (part ≠ ·) → ∀ d₀ d, part.same d₀ (f d) ↔ part.same d₀ d) : Framed parts s (actIf g s f) := by
  unfold actIf
  split
  · exact framed_act h
  · exact ⟨s.dev, rfl, fun p _ => same_refl p s.dev⟩

/-! ### Commands that a slot runs -/

theorem ne_of_outside {part q : Piece} {parts : List Piece} (hp : parts.Forall (part ≠ ·)) (hq : q ∈ parts) : part ≠ q :=
  List.forall_iff_forall_mem.1 hp q hq

/-- A command on a slot does nothing, or begins the command and runs for it: what the run leaves, it leaves. -/
theorem framed_begun {parts : List Piece} (ha : .acc ∈ parts) (hc : .cmd ∈ parts) {s : State} {g : Dev → Bool} {f : Dev → Dev}
    (h : ∀ d, f d = d ∨ ∃ c op x e k, adminStart d c op = some (x, e) ∧ f d = forCmd e c k ∧
      ∀ part, parts.Forall (part ≠ ·) → part ≠ .acc → part ≠ .cmd → ∀ d₀ d, part.same d₀ (k d) ↔ part.same d₀ d) :
    Framed parts s (actIf g s f) := by
  refine framed_actIf fun part hp d₀ d => ?_
  have hacc := ne_of_outside hp ha
  have hcmd := ne_of_outside hp hc
  obtain hd | ⟨c, op, x, e, k, he, hd, hk⟩ := h d
  · rw [hd]
  · rw [hd]
    exact (same_forCmd hacc hcmd (hk part hp hacc hcmd d₀)).trans (same_adminStart hcmd he)

section
variable {parts : List Piece} {s : State} {cmd : Nat} {blk : List Byte}

theorem framed_adminBlock (ha : .acc ∈ parts) (hc : .cmd ∈ parts) {op : Nat} {f : Slot → Dev → Dev}
    (h : ∀ part, parts.Forall (part ≠ ·) → ∀ x d₀ d, part.same d₀ (f x d) ↔ part.same d₀ d) :
    Framed parts s (adminBlock s cmd op blk f) := by
  refine framed_begun ha hc fun d => ?_
  split
  · exact .inl rfl
  · split
    · rename_i x e he
      exact .inr ⟨cmd, _, x, e, f x, he, rfl, fun part hp _ _ => h part hp x⟩
    · exact .inl rfl

theorem framed_queueCreate (ha : .acc ∈ parts) (hc : .cmd ∈ parts) {qt : Nat} {bad : Dev → Slot → List (Nat × Bool)}
    {f : Slot → Nat → Dev → Dev}
    (h : ∀ part, parts.Forall (part ≠ ·) → ∀ x pd d₀ d, part.same d₀ (f x pd d) ↔ part.same d₀ d) :
    Framed parts s (queueCreate cmd qt s bad f) := by
  refine framed_begun ha hc fun d => ?_
  split
  · exact .inl rfl
  · split
    · exact .inl rfl
    · rename_i x e he
      refine .inr ⟨cmd, _, x, e, _, he, rfl, fun part hp hacc hcmd d₀ d => ?_⟩
      dsimp only
      split
      · split
        · exact same_badAt hcmd
        · exact h part hp x _ d₀ d
      · refine same_needPage hacc hcmd fun d => ?_
        split
        · exact same_badAt hcmd
        · exact h part hp x _ d₀ d

theorem framed_queueDelete (ha : .acc ∈ parts) (hc : .cmd ∈ parts) {qt : Nat} {f : Slot → Nat → Dev → Dev}
    (h : ∀ part, parts.Forall (part ≠ ·) → ∀ x q d₀ d, part.same d₀ (f x q d) ↔ part.same d₀ d) :
    Framed parts s (queueDelete cmd qt s f) := by
  refine framed_begun ha hc fun d => ?_
  split
  · exact .inl rfl
  · split
    · exact .inl rfl
    · rename_i x e he
      refine .inr ⟨cmd, _, x, e, _, he, rfl, fun part hp hacc hcmd d₀ d => ?_⟩
      simp only [same_badAt hcmd, h part hp, same_ite, ite_self]

theorem framed_ownershipRun (ha : .acc ∈ parts) (hc : .cmd ∈ parts) {action : Nat} {own : Dev → List (Nat × Bool)} {f : Dev → Dev}
    (h : ∀ part, parts.Forall (part ≠ ·) → ∀ d₀ d, part.same d₀ (f d) ↔ part.same d₀ d) :
    Framed parts s (ownershipRun cmd action blk s own f) := by
  refine framed_begun ha hc fun d => ?_
  dsimp only
  split
  · exact .inl rfl
  · split
    · exact .inl rfl
    · rename_i x e he
      refine .inr ⟨cmd, _, x, e, _, he, rfl, fun part hp hacc hcmd d₀ d => ?_⟩
      split
      · exact same_badAt hcmd
      · refine same_needPage hacc hcmd fun d => ?_
        split
        · exact same_badBlock hcmd
        · exact h part hp d₀ d

theorem framed_viaductRun (ha : .acc ∈ parts) (hc : .cmd ∈ parts) {action : Nat} {used : List Nat} {own : Dev → List (Nat × Bool)}
    {f : Dev → Dev}
    (h : ∀ part, parts.Forall (part ≠ ·) → ∀ d₀ d, part.same d₀ (f d) ↔ part.same d₀ d) :
    Framed parts s (viaductRun cmd action blk s used own f) := by
  refine framed_begun ha hc fun d => ?_
  dsimp only
  split
  · exact .inl rfl
  · split
    · exact .inl rfl
    · rename_i x e he
      refine .inr ⟨cmd, _, x, e, _, he, rfl, fun part hp hacc hcmd d₀ d => ?_⟩
      split
      · exact same_badAt hcmd
      · refine same_needPage hacc hcmd fun d => ?_
        split
        · exact same_badBlock hcmd
        · exact h part hp d₀ d

theorem framed_testRun (ha : .acc ∈ parts) (hc : .cmd ∈ parts) {code : Nat} {f : Dev → Dev}
    (h : ∀ part, parts.Forall (part ≠ ·) → ∀ d₀ d, part.same d₀ (f d) ↔ part.same d₀ d) :
    Framed parts s (testRun cmd code s f) := by
  refine framed_begun ha hc fun d => ?_
  split
  · exact .inl rfl
  · dsimp only
    split
    · exact .inl rfl
    · split
      · exact .inl rfl
      · rename_i x e he
        refine .inr ⟨cmd, _, x, e, _, he, rfl, fun part hp hacc hcmd d₀ d => same_needPage hacc hcmd fun d => ?_⟩
        simp only [same_badAt hcmd, h part hp, same_ite, ite_self]

theorem framed_setupRun (ha : .acc ∈ parts) (hc : .cmd ∈ parts) {action : Nat} {first : List (Nat × Bool)} {sets : Dev → List Nat}
    {fields : List (Nat × Bool)} {f : Slot → Dev → Dev}
    (h : ∀ part, parts.Forall (part ≠ ·) → ∀ x d₀ d, part.same d₀ (f x d) ↔ part.same d₀ d) :
    Framed parts s (setupRun cmd action blk s first sets fields f) := by
  refine framed_begun ha hc fun d => ?_
  dsimp only
  split
  · exact .inl rfl
  · split
    · exact .inl rfl
    · rename_i x e he
      refine .inr ⟨cmd, _, x, e, _, he, rfl, fun part hp hacc hcmd d₀ d => ?_⟩
      split
      · exact same_badAt hcmd
      · split
        · exact same_badBlock hcmd
        · split
          · exact same_badBlock hcmd
          · refine same_needSets hacc hcmd fun d => ?_
            split
            · exact same_badBlock hcmd
            · exact h part hp x d₀ d

end

/-! ### The commands, one by one -/

/-! #### Paths -/

theorem execTimeWaitExpire_framed (c : Nat) (s : State) : Framed [.trs] s (execTimeWaitExpire c s) := by
  refine framed_actIf fun part htrs d₀ d => ?_
  simp only [same_trs htrs, same_ite, ite_self]

/-! #### Background work of the storage engine -/

theorem execFlushCmd_framed (cmd : Nat) (s : State) : Framed [.cmd] s (execFlushCmd cmd s) := by
  refine framed_actIf fun part hcmd d₀ d => ?_
  split <;> simp only [same_succeed hcmd, same_ite, ite_self]

theorem execDirtyIdleExpire_framed (vol : Nat) (region : Nat) (s : State) :
    Framed [.sto, .par, .via, .outs] s (execDirtyIdleExpire vol region s) := by
  refine framed_actIf fun part h d₀ d => ?_
  obtain ⟨hsto, hpar, hvia, houts⟩ := h
  simp only [same_bmSubmit hsto hpar hvia houts, same_stoCnt, same_setDirty hsto, same_ite, ite_self]

theorem execJournalCheckpoint_framed (group : Nat) (s : State) :
    Framed [.sto, .par, .via, .outs] s (execJournalCheckpoint group s) := by
  refine framed_actIf fun part h d₀ d => ?_
  obtain ⟨hsto, hpar, hvia, houts⟩ := h
  simp only [same_modGroup hsto, same_jLog hsto hpar hvia houts, same_ite, ite_self]

/-! #### Fault events -/

theorem execJournalRemirrorComplete_framed (group : Nat) (copy : Nat) (s : State) :
    Framed [.sto, .par, .via, .outs] s (execJournalRemirrorComplete group copy s) := by
  refine framed_actIf fun part h d₀ d => ?_
  obtain ⟨hsto, hpar, hvia, houts⟩ := h
  dsimp only
  split <;> simp only [same_writeRecords hsto hpar hvia houts, same_modGroup hsto, same_rbEvent, same_jLog hsto hpar hvia houts]

theorem execBandRestoreStart_framed (group : Nat) (s : State) : Framed [.sto, .par, .via, .outs] s (execBandRestoreStart group s) := by
  refine framed_actIf fun part h d₀ d => ?_
  obtain ⟨hsto, hpar, hvia, houts⟩ := h
  simp only [same_ite]
  split
  · rfl
  · split <;> simp only [same_modGroup hsto, same_progressRec hsto hpar hvia houts, same_ite, ite_self]

theorem execRebuildProgressTick_framed (group : Nat) (mbps : Nat) (gibLeft : Nat) (s : State) :
    Framed [.sto, .par, .via, .outs] s (execRebuildProgressTick group mbps gibLeft s) := by
  refine framed_actIf fun part h d₀ d => ?_
  obtain ⟨hsto, hpar, hvia, houts⟩ := h
  dsimp only
  split
  · rfl
  · refine Iff.trans (same_foldl (fun d e => ?_) _ _) (same_modGroup hsto)
    simp only [same_ite, same_progressRec hsto hpar hvia houts, ite_self]
    split
    · split
      · exact same_progressRec hsto hpar hvia houts
      · rfl
    · rfl

theorem execReshapeUnitCopy_framed (vol : Nat) (s : State) : Framed [.sto, .par, .via, .outs] s (execReshapeUnitCopy vol s) := by
  refine framed_actIf fun part h d₀ d => ?_
  obtain ⟨hsto, hpar, hvia, houts⟩ := h
  dsimp only
  split
  · rfl
  · split <;> simp only [same_rbCnt, same_jLog hsto hpar hvia houts, same_takeCursor hsto, same_sto hsto, same_ite, ite_self]

theorem execReshapeAbandonDone_framed (vol : Nat) (s : State) : Framed [.sto, .par, .via, .outs] s (execReshapeAbandonDone vol s) := by
  refine framed_actIf fun part h d₀ d => ?_
  obtain ⟨hsto, hpar, hvia, houts⟩ := h
  dsimp only
  split
  · rfl
  · simp only [same_rbEvent, same_ite]
    split
    · rfl
    · split <;> simp only [same_writeRecordsFor hsto hpar hvia houts, same_modVol hsto, same_sto hsto, same_ite, ite_self]

/-! #### Power and temperature -/

theorem execResetRelease_framed (pairSide boot1 boot0 : Bool) (s : State) :
    Framed [.glb, .pwr] s (execResetRelease pairSide boot1 boot0 s) := by
  refine framed_actIf fun part h d₀ d => ?_
  obtain ⟨hglb, hpwr⟩ := h
  simp only [same_domRequestOn hpwr, same_enter hglb, same_glb hglb, same_ite, ite_self, same_foldl, implies_true]

theorem execAvsInitialSet_framed (marginMv : Nat) (s : State) : Framed [.sense] s (execAvsInitialSet marginMv s) := by
  refine framed_actIf fun part hsense d₀ d => ?_
  simp only [same_sense hsense]

theorem execAgingMonitorRead_framed (slowdown : Half) (marginPct : Byte) (more : Bool) (s : State) :
    Framed [.sense] s (execAgingMonitorRead slowdown marginPct more s) := by
  refine framed_actIf fun part hsense d₀ d => ?_
  simp only [same_sense hsense, same_ite, ite_self]

theorem execPwrFailClear_framed (s : State) : Framed [.pwr] s (execPwrFailClear s) := by
  refine framed_actIf fun part hpwr d₀ d => ?_
  simp only [same_pwr hpwr]

theorem execMgtGpioOutSet_framed (m : Master) (v : Word) (s : State) : Framed [.regs, .acc] s (execMgtGpioOutSet m v s) := by
  refine framed_actIf fun part h d₀ d => ?_
  obtain ⟨hregs, hacc⟩ := h
  simp only [same_gpioWrite hregs hacc]

theorem execMgtGpioOutClr_framed (m : Master) (v : Word) (s : State) : Framed [.regs, .acc] s (execMgtGpioOutClr m v s) := by
  refine framed_actIf fun part h d₀ d => ?_
  obtain ⟨hregs, hacc⟩ := h
  simp only [same_gpioWrite hregs hacc]

theorem execPmbusAlert_framed (rail : Nat) (s : State) : Framed [.sense] s (execPmbusAlert rail s) := by
  refine framed_actIf fun part hsense d₀ d => ?_
  simp only [same_sense hsense]

theorem execDomainSwitchOnRequest_framed (dom : Nat) (takeover : Bool) (s : State) :
    Framed [.pwr] s (execDomainSwitchOnRequest dom takeover s) := by
  refine framed_actIf fun part hpwr d₀ d => ?_
  simp only [same_domRequestOn hpwr]

theorem execDomainSwitchOffRequest_framed (dom : Nat) (takeover : Bool) (s : State) :
    Framed [.pwr] s (execDomainSwitchOffRequest dom takeover s) := by
  refine framed_actIf fun part hpwr d₀ d => ?_
  simp only [same_domQueueOff hpwr]

theorem execDomainReady_framed (dom : Nat) (s : State) : Framed [.glb, .pwr] s (execDomainReady dom s) := by
  refine framed_actIf fun part h d₀ d => ?_
  obtain ⟨hglb, hpwr⟩ := h
  simp only [same_domServe hpwr, same_setDom hpwr, same_turnStep hglb hpwr]

theorem execDeepIdleEnter_framed (m : Master) (s : State) : Framed [.pwr, .acc] s (execDeepIdleEnter m s) := by
  refine framed_actIf fun part h d₀ d => ?_
  obtain ⟨hpwr, hacc⟩ := h
  simp only [same_pwrCtrl hacc, same_idleEnter hpwr, implies_true]

theorem execDeepIdleExit_framed (m : Master) (s : State) : Framed [.glb, .pwr, .acc] s (execDeepIdleExit m s) := by
  refine framed_actIf fun part h d₀ d => ?_
  obtain ⟨hglb, hpwr, hacc⟩ := h
  simp only [same_idleExit hglb hpwr, same_pwrCtrl hacc, implies_true]

theorem execLoadGovernorTick_framed (demand : List Nat) (s : State) : Framed [.pwr] s (execLoadGovernorTick demand s) := by
  refine framed_actIf fun part hpwr d₀ d => ?_
  simp only [same_pwr hpwr]

theorem execPowerEstimateTick_framed (estimateMw : Nat) (s : State) : Framed [.pwr] s (execPowerEstimateTick estimateMw s) := by
  refine framed_actIf fun part hpwr d₀ d => ?_
  simp only [same_capUp hpwr, same_capDown hpwr, same_pwr hpwr, same_ite, ite_self]

theorem execPowerTelemetryCorrect_framed (powerMw : Nat) (railMv : List Nat) (railMa : List Nat) (s : State) :
    Framed [.pwr, .sense] s (execPowerTelemetryCorrect powerMw railMv railMa s) := by
  refine framed_actIf fun part h d₀ d => ?_
  obtain ⟨hpwr, (hsense : part ≠ .sense)⟩ := h
  simp only [energyNow, same_mk, hpwr, hsense, false_implies, implies_true, and_self]

theorem execPwrCapWrite_framed (m : Master) (v : Word) (s : State) : Framed [.pwr, .regs, .acc] s (execPwrCapWrite m v s) := by
  refine framed_actIf fun part h d₀ d => ?_
  obtain ⟨hpwr, hregs, hacc⟩ := h
  simp only [same_writeAccess hacc, same_pwrCapGo hpwr hregs, implies_true]

theorem execPwrThermCfgWrite_framed (m : Master) (v : Word) (s : State) :
    Framed [.pwr, .regs, .acc] s (execPwrThermCfgWrite m v s) := by
  refine framed_actIf fun part h d₀ d => ?_
  obtain ⟨hpwr, hregs, hacc⟩ := h
  simp only [same_thermCfgGo hpwr hregs, same_writeAccess hacc, implies_true]

theorem execPowerAttnClear_framed (s : State) : Framed [.pwr] s (execPowerAttnClear s) := by
  refine framed_actIf fun part hpwr d₀ d => ?_
  simp only [same_pwr hpwr]

theorem execThermalGovernorTick_framed (s : State) : Framed [.pwr] s (execThermalGovernorTick s) := by
  refine framed_act fun part hpwr d₀ d => ?_
  dsimp only
  split <;> simp only [same_pwr hpwr]

theorem execGlbWdogKick_framed (m : Master) (v : Word) (s : State) : Framed [.glb, .acc] s (execGlbWdogKick m v s) := by
  refine framed_actIf fun part h d₀ d => ?_
  obtain ⟨hglb, hacc⟩ := h
  simp only [same_writeAccess hacc, same_wdogGo hglb, implies_true]

/-! #### Start-up -/

theorem execBootSourceRead_framed (flashB : Bool) (img : FwImage) (s : State) :
    Framed [.glb, .adm, .outs] s (execBootSourceRead flashB img s) := by
  unfold execBootSourceRead
  refine framed_actIf fun part h d₀ d => ?_
  obtain ⟨hglb, hadm, houts⟩ := h
  simp only [same_fwStart hglb, same_bootField hglb, same_spiRead houts, same_glb hglb, same_adm hadm, same_ite, ite_self]

theorem execMgmtImageDelivery_framed (m : Master) (img : FwImage) (s : State) :
    Framed [.glb, .acc] s (execMgmtImageDelivery m img s) := by
  refine framed_actIf fun part h d₀ d => ?_
  obtain ⟨hglb, hacc⟩ := h
  simp only [same_fwStart hglb, same_bootField hglb, same_deny hacc, same_ite, ite_self]

theorem execFloorPlanCheck_framed (source : Nat) (img : PlanImage) (s : State) :
    Framed [.glb, .pwr, .pln, .outs] s (execFloorPlanCheck source img s) := by
  refine framed_actIf fun part h d₀ d => ?_
  obtain ⟨hglb, hpwr, hpln, houts⟩ := h
  simp only [same_bootField hglb, same_spiRead houts, same_noPlan hglb hpwr, same_glb hglb, same_mk, implies_true, false_implies,
    and_self, hglb, hpwr, hpln, same_ite, ite_self]

theorem execDrivePerstRelease_framed (s : State) : Framed [.sto] s (execDrivePerstRelease s) := by
  refine framed_actIf fun part hsto d₀ d => ?_
  split <;> simp only [same_modDrive hsto]

theorem execDriveLinkUp_framed (slot : Nat) (rate : Nat) (width : Nat) (s : State) :
    Framed [.sto, .outs] s (execDriveLinkUp slot rate width s) := by
  refine framed_actIf fun part h d₀ d => ?_
  obtain ⟨hsto, houts⟩ := h
  simp only [same_modDrive hsto, same_emit houts, same_drawBits]

theorem execDriveReadyTimeout_framed (slot : Nat) (s : State) : Framed [.glb, .sto, .par, .outs] s (execDriveReadyTimeout slot s) := by
  refine framed_actIf fun part h d₀ d => ?_
  obtain ⟨hglb, hsto, hpar, houts⟩ := h
  simp only [same_modDrive hsto, same_setMember hsto hpar houts, same_maybeRecover hglb, same_ite, ite_self]

/-! #### Admission -/

theorem execSlotWaitTimeout_framed (cls : Nat) (s : State) : Framed [.cmd] s (execSlotWaitTimeout cls s) := by
  refine framed_actIf fun part hcmd d₀ d => ?_
  simp only [same_refuseClass hcmd]

theorem execHoldTimeout_framed (cmd : Nat) (s : State) : Framed [.trs, .cmd] s (execHoldTimeout cmd s) := by
  refine framed_actIf fun part h d₀ d => ?_
  obtain ⟨htrs, hcmd⟩ := h
  simp only [same_dropTransfers htrs, same_cmdCnt, same_answer hcmd, same_ite, ite_self]

theorem execCapRefuseTimeout_framed (sq : Nat) (s : State) : Framed [.trs, .cmd] s (execCapRefuseTimeout sq s) := by
  refine framed_actIf fun part h d₀ d => ?_
  obtain ⟨htrs, hcmd⟩ := h
  simp only [same_dropTransfers htrs, same_answer hcmd, same_ite, same_foldl, implies_true]
  split
  · rfl
  · split
    · rfl
    · split
      · rfl
      · split <;> simp only [same_refuseCap hcmd]

theorem execTriggerLingerExpire_framed (s : State) : Framed [.trs] s (execTriggerLingerExpire s) := by
  refine framed_actIf fun part htrs d₀ d => ?_
  dsimp only
  split <;> simp only [same_ctxCnt, same_trs htrs]

/-! #### Queue administration -/

theorem execQueueCreateCq_framed (cmd : Nat) (s : State) : Framed [.acc, .cmd, .par, .outs] s (execQueueCreateCq cmd s) := by
  refine framed_queueCreate (by simp) (by simp) fun part h x pd d₀ d => ?_
  obtain ⟨hacc, hcmd, hpar, houts⟩ := h
  simp only [same_createCq hcmd hpar houts]

theorem execQueueDeleteCq_framed (cmd : Nat) (s : State) : Framed [.acc, .cmd, .par, .outs] s (execQueueDeleteCq cmd s) := by
  refine framed_queueDelete (by simp) (by simp) fun part h x q d₀ d => ?_
  obtain ⟨hacc, hcmd, hpar, houts⟩ := h
  dsimp only
  split <;> simp only [same_answer hcmd, same_answerAfter hcmd hpar houts, same_needQueue hacc hcmd, same_badAt hcmd, same_cmd hcmd,
    same_ite, ite_self, implies_true]

theorem execIdentifyDevice_framed (cmd : Nat) (s : State) : Framed [.trs, .cmd, .via, .outs] s (execIdentifyDevice cmd s) := by
  refine framed_actIf fun part h d₀ d => ?_
  obtain ⟨htrs, hcmd, hvia, houts⟩ := h
  split
  · rfl
  · split
    · rfl
    · rename_i x e he
      refine Iff.trans ?_ (same_adminStart hcmd he)
      simp only [same_badAt hcmd, same_succeed hcmd, same_sendHost htrs hcmd hvia houts, same_ite, ite_self]

theorem execCmdPdSelWrite_framed (m : Master) (v : Word) (s : State) : Framed [.regs, .acc] s (execCmdPdSelWrite m v s) := by
  refine framed_actIf fun part h d₀ d => ?_
  obtain ⟨hregs, hacc⟩ := h
  simp only [same_writeAccess hacc, same_cmdPdSelGo hregs, implies_true]

theorem execOwnerWaitTimeout_framed (cmd : Nat) (s : State) : Framed [.cmd] s (execOwnerWaitTimeout cmd s) := by
  refine framed_actIf fun part hcmd d₀ d => ?_
  split <;> simp only [same_answer hcmd, same_modSlot hcmd, same_ite, ite_self]

/-! #### Trestle receive side -/

theorem execTrsPdSelWrite_framed (m : Master) (v : Word) (s : State) : Framed [.regs, .acc] s (execTrsPdSelWrite m v s) := by
  refine framed_actIf fun part h d₀ d => ?_
  obtain ⟨hregs, hacc⟩ := h
  simp only [same_pdSelGo hregs, same_writeAccess hacc, implies_true]

theorem execPdApplyComplete_framed (s : State) : Framed [.trs] s (execPdApplyComplete s) := by
  refine framed_actIf fun part htrs d₀ d => ?_
  simp only [same_trs htrs, same_ite, ite_self]

/-! #### Volumes -/

theorem execGroupForm_framed (g : Nat) (s : State) : Framed [.sto, .par, .via, .outs] s (execGroupForm g s) := by
  refine framed_actIf fun part h d₀ d => ?_
  obtain ⟨hsto, hpar, hvia, houts⟩ := h
  simp only [same_makeGroup hsto hpar hvia houts, same_reserveOn houts, same_ite, ite_self, same_foldl, implies_true]

/-! #### Recovery -/

theorem execRecoveryReplay_framed (group : Nat) (s : State) : Framed [.sto, .par, .via, .outs] s (execRecoveryReplay group s) := by
  refine framed_actIf fun part h d₀ d => ?_
  obtain ⟨hsto, hpar, hvia, houts⟩ := h
  dsimp only
  split <;> simp only [same_replayRec hsto hpar hvia houts, same_sto hsto, same_ite, ite_self, same_foldl, implies_true]

theorem execRecoveryResync_framed (group : Nat) (agree : Bool) (s : State) :
    Framed [.sto, .par, .via, .outs] s (execRecoveryResync group agree s) := by
  refine framed_actIf fun part h d₀ d => ?_
  obtain ⟨hsto, hpar, hvia, houts⟩ := h
  dsimp only
  split
  · rfl
  · split
    · rfl
    · refine (same_sto hsto).trans (same_foldl (fun d e => ?_) _ _)
      split
      · exact same_foldl (fun d st => same_resyncStripe hsto hpar hvia houts) _ _
      · rfl

/-! #### Mirror sessions -/

theorem execMirrorResend_framed (s : State) : Framed [.par, .via, .outs] s (execMirrorResend s) := by
  refine framed_actIf fun part h d₀ d => ?_
  obtain ⟨hpar, hvia, houts⟩ := h
  simp only [same_sendKeys hpar houts, same_gatedGo hpar hvia houts, same_resendB hpar houts]

theorem execSnapshotAcked_framed (kcvAgree : Bool) (s : State) : Framed [.regs, .par] s (execSnapshotAcked kcvAgree s) := by
  refine framed_actIf fun part h d₀ d => ?_
  obtain ⟨hregs, hpar⟩ := h
  simp only [same_stableRefresh hpar, same_itgEvent, same_setSticky hregs, same_draw, same_par hpar, same_ite, ite_self]

/-! #### Take-over -/

theorem execGarpRepeat_framed (s : State) : Framed [.par, .outs] s (execGarpRepeat s) := by
  refine framed_actIf fun part h d₀ d => ?_
  obtain ⟨hpar, houts⟩ := h
  simp only [same_announceAddrs houts, same_par hpar]

theorem execArbiterTimeout_framed (n : Nat) (s : State) : Framed [.par, .outs] s (execArbiterTimeout n s) := by
  refine framed_actIf fun part h d₀ d => ?_
  obtain ⟨hpar, houts⟩ := h
  simp only [same_nextArbiter hpar houts]

theorem execArbitrationRetry_framed (s : State) : Framed [.par, .outs] s (execArbitrationRetry s) := by
  refine framed_actIf fun part h d₀ d => ?_
  obtain ⟨hpar, houts⟩ := h
  simp only [same_askArbiter hpar houts, same_par hpar]

/-! #### The pair -/

theorem execJoinTimeout_framed (s : State) : Framed [.par, .outs] s (execJoinTimeout s) := by
  refine framed_actIf fun part h d₀ d => ?_
  obtain ⟨hpar, houts⟩ := h
  simp only [same_askArbiter hpar houts, same_par hpar]

theorem execHeartbeatSend_framed (s : State) : Framed [.par, .outs] s (execHeartbeatSend s) := by
  refine framed_actIf fun part h d₀ d => ?_
  obtain ⟨hpar, houts⟩ := h
  simp only [same_heartbeatOn hpar houts]

theorem execPowerFailFrameReceive_framed (s : State) : Framed [.par] s (execPowerFailFrameReceive s) := by
  refine framed_actIf fun part hpar d₀ d => ?_
  simp only [same_par hpar]

theorem execHealthSend_framed (s : State) : Framed [.par, .outs] s (execHealthSend s) := by
  refine framed_actIf fun part h d₀ d => ?_
  obtain ⟨hpar, houts⟩ := h
  simp only [same_drawBits, same_pairSend hpar houts]

theorem execHandoverReceive_framed (groups : BitVec 6) (roles : BitVec 2) (lastMseq : Nat) (s : State) :
    Framed [.swc, .par, .bst, .outs] s (execHandoverReceive groups roles lastMseq s) := by
  refine framed_actIf fun part h d₀ d => ?_
  obtain ⟨hswc, hpar, hbst, houts⟩ := h
  simp only [same_takingStep hpar houts, same_sliceInterrupt hswc hbst houts, same_par hpar]

theorem execMaintRequest_framed (cmd : Nat) (blk : List Byte) (s : State) :
    Framed [.acc, .cmd, .par] s (execMaintRequest cmd blk s) := by
  refine framed_ownershipRun (by simp) (by simp) fun part h d₀ d => ?_
  obtain ⟨hacc, hcmd, hpar⟩ := h
  simp only [same_giveAfter hcmd hpar]

theorem execMoveGroups_framed (cmd : Nat) (blk : List Byte) (s : State) : Framed [.acc, .cmd, .par] s (execMoveGroups cmd blk s) := by
  refine framed_ownershipRun (by simp) (by simp) fun part h d₀ d => ?_
  obtain ⟨hacc, hcmd, hpar⟩ := h
  simp only [same_giveAfter hcmd hpar]

theorem execReturnRoles_framed (cmd : Nat) (blk : List Byte) (s : State) : Framed [.acc, .cmd, .par] s (execReturnRoles cmd blk s) := by
  refine framed_ownershipRun (by simp) (by simp) fun part h d₀ d => ?_
  obtain ⟨hacc, hcmd, hpar⟩ := h
  simp only [same_giveAfter hcmd hpar]

theorem execHandoverStart_framed (s : State) : Framed [.swc, .par, .bst, .outs] s (execHandoverStart s) := by
  refine framed_actIf fun part h d₀ d => ?_
  obtain ⟨hswc, hpar, hbst, houts⟩ := h
  simp only [same_sliceInterrupt hswc hbst houts, same_par hpar]

theorem execHandoverDrainTimeout_framed (s : State) : Framed [.cmd, .sto, .par, .outs] s (execHandoverDrainTimeout s) := by
  refine framed_actIf fun part h d₀ d => ?_
  obtain ⟨hcmd, hsto, hpar, houts⟩ := h
  dsimp only
  split <;> simp only [same_pairSend hpar houts, same_leaveRunning hcmd hsto, same_par hpar]

theorem execStableTimeExpire_framed (s : State) : Framed [.par] s (execStableTimeExpire s) := by
  refine framed_actIf fun part hpar d₀ d => ?_
  simp only [same_par hpar]

/-! #### The viaduct -/

theorem execInnerConnect_framed (pier : Nat) (s : State) : Framed [.trs, .outs] s (execInnerConnect pier s) := by
  refine framed_actIf fun part h d₀ d => ?_
  obtain ⟨htrs, houts⟩ := h
  dsimp only
  split
  · split <;> simp only [same_sendPkt houts, same_drawPortBase, same_takeConn htrs houts, same_drawBits]
  · rfl

theorem execFwdCpl_framed (pier : Nat) (r : InnerRec) (s : State) : Framed [.trs, .cmd, .outs] s (execFwdCpl pier r s) := by
  refine framed_actIf fun part h d₀ d => ?_
  obtain ⟨htrs, hcmd, houts⟩ := h
  dsimp only
  split
  · rfl
  · rename_i c x hx
    have hback (st : Bool) (r0 : Nat) : part.same d₀ (if st then backParts d x r0 else ([], d)).2 ↔ part.same d₀ d := by
      split
      · exact same_backParts
      · rfl
    split
    · refine foldl_keeps (fun m : Nat × Dev => part.same d₀ m.2 ↔ part.same d₀ d) _ (fun m q hm => ?_) _ _
        ((same_modSlot hcmd).trans (hback _ _))
      simp only [same_sendRead htrs hcmd houts, same_ite, ite_self, hm]
    · exact (same_modSlot hcmd).trans (hback _ _)

theorem execDirectoryRec_framed (pier : Nat) (r : InnerRec) (s : State) :
    Framed [.cmd, .par, .via, .outs] s (execDirectoryRec pier r s) := by
  refine framed_actIf fun part h d₀ d => ?_
  obtain ⟨hcmd, hpar, hvia, houts⟩ := h
  simp only [same_reForward hcmd hpar hvia houts, same_forwardTo hcmd hpar hvia houts, same_via hvia, same_ite, ite_self, same_foldl,
    implies_true]

theorem execFragReq_framed (pier : Nat) (r : InnerRec) (group : Nat) (s : State) :
    Framed [.trs, .cmd, .via, .outs] s (execFragReq pier r group s) := by
  refine framed_actIf fun part h d₀ d => ?_
  obtain ⟨htrs, hcmd, hvia, houts⟩ := h
  simp only [same_sendFragDone hvia houts, same_fragSubmit hvia houts, same_via hvia, same_ite]
  split
  · rfl
  · split
    · split
      · rfl
      · split
        · rfl
        · split <;> simp only [same_sendRead htrs hcmd houts, same_via hvia]
    · split
      · rfl
      · split
        · rfl
        · split <;> simp only [same_sendRead htrs hcmd houts, same_via hvia]

theorem execEpochRec_framed (pier : Nat) (r : InnerRec) (group : Nat) (s : State) :
    Framed [.via, .outs] s (execEpochRec pier r group s) := by
  refine framed_actIf fun part h d₀ d => ?_
  obtain ⟨hvia, houts⟩ := h
  simp only [same_epochAcks hvia houts, same_via hvia, same_ite, ite_self]

theorem execEpochGrantReceive_framed (pier : Nat) (group : Nat) (epoch : Nat) (arbiter : Bool) (s : State) :
    Framed [.sto, .par, .via, .outs] s (execEpochGrantReceive pier group epoch arbiter s) := by
  refine framed_actIf fun part h d₀ d => ?_
  obtain ⟨hsto, hpar, hvia, houts⟩ := h
  dsimp only
  split <;> simp only [same_shelfWon hsto hpar hvia houts, same_epochAcked hsto hpar hvia houts, same_via hvia, same_ite, ite_self]

theorem execAdmitPier_framed (cmd : Nat) (blk : List Byte) (s : State) :
    Framed [.acc, .cmd, .via, .outs] s (execAdmitPier cmd blk s) := by
  refine framed_viaductRun (by simp) (by simp) fun part h d₀ d => ?_
  obtain ⟨hacc, hcmd, hvia, houts⟩ := h
  simp only [same_propagate houts, same_sendDirectory houts, same_succeed hcmd, same_answer hcmd, same_via hvia, same_ite, ite_self]

theorem execGateOn_framed (cmd : Nat) (blk : List Byte) (s : State) : Framed [.acc, .cmd, .via, .outs] s (execGateOn cmd blk s) := by
  refine framed_viaductRun (by simp) (by simp) fun part h d₀ d => ?_
  obtain ⟨hacc, hcmd, hvia, houts⟩ := h
  simp only [same_propagate houts, same_succeed hcmd, same_via hvia, same_ite, ite_self]

theorem execGateOff_framed (cmd : Nat) (blk : List Byte) (s : State) : Framed [.acc, .cmd, .via, .outs] s (execGateOff cmd blk s) := by
  refine framed_viaductRun (by simp) (by simp) fun part h d₀ d => ?_
  obtain ⟨hacc, hcmd, hvia, houts⟩ := h
  simp only [same_propagate houts, same_succeed hcmd, same_via hvia, same_ite, ite_self]

theorem execGateDrainExpire_framed (s : State) : Framed [.trs, .cmd, .via, .outs] s (execGateDrainExpire s) := by
  refine framed_actIf fun part h d₀ d => ?_
  obtain ⟨htrs, hcmd, hvia, houts⟩ := h
  simp only [same_closeConn htrs hcmd hvia houts, same_via hvia, same_foldl, implies_true]

/-! #### Integrity -/

theorem execEntropyFault_framed (s : State) : Framed [.itg] s (execEntropyFault s) := by
  refine framed_actIf fun part hitg d₀ d => ?_
  simp only [same_itgEvent, same_itg hitg]

/-! #### Administration -/

theorem execSelfTestStop_framed (cmd : Nat) (s : State) : Framed [.acc, .cmd, .adm] s (execSelfTestStop cmd s) := by
  refine framed_testRun (by simp) (by simp) fun part h d₀ d => ?_
  obtain ⟨hacc, hcmd, hadm⟩ := h
  simp only [same_testEnd hadm, same_succeed hcmd]

theorem execSelfTestTimeout_framed (s : State) : Framed [.adm] s (execSelfTestTimeout s) := by
  refine framed_actIf fun part hadm d₀ d => ?_
  simp only [same_testEnd hadm, same_draw, same_drawBits]

theorem execSelfTestComplete_framed (failed : Word) (driveFails : BitVec 24) (first : Word) (s : State) :
    Framed [.adm] s (execSelfTestComplete failed driveFails first s) := by
  refine framed_actIf fun part hadm d₀ d => ?_
  simp only [same_testEnd hadm]

theorem execImageLoad_framed (cmd : Nat) (blk : List Byte) (read : ImageRead) (s : State) :
    Framed [.acc, .cmd, .adm, .outs] s (execImageLoad cmd blk read s) := by
  refine framed_adminBlock (by simp) (by simp) fun part h x d₀ d => ?_
  obtain ⟨hacc, hcmd, hadm, houts⟩ := h
  split <;> simp only [same_needPage hacc hcmd, same_answer hcmd, same_badBlock hcmd, same_imagePiece hcmd hadm houts, same_ite,
    ite_self, implies_true]

theorem execImageCopyFirstFlash_framed (s : State) : Framed [.adm, .outs] s (execImageCopyFirstFlash s) := by
  refine framed_actIf fun part h d₀ d => ?_
  obtain ⟨hadm, houts⟩ := h
  simp only [same_admEvent, same_drawBits, same_spiOps houts, same_adm hadm]

/-! #### Ethernet -/

theorem execPortBringupAttempt_framed (p : Nat) (s : State) : Framed [.eth] s (execPortBringupAttempt p s) := by
  refine framed_actIf fun part heth d₀ d => ?_
  simp only [same_startAttempt heth]

theorem execPortLinkUp_framed (p : Nat) (s : State) : Framed [.eth, .par, .via, .outs] s (execPortLinkUp p s) := by
  refine framed_actIf fun part h d₀ d => ?_
  obtain ⟨heth, hpar, hvia, houts⟩ := h
  simp only [same_portComesUp heth hpar hvia houts]

theorem execPortBringupTimeout_framed (p : Nat) (blame : List Nat) (s : State) :
    Framed [.eth] s (execPortBringupTimeout p blame s) := by
  refine framed_actIf fun part heth d₀ d => ?_
  simp only [same_modPort heth, same_chargeLane heth, same_ite, ite_self, same_foldl, implies_true]

theorem execPortRetrainTrigger_framed (p : Nat) (cause : RetrainCause) (s : State) :
    Framed [.eth, .swc, .outs] s (execPortRetrainTrigger p cause s) := by
  refine framed_actIf fun part h d₀ d => ?_
  obtain ⟨heth, hswc, houts⟩ := h
  simp only [same_laneStat, same_restartPort heth hswc houts, same_ite, ite_self, same_foldl, implies_true]

theorem execEthLaneRetrain_framed (m : Master) (mac : Nat) (lanes : BitVec 4) (s : State) :
    Framed [.acc, .eth, .swc, .outs] s (execEthLaneRetrain m mac lanes s) := by
  refine framed_actIf fun part h d₀ d => ?_
  obtain ⟨hacc, heth, hswc, houts⟩ := h
  simp only [same_writeAccess hacc, same_laneCtrl heth hswc houts, implies_true]

theorem execEthLaneRestore_framed (m : Master) (mac : Nat) (lanes : BitVec 4) (s : State) :
    Framed [.acc, .eth, .swc, .outs] s (execEthLaneRestore m mac lanes s) := by
  refine framed_actIf fun part h d₀ d => ?_
  obtain ⟨hacc, heth, hswc, houts⟩ := h
  simp only [same_writeAccess hacc, same_laneCtrl heth hswc houts, implies_true]

theorem execPortLinkDown_framed (p : Nat) (s : State) : Framed [.eth, .swc, .par, .outs] s (execPortLinkDown p s) := by
  refine framed_actIf fun part h d₀ d => ?_
  obtain ⟨heth, hswc, hpar, houts⟩ := h
  simp only [same_portDown heth hswc houts, same_resendB hpar houts, same_ite, ite_self]

theorem execLinkHoldExpire_framed (p : Nat) (s : State) : Framed [.eth, .swc, .outs] s (execLinkHoldExpire p s) := by
  refine framed_actIf fun part h d₀ d => ?_
  obtain ⟨heth, hswc, houts⟩ := h
  simp only [same_holdExpired heth hswc houts]

theorem execFrameIngress_framed (p : Nat) (f : Frame) (s : State) : Framed [.swc, .via, .outs] s (execFrameIngress p f s) := by
  refine framed_actIf fun part h d₀ d => ?_
  obtain ⟨hswc, hvia, houts⟩ := h
  simp only [same_ingress hswc houts]

theorem execPauseFrameReceive_framed (p : Nat) (quanta : Half) (s : State) : Framed [.eth] s (execPauseFrameReceive p quanta s) := by
  refine framed_actIf fun part heth d₀ d => ?_
  simp only [same_macControl, same_pwdPause heth, same_ethStat, same_ite, ite_self]

theorem execPfcFrameReceive_framed (p : Nat) (enable : Byte) (quanta : List Half) (s : State) :
    Framed [.eth] s (execPfcFrameReceive p enable quanta s) := by
  refine framed_actIf fun part heth d₀ d => ?_
  simp only [same_macControl, same_pwdPause heth, same_ethStat, same_ite, ite_self, same_foldl, implies_true]

theorem execPauseQuantaExpire_framed (p : Nat) (inst : Nat) (s : State) : Framed [.eth] s (execPauseQuantaExpire p inst s) := by
  refine framed_actIf fun part heth d₀ d => ?_
  simp only [same_setPwd heth]

theorem execPwdWatchExpire_framed (p : Nat) (inst : Nat) (s : State) : Framed [.eth, .swc, .outs] s (execPwdWatchExpire p inst s) := by
  refine framed_actIf fun part h d₀ d => ?_
  obtain ⟨heth, hswc, houts⟩ := h
  simp only [same_pwdExpire heth hswc houts]

theorem execPwdRecoveryExpire_framed (p : Nat) (inst : Nat) (s : State) : Framed [.eth] s (execPwdRecoveryExpire p inst s) := by
  refine framed_actIf fun part heth d₀ d => ?_
  simp only [same_setPwd heth]

theorem execPauseRefresh_framed (p : Nat) (prio : Nat) (s : State) : Framed [.swc, .outs] s (execPauseRefresh p prio s) := by
  refine framed_actIf fun part h d₀ d => ?_
  obtain ⟨hswc, houts⟩ := h
  split <;> simp only [same_sendXon hswc houts, same_sendPfc houts, same_ite, ite_self]

theorem execInternalFrameOffer_framed (f : IntFrame) (s : State) : Framed [.swc, .outs] s (execInternalFrameOffer f s) := by
  refine framed_actIf fun part h d₀ d => ?_
  obtain ⟨hswc, houts⟩ := h
  dsimp only
  split
  · rename_i e he
    exact same_internalAdmit hswc houts he
  · exact same_swcCnt.trans (same_swc hswc)

theorem execHoldoffAccept_framed (src : Nat) (s : State) : Framed [.swc, .outs] s (execHoldoffAccept src s) := by
  refine framed_actIf fun part h d₀ d => ?_
  obtain ⟨hswc, houts⟩ := h
  dsimp only
  split
  · rename_i f e he
    exact (same_swc hswc).trans (same_admitFirst hswc houts he)
  · rfl

theorem execFrameTransmitStart_framed (p : Nat) (cellErr : Bool) (s : State) :
    Framed [.swc, .bst, .outs] s (execFrameTransmitStart p cellErr s) := by
  refine framed_actIf fun part h d₀ d => ?_
  obtain ⟨hswc, hbst, houts⟩ := h
  dsimp only
  split
  · simp only [same_startNext hswc hbst houts]
  · simp only [same_modEgress hswc, same_startNext hswc hbst houts, same_bankError hbst, same_setAside hswc, same_ite, ite_self]
    split
    · rfl
    · split
      · rfl
      · split <;> simp only [same_dropAt, same_modEgress hswc, same_nextSegment hswc houts, same_bankError hbst,
          same_startWire hswc houts]

theorem execFrameTransmitComplete_framed (p : Nat) (s : State) : Framed [.eth, .swc, .outs] s (execFrameTransmitComplete p s) := by
  refine framed_actIf fun part h d₀ d => ?_
  obtain ⟨heth, hswc, houts⟩ := h
  simp only [same_txComplete heth hswc houts]

theorem execFrameAgeDiscard_framed (p : Nat) (q : Nat) (s : State) : Framed [.swc, .outs] s (execFrameAgeDiscard p q s) := by
  refine framed_actIf fun part h d₀ d => ?_
  obtain ⟨hswc, houts⟩ := h
  simp only [same_discardFrames hswc houts, same_ageHeads hswc houts, same_ite, ite_self]

theorem execFdbAgeOut_framed (vid : Nat) (addr : Nat) (s : State) : Framed [.swc] s (execFdbAgeOut vid addr s) := by
  refine framed_actIf fun part hswc d₀ d => ?_
  simp only [same_swc hswc]

theorem execSwcFdbFlush_framed (m : Master) (v : Word) (s : State) : Framed [.acc, .swc] s (execSwcFdbFlush m v s) := by
  refine framed_actIf fun part h d₀ d => ?_
  obtain ⟨hacc, hswc⟩ := h
  simp only [same_fdbFlush hswc, same_writeAccess hacc, implies_true]

theorem execEthPtpTsRead_framed (m : Master) (mac : Nat) (s : State) : Framed [.latch, .acc, .eth] s (execEthPtpTsRead m mac s) := by
  refine framed_actIf fun part h d₀ d => ?_
  obtain ⟨hlatch, hacc, heth⟩ := h
  simp only [same_deny hacc, same_ptpRead heth, same_mk, implies_true, false_implies, and_self, hlatch, hacc, same_ite, ite_self]

/-! #### Self-test -/

theorem execBistSliceStart_framed (s : State) : Framed [.trs, .bst, .outs] s (execBistSliceStart s) := by
  refine framed_actIf fun part h d₀ d => ?_
  obtain ⟨htrs, hbst, houts⟩ := h
  dsimp only
  split <;> simp only [same_sliceTake htrs hbst houts, same_bst hbst, same_ite, ite_self]

theorem execSliceDrainTimeout_framed (s : State) : Framed [.swc, .bst, .outs] s (execSliceDrainTimeout s) := by
  refine framed_actIf fun part h d₀ d => ?_
  obtain ⟨hswc, hbst, houts⟩ := h
  simp only [same_sliceAbandon hswc hbst houts]

theorem execFuseBurn_framed (m : Master) (v : Word) (s : State) : Framed [.acc, .bst] s (execFuseBurn m v s) := by
  refine framed_actIf fun part h d₀ d => ?_
  obtain ⟨hacc, hbst⟩ := h
  simp only [same_writeAccess hacc, same_fuseGo hbst, implies_true]

theorem execFuseBurnComplete_framed (ok : Bool) (s : State) : Framed [.bst] s (execFuseBurnComplete ok s) := by
  refine framed_actIf fun part hbst d₀ d => ?_
  simp only [same_faultEvent, same_draw, same_bst hbst]

theorem execPcRetireCopyDone_framed (pc : Nat) (s : State) : Framed [.par, .bst] s (execPcRetireCopyDone pc s) := by
  refine framed_actIf fun part h d₀ d => ?_
  obtain ⟨hpar, hbst⟩ := h
  simp only [same_maintAsk hpar, same_bst hbst]

theorem execMaintRequestRetry_framed (s : State) : Framed [.par] s (execMaintRequestRetry s) := by
  refine framed_actIf fun part hpar d₀ d => ?_
  simp only [same_maintAsk hpar]

theorem execSensorDisagree_framed (sensor : Nat) (s : State) : Framed [.sense] s (execSensorDisagree sensor s) := by
  refine framed_actIf fun part hsense d₀ d => ?_
  simp only [same_faultEvent, same_drawBits, same_sense hsense]

theorem execRefclkRestore_framed (clk : Nat) (s : State) : Framed [.sense] s (execRefclkRestore clk s) := by
  refine framed_actIf fun part hsense d₀ d => ?_
  simp only [same_sense hsense]

theorem execScrubTick_framed (step : ScrubStep) (s : State) : Framed [.bst] s (execScrubTick step s) := by
  refine framed_actIf fun part hbst d₀ d => ?_
  dsimp only
  split <;> simp only [same_memCnt, same_bst hbst, same_ite, ite_self]

/-! #### The register bus -/

theorem execPlnLockClaim_framed (m : Master) (g : Nat) (s : State) : Framed [.acc, .pln] s (execPlnLockClaim m g s) := by
  refine framed_actIf fun part h d₀ d => ?_
  obtain ⟨hacc, hpln⟩ := h
  simp only [same_lockClaim hpln, same_writeAccess hacc, implies_true]

theorem execPlnLockRelease_framed (m : Master) (g : Nat) (s : State) : Framed [.acc, .pln] s (execPlnLockRelease m g s) := by
  refine framed_actIf fun part h d₀ d => ?_
  obtain ⟨hacc, hpln⟩ := h
  simp only [same_unlockBy hpln, same_writeAccess hacc, implies_true]

theorem execPlnLockTimeout_framed (g : Nat) (s : State) : Framed [.pln] s (execPlnLockTimeout g s) := by
  refine framed_actIf fun part hpln d₀ d => ?_
  simp only [same_pln hpln]

theorem execAccessEntryWord0Write_framed (m : Master) (page : Nat) (e : Nat) (v : Word) (s : State) :
    Framed [.acc] s (execAccessEntryWord0Write m page e v s) := by
  refine framed_actIf fun part hacc d₀ d => ?_
  simp only [same_writeAccess hacc, same_pageEntryW0 hacc, implies_true]

theorem execAccessEntryWord1Write_framed (m : Master) (page : Nat) (e : Nat) (v : Word) (s : State) :
    Framed [.acc] s (execAccessEntryWord1Write m page e v s) := by
  refine framed_actIf fun part hacc d₀ d => ?_
  simp only [same_writeAccess hacc, same_pageEntryW1 hacc, implies_true]

theorem execCtrPrivSelWrite_framed (m : Master) (v : Word) (s : State) : Framed [.regs, .acc] s (execCtrPrivSelWrite m v s) := by
  refine framed_actIf fun part h d₀ d => ?_
  obtain ⟨hregs, hacc⟩ := h
  simp only [same_privSel hregs hacc, same_writeAccess hacc, implies_true]

theorem execDebugUnlockRequest_framed (s : State) : Framed [.acc] s (execDebugUnlockRequest s) := by
  refine framed_actIf fun part hacc d₀ d => ?_
  simp only [same_logEvent, same_draw, same_acc hacc, same_ite, ite_self]

theorem execDebugUnlockResponse_framed (key : List Byte) (sig : List Byte) (s : State) :
    Framed [.acc] s (execDebugUnlockResponse key sig s) := by
  refine framed_actIf fun part hacc d₀ d => ?_
  simp only [same_unlockFail hacc, same_acc hacc, same_ite, ite_self]

theorem execTapInstructionLoad_framed (i : TapInstr) (s : State) : Framed [.acc] s (execTapInstructionLoad i s) := by
  refine framed_actIf fun part hacc d₀ d => ?_
  simp only [same_acc hacc]

/-! #### The counter unit -/

theorem execCounterSnapshot_framed (s : State) : Framed [.regs, .bytes] s (execCounterSnapshot s) := by
  refine framed_actIf fun part h d₀ d => ?_
  obtain ⟨hregs, hbytes⟩ := h
  simp only [same_skipSnapshot hregs, same_takeSnapshot hbytes, same_ite, ite_self]

theorem execDumpWriteComplete_framed (s : State) : Framed [] s (execDumpWriteComplete s) := by
  refine framed_actIf fun part h d₀ d => ?_
  dsimp only
  split <;> simp only [same_count, same_ctr]

theorem execWindowPublish_framed (ports inner : List Nat) (s : State) : Framed [] s (execWindowPublish ports inner s) := by
  refine framed_actIf fun part h d₀ d => ?_
  simp only [same_publish]

theorem execSampleLfsrReseed_framed (s : State) : Framed [] s (execSampleLfsrReseed s) := by
  refine framed_actIf fun part h d₀ d => ?_
  simp only [same_draw, same_ctr, same_ite, ite_self]

theorem execTraceRecordDrop_framed (s : State) : Framed [.regs] s (execTraceRecordDrop s) := by
  refine framed_actIf fun part hregs d₀ d => ?_
  simp only [same_logEvent, same_setSticky hregs, same_count, same_ctr, same_ite, ite_self]

theorem execClearSet_framed (cmd : Nat) (blk : List Byte) (s : State) : Framed [.acc, .cmd] s (execClearSet cmd blk s) := by
  unfold execClearSet
  refine framed_setupRun (by simp) (by simp) fun part h x d₀ d => ?_
  obtain ⟨hacc, hcmd⟩ := h
  exact (same_succeed hcmd).trans same_zeroCnts

theorem execSampleSetup_framed (cmd : Nat) (blk : List Byte) (s : State) :
    Framed [.regs, .acc, .cmd] s (execSampleSetup cmd blk s) := by
  refine framed_setupRun (by simp) (by simp) fun part h x d₀ d => ?_
  obtain ⟨hregs, hacc, hcmd⟩ := h
  simp only [same_succeed hcmd, same_putLive hregs]

theorem execWindowSetup_framed (cmd : Nat) (blk : List Byte) (s : State) :
    Framed [.regs, .acc, .cmd] s (execWindowSetup cmd blk s) := by
  refine framed_setupRun (by simp) (by simp) fun part h x d₀ d => ?_
  obtain ⟨hregs, hacc, hcmd⟩ := h
  simp only [same_succeed hcmd, same_putLive hregs]

/-! ### The statement -/

/-- A command with more than four parts is not among those the statement speaks of. -/
theorem of_long_changes {c : Instr} {α : Prop} (hc : (changes c).length.ble 4 = false) (h : (changes c).length ≤ 4) : α :=
  absurd (Nat.ble_eq_true_of_le h) (Bool.eq_false_iff.1 hc)

/-- Settles O56: each command of at most four parts is `Framed` by its list; the others have longer lists. -/
theorem frameOfShortCommands : Obligations.FrameOfShortCommands := by
  unfold Obligations.FrameOfShortCommands
  intro c s h
  cases c with
  | timeWaitExpire c => exact execTimeWaitExpire_framed c s
  | flushCmd cmd => exact execFlushCmd_framed cmd s
  | dirtyIdleExpire vol region => exact execDirtyIdleExpire_framed vol region s
  | journalCheckpoint group => exact execJournalCheckpoint_framed group s
  | journalRemirrorComplete group copy => exact execJournalRemirrorComplete_framed group copy s
  | bandRestoreStart group => exact execBandRestoreStart_framed group s
  | rebuildProgressTick group mbps gibLeft => exact execRebuildProgressTick_framed group mbps gibLeft s
  | reshapeUnitCopy vol => exact execReshapeUnitCopy_framed vol s
  | reshapeAbandonDone vol => exact execReshapeAbandonDone_framed vol s
  | resetRelease pairSide boot1 boot0 => exact execResetRelease_framed pairSide boot1 boot0 s
  | avsInitialSet marginMv => exact execAvsInitialSet_framed marginMv s
  | agingMonitorRead slowdown marginPct more => exact execAgingMonitorRead_framed slowdown marginPct more s
  | pwrFailClear => exact execPwrFailClear_framed s
  | mgtGpioOutSet m v => exact execMgtGpioOutSet_framed m v s
  | mgtGpioOutClr m v => exact execMgtGpioOutClr_framed m v s
  | pmbusAlert rail => exact execPmbusAlert_framed rail s
  | domainSwitchOnRequest dom takeover => exact execDomainSwitchOnRequest_framed dom takeover s
  | domainSwitchOffRequest dom takeover => exact execDomainSwitchOffRequest_framed dom takeover s
  | domainReady dom => exact execDomainReady_framed dom s
  | deepIdleEnter m => exact execDeepIdleEnter_framed m s
  | deepIdleExit m => exact execDeepIdleExit_framed m s
  | loadGovernorTick demand => exact execLoadGovernorTick_framed demand s
  | powerEstimateTick estimateMw => exact execPowerEstimateTick_framed estimateMw s
  | powerTelemetryCorrect powerMw railMv railMa => exact execPowerTelemetryCorrect_framed powerMw railMv railMa s
  | pwrCapWrite m v => exact execPwrCapWrite_framed m v s
  | pwrThermCfgWrite m v => exact execPwrThermCfgWrite_framed m v s
  | powerAttnClear => exact execPowerAttnClear_framed s
  | thermalGovernorTick => exact execThermalGovernorTick_framed s
  | glbWdogKick m v => exact execGlbWdogKick_framed m v s
  | bootSourceRead flashB img => exact execBootSourceRead_framed flashB img s
  | mgmtImageDelivery m img => exact execMgmtImageDelivery_framed m img s
  | floorPlanCheck source img => exact execFloorPlanCheck_framed source img s
  | drivePerstRelease => exact execDrivePerstRelease_framed s
  | driveLinkUp slot rate width => exact execDriveLinkUp_framed slot rate width s
  | driveReadyTimeout slot => exact execDriveReadyTimeout_framed slot s
  | slotWaitTimeout cls => exact execSlotWaitTimeout_framed cls s
  | holdTimeout cmd => exact execHoldTimeout_framed cmd s
  | capRefuseTimeout sq => exact execCapRefuseTimeout_framed sq s
  | triggerLingerExpire => exact execTriggerLingerExpire_framed s
  | queueCreateCq cmd => exact execQueueCreateCq_framed cmd s
  | queueDeleteCq cmd => exact execQueueDeleteCq_framed cmd s
  | identifyDevice cmd => exact execIdentifyDevice_framed cmd s
  | cmdPdSelWrite m v => exact execCmdPdSelWrite_framed m v s
  | ownerWaitTimeout cmd => exact execOwnerWaitTimeout_framed cmd s
  | trsPdSelWrite m v => exact execTrsPdSelWrite_framed m v s
  | pdApplyComplete => exact execPdApplyComplete_framed s
  | groupForm g => exact execGroupForm_framed g s
  | recoveryReplay group => exact execRecoveryReplay_framed group s
  | recoveryResync group agree => exact execRecoveryResync_framed group agree s
  | mirrorResend => exact execMirrorResend_framed s
  | snapshotAcked kcvAgree => exact execSnapshotAcked_framed kcvAgree s
  | garpRepeat => exact execGarpRepeat_framed s
  | arbiterTimeout n => exact execArbiterTimeout_framed n s
  | arbitrationRetry => exact execArbitrationRetry_framed s
  | joinTimeout => exact execJoinTimeout_framed s
  | heartbeatSend => exact execHeartbeatSend_framed s
  | powerFailFrameReceive => exact execPowerFailFrameReceive_framed s
  | healthSend => exact execHealthSend_framed s
  | handoverReceive groups roles lastMseq => exact execHandoverReceive_framed groups roles lastMseq s
  | maintRequest cmd blk => exact execMaintRequest_framed cmd blk s
  | moveGroups cmd blk => exact execMoveGroups_framed cmd blk s
  | returnRoles cmd blk => exact execReturnRoles_framed cmd blk s
  | handoverStart => exact execHandoverStart_framed s
  | handoverDrainTimeout => exact execHandoverDrainTimeout_framed s
  | stableTimeExpire => exact execStableTimeExpire_framed s
  | innerConnect pier => exact execInnerConnect_framed pier s
  | fwdCpl pier r => exact execFwdCpl_framed pier r s
  | directoryRec pier r => exact execDirectoryRec_framed pier r s
  | fragReq pier r group => exact execFragReq_framed pier r group s
  | epochRec pier r group => exact execEpochRec_framed pier r group s
  | epochGrantReceive pier group epoch arbiter => exact execEpochGrantReceive_framed pier group epoch arbiter s
  | admitPier cmd blk => exact execAdmitPier_framed cmd blk s
  | gateOn cmd blk => exact execGateOn_framed cmd blk s
  | gateOff cmd blk => exact execGateOff_framed cmd blk s
  | gateDrainExpire => exact execGateDrainExpire_framed s
  | entropyFault => exact execEntropyFault_framed s
  | selfTestStop cmd => exact execSelfTestStop_framed cmd s
  | selfTestTimeout => exact execSelfTestTimeout_framed s
  | selfTestComplete failed driveFails first => exact execSelfTestComplete_framed failed driveFails first s
  | imageLoad cmd blk read => exact execImageLoad_framed cmd blk read s
  | imageCopyFirstFlash => exact execImageCopyFirstFlash_framed s
  | portBringupAttempt p => exact execPortBringupAttempt_framed p s
  | portLinkUp p => exact execPortLinkUp_framed p s
  | portBringupTimeout p blame => exact execPortBringupTimeout_framed p blame s
  | portRetrainTrigger p cause => exact execPortRetrainTrigger_framed p cause s
  | ethLaneRetrain m mac lanes => exact execEthLaneRetrain_framed m mac lanes s
  | ethLaneRestore m mac lanes => exact execEthLaneRestore_framed m mac lanes s
  | portLinkDown p => exact execPortLinkDown_framed p s
  | linkHoldExpire p => exact execLinkHoldExpire_framed p s
  | frameIngress p f => exact execFrameIngress_framed p f s
  | pauseFrameReceive p quanta => exact execPauseFrameReceive_framed p quanta s
  | pfcFrameReceive p enable quanta => exact execPfcFrameReceive_framed p enable quanta s
  | pauseQuantaExpire p inst => exact execPauseQuantaExpire_framed p inst s
  | pwdWatchExpire p inst => exact execPwdWatchExpire_framed p inst s
  | pwdRecoveryExpire p inst => exact execPwdRecoveryExpire_framed p inst s
  | pauseRefresh p prio => exact execPauseRefresh_framed p prio s
  | internalFrameOffer f => exact execInternalFrameOffer_framed f s
  | holdoffAccept src => exact execHoldoffAccept_framed src s
  | frameTransmitStart p cellErr => exact execFrameTransmitStart_framed p cellErr s
  | frameTransmitComplete p => exact execFrameTransmitComplete_framed p s
  | frameAgeDiscard p q => exact execFrameAgeDiscard_framed p q s
  | fdbAgeOut vid addr => exact execFdbAgeOut_framed vid addr s
  | swcFdbFlush m v => exact execSwcFdbFlush_framed m v s
  | ethPtpTsRead m mac => exact execEthPtpTsRead_framed m mac s
  | bistSliceStart => exact execBistSliceStart_framed s
  | sliceDrainTimeout => exact execSliceDrainTimeout_framed s
  | fuseBurn m v => exact execFuseBurn_framed m v s
  | fuseBurnComplete ok => exact execFuseBurnComplete_framed ok s
  | pcRetireCopyDone pc => exact execPcRetireCopyDone_framed pc s
  | maintRequestRetry => exact execMaintRequestRetry_framed s
  | sensorDisagree sensor => exact execSensorDisagree_framed sensor s
  | refclkRestore clk => exact execRefclkRestore_framed clk s
  | scrubTick step => exact execScrubTick_framed step s
  | plnLockClaim m g => exact execPlnLockClaim_framed m g s
  | plnLockRelease m g => exact execPlnLockRelease_framed m g s
  | plnLockTimeout g => exact execPlnLockTimeout_framed g s
  | accessEntryWord0Write m page e v => exact execAccessEntryWord0Write_framed m page e v s
  | accessEntryWord1Write m page e v => exact execAccessEntryWord1Write_framed m page e v s
  | ctrPrivSelWrite m v => exact execCtrPrivSelWrite_framed m v s
  | debugUnlockRequest => exact execDebugUnlockRequest_framed s
  | debugUnlockResponse key sig => exact execDebugUnlockResponse_framed key sig s
  | tapInstructionLoad i => exact execTapInstructionLoad_framed i s
  | counterSnapshot => exact execCounterSnapshot_framed s
  | dumpWriteComplete => exact execDumpWriteComplete_framed s
  | windowPublish ports inner => exact execWindowPublish_framed ports inner s
  | sampleLfsrReseed => exact execSampleLfsrReseed_framed s
  | traceRecordDrop => exact execTraceRecordDrop_framed s
  | clearSet cmd blk => exact execClearSet_framed cmd blk s
  | sampleSetup cmd blk => exact execSampleSetup_framed cmd blk s
  | windowSetup cmd blk => exact execWindowSetup_framed cmd blk s
  | _ => exact of_long_changes rfl h

end Sys2Proof.Machine

/-! ## The register bus

What a write and a read that reach their register do to the live, staged and counted values, and that nothing which follows
from every command touches a counter below the counter unit's window. -/

namespace Sys2Proof.Machine

/-! ### Counters under what follows from every command -/

@[simp] theorem tget_tdel_same {α : Type} (t : Tab α) (k : Nat) : tget (tdel t k) k = none := by
  induction t with
  | nil => rfl
  | cons e t ih =>
    by_cases h : e.1 = k
    · simpa [tdel, List.filter_cons, h] using ih
    · simpa [tdel, List.filter_cons, tget, h] using ih

/-- Read-clear counters lie below the counter unit's window. -/
theorem lt_of_counterSet {o k : Nat} (h : counterSet o = some k) (hk : k < 7) : o < 0xC00000 := by
  unfold counterSet at h
  grind

theorem tget_cnt_countN_ne {d : Dev} {off o n : Nat} (h : o ≠ off) : tget (countN d off n).reg.cnt o = tget d.reg.cnt o := by
  unfold countN
  split
  · exact tget_tset_ne _ _ h
  · rfl

theorem tget_cnt_foldl_countN {o : Nat} {off n : Nat → Nat} (h : ∀ i, o ≠ off i) (l : List Nat) (d : Dev) :
    tget (l.foldl (fun d i => countN d (off i) (n i)) d).reg.cnt o = tget d.reg.cnt o :=
  foldl_keeps (fun e : Dev => tget e.reg.cnt o = tget d.reg.cnt o) _ (fun _ i he => (tget_cnt_countN_ne (h i)).trans he) l d rfl

theorem tget_foldl_tset {α : Type} {o : Nat} {off : Nat → Nat} {v : Nat → α} (h : ∀ i, o ≠ off i) (l : List Nat) (t : Tab α) :
    tget (l.foldl (fun t i => tset t (off i) (v i)) t) o = tget t o :=
  foldl_keeps (fun u => tget u o = tget t o) _ (fun u i hu => (tget_tset_ne u _ (h i)).trans hu) l t rfl

section
variable {d : Dev} {o : Nat} (ho : o < 0xC00000)
include ho

theorem tget_cnt_tdDraw : tget (tdDraw d).reg.cnt o = tget d.reg.cnt o := by
  have hne (i : Nat) : o ≠ 0xC01000 + 8 * i := by omega
  unfold tdDraw
  split
  · rfl
  · simp only [tget_cnt_foldl_countN hne]

theorem tget_cnt_publish {ns : Nat} {b : Nat → Nat} : tget (publish d ns b).reg.cnt o = tget d.reg.cnt o := by
  have hne (i : Nat) : o ≠ 0xC02000 + 8 * i := by omega
  simp only [publish, tget_foldl_tset hne]

theorem tget_cnt_modeRefresh : tget (modeRefresh d).reg.cnt o = tget d.reg.cnt o := by
  unfold modeRefresh
  split
  · rfl
  · split
    · exact tget_cnt_tdDraw ho
    · dsimp only
      split
      · exact tget_cnt_publish ho
      · rfl

theorem tget_cnt_settle : tget (settle d).reg.cnt o = tget d.reg.cnt o := by
  obtain ⟨_, _, _, hvols⟩ := noteVols_only d
  obtain ⟨_, hattn⟩ := attnRefresh_only (noteVols d)
  calc tget (settle d).reg.cnt o
      = tget (attnRefresh (noteVols d)).reg.cnt o := tget_cnt_modeRefresh ho
    _ = tget d.reg.cnt o := by rw [hattn, hvols]

end

/-! ### Denials -/

theorem deny_denyCount (d : Dev) (m : Master) (t w r : Nat) :
    (deny d m t w r).acc.denyCount = min (d.acc.denyCount + 1) 0xFFFFFFFF := by
  unfold deny
  dsimp only
  split <;> split <;> simp

theorem deny_denyWhere (d : Dev) (m : Master) (t w r : Nat) : (deny d m t w r).acc.denyWhere = BitVec.ofNat 32 w := by
  unfold deny
  dsimp only
  split <;> split <;> simp

/-! ### Writes -/

/-- A register that no staged copy stands for is shut out by no lock. -/
theorem lockedOut_of_stagedBy_none {d : Dev} {m : Master} {o : Nat} (h : stagedBy d o = none) : lockedOut d m o = false := by
  simp only [lockedOut, h]

section
variable {d : Dev} {m : Master} {o : Nat} {v : Word} (ho : o < 0xE00000)
include ho

theorem busWrite_denied (hp : pageHas d m (o / 0x10000) rWRITE = false) : busWrite d m o v = deny d m 0 o rWRITE := by
  simp [busWrite, hp, Nat.not_le.2 ho]

theorem busWrite_allowed (hp : pageHas d m (o / 0x10000) rWRITE = true) (hl : lockedOut d m o = false) :
    busWrite d m o v = plainWrite d m o v := by
  simp [busWrite, hp, hl, Nat.not_le.2 ho]

end

theorem plainWrite_staged {d : Dev} {m : Master} {o l : Nat} {i : RegInfo} {v : Word} (h : stagedBy d o = some (l, i)) :
    plainWrite d m o v = { d with reg.staged := tset d.reg.staged l (BitVec.ofNat 32 (v.toNat &&& i.mask)) } := by
  simp [plainWrite, stageReg, h]

theorem plainWrite_rw {d : Dev} {m : Master} {o : Nat} {i : RegInfo} {v : Word} (hs : stagedBy d o = none)
    (hi : regInfo d o = some i) (hk : i.kind = .rw) (ho : o < 0xD00000) (hr : inRanges i.ranges (v.toNat &&& i.mask) = true) :
    plainWrite d m o v = { d with reg.live := tset d.reg.live o (BitVec.ofNat 32 (v.toNat &&& i.mask)) } := by
  simp [plainWrite, writeRw, hs, hi, hk, hr, Nat.not_le.2 ho]

theorem liveReg_of_tget {d : Dev} {o : Nat} {w : Word} (h : tget d.reg.live o = some w) : liveReg d o = w := by
  simp only [liveReg, h]

/-! ### Reads -/

/-- A read of a counter of a read-clear set by a master that may goes to the counter. -/
theorem busRead_rcCounter {d : Dev} {m : Master} {o k : Nat} (ho : o < 0xE00000) (hp : pageHas d m (o / 0x10000) rREAD = true)
    (hs : stagedOf d o = none) (hi : (regInfo d o).isSome = true) (hc : counterSet o = some k) (hk : k < 7)
    (hm : counterMay d m k o = true) : busRead d m o = (some (rcCounter d k o).1, (rcCounter d k o).2) := by
  obtain ⟨i, hi⟩ := Option.isSome_iff_exists.1 hi
  simp [busRead, hp, hs, hi, hc, hk, hm, Nat.not_le.2 ho]

/-- The low word of a read-clear counter: what it reads, and how it leaves the counter and the latch of its high word. -/
theorem rcCounter_low {d : Dev} {k o : Nat} (ho : o % 8 = 0) :
    (rcCounter d k o).1 = cntLow (fecDraw d [o]) o ∧ tget (rcCounter d k o).2.reg.cnt o = none
      ∧ tget (rcCounter d k o).2.reg.latch (o + 4) = some (cntHigh (fecDraw d [o]) o) := by
  simp [rcCounter, ho]

/-! ### The statement -/

section
variable {m : Master} {o : Nat} {v : Word} {s : State}

theorem exec_registerWrite : exec (.registerWrite m o v) s = actIf (busUp · o) s fun d => busWrite d m o v := rfl

theorem exec_stagedRegisterWrite :
    exec (.stagedRegisterWrite m o v) s = actIf (fun d => busUp d o && (stagedBy d o).isSome) s fun d => busWrite d m o v := rfl

theorem exec_registerReadClear : exec (.registerReadClear m o) s = actIf (busUp · o) s fun d =>
    { (busRead d m o).2 with reg.readVal := (busRead d m o).1.getD 0 } := rfl

end

/-- A guarded command gives, where its guard holds, what its effect has once settled. -/
theorem gives_of_actIf {c : Instr} {s : State} {g : Dev → Bool} {f : Dev → Dev} {p : Dev → Prop} (hc : exec c s = actIf g s f)
    (hg : g s.dev = true) (h : p (settle (f s.dev))) : Gives c s p :=
  ⟨_, hc.trans (actIf_true hg), h⟩

/-- Settles O11: one equation of the bus per clause, and what follows from every command leaves what it wrote. -/
theorem registerBus : Obligations.RegisterBus := by
  unfold Obligations.RegisterBus
  intro s m o v hup ho
  refine ⟨?write, ?staged, ?read, ?denied⟩
  case write =>
    intro i hp hs hi hk hlt hr
    refine gives_of_actIf exec_registerWrite hup ?_
    rw [busWrite_allowed ho hp (lockedOut_of_stagedBy_none hs), plainWrite_rw hs hi hk hlt hr]
    simp only [settle_reg_live, settle_reg_staged]
    exact ⟨liveReg_of_tget (by simp), fun x hx => tget_tset_ne _ _ hx, trivial⟩
  case staged =>
    intro l i hp hs hl
    refine gives_of_actIf exec_stagedRegisterWrite (by simp [hup, hs]) ?_
    rw [busWrite_allowed ho hp hl, plainWrite_staged hs]
    simp
  case read =>
    intro k hp hs hi hc hk hlow hm
    obtain ⟨hval, hcnt, hlatch⟩ := rcCounter_low (d := s.dev) (k := k) hlow
    refine gives_of_actIf exec_registerReadClear hup ?_
    rw [busRead_rcCounter ho hp hs hi hc hk hm]
    simp only [settle_reg_readVal, settle_reg_latch, tgetD, tget_cnt_settle (lt_of_counterSet hc hk)]
    exact ⟨hval, by simp [hcnt], hlatch⟩
  case denied =>
    intro hp
    refine gives_of_actIf exec_registerWrite hup ?_
    rw [busWrite_denied ho hp]
    simp [deny_denyCount, deny_denyWhere]

end Sys2Proof.Machine

/-! ## What leaves the addressed memories alone

`Dev.bytes` are the submission rings, the pantry and the dump partition. One lemma per operation of the model that writes none of
them, `bytes_<operation>`: the device after it has them as the device before. -/

namespace Sys2Proof.Machine

/-- The three addressed memories: the submission rings, the pantry and the dump partition. -/
def Dev.bytes (d : Dev) : List Host.Cell × List Host.Cell × List Host.Cell := (d.trs.rings, d.trs.pantry, d.ctr.dump)

/-- A record update that writes none of the three. The device updated is read off device time. -/
theorem bytes_mk {d : Dev} {free : Nat} {glb : Glb} {pwr : Pwr} {sense : Sense} {reg : Reg} {pln : Pln} {acc : Acc} {log : Log} {eth : Eth}
    {swc : Swc} {trs : Trs} {cmd : Cmd} {sto : Sto} {par : Par} {via : Via} {itg : Itg} {adm : Adm} {bst : Bst} {ctr : Ctr}
    {out : List Emit} (hr : trs.rings = d.trs.rings) (hp : trs.pantry = d.trs.pantry) (hd : ctr.dump = d.ctr.dump) :
    (⟨d.time, free, glb, pwr, sense, reg, pln, acc, log, eth, swc, trs, cmd, sto, par, via, itg, adm, bst, ctr, out⟩ : Dev).bytes
      = d.bytes := by
  simp [Dev.bytes, hr, hp, hd]

@[simp] theorem bytes_ite {c : Prop} [Decidable c] {a b : Dev} : (if c then a else b).bytes = if c then a.bytes else b.bytes :=
  apply_ite Dev.bytes c a b

@[simp] theorem bytes_foldl {α : Type} {f : Dev → α → Dev} (h : ∀ d a, (f d a).bytes = d.bytes) (l : List α) (d : Dev) :
    (l.foldl f d).bytes = d.bytes := by
  induction l generalizing d with
  | nil => rfl
  | cons a l ih => exact (ih _).trans (h d a)

@[simp] theorem bytes_foldl_snd {α β : Type} {f : β × Dev → α → β × Dev} (h : ∀ p a, (f p a).2.bytes = p.2.bytes) (l : List α)
    (p : β × Dev) : (l.foldl f p).2.bytes = p.2.bytes := by
  induction l generalizing p with
  | nil => rfl
  | cons a l ih => exact (ih _).trans (h p a)

theorem bytes_foldl_fst {α β : Type} {f : Dev × β → α → Dev × β} (h : ∀ p a, (f p a).1.bytes = p.1.bytes) (l : List α)
    (p : Dev × β) : (l.foldl f p).1.bytes = p.1.bytes := by
  induction l generalizing p with
  | nil => rfl
  | cons a l ih => exact (ih _).trans (h p a)

section
variable (d : Dev)

/-! ### Access -/

@[simp] theorem bytes_keyApply (k x) : (keyApply d k x).bytes = d.bytes := rfl

/-! ### Layout -/

@[simp] theorem bytes_modDrive (k f) : (modDrive d k f).bytes = d.bytes := rfl
@[simp] theorem bytes_modGroup (g f) : (modGroup d g f).bytes = d.bytes := rfl
@[simp] theorem bytes_modVol (v f) : (modVol d v f).bytes = d.bytes := rfl

/-! ### Attention -/

@[simp] theorem bytes_attnCount (n) : (attnCount d n).bytes = d.bytes := by simp [attnCount, ↓bytes_mk]
@[simp] theorem bytes_attnRefresh : (attnRefresh d).bytes = d.bytes := by simp [attnRefresh]

/-! ### Counters, log, denials and device states -/

@[simp] theorem bytes_draw : (draw d).2.bytes = d.bytes := rfl
@[simp] theorem bytes_emit (e) : (emit d e).bytes = d.bytes := rfl
@[simp] theorem bytes_emits (l) : (emits d l).bytes = d.bytes := rfl
@[simp] theorem bytes_countN (off n) : (countN d off n).bytes = d.bytes := by simp [countN, ↓bytes_mk]
@[simp] theorem bytes_count (off) : (count d off).bytes = d.bytes := by simp [count]
@[simp] theorem bytes_zeroCnts (off n) : (zeroCnts d off n).bytes = d.bytes := rfl
@[simp] theorem bytes_setSticky (off bit) : (setSticky d off bit).bytes = d.bytes := rfl
@[simp] theorem bytes_noteMissed (e n) : (noteMissed d e n).bytes = d.bytes := by simp [noteMissed, ↓bytes_mk]
@[simp] theorem bytes_logAppend (e) : (logAppend d e).bytes = d.bytes := by simp only [logAppend]; split <;> simp [↓bytes_mk]
@[simp] theorem bytes_logEvent (event attn topic detail) : (logEvent d event attn topic detail).bytes = d.bytes := by simp [logEvent]
@[simp] theorem bytes_deny (m target wher right) : (deny d m target wher right).bytes = d.bytes := by simp [deny, ↓bytes_mk]
@[simp] theorem bytes_enter (st) : (enter d st).bytes = d.bytes := rfl
@[simp] theorem bytes_noteVol (v) : (noteVol d v).bytes = d.bytes := by simp only [noteVol]; split <;> simp [↓bytes_mk]
@[simp] theorem bytes_noteVols : (noteVols d).bytes = d.bytes := by simp [noteVols, ↓bytes_mk]
@[simp] theorem bytes_publish (ns bytes) : (publish d ns bytes).bytes = d.bytes := by simp [publish, ↓bytes_mk]
@[simp] theorem bytes_tdDraw : (tdDraw d).bytes = d.bytes := by simp [tdDraw, ↓bytes_mk]
@[simp] theorem bytes_modeRefresh : (modeRefresh d).bytes = d.bytes := by simp [modeRefresh, ↓bytes_mk]
@[simp] theorem bytes_settle : (settle d).bytes = d.bytes := by simp [settle]

/-! ### Power domains -/

@[simp] theorem bytes_setDom (n p) : (setDom d n p).bytes = d.bytes := rfl
@[simp] theorem bytes_startReq (r) : (startReq d r).bytes = d.bytes := by simp [startReq, ↓bytes_mk]
@[simp] theorem bytes_domServe : (domServe d).bytes = d.bytes := by grind [domServe, bytes_startReq]
@[simp] theorem bytes_domRequestOn (n takeover) : (domRequestOn d n takeover).bytes = d.bytes := by simp [domRequestOn, ↓bytes_mk]
@[simp] theorem bytes_domQueueOff (n takeover) : (domQueueOff d n takeover).bytes = d.bytes := by simp [domQueueOff, ↓bytes_mk]
@[simp] theorem bytes_turnStep : (turnStep d).bytes = d.bytes := by grind [turnStep, bytes_mk, bytes_domRequestOn, bytes_enter]
@[simp] theorem bytes_turnOn (want) : (turnOn d want).bytes = d.bytes := by simp [turnOn, ↓bytes_mk]

/-! ### Register writes -/

@[simp] theorem bytes_writeRw (o i v) : (writeRw d o i v).bytes = d.bytes := by unfold writeRw; split <;> simp [↓bytes_mk]

@[simp] theorem bytes_writeAccess (m off f) (hf : ∀ d, (f d).bytes = d.bytes) : (writeAccess d m off f).bytes = d.bytes := by
  simp [writeAccess, hf]

/-! ### Ethernet ports -/

@[simp] theorem bytes_modPort (p f) : (modPort d p f).bytes = d.bytes := rfl
@[simp] theorem bytes_modLane (m l f) : (modLane d m l f).bytes = d.bytes := rfl
@[simp] theorem bytes_ethStatN (p i n) : (ethStatN d p i n).bytes = d.bytes := by simp [ethStatN]
@[simp] theorem bytes_ethStat (p i) : (ethStat d p i).bytes = d.bytes := by simp [ethStat]
@[simp] theorem bytes_laneStat (m l i) : (laneStat d m l i).bytes = d.bytes := by simp [laneStat]
@[simp] theorem bytes_pwdClear (p) : (pwdClear d p).bytes = d.bytes := rfl

@[simp] theorem bytes_linkLost (p) : (linkLost d p).bytes = d.bytes := by
  grind [linkLost, bytes_foldl, bytes_modPort, bytes_modLane, bytes_ethStat, bytes_pwdClear]

@[simp] theorem bytes_retireLane (p l) : (retireLane d p l).bytes = d.bytes := by
  grind [retireLane, bytes_foldl, bytes_modLane, bytes_laneStat, bytes_logEvent, bytes_modPort, bytes_ethStat]

@[simp] theorem bytes_chargeLane (p l) : (chargeLane d p l).bytes = d.bytes := by simp [chargeLane]
@[simp] theorem bytes_fecDraw (offs) : (fecDraw d offs).bytes = d.bytes := by simp [fecDraw]
@[simp] theorem bytes_startAttempt (p) : (startAttempt d p).bytes = d.bytes := by simp [startAttempt]
@[simp] theorem bytes_setPwd (p inst w) : (setPwd d p inst w).bytes = d.bytes := rfl
@[simp] theorem bytes_pwdPause (p inst quanta) : (pwdPause d p inst quanta).bytes = d.bytes := by simp only [pwdPause]; split <;> simp
@[simp] theorem bytes_macControl (p i) : (macControl d p i).bytes = d.bytes := by simp [macControl]
@[simp] theorem bytes_sendPfc (p r quanta) : (sendPfc d p r quanta).bytes = d.bytes := by simp [sendPfc]

/-! ### The switch core -/

@[simp] theorem bytes_swcCnt (p i) : (swcCnt d p i).bytes = d.bytes := by simp [swcCnt]
@[simp] theorem bytes_qDrop (p q) : (qDrop d p q).bytes = d.bytes := by simp [qDrop]
@[simp] theorem bytes_modQueue (p q f) : (modQueue d p q f).bytes = d.bytes := rfl
@[simp] theorem bytes_modEgress (p f) : (modEgress d p f).bytes = d.bytes := rfl
@[simp] theorem bytes_enqueue (p q f) : (enqueue d p q f).bytes = d.bytes := by simp [enqueue]
@[simp] theorem bytes_sendXoff (k) : (sendXoff d k).bytes = d.bytes := by simp [sendXoff, ↓bytes_mk]
@[simp] theorem bytes_sendXon (k) : (sendXon d k).bytes = d.bytes := by simp [sendXon, ↓bytes_mk]
@[simp] theorem bytes_xonAll : (xonAll d).bytes = d.bytes := by simp [xonAll]

@[simp] theorem bytes_placeCopy (p q f a key) : (placeCopy d p q f a key).bytes = d.bytes := by
  simp only [placeCopy]; split <;> simp [↓bytes_mk]

@[simp] theorem bytes_dropAt (p q i) : (dropAt d p q i).bytes = d.bytes := by simp [dropAt]
@[simp] theorem bytes_dropDrain (p q) : (dropDrain d p q).bytes = d.bytes := by simp [dropDrain]
@[simp] theorem bytes_freeCopy (f) : (freeCopy d f).bytes = d.bytes := by grind [freeCopy, bytes_mk, bytes_xonAll]
@[simp] theorem bytes_leaveIfEmpty (p q) : (leaveIfEmpty d p q).bytes = d.bytes := by simp [leaveIfEmpty]
@[simp] theorem bytes_discardFrames (p q i sel) : (discardFrames d p q i sel).bytes = d.bytes := by simp [discardFrames]

@[simp] theorem bytes_offerCopy (p f yellow flooded) : (offerCopy d p f yellow flooded).2.bytes = d.bytes := by
  grind [offerCopy, bytes_dropAt, bytes_dropDrain, bytes_sendXoff, bytes_qDrop, bytes_swcCnt, bytes_placeCopy]

@[simp] theorem bytes_storeFrame (f ports yellow flooded) : (storeFrame d f ports yellow flooded).bytes = d.bytes := by
  simp [storeFrame, ↓bytes_mk]

@[simp] theorem bytes_policeJudge (pol b) : (policeJudge d pol b).2.bytes = d.bytes := by grind [policeJudge, bytes_mk]

@[simp] theorem bytes_mirrorOne (s p vid inbound f) : (mirrorOne s p vid inbound f d).bytes = d.bytes := by
  grind [mirrorOne, bytes_mk, bytes_draw, bytes_dropDrain, bytes_enqueue, bytes_dropAt]

@[simp] theorem bytes_mirrorAll (p vid inbound f) : (mirrorAll d p vid inbound f).bytes = d.bytes := by simp [mirrorAll]
@[simp] theorem bytes_learn (p vid addr) : (learn d p vid addr).bytes = d.bytes := by simp [learn, ↓bytes_mk]
@[simp] theorem bytes_fdbDropPort (p) : (fdbDropPort d p).bytes = d.bytes := rfl
@[simp] theorem bytes_fdbCheckVlans : (fdbCheckVlans d).bytes = d.bytes := rfl

@[simp] theorem bytes_dwrrPick (p fuel skipped) : (dwrrPick d p fuel skipped).2.bytes = d.bytes := by
  induction fuel generalizing d skipped with
  | zero => rfl
  | succ fuel ih => grind [dwrrPick, bytes_modQueue, bytes_modEgress]

@[simp] theorem bytes_pickQueue (p) : (pickQueue d p).2.bytes = d.bytes := by grind [pickQueue, bytes_dwrrPick]
@[simp] theorem bytes_payTokens (p q n) : (payTokens d p q n).bytes = d.bytes := by simp [payTokens]
@[simp] theorem bytes_startWire (p t) : (startWire d p t).bytes = d.bytes := by unfold startWire; split <;> simp
@[simp] theorem bytes_startFrom (p q) : (startFrom d p q).bytes = d.bytes := by simp only [startFrom]; split <;> simp
@[simp] theorem bytes_ageHeads (p q) : (ageHeads d p q).bytes = d.bytes := by simp [ageHeads]
@[simp] theorem bytes_txStats (p f bytes) : (txStats d p f bytes).bytes = d.bytes := by simp [txStats]
@[simp] theorem bytes_abortSegs (p q n) : (abortSegs d p q n).bytes = d.bytes := by simp [abortSegs]

@[simp] theorem bytes_abortTx (p) : (abortTx d p).bytes = d.bytes := by
  grind [abortTx, bytes_foldl, bytes_modEgress, bytes_dropAt, bytes_abortSegs, bytes_freeCopy, bytes_modQueue, bytes_leaveIfEmpty]

@[simp] theorem bytes_holdExpired (p) : (holdExpired d p).bytes = d.bytes := by simp [holdExpired]
@[simp] theorem bytes_portDown (p) : (portDown d p).bytes = d.bytes := by simp [portDown]
@[simp] theorem bytes_restartPort (p retrain) : (restartPort d p retrain).bytes = d.bytes := by simp [restartPort]

@[simp] theorem bytes_restoreLane (m l) : (restoreLane d m l).bytes = d.bytes := by
  grind [restoreLane, bytes_foldl, bytes_modLane, bytes_portDown, bytes_modPort, bytes_startAttempt]

@[simp] theorem bytes_laneCtrl (m v) : (laneCtrl d m v).bytes = d.bytes := by simp [laneCtrl]
@[simp] theorem bytes_fdbFlush (v) : (fdbFlush d v).bytes = d.bytes := by simp [fdbFlush, ↓bytes_mk]
@[simp] theorem bytes_ptpRead (m) : (ptpRead d m).2.bytes = d.bytes := by simp only [ptpRead]; split <;> simp [↓bytes_mk]
@[simp] theorem bytes_ptpPush (p seqId time) : (ptpPush d p seqId time).bytes = d.bytes := by simp [ptpPush, ↓bytes_mk]

/-! ### Messages to the partner -/

@[simp] theorem bytes_pairOn (pathB m) : (pairOn d pathB m).bytes = d.bytes := by simp [pairOn, ↓bytes_mk]
@[simp] theorem bytes_pairSend (m) : (pairSend d m).bytes = d.bytes := by simp [pairSend]
@[simp] theorem bytes_pairAll (m) : (pairAll d m).bytes = d.bytes := by simp [pairAll]
@[simp] theorem bytes_mirrorQueue (item a) : (mirrorQueue d item a).bytes = d.bytes := by simp [mirrorQueue, ↓bytes_mk]
@[simp] theorem bytes_resendB : (resendB d).bytes = d.bytes := by simp [resendB, ↓bytes_mk]
@[simp] theorem bytes_sendLeft : (sendLeft d).bytes = d.bytes := by simp [sendLeft, ↓bytes_mk]
@[simp] theorem bytes_sendKeys : (sendKeys d).bytes = d.bytes := by simp [sendKeys]
@[simp] theorem bytes_mirror (item) : (mirror d item).bytes = d.bytes := by simp [mirror]

@[simp] theorem bytes_mirrorThen (item a now) (hnow : ∀ d, (now d).bytes = d.bytes) : (mirrorThen d item a now).bytes = d.bytes := by
  simp [mirrorThen, hnow]

/-! ### Where a frame goes -/

@[simp] theorem bytes_deliverUnicast (p k vid prio v f yellow stomp) :
    (deliverUnicast d p k vid prio v f yellow stomp).bytes = d.bytes := by
  simp [deliverUnicast]

@[simp] theorem bytes_relayFrame (p n prio f yellow stomp) : (relayFrame d p n prio f yellow stomp).bytes = d.bytes := by
  grind [relayFrame, bytes_count, bytes_swcCnt, bytes_emit, bytes_deliverUnicast]

@[simp] theorem bytes_forward (p v vid prio f yellow stomp) : (forward d p v vid prio f yellow stomp).bytes = d.bytes := by
  grind [forward, bytes_swcCnt, bytes_count, bytes_emit, bytes_ethStat, bytes_deliverUnicast, bytes_relayFrame, bytes_storeFrame]

@[simp] theorem bytes_lookup (p f stomp) : (lookup d p f stomp).bytes = d.bytes := by
  grind [lookup, bytes_mirrorAll, bytes_swcCnt, bytes_policeJudge, bytes_learn, bytes_forward]

@[simp] theorem bytes_ingress (p f) : (ingress d p f).bytes = d.bytes := by simp [ingress]

/-! ### Trestle connections -/

@[simp] theorem bytes_trsCnt (i) : (trsCnt d i).bytes = d.bytes := by simp [trsCnt]
@[simp] theorem bytes_trsCntN (i n) : (trsCntN d i n).bytes = d.bytes := by simp [trsCntN]
@[simp] theorem bytes_ctxCnt (i) : (ctxCnt d i).bytes = d.bytes := by simp [ctxCnt]
@[simp] theorem bytes_pdCnt (pd i n) : (pdCnt d pd i n).bytes = d.bytes := by simp [pdCnt]
@[simp] theorem bytes_modConn (c f) : (modConn d c f).bytes = d.bytes := rfl
@[simp] theorem bytes_setConn (c x) : (setConn d c x).bytes = d.bytes := rfl
@[simp] theorem bytes_drawBits (n) : (drawBits d n).2.bytes = d.bytes := rfl
@[simp] theorem bytes_drawPortBase : (drawPortBase d).2.bytes = d.bytes := rfl
@[simp] theorem bytes_touch (c) : (touch d c).bytes = d.bytes := rfl
@[simp] theorem bytes_sendPkt (x p) : (sendPkt d x p).bytes = d.bytes := by simp [sendPkt]
@[simp] theorem bytes_sendAck (c path probe) : (sendAck d c path probe).bytes = d.bytes := by simp only [sendAck]; split <;> simp
@[simp] theorem bytes_sendCredit (c) : (sendCredit d c).bytes = d.bytes := by simp only [sendCredit]; split <;> simp
@[simp] theorem bytes_creditIfDue (c) : (creditIfDue d c).bytes = d.bytes := by simp only [creditIfDue]; split <;> simp
@[simp] theorem bytes_evict (c) : (evict d c).bytes = d.bytes := by simp only [evict]; split <;> simp [↓bytes_mk]
@[simp] theorem bytes_makeRoom : (makeRoom d).2.bytes = d.bytes := by grind [makeRoom, bytes_evict]
@[simp] theorem bytes_makeResident (c) : (makeResident d c).bytes = d.bytes := rfl

@[simp] theorem bytes_wantCtx (c) : (wantCtx d c).2.bytes = d.bytes := by
  grind [wantCtx, bytes_mk, bytes_touch, bytes_ctxCnt, bytes_makeRoom, bytes_makeResident]

@[simp] theorem bytes_chargeWait (u reason ns) : (chargeWait d u reason ns).bytes = d.bytes := by
  simp only [chargeWait]; split <;> simp [↓bytes_mk]

@[simp] theorem bytes_chargeMsg (m) : (chargeMsg d m).bytes = d.bytes := by simp [chargeMsg]
@[simp] theorem bytes_sendOne (c x i m path) : (sendOne d c x i m path).bytes = d.bytes := by simp [sendOne]

@[simp] theorem bytes_pumpGo (c fuel) : (pumpGo c fuel d).bytes = d.bytes := by
  induction fuel generalizing d with
  | zero => rfl
  | succ fuel ih => grind [pumpGo, bytes_sendOne]

@[simp] theorem bytes_pump (c) : (pump d c).bytes = d.bytes := by simp only [pump]; split <;> simp
@[simp] theorem bytes_sendMsg (c m) : (sendMsg d c m).bytes = d.bytes := by simp [sendMsg]

@[simp] theorem bytes_sendRead (c addr key len u) : (sendRead d c addr key len u).bytes = d.bytes := by
  simp only [sendRead]; split <;> simp

@[simp] theorem bytes_sendNack (c p code detail) : (sendNack d c p code detail).bytes = d.bytes := by
  simp only [sendNack]; split <;> simp

@[simp] theorem bytes_nackBadConn (net p) : (nackBadConn d net p).bytes = d.bytes := by simp [nackBadConn, ↓bytes_mk]
@[simp] theorem bytes_failUse (u code) : (failUse d u code).bytes = d.bytes := by simp only [failUse]; split <;> simp [↓bytes_mk]
@[simp] theorem bytes_failOpen (c code) : (failOpen d c code).bytes = d.bytes := by simp only [failOpen]; split <;> simp
@[simp] theorem bytes_detachCqs (c) : (detachCqs d c).bytes = d.bytes := by simp [detachCqs, ↓bytes_mk]
@[simp] theorem bytes_innerLost (x) : (innerLost d x).bytes = d.bytes := by simp only [innerLost]; split <;> simp [↓bytes_mk]

@[simp] theorem bytes_enterTimeWait (c) : (enterTimeWait d c).bytes = d.bytes := by
  grind [enterTimeWait, bytes_mk, bytes_failOpen, bytes_modConn, bytes_detachCqs, bytes_innerLost, bytes_mirror]

@[simp] theorem bytes_closingDone (c) : (closingDone d c).bytes = d.bytes := by simp only [closingDone]; split <;> simp
@[simp] theorem bytes_closeConn (c reason) : (closeConn d c reason).bytes = d.bytes := by simp only [closeConn]; split <;> simp

/-! ### Acknowledgement, paths and timers -/

@[simp] theorem bytes_modPath (c p f) : (modPath d c p f).bytes = d.bytes := rfl
@[simp] theorem bytes_sendProbe (c p) : (sendProbe d c p).bytes = d.bytes := by simp only [sendProbe]; split <;> simp [↓bytes_mk]

@[simp] theorem bytes_chargePath (c p) : (chargePath d c p).bytes = d.bytes := by
  grind [chargePath, bytes_sendProbe, bytes_modPath, bytes_trsCnt]

@[simp] theorem bytes_resend (c t path) : (resend d c t path).bytes = d.bytes := by simp only [resend]; split <;> simp
@[simp] theorem bytes_rttSample (c r) : (rttSample d c r).bytes = d.bytes := rfl
@[simp] theorem bytes_msgDone (u failed code) : (msgDone d u failed code).bytes = d.bytes := by simp only [msgDone]; split <;> simp

@[simp] theorem bytes_retireMsgs (c done mask) : (retireMsgs d c done mask).bytes = d.bytes := by
  simp only [retireMsgs]; split <;> simp

@[simp] theorem bytes_takeEdge (c edge) : (takeEdge d c edge).bytes = d.bytes := rfl

@[simp] theorem bytes_pathEvidence (c p tag) : (pathEvidence d c p tag).bytes = d.bytes := by
  grind [pathEvidence, bytes_modPath, bytes_trsCnt]

@[simp] theorem bytes_takeAck (c p) : (takeAck d c p).bytes = d.bytes := by
  grind [takeAck, bytes_foldl, bytes_modConn, bytes_rttSample, bytes_pathEvidence, bytes_retireMsgs, bytes_takeEdge, bytes_trsCnt,
    bytes_resend, bytes_pump, bytes_closingDone]

@[simp] theorem bytes_rtoGo (c) : (rtoGo d c).bytes = d.bytes := by
  grind [rtoGo, bytes_foldl, bytes_resend, bytes_trsCnt, bytes_chargePath, bytes_modConn]

@[simp] theorem bytes_deadGo (c) : (deadGo d c).bytes = d.bytes := by simp only [deadGo]; split <;> simp
@[simp] theorem bytes_probeGo (c p) : (probeGo d c p).bytes = d.bytes := by simp only [probeGo]; split <;> simp
@[simp] theorem bytes_ackGo (c) : (ackGo d c).bytes = d.bytes := by simp only [ackGo]; split <;> simp
@[simp] theorem bytes_idleProbeGo (c) : (idleProbeGo d c).bytes = d.bytes := by simp only [idleProbeGo]; split <;> simp
@[simp] theorem bytes_timerGo (c t) : (timerGo d c t).bytes = d.bytes := by simp only [timerGo]; split <;> simp
@[simp] theorem bytes_ctxDo (c t) : (ctxDo d c t).bytes = d.bytes := by simp [ctxDo, ↓bytes_mk]
@[simp] theorem bytes_timerDue (c t) : (timerDue d c t).bytes = d.bytes := by simp only [timerDue]; split <;> simp
@[simp] theorem bytes_sendResume (c) : (sendResume d c).bytes = d.bytes := by simp only [sendResume]; split <;> simp
@[simp] theorem bytes_resumeAgain (c) : (resumeAgain d c).bytes = d.bytes := by simp only [resumeAgain]; split <;> simp
@[simp] theorem bytes_takeConn (c x) : (takeConn d c x).bytes = d.bytes := by simp [takeConn, ↓bytes_mk]

/-! ### The store -/

@[simp] theorem bytes_stoCnt (i) : (stoCnt d i).bytes = d.bytes := by simp [stoCnt]
@[simp] theorem bytes_stoCntN (i n) : (stoCntN d i n).bytes = d.bytes := by simp [stoCntN]
@[simp] theorem bytes_rbCnt (i) : (rbCnt d i).bytes = d.bytes := by simp [rbCnt]
@[simp] theorem bytes_volCnt (v i n) : (volCnt d v i n).bytes = d.bytes := by simp [volCnt]
@[simp] theorem bytes_innerSend (pier kind r) : (innerSend d pier kind r).bytes = d.bytes := rfl
@[simp] theorem bytes_driveGo (g key c use) : (driveGo d g key c use).bytes = d.bytes := by simp [driveGo, ↓bytes_mk]
@[simp] theorem bytes_driveSendFor (g key c use) : (driveSendFor d g key c use).bytes = d.bytes := by simp [driveSendFor, ↓bytes_mk]
@[simp] theorem bytes_driveSend (g key c) : (driveSend d g key c).bytes = d.bytes := by simp [driveSend]
@[simp] theorem bytes_gatedGo : (gatedGo d).bytes = d.bytes := by simp [gatedGo, ↓bytes_mk]
@[simp] theorem bytes_dropGated (k) : (dropGated d k).bytes = d.bytes := rfl
@[simp] theorem bytes_metaDo (g at_ c) : (metaDo d g at_ c).bytes = d.bytes := by simp [metaDo]

@[simp] theorem bytes_structWrite (v g kind b bs) : (structWrite d v g kind b bs).bytes = d.bytes := by
  grind [structWrite, bytes_foldl, bytes_metaDo]

@[simp] theorem bytes_structZero (v g kind) : (structZero d v g kind).bytes = d.bytes := by
  grind [structZero, bytes_foldl, bytes_metaDo]

@[simp] theorem bytes_writeAllocBlock (v au) : (writeAllocBlock d v au).bytes = d.bytes := by
  simp only [writeAllocBlock]; split <;> simp

@[simp] theorem bytes_structPut (v g kind bs) : (structPut d v g kind bs).bytes = d.bytes := by simp [structPut]
@[simp] theorem bytes_writeLost (v) : (writeLost d v).bytes = d.bytes := by simp only [writeLost]; split <;> simp
@[simp] theorem bytes_writeStructs (v) : (writeStructs d v).bytes = d.bytes := by simp only [writeStructs]; split <;> simp
@[simp] theorem bytes_writeHead (g k epoch) : (writeHead d g k epoch).bytes = d.bytes := by simp [writeHead]
@[simp] theorem bytes_writeVols (g k vols) : (writeVols d g k vols).bytes = d.bytes := by simp [writeVols]
@[simp] theorem bytes_headWritten (g k epoch) : (headWritten d g k epoch).bytes = d.bytes := rfl

@[simp] theorem bytes_writeRecordsFor (g shrink) : (writeRecordsFor d g shrink).bytes = d.bytes := by
  grind [writeRecordsFor, bytes_foldl, bytes_modGroup, bytes_mirror, bytes_writeHead, bytes_driveSend, bytes_writeVols,
    bytes_headWritten]

@[simp] theorem bytes_writeRecords (g) : (writeRecords d g).bytes = d.bytes := by simp [writeRecords]
@[simp] theorem bytes_writeHeader (k kind) : (writeHeader d k kind).bytes = d.bytes := by simp [writeHeader]
@[simp] theorem bytes_journalHold (g) : (journalHold d g).bytes = d.bytes := by simp [journalHold]
@[simp] theorem bytes_jPlace (g r len off bs) : (jPlace d g r len off bs).bytes = d.bytes := by simp [jPlace]

@[simp] theorem bytes_jAppend (g vol tag part last body) : (jAppend d g vol tag part last body).2.bytes = d.bytes := by
  simp only [jAppend]; split <;> simp

@[simp] theorem bytes_jLog (g vol body) : (jLog d g vol body).bytes = d.bytes := by simp [jLog]
@[simp] theorem bytes_jDone (g l) : (jDone d g l).bytes = d.bytes := rfl
@[simp] theorem bytes_bmSubmit (v b) : (bmSubmit d v b).bytes = d.bytes := by simp only [bmSubmit]; split <;> simp [↓bytes_mk]
@[simp] theorem bytes_setDirty (v r s) : (setDirty d v r s).bytes = d.bytes := rfl
@[simp] theorem bytes_needRegion (v r) : (needRegion d v r).bytes = d.bytes := by simp only [needRegion]; split <;> simp
@[simp] theorem bytes_lockAsk (v cmd stripes excl) : (lockAsk d v cmd stripes excl).bytes = d.bytes := by simp [lockAsk, ↓bytes_mk]
@[simp] theorem bytes_lockDrop (v cmd stripe) : (lockDrop d v cmd stripe).bytes = d.bytes := rfl
@[simp] theorem bytes_lockDropAll (cmd) : (lockDropAll d cmd).bytes = d.bytes := rfl
@[simp] theorem bytes_putLost (v x) : (putLost d v x).bytes = d.bytes := by simp only [putLost]; split <;> simp

@[simp] theorem bytes_recordLost (v lba n cause slot) : (recordLost d v lba n cause slot).bytes = d.bytes := by
  simp only [recordLost]; split <;> simp

/-! ### Command slots -/

@[simp] theorem bytes_cmdCnt (i) : (cmdCnt d i).bytes = d.bytes := by simp [cmdCnt]
@[simp] theorem bytes_itgCntN (i n) : (itgCntN d i n).bytes = d.bytes := by simp [itgCntN]
@[simp] theorem bytes_modSlot (c f) : (modSlot d c f).bytes = d.bytes := rfl
@[simp] theorem bytes_driveIssued (c n) : (driveIssued d c n).bytes = d.bytes := by simp [driveIssued]
@[simp] theorem bytes_actFor (c) : (actFor d c).bytes = d.bytes := rfl

@[simp] theorem bytes_forCmd (c f) (hf : ∀ d, (f d).bytes = d.bytes) : (forCmd d c f).bytes = d.bytes := by
  simp only [forCmd]; split <;> simp [↓bytes_mk, hf]

@[simp] theorem bytes_answer (c st n n1) : (answer d c st n n1).bytes = d.bytes := rfl
@[simp] theorem bytes_succeed (c n n1) : (succeed d c n n1).bytes = d.bytes := rfl
@[simp] theorem bytes_answerLba (c st lba) : (answerLba d c st lba).bytes = d.bytes := rfl
@[simp] theorem bytes_answerAfter (c item st n n1) : (answerAfter d c item st n n1).bytes = d.bytes := by simp [answerAfter]
@[simp] theorem bytes_answerGo (c) : (answerGo d c).bytes = d.bytes := rfl

theorem bytes_adminStart {d e : Dev} {c op : Nat} {x : Slot} (h : adminStart d c op = some (x, e)) : e.bytes = d.bytes := by
  grind [adminStart, bytes_modSlot]

@[simp] theorem bytes_pullData (c) : (pullData d c).bytes = d.bytes := by
  grind [pullData, bytes_foldl, bytes_modSlot, bytes_failUse, bytes_sendRead]

@[simp] theorem bytes_landData (c off bs) : (landData d c off bs).bytes = d.bytes := rfl

@[simp] theorem bytes_sendHost (c addr bs) : (sendHost d c addr bs).bytes = d.bytes := by
  grind [sendHost, bytes_modSlot, bytes_failUse, bytes_sendMsg]

@[simp] theorem bytes_dropTransfers (c) : (dropTransfers d c).bytes = d.bytes := rfl

/-! ### Resets and the shutdown -/

@[simp] theorem bytes_burnLost : (burnLost d).bytes = d.bytes := by simp [burnLost, ↓bytes_mk]
@[simp] theorem bytes_haltNotice : (haltNotice d).bytes = d.bytes := by simp [haltNotice]
@[simp] theorem bytes_allOff : (allOff d).bytes = d.bytes := by grind [allOff, bytes_foldl, bytes_domQueueOff]
@[simp] theorem bytes_shutdown : (shutdown d).bytes = d.bytes := by simp [shutdown, ↓bytes_mk]

/-! ### Members -/

@[simp] theorem bytes_rbEvent (ev attn t vol slot pos g kind lba) : (rbEvent d ev attn t vol slot pos g kind lba).bytes = d.bytes := by
  simp [rbEvent]

@[simp] theorem bytes_stoEvent (ev vol lba slot t) : (stoEvent d ev vol lba slot t).bytes = d.bytes := by simp [stoEvent]
@[simp] theorem bytes_setMember (k st) : (setMember d k st).bytes = d.bytes := by simp [setMember]
@[simp] theorem bytes_reserveOn (k) : (reserveOn d k).bytes = d.bytes := by simp [reserveOn]
@[simp] theorem bytes_registerOn (k) : (registerOn d k).bytes = d.bytes := by simp [registerOn]
@[simp] theorem bytes_remirrorStart (g i) : (remirrorStart d g i).bytes = d.bytes := by simp only [remirrorStart]; split <;> simp
@[simp] theorem bytes_remirrorMissing (g) : (remirrorMissing d g).bytes = d.bytes := by simp [remirrorMissing]
@[simp] theorem bytes_dropCopy (g i) : (dropCopy d g i).bytes = d.bytes := by simp [dropCopy]
@[simp] theorem bytes_memberEvent (g k st regions) : (memberEvent d g k st regions).bytes = d.bytes := by simp [memberEvent, ↓bytes_mk]
@[simp] theorem bytes_dropReads (k) : (dropReads d k).bytes = d.bytes := rfl

@[simp] theorem bytes_loseMember (k st) : (loseMember d k st).bytes = d.bytes := by
  grind [loseMember, bytes_setMember, bytes_dropGated, bytes_rbEvent, bytes_dropReads, bytes_memberEvent, bytes_modDrive,
    bytes_dropCopy]

@[simp] theorem bytes_suspectAgain (k) : (suspectAgain d k).bytes = d.bytes := by
  grind [suspectAgain, bytes_modDrive, bytes_memberEvent]

@[simp] theorem bytes_suspect (k) : (suspect d k).bytes = d.bytes := by simp [suspect]
@[simp] theorem bytes_takeReplacement (g pos k) : (takeReplacement d g pos k).bytes = d.bytes := by simp [takeReplacement]

@[simp] theorem bytes_claimSpace (g pos) : (claimSpace d g pos).bytes = d.bytes := by
  grind [claimSpace, bytes_takeReplacement, bytes_jAppend, bytes_writeRecords, bytes_modGroup, bytes_rbCnt, bytes_rbEvent]

@[simp] theorem bytes_failMember (k cause) : (failMember d k cause).bytes = d.bytes := by
  grind [failMember, bytes_modDrive, bytes_dropGated, bytes_rbEvent, bytes_setMember, bytes_dropReads, bytes_memberEvent,
    bytes_dropCopy, bytes_claimSpace, bytes_modGroup]

@[simp] theorem bytes_overLimit (k cause) : (overLimit d k cause).bytes = d.bytes := by simp [overLimit]
@[simp] theorem bytes_slotAbsent (k) : (slotAbsent d k).bytes = d.bytes := by simp [slotAbsent]
@[simp] theorem bytes_becomeSpare (k) : (becomeSpare d k).bytes = d.bytes := by simp only [becomeSpare]; split <;> simp
@[simp] theorem bytes_modShelf (f) : (modShelf d f).bytes = d.bytes := rfl
@[simp] theorem bytes_sanIssue (k o) : (sanIssue d k o).bytes = d.bytes := by simp [sanIssue]
@[simp] theorem bytes_sanDone (k failed) : (sanDone d k failed).bytes = d.bytes := rfl
@[simp] theorem bytes_sanFail (k o) : (sanFail d k o).bytes = d.bytes := by simp [sanFail]
@[simp] theorem bytes_sanResume (k o) : (sanResume d k o).bytes = d.bytes := by simp [sanResume]

@[simp] theorem bytes_judgeDrive (k) : (judgeDrive d k).bytes = d.bytes := by
  grind [judgeDrive, bytes_sanResume, bytes_logEvent, bytes_becomeSpare, bytes_modDrive, bytes_setMember]

@[simp] theorem bytes_admitDrive (k) : (admitDrive d k).bytes = d.bytes := by simp [admitDrive]
@[simp] theorem bytes_judgeAll : (judgeAll d).bytes = d.bytes := by simp [judgeAll]

/-! ### Execution of commands on volumes -/

@[simp] theorem bytes_modWork (c stripe f) : (modWork d c stripe f).bytes = d.bytes := rfl

@[simp] theorem bytes_askRows (c g w need) : (askRows d c g w need).bytes = d.bytes := by
  grind [askRows, bytes_foldl, bytes_driveSendFor, bytes_driveIssued, bytes_modWork]

@[simp] theorem bytes_lockWant (v vol c stripes excl) : (lockWant d v vol c stripes excl).bytes = d.bytes := by simp [lockWant]

@[simp] theorem bytes_repairGo (r) : (repairGo d r).bytes = d.bytes := by
  simp only [repairGo]
  repeat' split
  all_goals simp [↓bytes_mk]

@[simp] theorem bytes_repairAsk (c v stripe col g rows shadow) : (repairAsk d c v stripe col g rows shadow).bytes = d.bytes := by
  simp [repairAsk, ↓bytes_mk]

@[simp] theorem bytes_repairsGo : (repairsGo d).bytes = d.bytes := by simp [repairsGo]
@[simp] theorem bytes_unlock (v c stripe) : (unlock d v c stripe).bytes = d.bytes := by simp [unlock]
@[simp] theorem bytes_unlockAll (c) : (unlockAll d c).bytes = d.bytes := by simp [unlockAll]
@[simp] theorem bytes_repairBad (c v g w) : (repairBad d c v g w).bytes = d.bytes := by simp [repairBad]
@[simp] theorem bytes_endWork (c st lba) : (endWork d c st lba).bytes = d.bytes := by simp [endWork]
@[simp] theorem bytes_loseBlocks (v lbas cause) : (loseBlocks d v lbas cause).bytes = d.bytes := by simp [loseBlocks]
@[simp] theorem bytes_readStep (c v vol s w) : (readStep d c v vol s w).bytes = d.bytes := by simp [readStep]
@[simp] theorem bytes_deliver (c v vol s) : (deliver d c v vol s).bytes = d.bytes := by simp [deliver]
@[simp] theorem bytes_mismatchEnd (c v vol s gr) : (mismatchEnd d c v vol s gr).bytes = d.bytes := by simp [mismatchEnd]

@[simp] theorem bytes_advanceRead (c) : (advanceRead d c).bytes = d.bytes := by
  simp only [advanceRead]
  repeat' split
  all_goals simp

@[simp] theorem bytes_resolveGranule (c v vol s w gr key) : (resolveGranule d c v vol s w gr key).bytes = d.bytes := by
  grind [resolveGranule, bytes_modSlot, bytes_itgCntN, bytes_modWork, bytes_stoCnt, bytes_stoEvent, bytes_repairAsk]

@[simp] theorem bytes_checkGranule (c v vol s w gr key) : (checkGranule d c v vol s w gr key).bytes = d.bytes := by simp [checkGranule]

@[simp] theorem bytes_appendSet (g vol tag bodies) : (appendSet d g vol tag bodies).2.bytes = d.bytes :=
  bytes_foldl_snd (fun p b => by simp) _ _

@[simp] theorem bytes_makeRecords (c v vol s) : (makeRecords d c v vol s).bytes = d.bytes := by simp [makeRecords]
@[simp] theorem bytes_modFrag (c stripe col f) : (modFrag d c stripe col f).bytes = d.bytes := rfl
@[simp] theorem bytes_sendFrag (c g w f) : (sendFrag d c g w f).bytes = d.bytes := by simp only [sendFrag]; split <;> simp
@[simp] theorem bytes_dropFrags (c g w) : (dropFrags d c g w).bytes = d.bytes := by simp [dropFrags]
@[simp] theorem bytes_noteBehind (grp g v region) : (noteBehind d grp g v region).bytes = d.bytes := by simp [noteBehind]
@[simp] theorem bytes_countMethod (m) : (countMethod d m).bytes = d.bytes := by simp only [countMethod]; split <;> simp
@[simp] theorem bytes_markRedo (v vol g w) : (markRedo d v vol g w).bytes = d.bytes := by simp [markRedo]
@[simp] theorem bytes_buildData (c v vol s w) : (buildData d c v vol s w).bytes = d.bytes := by simp [buildData]
@[simp] theorem bytes_buildFrags (c v vol s w) : (buildFrags d c v vol s w).bytes = d.bytes := by simp [buildFrags]

@[simp] theorem bytes_makeAlloc (c v vol s) : (makeAlloc d c v vol s).bytes = d.bytes := by
  grind [makeAlloc, bytes_endWork, bytes_jAppend, bytes_modSlot]

@[simp] theorem bytes_applyAlloc (v vol s) : (applyAlloc d v vol s).bytes = d.bytes := by simp [applyAlloc]
@[simp] theorem bytes_touchRegions (v regions) : (touchRegions d v regions).bytes = d.bytes := by simp [touchRegions, ↓bytes_mk]
@[simp] theorem bytes_finishWrite (c v vol s) : (finishWrite d c v vol s).bytes = d.bytes := by simp only [finishWrite]; split <;> simp
@[simp] theorem bytes_landedStep (c v s) : (landedStep d c v s).bytes = d.bytes := by simp [landedStep]
@[simp] theorem bytes_writeStep (c v vol s w) : (writeStep d c v vol s w).bytes = d.bytes := by simp only [writeStep]; split <;> simp

@[simp] theorem bytes_fragStep (c v vol s w) : (fragStep d c v vol s w).bytes = d.bytes := by
  grind [fragStep, bytes_foldl, bytes_sendFrag, bytes_noteBehind, bytes_markRedo, bytes_dropFrags, bytes_unlock]

@[simp] theorem bytes_advanceWrite (c) : (advanceWrite d c).bytes = d.bytes := by
  unfold advanceWrite
  split
  · rfl
  split
  · rfl
  extract_lets
  split
  · simp
  next d₁ d₂ d₃ d₄ d₅ d₆ _ _ =>
    have h₁ : d₁.bytes = d.bytes := bytes_landedStep ..
    have h₂ : d₂.bytes = d₁.bytes := bytes_lockWant ..
    have h₃ : d₃.bytes = d₂.bytes := bytes_foldl (fun d w => by split <;> simp) _ _
    have h₄ : d₄.bytes = d₃.bytes := by simp only [d₄]; split <;> simp
    have h₅ : d₅.bytes = d₄.bytes := by simp only [d₅]; split <;> simp
    have h₆ : d₆.bytes = d₅.bytes := by
      simp only [d₆]
      split
      · split
        · exact bytes_foldl (fun d w => by split <;> simp) _ _
        · rfl
      · rfl
    clear_value d₁ d₂ d₃ d₄ d₅ d₆
    grind [bytes_makeAlloc, bytes_finishWrite, bytes_foldl, bytes_repairBad]

@[simp] theorem bytes_advance (c) : (advance d c).bytes = d.bytes := by simp only [advance]; split <;> simp
@[simp] theorem bytes_advanceAll : (advanceAll d).bytes = d.bytes := by simp [advanceAll]

/-! ### Commands on media and what completes under them -/

@[simp] theorem bytes_startRead (c op) : (startRead d c op).bytes = d.bytes := by
  grind [startRead, bytes_modSlot, bytes_answerLba, bytes_volCnt, bytes_stoCntN, bytes_advance]

@[simp] theorem bytes_startWrite (c op) : (startWrite d c op).bytes = d.bytes := by simp only [startWrite]; split <;> simp
@[simp] theorem bytes_writeTag (c vol s gr) : (writeTag d c vol s gr).bytes = d.bytes := by simp only [writeTag]; split <;> simp
@[simp] theorem bytes_readTag (c vol s gr) : (readTag d c vol s gr).bytes = d.bytes := by simp only [readTag]; split <;> simp
@[simp] theorem bytes_regionDone (v r) : (regionDone d v r).bytes = d.bytes := by simp only [regionDone]; split <;> simp
@[simp] theorem bytes_regionFailed (v r) : (regionFailed d v r).bytes = d.bytes := by simp only [regionFailed]; split <;> simp

@[simp] theorem bytes_bitmapDone (vol region ok) : (bitmapDone d vol region ok).bytes = d.bytes := by
  simp only [bitmapDone]; split <;> simp [↓bytes_mk]

@[simp] theorem bytes_journalLost (g) : (journalLost d g).bytes = d.bytes := by simp [journalLost]
@[simp] theorem bytes_takeCursor (g v) : (takeCursor d g v).bytes = d.bytes := by simp only [takeCursor]; split <;> simp [↓bytes_mk]
@[simp] theorem bytes_recordDurable (g r) : (recordDurable d g r).bytes = d.bytes := by simp only [recordDurable]; split <;> simp

@[simp] theorem bytes_journalDone (g copy jseq ok) : (journalDone d g copy jseq ok).bytes = d.bytes := by
  simp only [journalDone]; split <;> simp

@[simp] theorem bytes_settleJournal (old d : Dev) : (settleJournal old d).bytes = d.bytes := by simp [settleJournal]

@[simp] theorem bytes_memberChange (f) (hf : ∀ d, (f d).bytes = d.bytes) : (memberChange d f).bytes = d.bytes := by
  simp [memberChange, hf]

@[simp] theorem bytes_mediaError (k) : (mediaError d k).bytes = d.bytes := by simp [mediaError]
@[simp] theorem bytes_epochAcks : (epochAcks d).bytes = d.bytes := by grind [epochAcks, bytes_mk, bytes_foldl, bytes_innerSend]

@[simp] theorem bytes_sendFragDone (pier tag status data) : (sendFragDone d pier tag status data).bytes = d.bytes := by
  simp [sendFragDone, ↓bytes_mk]

@[simp] theorem bytes_proxyDone (n r) : (proxyDone d n r).bytes = d.bytes := by
  grind [proxyDone, bytes_mk, bytes_epochAcks, bytes_sendFragDone]

/-! ### Drive faults and background work -/

@[simp] theorem bytes_faultReport (k r) : (faultReport d k r).bytes = d.bytes := by simp only [faultReport]; split <;> simp
@[simp] theorem bytes_cfsSet (k) : (cfsSet d k).bytes = d.bytes := by simp [cfsSet]
@[simp] theorem bytes_warningRead (k w) : (warningRead d k w).bytes = d.bytes := by simp [warningRead]
@[simp] theorem bytes_progressRec (g v work entry band) : (progressRec d g v work entry band).bytes = d.bytes := by simp [progressRec]
@[simp] theorem bytes_bandLosses (b) : (bandLosses d b).bytes = d.bytes := by simp only [bandLosses]; split <;> simp
@[simp] theorem bytes_renumber (v) : (renumber d v).bytes = d.bytes := rfl

/-! ### Images -/

@[simp] theorem bytes_withPlan (p) : (withPlan d p).bytes = d.bytes := rfl

/-! ### Self-test slices -/

@[simp] theorem bytes_memCnt (i) : (memCnt d i).bytes = d.bytes := by simp [memCnt]
@[simp] theorem bytes_bstCnt (i) : (bstCnt d i).bytes = d.bytes := by simp [bstCnt]
@[simp] theorem bytes_faultEvent (ev attn dom unit what) : (faultEvent d ev attn dom unit what).bytes = d.bytes := by simp [faultEvent]

@[simp] theorem bytes_itgEvent (ev page lane vol) : (itgEvent d ev page lane vol).bytes = d.bytes := by
  simp only [itgEvent]; split <;> simp

@[simp] theorem bytes_laneFail (lane) : (laneFail d lane).bytes = d.bytes := by simp [laneFail, ↓bytes_mk]
@[simp] theorem bytes_softAdd (e) : (softAdd d e).bytes = d.bytes := by simp [softAdd, ↓bytes_mk]
@[simp] theorem bytes_retirePc (pc addr) : (retirePc d pc addr).bytes = d.bytes := by simp [retirePc, ↓bytes_mk]
@[simp] theorem bytes_maybeRecover : (maybeRecover d).bytes = d.bytes := by simp [maybeRecover]
@[simp] theorem bytes_sliceOver : (sliceOver d).bytes = d.bytes := by simp [sliceOver, ↓bytes_mk]
@[simp] theorem bytes_sliceInterrupt : (sliceInterrupt d).bytes = d.bytes := by simp only [sliceInterrupt]; split <;> simp
@[simp] theorem bytes_sliceAbandon : (sliceAbandon d).bytes = d.bytes := by simp only [sliceAbandon]; split <;> simp

/-! ### Power and temperature -/

@[simp] theorem bytes_energyNow : (energyNow d).bytes = d.bytes := rfl
@[simp] theorem bytes_gpioGo (m f) : (gpioGo d m f).bytes = d.bytes := by simp [gpioGo, ↓bytes_mk]
@[simp] theorem bytes_gpioWrite (m off f) : (gpioWrite d m off f).bytes = d.bytes := by simp [gpioWrite]
@[simp] theorem bytes_macroDown (m) : (macroDown d m).bytes = d.bytes := by simp [macroDown, ↓bytes_mk]
@[simp] theorem bytes_bankDown : (bankDown d).bytes = d.bytes := by simp [bankDown, ↓bytes_mk]
@[simp] theorem bytes_quarterDown (t) : (quarterDown d t).bytes = d.bytes := by simp [quarterDown, ↓bytes_mk]
@[simp] theorem bytes_domLost (n) : (domLost d n).bytes = d.bytes := by simp [domLost, ↓bytes_mk]
@[simp] theorem bytes_pwrCtrlIgnored (bits) : (pwrCtrlIgnored d bits).bytes = d.bytes := by simp [pwrCtrlIgnored]
@[simp] theorem bytes_idleEnter : (idleEnter d).bytes = d.bytes := by grind [idleEnter, bytes_mk, bytes_foldl, bytes_domQueueOff]
@[simp] theorem bytes_idleExit : (idleExit d).bytes = d.bytes := by simp only [idleExit]; split <;> simp [↓bytes_mk]
@[simp] theorem bytes_pwrCtrlGo (v) : (pwrCtrlGo d v).bytes = d.bytes := by simp [pwrCtrlGo]

@[simp] theorem bytes_pwrCtrl (m bits f) (hf : ∀ d, (f d).bytes = d.bytes) : (pwrCtrl d m bits f).bytes = d.bytes := by
  simp [pwrCtrl, hf]

@[simp] theorem bytes_lowerTo (lo x) : (lowerTo d lo x).2.bytes = d.bytes := rfl
@[simp] theorem bytes_capDown : (capDown d).bytes = d.bytes := by grind [capDown, bytes_mk, bytes_lowerTo]
@[simp] theorem bytes_capUp : (capUp d).bytes = d.bytes := by simp only [capUp]; split <;> simp [↓bytes_mk]
@[simp] theorem bytes_pwrCapGo (v) : (pwrCapGo d v).bytes = d.bytes := by simp [pwrCapGo, ↓bytes_mk]
@[simp] theorem bytes_thermCfgGo (v) : (thermCfgGo d v).bytes = d.bytes := by simp [thermCfgGo, ↓bytes_mk]
@[simp] theorem bytes_warnStep : (warnStep d).bytes = d.bytes := by simp [warnStep, ↓bytes_mk]
@[simp] theorem bytes_throttleStep : (throttleStep d).bytes = d.bytes := by simp [throttleStep, ↓bytes_mk]
@[simp] theorem bytes_thermtripGo : (thermtripGo d).bytes = d.bytes := by simp [thermtripGo, ↓bytes_mk]
@[simp] theorem bytes_wdogGo (m v) : (wdogGo d m v).bytes = d.bytes := by simp [wdogGo, ↓bytes_mk]

/-! ### Start-up -/

@[simp] theorem bytes_bootField (lsb width x) : (bootField d lsb width x).bytes = d.bytes := rfl
@[simp] theorem bytes_fwStart (source i) : (fwStart d source i).bytes = d.bytes := rfl
@[simp] theorem bytes_spiRead (flashB header) : (spiRead d flashB header).bytes = d.bytes := rfl
@[simp] theorem bytes_toMaint : (toMaint d).bytes = d.bytes := by simp [toMaint, ↓bytes_mk]
@[simp] theorem bytes_noPlan (source result staging) : (noPlan d source result staging).bytes = d.bytes := by simp [noPlan]
@[simp] theorem bytes_loadPlan (p) : (loadPlan d p).bytes = d.bytes := rfl
@[simp] theorem bytes_holdOff (n) : (holdOff d n).bytes = d.bytes := by simp [holdOff, ↓bytes_mk]
@[simp] theorem bytes_joinOver : (joinOver d).bytes = d.bytes := by simp [joinOver, ↓bytes_mk]
@[simp] theorem bytes_toTrain : (toTrain d).bytes = d.bytes := by simp [toTrain, ↓bytes_mk]

@[simp] theorem bytes_bootRepairs (repairs) : (bootRepairs d repairs).1.bytes = d.bytes :=
  bytes_foldl_fst (fun p f => by split <;> simp) _ _

@[simp] theorem bytes_bootTested (fails laneFails repairs) : (bootTested d fails laneFails repairs).1.bytes = d.bytes := by
  simp [bootTested]

@[simp] theorem bytes_enterService : (enterService d).bytes = d.bytes := by simp [enterService]

/-! ### Queues and postings -/

@[simp] theorem bytes_modCq (q f) : (modCq d q f).bytes = d.bytes := rfl
@[simp] theorem bytes_modWr (q f) : (modWr d q f).bytes = d.bytes := rfl
@[simp] theorem bytes_edgeMove (c) : (edgeMove d c).bytes = d.bytes := by simp [edgeMove]
@[simp] theorem bytes_edgeRefresh (c) : (edgeRefresh d c).bytes = d.bytes := by simp only [edgeRefresh]; split <;> simp

theorem bytes_fetchOne {d e : Dev} {q : Nat} {r : SqRec} (h : fetchOne d q r = some e) : e.bytes = d.bytes := by
  grind [fetchOne, bytes_cmdCnt, bytes_mk]

@[simp] theorem bytes_fetchGo (q fuel) : (fetchGo q fuel d).bytes = d.bytes := by
  induction fuel generalizing d with
  | zero => rfl
  | succ fuel ih =>
    unfold fetchGo
    split
    · next e h =>
      obtain ⟨r, -, h⟩ := Option.bind_eq_some_iff.1 h
      exact (ih e).trans (bytes_fetchOne h)
    · rfl

@[simp] theorem bytes_fetchRing (q) : (fetchRing d q).bytes = d.bytes := by
  grind [fetchRing, bytes_fetchGo, bytes_cmdCnt, bytes_modWr, bytes_edgeRefresh]

@[simp] theorem bytes_tenantCount (s st flags latency) : (tenantCount d s st flags latency).bytes = d.bytes := by simp [tenantCount]
@[simp] theorem bytes_engineCount (st flags) : (engineCount d st flags).bytes = d.bytes := by simp [engineCount]
@[simp] theorem bytes_readHead (cq) : (readHead d cq).bytes = d.bytes := by simp only [readHead]; split <;> simp
@[simp] theorem bytes_removeSq (q) : (removeSq d q).bytes = d.bytes := by simp only [removeSq]; split <;> simp [↓bytes_mk]
@[simp] theorem bytes_removeVol (v) : (removeVol d v).bytes = d.bytes := by simp only [removeVol]; split <;> simp [↓bytes_mk]

@[simp] theorem bytes_finishDelete (c s) : (finishDelete d c s).bytes = d.bytes := by
  grind [finishDelete, bytes_mk, bytes_foldl, bytes_answer, bytes_modSlot, bytes_answerAfter, bytes_removeVol, bytes_removeSq]

@[simp] theorem bytes_finishDeletes : (finishDeletes d).bytes = d.bytes := by simp [finishDeletes]

@[simp] theorem bytes_failXfer (c) : (failXfer d c).bytes = d.bytes := by
  grind [failXfer, bytes_unlockAll, bytes_modSlot, bytes_answer]

/-! ### Admission -/

@[simp] theorem bytes_volCheck (c s) : (volCheck d c s).2.bytes = d.bytes := by
  grind [volCheck, bytes_forCmd, bytes_deny, bytes_itgCntN]

@[simp] theorem bytes_takeKey (c) : (takeKey d c).bytes = d.bytes := by simp only [takeKey]; split <;> simp
@[simp] theorem bytes_takePlace (c) : (takePlace d c).bytes = d.bytes := by simp only [takePlace]; split <;> simp [↓bytes_mk]
@[simp] theorem bytes_powerHeld (c) : (powerHeld d c).2.bytes = d.bytes := by grind [powerHeld, bytes_draw]

@[simp] theorem bytes_tryPlace (c) : (tryPlace d c).bytes = d.bytes := by
  grind [tryPlace, bytes_mk, bytes_modSlot, bytes_powerHeld, bytes_takePlace]

@[simp] theorem bytes_releaseOne (c) : (releaseOne d c).bytes = d.bytes := by simp only [releaseOne]; split <;> simp
@[simp] theorem bytes_releaseTag (pd tag) : (releaseTag d pd tag).2.bytes = d.bytes := by simp [releaseTag]

@[simp] theorem bytes_holdStart (c s) : (holdStart d c s).bytes = d.bytes := by
  unfold holdStart
  extract_lets d₁ d₂
  have h₂ : d₂.bytes = d.bytes := by simp [d₂, d₁]
  clear_value d₂
  split
  · exact (bytes_releaseOne ..).trans ((bytes_mk rfl rfl rfl).trans h₂)
  · exact h₂

@[simp] theorem bytes_goOn (c) : (goOn d c).bytes = d.bytes := by simp only [goOn]; split <;> simp

@[simp] theorem bytes_ownerJudge (c) : (ownerJudge d c).bytes = d.bytes := by
  grind [ownerJudge, bytes_volCheck, bytes_answer, bytes_goOn]

@[simp] theorem bytes_forwardTo (c pier) : (forwardTo d c pier).bytes = d.bytes := by
  grind [forwardTo, bytes_mk, bytes_drawBits, bytes_modSlot, bytes_mirror, bytes_count, bytes_innerSend]

@[simp] theorem bytes_forwardOrWait (c pier) : (forwardOrWait d c pier).bytes = d.bytes := by simp [forwardOrWait]
@[simp] theorem bytes_judge (c) : (judge d c).bytes = d.bytes := by grind [judge, bytes_answer, bytes_forwardOrWait, bytes_ownerJudge]

@[simp] theorem bytes_sampleDraw (s) : (sampleDraw d s).2.bytes = d.bytes := by
  grind [sampleDraw, bytes_mk, bytes_drawBits, bytes_count]

@[simp] theorem bytes_place (c s) : (place d c s).bytes = d.bytes := by simp only [place]; split <;> simp [↓bytes_mk]
@[simp] theorem bytes_unbuffer (cls f) : (unbuffer d cls f).bytes = d.bytes := rfl
@[simp] theorem bytes_admitCap (cls f reserved) : (admitCap d cls f reserved).bytes = d.bytes := by simp [admitCap, ↓bytes_mk]
@[simp] theorem bytes_refuseCap (cls f st n n1) : (refuseCap d cls f st n n1).bytes = d.bytes := rfl
@[simp] theorem bytes_noteHeld (cls f) : (noteHeld d cls f).bytes = d.bytes := rfl
@[simp] theorem bytes_markFail : (markFail d).bytes = d.bytes := by simp [markFail, ↓bytes_mk]

@[simp] theorem bytes_noteHeldClass (cls) : (noteHeldClass d cls).bytes = d.bytes := by
  grind [noteHeldClass, bytes_foldl, bytes_noteHeld]

@[simp] theorem bytes_noteFree (cls) : (noteFree d cls).bytes = d.bytes := rfl

@[simp] theorem bytes_eligible (l) : (eligible l d).2.bytes = d.bytes := by
  induction l generalizing d with
  | nil => rfl
  | cons c l ih => grind [eligible, bytes_powerHeld, bytes_noteHeldClass, bytes_noteFree]

@[simp] theorem bytes_pickClass : (pickClass d).2.bytes = d.bytes := by grind [pickClass, bytes_mk, bytes_eligible]
@[simp] theorem bytes_refuseClass (cls) : (refuseClass d cls).bytes = d.bytes := by grind [refuseClass, bytes_refuseCap]
@[simp] theorem bytes_refuseNow : (refuseNow d).bytes = d.bytes := by simp [refuseNow]
@[simp] theorem bytes_placeReleased : (placeReleased d).bytes = d.bytes := by simp [placeReleased]
@[simp] theorem bytes_fwdAdmit (pier r slow) : (fwdAdmit d pier r slow).bytes = d.bytes := by simp [fwdAdmit, ↓bytes_mk]
@[simp] theorem bytes_fwdMark : (fwdMark d).bytes = d.bytes := by simp [fwdMark, ↓bytes_mk]

@[simp] theorem bytes_fwdDrain (fuel) : (fwdDrain fuel d).bytes = d.bytes := by
  induction fuel generalizing d with
  | zero => rfl
  | succ fuel ih => grind [fwdDrain, bytes_fwdAdmit, bytes_mk]

@[simp] theorem bytes_admitNext : (admitNext d).bytes = d.bytes := by
  unfold admitNext
  extract_lets d₁
  have h₁ : d₁.bytes = d.bytes := by simp [d₁]
  clear_value d₁
  grind [bytes_count, bytes_pickClass, bytes_refuseNow, bytes_admitCap]

@[simp] theorem bytes_matchTrigger (pd tag) : (matchTrigger d pd tag).bytes = d.bytes := by simp [matchTrigger, ↓bytes_mk]
@[simp] theorem bytes_heldTrigger (pd tag) : (heldTrigger d pd tag).bytes = d.bytes := by simp [heldTrigger, ↓bytes_mk]
@[simp] theorem bytes_matchLate : (matchLate d).bytes = d.bytes := by simp [matchLate, ↓bytes_mk]

@[simp] theorem bytes_deliverTrigger (pd tag) : (deliverTrigger d pd tag).bytes = d.bytes := by
  grind [deliverTrigger, bytes_foldl, bytes_pdCnt, bytes_ctxCnt, bytes_modWr, bytes_heldTrigger, bytes_innerSend]

/-! ### Queue administration -/

@[simp] theorem bytes_needPage (c x page right f) (hf : ∀ d,
    (f d).bytes = d.bytes) : (needPage d c x page right f).bytes = d.bytes := by
  simp [needPage, hf]

@[simp] theorem bytes_badAt (c off) : (badAt d c off).bytes = d.bytes := rfl
@[simp] theorem bytes_badBlock (c off) : (badBlock d c off).bytes = d.bytes := rfl

@[simp] theorem bytes_createCq (cmd x pd) : (createCq cmd x pd d).bytes = d.bytes := by
  simp only [createCq]; split <;> simp [↓bytes_mk]

@[simp] theorem bytes_catchCmd (c) : (catchCmd d c).bytes = d.bytes := by simp [catchCmd]

@[simp] theorem bytes_abortGo (c x) : (abortGo d c x).bytes = d.bytes := by
  grind [abortGo, bytes_badAt, bytes_succeed, bytes_modSlot, bytes_forwardOrWait, bytes_cmdCnt, bytes_catchCmd, bytes_refuseCap]

@[simp] theorem bytes_needQueue (c x pd f) (hf : ∀ d, (f d).bytes = d.bytes) : (needQueue d c x pd f).bytes = d.bytes := by
  simp [needQueue, hf]

@[simp] theorem bytes_abortFar (t s pier) : (abortFar d t s pier).bytes = d.bytes := by simp [abortFar, ↓bytes_mk]

@[simp] theorem bytes_abortSq (c q) : (abortSq d c q).bytes = d.bytes := by
  grind [abortSq, bytes_foldl, bytes_refuseCap, bytes_abortFar, bytes_catchCmd]

@[simp] theorem bytes_chooseRing (len) : (chooseRing d len).2.bytes = d.bytes := rfl
@[simp] theorem bytes_makeRegion (c idx r n) : (makeRegion d c idx r n).bytes = d.bytes := by simp [makeRegion, ↓bytes_mk]

@[simp] theorem bytes_regionGo (c x) : (regionGo d c x).bytes = d.bytes := by
  grind [regionGo, bytes_badAt, bytes_answer, bytes_makeRegion, bytes_chooseRing]

@[simp] theorem bytes_takeResps (key) : (takeResps d key).bytes = d.bytes := rfl
@[simp] theorem bytes_cmdPdSelGo (v) : (cmdPdSelGo d v).bytes = d.bytes := rfl
@[simp] theorem bytes_msubGo (m) : (msubGo d m).bytes = d.bytes := by grind [msubGo, bytes_mk, bytes_place]

/-! ### Trestle receive side -/

@[simp] theorem bytes_failMsg (c msn len) : (failMsg d c msn len).bytes = d.bytes := rfl
@[simp] theorem bytes_ackOrWait (c p now) : (ackOrWait d c p now).bytes = d.bytes := by simp only [ackOrWait]; split <;> simp

@[simp] theorem bytes_peerClose (c) : (peerClose d c).bytes = d.bytes := by
  grind [peerClose, bytes_modConn, bytes_sendAck, bytes_failOpen, bytes_sendMsg, bytes_closingDone]

@[simp] theorem bytes_markRx (c p now) : (markRx d c p now).bytes = d.bytes := by simp only [markRx]; split <;> simp
@[simp] theorem bytes_failRx (c p msn code detail) : (failRx d c p msn code detail).bytes = d.bytes := by simp [failRx]
@[simp] theorem bytes_regionNack (c x p write e) : (regionNack d c x p write e).bytes = d.bytes := by simp [regionNack]
@[simp] theorem bytes_respond (c p part src data) : (respond d c p part src data).bytes = d.bytes := by simp [respond]
@[simp] theorem bytes_readDoneRx (c p) : (readDoneRx d c p).bytes = d.bytes := by simp [readDoneRx]

@[simp] theorem bytes_rxReadReq (c x p) : (rxReadReq d c x p).bytes = d.bytes := by
  grind [rxReadReq, bytes_mk, bytes_sendNack, bytes_failRx, bytes_markRx, bytes_ctxCnt, bytes_respond, bytes_readDoneRx,
    bytes_regionNack]

@[simp] theorem bytes_serveHeld : (serveHeld d).bytes = d.bytes := by grind [serveHeld, bytes_mk, bytes_foldl, bytes_respond]
@[simp] theorem bytes_relayBack (c addr bs) : (relayBack d c addr bs).bytes = d.bytes := by simp [relayBack]
@[simp] theorem bytes_fragSubmit (n f) : (fragSubmit d n f).bytes = d.bytes := rfl

@[simp] theorem bytes_landFrag (n off bs) : (landFrag d n off bs).bytes = d.bytes := by
  simp only [landFrag]; split <;> simp [↓bytes_mk]

@[simp] theorem bytes_takeNack (c x p) : (takeNack d c x p).bytes = d.bytes := by simp [takeNack]

@[simp] theorem bytes_viaEvent (ev pier group micros attn) : (viaEvent d ev pier group micros attn).bytes = d.bytes := by
  simp [viaEvent]

@[simp] theorem bytes_sendDirectory (pier) : (sendDirectory d pier).bytes = d.bytes := by
  grind [sendDirectory, bytes_foldl, bytes_innerSend]

@[simp] theorem bytes_reForward (pier) : (reForward d pier).bytes = d.bytes := by simp [reForward]
@[simp] theorem bytes_pierReached (pier c) : (pierReached d pier c).bytes = d.bytes := by simp [pierReached, ↓bytes_mk]

@[simp] theorem bytes_takeResumeReply (c x p) : (takeResumeReply d c x p).bytes = d.bytes := by
  grind [takeResumeReply, bytes_enterTimeWait, bytes_modConn, bytes_pierReached, bytes_closeConn, bytes_pump]

@[simp] theorem bytes_dropAttempt (c) : (dropAttempt d c).bytes = d.bytes := rfl

@[simp] theorem bytes_takeConnectReply (c x p) : (takeConnectReply d c x p).bytes = d.bytes := by
  grind [takeConnectReply, bytes_dropAttempt, bytes_modConn, bytes_mirror, bytes_pierReached]

@[simp] theorem bytes_answerWith (ip conn id e) : (answerWith d ip conn id e).bytes = d.bytes := rfl
@[simp] theorem bytes_rewindUse (u n) : (rewindUse d u n).bytes = d.bytes := by simp only [rewindUse]; split <;> simp [↓bytes_mk]
@[simp] theorem bytes_resumeUnknown (net p) : (resumeUnknown d net p).bytes = d.bytes := by simp only [resumeUnknown]; split <;> simp

@[simp] theorem bytes_takeNew (net c x p dst) : (takeResume.takeNew d net c x p dst).bytes = d.bytes := by
  simp only [takeResume.takeNew]
  repeat' split
  all_goals simp

@[simp] theorem bytes_takeResume (d : Dev) (net c x p) : (takeResume d net c x p).bytes = d.bytes := by
  grind [takeResume, bytes_takeNew, bytes_emit, bytes_trsCnt]

@[simp] theorem bytes_connAccept (net p c inner) : (connAccept d net p c inner).bytes = d.bytes := by
  simp only [connAccept]
  split
  · simp
  · rw [bytes_ite, bytes_pierReached, ite_self, bytes_mirrorThen]
    · simp
    · simp

@[simp] theorem bytes_rxConnect (net p) : (rxConnect d net p).bytes = d.bytes := by
  grind [rxConnect, bytes_trsCnt, bytes_emit, bytes_drawPortBase, bytes_answerWith, bytes_connAccept]

@[simp] theorem bytes_violate (c x p code detail) : (violate d c x p code detail).bytes = d.bytes := by simp [violate]
@[simp] theorem bytes_park (c net p) : (park d c net p).bytes = d.bytes := by simp [park, ↓bytes_mk]
@[simp] theorem bytes_ctxError (c) : (ctxError d c).bytes = d.bytes := by simp [ctxError]
@[simp] theorem bytes_putLive (o v) : (putLive d o v).bytes = d.bytes := rfl
@[simp] theorem bytes_pdSelGo (v) : (pdSelGo d v).bytes = d.bytes := rfl

@[simp] theorem bytes_pdCloses (pd was now revoke) : (pdCloses d pd was now revoke).bytes = d.bytes := by
  simp only [pdCloses]; split <;> simp

@[simp] theorem bytes_pdCtrlGo (v) : (pdCtrlGo d v).bytes = d.bytes := by simp [pdCtrlGo, ↓bytes_mk]

/-! ### Volumes -/

@[simp] theorem bytes_needVol (c x right f) (hf : ∀ v d, (f v d).bytes = d.bytes) : (needVol d c x right f).bytes = d.bytes := by
  simp only [needVol]; split <;> simp [hf]

@[simp] theorem bytes_needKey (c x page f) (hf : ∀ d, (f d).bytes = d.bytes) : (needKey d c x page f).bytes = d.bytes := by
  simp [needKey, hf]

@[simp] theorem bytes_needOwner (c vol f) (hf : ∀ d, (f d).bytes = d.bytes) : (needOwner d c vol f).bytes = d.bytes := by
  simp [needOwner, hf]

@[simp] theorem bytes_loadKey (s) : (loadKey d s).bytes = d.bytes := by simp [loadKey, ↓bytes_mk]
@[simp] theorem bytes_opFinish (s) : (opFinish d s).bytes = d.bytes := by simp only [opFinish]; split <;> simp [↓bytes_mk]
@[simp] theorem bytes_announce : (announce d).bytes = d.bytes := by simp [announce]
@[simp] theorem bytes_listVols (vols pier) : (listVols d vols pier).bytes = d.bytes := by simp [listVols, ↓bytes_mk]
@[simp] theorem bytes_listVol (v own) : (listVol d v own).bytes = d.bytes := by simp [listVol, ↓bytes_mk]
@[simp] theorem bytes_createVol (c v vol) : (createVol d c v vol).bytes = d.bytes := by simp [createVol, ↓bytes_mk]

@[simp] theorem bytes_ackAnswer (c) : (ackAnswer d c).bytes = d.bytes := by
  grind [ackAnswer, bytes_createVol, bytes_answerGo, bytes_opFinish]

@[simp] theorem bytes_answerVol (c v shown n) : (answerVol d c v shown n).bytes = d.bytes := by
  grind [answerVol, bytes_answerAfter, bytes_opFinish]

@[simp] theorem bytes_takeSlabs (g n acc) : (takeSlabs d g n acc).2.bytes = d.bytes := by
  induction n generalizing d acc with
  | zero => rfl
  | succ n ih => exact ih _ _

@[simp] theorem bytes_seedOf (b) : (seedOf d b).2.bytes = d.bytes := by simp only [seedOf]; split <;> simp

@[simp] theorem bytes_createGo (c b) : (createGo d c b).bytes = d.bytes := by
  simp only [createGo]
  repeat' split
  all_goals simp [↓bytes_mk]

@[simp] theorem bytes_viewVol (v vol) : (viewVol d v vol).bytes = d.bytes := rfl
@[simp] theorem bytes_volSet (c v record f) : (volSet d c v record f).bytes = d.bytes := by simp [volSet]
@[simp] theorem bytes_drawId : (drawId d).2.bytes = d.bytes := rfl

@[simp] theorem bytes_metaSeedGo (l n fuel) : (metaSeedGo d l n fuel).2.bytes = d.bytes := by
  induction fuel generalizing d with
  | zero => simp [metaSeedGo]
  | succ fuel ih => grind [metaSeedGo, bytes_drawBits]

@[simp] theorem bytes_makeGroup (g slots key) : (makeGroup d g slots key).bytes = d.bytes := by simp [makeGroup, ↓bytes_mk]

/-! ### GET_LOG -/

@[simp] theorem bytes_giveLog (c x bs) : (giveLog d c x bs).bytes = d.bytes := by simp [giveLog]
@[simp] theorem bytes_giveEvents (c x) : (giveEvents d c x).bytes = d.bytes := by simp [giveEvents, ↓bytes_mk]

/-! ### Recovery -/

@[simp] theorem bytes_scanSuspects (g recs dirty) : (scanSuspects d g recs dirty).bytes = d.bytes := by
  grind [scanSuspects, bytes_foldl, bytes_modDrive, bytes_setMember]

@[simp] theorem bytes_freeBytes (n) : (freeBytes d n).2.bytes = d.bytes := rfl
@[simp] theorem bytes_putRows (g col first bs) : (putRows d g col first bs).bytes = d.bytes := by simp only [putRows]; split <;> simp
@[simp] theorem bytes_putShadow (g col gi bs) : (putShadow d g col gi bs).bytes = d.bytes := by simp only [putShadow]; split <;> simp

@[simp] theorem bytes_replayData (v vol stripe lba n bytes tags) : (replayData d v vol stripe lba n bytes tags).bytes = d.bytes := by
  simp [replayData]

@[simp] theorem bytes_replayRec (g r) : (replayRec d g r).bytes = d.bytes := by simp only [replayRec]; split <;> simp [↓bytes_mk]

@[simp] theorem bytes_resyncWhole (g) : (resyncWhole d g).bytes = d.bytes := by
  grind [resyncWhole, bytes_foldl, bytes_driveSend, bytes_draw, bytes_freeBytes, bytes_putShadow, bytes_putRows]

@[simp] theorem bytes_resyncStripe (x agree v stripe region) : (resyncStripe d x agree v stripe region).bytes = d.bytes := by
  simp only [resyncStripe]; split <;> simp

@[simp] theorem bytes_endRecovery (micros g) : (endRecovery d micros g).bytes = d.bytes := by
  grind [endRecovery, bytes_mk, bytes_foldl, bytes_modVol, bytes_bmSubmit, bytes_remirrorMissing, bytes_jLog, bytes_stoEvent]

@[simp] theorem bytes_finishDeletions : (finishDeletions d).bytes = d.bytes := by simp [finishDeletions]

/-! ### The mirror of a pair -/

@[simp] theorem bytes_parCnt (i) : (parCnt d i).bytes = d.bytes := by simp [parCnt]
@[simp] theorem bytes_parEvent (ev attn a b micros) : (parEvent d ev attn a b micros).bytes = d.bytes := by simp [parEvent]

@[simp] theorem bytes_ackAct (a) : (ackAct d a).bytes = d.bytes := by
  cases a <;> simp [ackAct, ↓bytes_mk]
  split <;> simp

@[simp] theorem bytes_partnerReached (slots) : (partnerReached d slots).bytes = d.bytes := by simp [partnerReached]
@[simp] theorem bytes_stableRefresh : (stableRefresh d).bytes = d.bytes := rfl

/-! ### Take-over -/

@[simp] theorem bytes_writeOwnership (owner roleA roleB) : (writeOwnership d owner roleA roleB).bytes = d.bytes := rfl
@[simp] theorem bytes_announceAddrs (l) : (announceAddrs d l).bytes = d.bytes := rfl
@[simp] theorem bytes_adoptAddrs (l) : (adoptAddrs d l).bytes = d.bytes := rfl

@[simp] theorem bytes_adoptConn (r byPlan) : (adoptConn d r byPlan).2.bytes = d.bytes := by
  grind [adoptConn, bytes_mk, bytes_sendPkt, bytes_drawBits, bytes_drawPortBase, bytes_takeConn, bytes_sendResume]

@[simp] theorem bytes_adoptConns (l byPlan) : (adoptConns d l byPlan).2.bytes = d.bytes :=
  bytes_foldl_snd (fun p e => by simp) _ _

@[simp] theorem bytes_adoptCq (conns e) : (adoptCq conns d e).bytes = d.bytes := by simp only [adoptCq]; split <;> simp [↓bytes_mk]
@[simp] theorem bytes_installQueues (a byPlan) : (installQueues d a byPlan).bytes = d.bytes := by simp [installQueues, ↓bytes_mk]

@[simp] theorem bytes_adoptGroup (g r) : (adoptGroup d g r).bytes = d.bytes := by
  grind [adoptGroup, bytes_mk, bytes_foldl, bytes_modDrive]

@[simp] theorem bytes_adoptVol (v vol) : (adoptVol d v vol).bytes = d.bytes := by
  grind [adoptVol, bytes_mk, bytes_foldl, bytes_modDrive, bytes_bmSubmit]

@[simp] theorem bytes_installGroups (moved) : (installGroups d moved).bytes = d.bytes := by simp [installGroups, ↓bytes_mk]

@[simp] theorem bytes_replayOne (p sq cid) : (replayOne d p sq cid).bytes = d.bytes := by
  grind [replayOne, bytes_mk, bytes_parCnt, bytes_place]

@[simp] theorem bytes_replayAll (p sqs) : (replayAll d p sqs).bytes = d.bytes := by simp [replayAll]

@[simp] theorem bytes_installForwarded (p) : (installForwarded d p).bytes = d.bytes := by
  grind [installForwarded, bytes_mk, bytes_foldl]

@[simp] theorem bytes_askArbiter (n) : (askArbiter d n).bytes = d.bytes := by simp only [askArbiter]; split <;> simp [↓bytes_mk]
@[simp] theorem bytes_fenceStep : (fenceStep d).bytes = d.bytes := by simp [fenceStep, ↓bytes_mk]
@[simp] theorem bytes_delayAll : (delayAll d).bytes = d.bytes := rfl
@[simp] theorem bytes_nextArbiter (n) : (nextArbiter d n).bytes = d.bytes := by simp [nextArbiter, ↓bytes_mk]
@[simp] theorem bytes_shelfDone (g) : (shelfDone d g).bytes = d.bytes := by simp only [shelfDone]; split <;> simp [↓bytes_mk]

/-! ### The pair -/

@[simp] theorem bytes_joinSend : (joinSend d).bytes = d.bytes := by simp [joinSend]
@[simp] theorem bytes_takePartner (j) : (takePartner d j).bytes = d.bytes := rfl
@[simp] theorem bytes_heartbeatOn (pathB) : (heartbeatOn d pathB).bytes = d.bytes := by simp [heartbeatOn]
@[simp] theorem bytes_setPath (pathB p) : (setPath d pathB p).bytes = d.bytes := by simp [setPath, ↓bytes_mk]
@[simp] theorem bytes_giveQueues (a) : (giveQueues d a).bytes = d.bytes := rfl

@[simp] theorem bytes_handoverDone (epoch groups roles maint) : (handoverDone d epoch groups roles maint).bytes = d.bytes := by
  simp [handoverDone, ↓bytes_mk]

@[simp] theorem bytes_takingStep : (takingStep d).bytes = d.bytes := by simp only [takingStep]; split <;> simp
@[simp] theorem bytes_firstMoving (mask) : (firstMoving d mask).2.bytes = d.bytes := by simp only [firstMoving]; split <;> simp
@[simp] theorem bytes_handoverBad (mask) : (handoverBad d mask).2.bytes = d.bytes := by grind [handoverBad, bytes_firstMoving]

@[simp] theorem bytes_giveAfter (c mask roles maint) : (giveAfter d c mask roles maint).bytes = d.bytes := by
  simp only [giveAfter]; split <;> simp [↓bytes_mk]

@[simp] theorem bytes_leaveRunning (groups roles) : (leaveRunning d groups roles).bytes = d.bytes := by simp [leaveRunning, ↓bytes_mk]

/-! ### The viaduct -/

@[simp] theorem bytes_viaCnt (i) : (viaCnt d i).bytes = d.bytes := by simp [viaCnt]
@[simp] theorem bytes_backParts (s n) : (backParts d s n).2.bytes = d.bytes := by grind [backParts, bytes_drawBits]
@[simp] theorem bytes_setVGroup (g x) : (setVGroup d g x).bytes = d.bytes := by simp [setVGroup, ↓bytes_mk]
@[simp] theorem bytes_shelfRecord (g) : (shelfRecord d g).bytes = d.bytes := by simp [shelfRecord, ↓bytes_mk]

@[simp] theorem bytes_shelfWon (g epoch) : (shelfWon d g epoch).bytes = d.bytes := by
  grind [shelfWon, bytes_foldl, bytes_viaCnt, bytes_setVGroup, bytes_innerSend, bytes_shelfRecord]

@[simp] theorem bytes_epochAcked (g pier) : (epochAcked d g pier).bytes = d.bytes := by simp [epochAcked, ↓bytes_mk]

@[simp] theorem bytes_claimGroup (g) : (claimGroup d g).bytes = d.bytes := by
  grind [claimGroup, bytes_mk, bytes_foldl, bytes_viaEvent, bytes_innerSend]

@[simp] theorem bytes_propagate (blk) : (propagate d blk).bytes = d.bytes := by grind [propagate, bytes_foldl, bytes_innerSend]
@[simp] theorem bytes_removeBad (n) : (removeBad d n).2.bytes = d.bytes := by grind [removeBad, bytes_draw]

/-! ### Integrity -/

@[simp] theorem bytes_sendKey (page k a) : (sendKey d page k a).bytes = d.bytes := by simp [sendKey, ↓bytes_mk]

@[simp] theorem bytes_keyLoadGo (c x b) : (keyLoadGo d c x b).bytes = d.bytes := by
  grind [keyLoadGo, bytes_badBlock, bytes_answer, bytes_succeed, bytes_sendKey, bytes_modSlot, bytes_loadKey]

/-! ### Administration -/

@[simp] theorem bytes_admEvent (ev attn vol what code) : (admEvent d ev attn vol what code).bytes = d.bytes := by simp [admEvent]
@[simp] theorem bytes_stopCmds (v sanitize) : (stopCmds d v sanitize).bytes = d.bytes := by simp [stopCmds]
@[simp] theorem bytes_stopBands (vols) : (stopBands d vols).bytes = d.bytes := rfl

@[simp] theorem bytes_enterOp (vols o) : (enterOp d vols o).bytes = d.bytes := by
  grind [enterOp, bytes_foldl, bytes_modVol, bytes_writeRecords, bytes_mirror, bytes_stopCmds, bytes_stopBands]

@[simp] theorem bytes_answerMirrored (c vols) : (answerMirrored d c vols).bytes = d.bytes := by
  simp only [answerMirrored]; split <;> simp

@[simp] theorem bytes_opGo (c o vols start) (hstart : ∀ d, (start d).bytes = d.bytes) :
    (opGo d c o vols start).bytes = d.bytes := by
  simp only [opGo]
  repeat' split
  all_goals simp [↓bytes_mk, hstart]

@[simp] theorem bytes_fillSlab (g slab key pattern) : (fillSlab d g slab key pattern).bytes = d.bytes := by simp [fillSlab]
@[simp] theorem bytes_zeroVestibule (g v) : (zeroVestibule d g v).bytes = d.bytes := by simp [zeroVestibule]
@[simp] theorem bytes_clearMaps (v) : (clearMaps d v).bytes = d.bytes := by simp [clearMaps]
@[simp] theorem bytes_allRestored (v vol) : (allRestored d v vol).bytes = d.bytes := rfl
@[simp] theorem bytes_putOp (v f) : (putOp d v f).bytes = d.bytes := by simp [putOp]
@[simp] theorem bytes_shelfRefresh : (shelfRefresh d).bytes = d.bytes := by simp only [shelfRefresh]; split <;> simp [↓bytes_mk]
@[simp] theorem bytes_endOverwrite (v vol o) : (endOverwrite d v vol o).bytes = d.bytes := by simp [endOverwrite]
@[simp] theorem bytes_nextSlab (v vol o) : (nextSlab d v vol o).bytes = d.bytes := by simp [nextSlab]
@[simp] theorem bytes_owSlab (v vol o) : (owSlab d v vol o).bytes = d.bytes := by simp only [owSlab]; split <;> simp

@[simp] theorem bytes_arbSlab (o) : (arbSlab d o).bytes = d.bytes := by
  grind [arbSlab, bytes_foldl, bytes_driveSend, bytes_fillSlab, bytes_modShelf]

@[simp] theorem bytes_sanFinish (o) : (sanFinish d o).bytes = d.bytes := by simp [sanFinish, ↓bytes_mk]
@[simp] theorem bytes_sanCheck : (sanCheck d).bytes = d.bytes := by simp only [sanCheck]; split <;> simp

@[simp] theorem bytes_sanStart : (sanStart d).bytes = d.bytes := by
  grind [sanStart, bytes_foldl, bytes_modShelf, bytes_modDrive, bytes_writeRecords, bytes_writeHead, bytes_writeHeader, bytes_putOp,
    bytes_sanIssue]

@[simp] theorem bytes_testEnd (f) : (testEnd d f).bytes = d.bytes := by simp only [testEnd]; split <;> simp [↓bytes_mk]
@[simp] theorem bytes_testStart (c code) : (testStart d c code).bytes = d.bytes := by simp only [testStart]; split <;> simp [↓bytes_mk]
@[simp] theorem bytes_spiOps (flashB ops) : (spiOps d flashB ops).bytes = d.bytes := rfl

@[simp] theorem bytes_imagePiece (c b piece fw content left) : (imagePiece d c b piece fw content left).bytes = d.bytes := by
  simp [imagePiece, ↓bytes_mk]

@[simp] theorem bytes_activateGo (c b fw img) : (activateGo d c b fw img).bytes = d.bytes := by
  grind [activateGo, bytes_mk, bytes_succeed, bytes_spiOps, bytes_answer, bytes_admEvent]

/-! ### The switch core and the egress scheduler -/

@[simp] theorem bytes_portComesUp (p) : (portComesUp d p).bytes = d.bytes := by
  grind [portComesUp, bytes_foldl, bytes_modPort, bytes_modLane, bytes_gatedGo, bytes_sendKeys, bytes_sendLeft]

@[simp] theorem bytes_pwdExpire (p inst) : (pwdExpire d p inst).bytes = d.bytes := by simp [pwdExpire]

theorem bytes_internalAdmit {d e : Dev} {f : IntFrame} (h : internalAdmit d f = some e) : e.bytes = d.bytes := by
  grind [internalAdmit, bytes_swcCnt, bytes_dropAt, bytes_storeFrame]

theorem bytes_admitFirst {d e : Dev} {l : List IntFrame} {full : List (Nat × Nat)} {f : IntFrame}
    (h : admitFirst d l full = some (f, e)) : e.bytes = d.bytes := by
  induction l generalizing full with
  | nil => cases h
  | cons g l ih => grind [admitFirst, bytes_internalAdmit]

@[simp] theorem bytes_bankError : (bankError d).bytes = d.bytes := by simp [bankError, ↓bytes_mk]

@[simp] theorem bytes_startNext (p cellErr) : (startNext d p cellErr).bytes = d.bytes := by
  grind [startNext, bytes_foldl, bytes_ageHeads, bytes_pickQueue, bytes_modQueue, bytes_bankError, bytes_leaveIfEmpty, bytes_freeCopy,
    bytes_dropAt, bytes_startFrom]

@[simp] theorem bytes_setAside (p t) : (setAside d p t).bytes = d.bytes := by simp [setAside]
@[simp] theorem bytes_nextSegment (p t sp) : (nextSegment d p t sp).bytes = d.bytes := by simp [nextSegment]

@[simp] theorem bytes_txComplete (p) : (txComplete d p).bytes = d.bytes := by
  grind [txComplete, bytes_txStats, bytes_nextSegment, bytes_ethStat, bytes_ptpPush, bytes_freeCopy, bytes_modEgress]

/-! ### Self-test and faults -/

@[simp] theorem bytes_sliceTake (u) : (sliceTake d u).bytes = d.bytes := by simp [sliceTake, ↓bytes_mk]
@[simp] theorem bytes_holdUnit (u) : (holdUnit d u).bytes = d.bytes := by simp [holdUnit, ↓bytes_mk]
@[simp] theorem bytes_softRepair (u f) : (softRepair d u f).bytes = d.bytes := by simp [softRepair, ↓bytes_mk]
@[simp] theorem bytes_segPassed (u) : (segPassed d u).bytes = d.bytes := by simp [segPassed, ↓bytes_mk]
@[simp] theorem bytes_fuseGo (v) : (fuseGo d v).bytes = d.bytes := by simp [fuseGo, ↓bytes_mk]
@[simp] theorem bytes_dirtyLost : (dirtyLost d).bytes = d.bytes := by simp only [dirtyLost]; split <;> simp
@[simp] theorem bytes_stagingLost : (stagingLost d).bytes = d.bytes := by simp only [stagingLost]; split <;> simp
@[simp] theorem bytes_dumpLost (off) : (dumpLost d off).bytes = d.bytes := by simp [dumpLost, ↓bytes_mk]
@[simp] theorem bytes_maintAsk : (maintAsk d).bytes = d.bytes := by simp [maintAsk, ↓bytes_mk]
@[simp] theorem bytes_clockDown (clk) : (clockDown d clk).bytes = d.bytes := by simp [clockDown]

/-! ### Pins and the passage of time -/

@[simp] theorem bytes_sgpioFrame : (sgpioFrame d).bytes = d.bytes := rfl

@[simp] theorem bytes_idleTick : (idleTick d).bytes = d.bytes := by
  have htime (n : Nat) : ({ d with time := n } : Dev).bytes = d.bytes := rfl
  simp [idleTick, htime]

/-! ### Status registers -/

@[simp] theorem bytes_rebuildEta (g) : (rebuildEta d g).2.bytes = d.bytes := by grind [rebuildEta, bytes_draw]

@[simp] theorem bytes_statusReg (o) : (statusReg d o).2.bytes = d.bytes := by
  simp only [statusReg, apply_ite Prod.snd, bytes_ite, bytes_rebuildEta, ite_self]

/-! ### The register bus -/

@[simp] theorem bytes_roCounter (m s o) : (roCounter d m s o).2.bytes = d.bytes := by grind [roCounter, bytes_mk, bytes_tdDraw]
@[simp] theorem bytes_takeLatch (o now) : (takeLatch d o now).2.bytes = d.bytes := by simp only [takeLatch]; split <;> simp [↓bytes_mk]
@[simp] theorem bytes_rcCounter (s o) : (rcCounter d s o).2.bytes = d.bytes := by simp only [rcCounter]; split <;> simp [↓bytes_mk]
@[simp] theorem bytes_rcRead (o) : (rcRead d o).2.bytes = d.bytes := by grind [rcRead, bytes_mk, bytes_ptpRead]

@[simp] theorem bytes_plainRead (m o i) : (plainRead d m o i).2.bytes = d.bytes := by
  grind [plainRead, bytes_mk, bytes_rcRead, bytes_takeLatch, bytes_statusReg]

@[simp] theorem bytes_busRead (m o) : (busRead d m o).2.bytes = d.bytes := by
  grind [busRead, bytes_deny, bytes_rcCounter, bytes_roCounter, bytes_plainRead]

@[simp] theorem bytes_withStaged (g) : (withStaged d g).bytes = d.bytes := rfl
@[simp] theorem bytes_commitDone (g result detail) : (commitDone d g result detail).bytes = d.bytes := rfl
@[simp] theorem bytes_unlockBy (m g) : (unlockBy d m g).bytes = d.bytes := by simp [unlockBy, ↓bytes_mk]
@[simp] theorem bytes_dropStaged (g) : (dropStaged d g).bytes = d.bytes := rfl
@[simp] theorem bytes_tokensNowAll : (tokensNowAll d).bytes = d.bytes := rfl
@[simp] theorem bytes_pwdRecheck (p) : (pwdRecheck d p).bytes = d.bytes := by simp [pwdRecheck]
@[simp] theorem bytes_afterCommit (g) : (afterCommit d g).bytes = d.bytes := by simp [afterCommit, ↓bytes_mk]

@[simp] theorem bytes_commitGo (m g) : (commitGo d m g).bytes = d.bytes := by
  grind [commitGo, bytes_mk, bytes_commitDone, bytes_unlockBy, bytes_tokensNowAll, bytes_dropStaged, bytes_withStaged, bytes_logEvent,
    bytes_afterCommit]

@[simp] theorem bytes_discardGo (m g) : (discardGo d m g).bytes = d.bytes := by simp [discardGo]
@[simp] theorem bytes_commitWrite (m g discard) : (commitWrite d m g discard).bytes = d.bytes := by simp [commitWrite]
@[simp] theorem bytes_lockClaim (m g) : (lockClaim d m g).bytes = d.bytes := by simp [lockClaim, ↓bytes_mk]
@[simp] theorem bytes_pageEntryW0 (k v) : (pageEntryW0 d k v).bytes = d.bytes := rfl
@[simp] theorem bytes_pageEntryW1 (k v) : (pageEntryW1 d k v).bytes = d.bytes := rfl
@[simp] theorem bytes_ctrEntry (k x v) : (ctrEntry d k x v).bytes = d.bytes := by simp [ctrEntry, ↓bytes_mk]

@[simp] theorem bytes_keyEntry (e x v) : (keyEntry d e x v).bytes = d.bytes := by
  grind [keyEntry, bytes_mk, bytes_mirrorThen, bytes_keyApply]

@[simp] theorem bytes_privSel (m v) : (privSel d m v).bytes = d.bytes := by simp [privSel, ↓bytes_mk]
@[simp] theorem bytes_stageReg (o v) : (stageReg d o v).bytes = d.bytes := by simp only [stageReg]; split <;> simp [↓bytes_mk]
@[simp] theorem bytes_clearBits (o v mask) : (clearBits d o v mask).bytes = d.bytes := by simp [clearBits, ↓bytes_mk]
@[simp] theorem bytes_unlockFail : (unlockFail d).bytes = d.bytes := by simp [unlockFail, ↓bytes_mk]

/-! ### The counter unit -/

@[simp] theorem bytes_skipSnapshot (mask) : (skipSnapshot d mask).bytes = d.bytes := by simp [skipSnapshot, ↓bytes_mk]

@[simp] theorem bytes_needSets (c x sets f) (hf : ∀ d, (f d).bytes = d.bytes) : (needSets d c x sets f).bytes = d.bytes := by
  simp only [needSets]; split <;> simp [hf]

@[simp] theorem bytes_stageDump (b) : (stageDump d b).bytes = d.bytes := by simp [stageDump]
@[simp] theorem bytes_dumpCommit (m sets) : (dumpCommit d m sets).bytes = d.bytes := by simp [dumpCommit]

end

end Sys2Proof.Machine

/-! ## Every step keeps the addressed memories in canonical form

The operations that write a memory do so by `memWrites` and `memZero`; one lemma each, `memOk_<operation>`, and one for each
operation that calls them. A command then keeps the form by the lemmas of what it is made of, `memOkAfter_<command>`. -/

namespace Sys2Proof.Machine

/-- Are three memories in canonical form? -/
def bytesOk (b : List Host.Cell × List Host.Cell × List Host.Cell) : Bool := memWf b.1 && memWf b.2.1 && memWf b.2.2

theorem memOk_eq (d : Dev) : d.memOk = bytesOk d.bytes := rfl

theorem memOk_iff {d : Dev} : d.memOk = true ↔ memWf d.trs.rings = true ∧ memWf d.trs.pantry = true ∧ memWf d.ctr.dump = true := by
  simp [Dev.memOk, and_assoc]

theorem memOk_congr {d e : Dev} (h : e.bytes = d.bytes) : e.memOk = d.memOk := by rw [memOk_eq, memOk_eq, h]

theorem memOk_foldl {α : Type} {f : Dev → α → Dev} (hf : ∀ d a, d.memOk = true → (f d a).memOk = true) (l : List α) {d : Dev}
    (h : d.memOk = true) : (l.foldl f d).memOk = true := foldl_keeps (fun e : Dev => e.memOk = true) _ hf l d h

/-- A record update whose memories come of canonical ones by operations that keep the canonical form. -/
theorem memOk_mk {d : Dev} {time free : Nat} {glb : Glb} {pwr : Pwr} {sense : Sense} {reg : Reg} {pln : Pln} {acc : Acc} {log : Log}
    {eth : Eth} {swc : Swc} {trs : Trs} {cmd : Cmd} {sto : Sto} {par : Par} {via : Via} {itg : Itg} {adm : Adm} {bst : Bst} {ctr : Ctr}
    {out : List Emit} (h : d.memOk = true) (hrings : memWf d.trs.rings = true → memWf trs.rings = true)
    (hpantry : memWf d.trs.pantry = true → memWf trs.pantry = true) (hdump : memWf d.ctr.dump = true → memWf ctr.dump = true) :
    (⟨time, free, glb, pwr, sense, reg, pln, acc, log, eth, swc, trs, cmd, sto, par, via, itg, adm, bst, ctr, out⟩ : Dev).memOk
      = true := by
  obtain ⟨hr, hp, hd⟩ := memOk_iff.1 h
  exact memOk_iff.2 ⟨hrings hr, hpantry hp, hdump hd⟩

/-! ### Resets, which leave every memory empty -/

theorem memOk_clearVolatile (d : Dev) : (clearVolatile d).memOk = true := rfl
theorem memOk_warmClear (d : Dev) : (warmClear d).memOk = true := rfl
theorem memOk_warmReset (d : Dev) (causeBit) : (warmReset d causeBit).memOk = true := rfl
theorem memOk_selfFence (d : Dev) : (selfFence d).memOk = true := rfl
theorem memOk_coldReset (d : Dev) (cause) : (coldReset d cause).memOk = true := rfl

section
variable {d : Dev} (h : d.memOk = true)
include h

/-! ### Commands on media and what completes under them -/

theorem memOk_repairDone (n stripe col r) : (repairDone d n stripe col r).memOk = true := by
  grind [repairDone, memOk_eq, bytes_mk, memOk_selfFence, bytes_advanceAll, bytes_unlockAll, bytes_mediaError]

theorem memOk_fragDone (c stripe col r) : (fragDone d c stripe col r).memOk = true := by
  unfold fragDone
  repeat' split
  any_goals exact h
  · exact memOk_selfFence d
  · simpa [memOk_eq] using h
  · simpa [memOk_eq] using h

theorem memOk_readDone (c stripe col first r) : (readDone d c stripe col first r).memOk = true := by
  unfold readDone
  dsimp only
  repeat' split
  any_goals exact h
  · exact memOk_selfFence d
  · simpa [memOk_eq] using h
  · simpa [memOk_eq] using h

/-! ### Power and temperature -/

theorem memOk_resetCtrlGo (v) : (resetCtrlGo d v).memOk = true := by grind [resetCtrlGo, memOk_eq, memOk_warmReset]

/-! ### Queues and postings -/

theorem memOk_traceFlush : (traceFlush d).memOk = true := by
  unfold traceFlush
  dsimp only
  split
  · exact h
  split
  · exact h
  · exact memOk_mk h id id (memWrites_wf _ _ _)

theorem memOk_traceWrite (bs) : (traceWrite d bs).memOk = true := by grind [traceWrite, memOk_eq, bytes_mk, memOk_traceFlush]
theorem memOk_traceOf (s) : (traceOf d s).memOk = true := by grind [traceOf, memOk_eq, memOk_traceWrite]

theorem memOk_freeSlot (c) : (freeSlot d c).memOk = true := by
  grind [freeSlot, memOk_eq, bytes_mk, bytes_finishDeletes, bytes_lockDropAll, memOk_warmClear, bytes_haltNotice]

theorem memOk_postOne (p q) : (postOne d p q).memOk = true := by
  grind [postOne, memOk_eq, bytes_mk, bytes_readHead, bytes_sendMsg, memOk_freeSlot, memOk_traceOf]

theorem memOk_postGo (l blocked) : (postGo l blocked d).memOk = true := by
  induction l generalizing d blocked with
  | nil => exact h
  | cons p l ih => grind [postGo, memOk_postOne]

theorem memOk_postAll : (postAll d).memOk = true := by grind [postAll, memOk_eq, memOk_postGo]

theorem memOk_enqueuePost (cq cmd slot entry tag wait) :
    (enqueuePost d cq cmd slot entry tag wait).memOk = true := by
  refine memOk_postAll ?_
  rw [memOk_eq, bytes_mirrorThen]
  · simpa [memOk_eq, ↓bytes_mk] using h
  · simp

theorem memOk_generate (c s late waits latency) : (generate d c s late waits latency).memOk = true := by
  grind [generate, memOk_eq, bytes_mk, memOk_freeSlot, bytes_engineCount, bytes_tenantCount, memOk_traceOf, bytes_drawBits,
    bytes_mirror, bytes_innerSend, bytes_cmdCnt, bytes_modCq, memOk_enqueuePost, memOk_foldl, bytes_foldl]

/-! ### Queue administration -/

theorem memOk_createSq (cmd x pd) : (createSq cmd x pd d).memOk = true := by
  unfold createSq
  split
  · simpa [memOk_eq] using h
  · simpa [memOk_eq] using h
  · simp only [memOk_eq, bytes_answerAfter, bytes_mirror]
    rw [← memOk_eq]
    exact memOk_mk h (memZero_wf _ _ _) id id

theorem memOk_attachCq (cmd x pd) : (attachCq cmd x pd d).memOk = true := by
  grind [attachCq, memOk_eq, bytes_mk, bytes_badAt, memOk_postAll, bytes_readHead, bytes_answerAfter]

theorem memOk_discardSq (q) : (discardSq d q).memOk = true := by
  grind [discardSq, memOk_eq, bytes_mk, memOk_freeSlot, bytes_dropTransfers, bytes_cmdCnt, bytes_modSlot, bytes_removeSq, memOk_foldl,
    bytes_foldl]

/-! ### Trestle receive side -/

theorem memOk_placeData (c x p) : (placeData d c x p).memOk = true := by
  have hring (o bs t) : ({ d with trs.rings := memWrites d.trs.rings o bs, trs.ringAt := t } : Dev).memOk = true :=
    memOk_mk h (memWrites_wf _ _ _) id id
  unfold placeData
  split
  · exact h
  split
  · exact h
  dsimp only
  split
  · exact memOk_mk h id (memWrites_wf _ _ _) id
  split
  · exact hring ..
  split
  · simp only [memOk_eq, bytes_mirrorQueue, bytes_modConn]
    exact hring ..
  · simp only [memOk_eq, bytes_mirror]
    exact hring ..

theorem memOk_placeWrite (c p) : (placeWrite d c p).memOk = true := by
  grind [placeWrite, memOk_eq, memOk_placeData, bytes_markRx, bytes_modConn, bytes_deliverTrigger]

theorem memOk_writeGo (c p) : (writeGo d c p).memOk = true := by
  grind [writeGo, memOk_eq, bytes_markRx, bytes_regionNack, memOk_placeWrite, bytes_trsCnt, bytes_modConn, bytes_sendAck, memOk_foldl,
    bytes_foldl]

theorem memOk_rxWrite (c x p) : (rxWrite d c x p).memOk = true := by
  have hmod (f) : (modConn d c f).memOk = true := (memOk_congr (bytes_modConn ..)).trans h
  unfold rxWrite
  dsimp only
  repeat' split
  · simpa [memOk_eq] using h
  · simpa [memOk_eq] using h
  · simpa [memOk_eq] using h
  · exact memOk_writeGo (hmod _) c p

theorem memOk_landFragBack (tag off bs) : (landFragBack d tag off bs).memOk = true := by
  grind [landFragBack, memOk_eq, bytes_mk, memOk_readDone]

theorem memOk_landRead (u off bs last) : (landRead d u off bs last).memOk = true := by
  cases u with
  | cqHead q =>
    simp only [landRead]
    split
    · exact h
    · exact memOk_postAll ((memOk_congr (bytes_modCq ..)).trans h)
  | fragBack tag => exact memOk_landFragBack h tag off bs
  | pull c o => simp only [landRead]; split <;> simpa [memOk_eq] using h
  | relay c a => simpa [landRead, memOk_eq] using h
  | frag n => simpa [landRead, memOk_eq] using h
  | _ => exact h

theorem memOk_rxReadResp (c x p) : (rxReadResp d c x p).memOk = true := by
  grind [rxReadResp, memOk_eq, bytes_modConn, bytes_pump, memOk_landRead, bytes_markRx, bytes_failUse, bytes_sendNack]

theorem memOk_rxAct (net c x p) : (rxAct d net c x p).memOk = true := by
  unfold rxAct
  dsimp only
  split
  any_goals simpa [memOk_eq] using h
  · split <;> simpa [memOk_eq, ↓bytes_mk] using h
  all_goals
    split
    · simpa [memOk_eq] using h
    split
    · simpa [memOk_eq] using h
    · grind [memOk_eq, bytes_pdCnt, memOk_rxWrite, bytes_rxReadReq, memOk_rxReadResp, bytes_markRx, bytes_modConn]

theorem memOk_rxStep3 (net c p) : (rxStep3 d net c p).memOk = true := by grind [rxStep3, memOk_eq, bytes_violate, memOk_rxAct]

theorem memOk_rxConn (c x net p) : (rxConn d c x net p).memOk = true := by
  grind [rxConn, memOk_eq, bytes_trsCnt, bytes_park, bytes_wantCtx, memOk_rxStep3]

theorem memOk_rxPacket (net p) : (rxPacket d net p).memOk = true := by
  grind [rxPacket, memOk_eq, bytes_trsCnt, bytes_trsCntN, bytes_rxConnect, memOk_rxConn, bytes_resumeUnknown, bytes_nackBadConn]

theorem memOk_ctxReady (c) : (ctxReady d c).memOk = true := by
  grind [ctxReady, memOk_eq, bytes_mk, memOk_rxStep3, bytes_pump, bytes_timerGo, memOk_foldl, bytes_foldl]

/-! ### The mirror of a pair -/

theorem memOk_startSync : (startSync d).memOk = true := by
  simp only [startSync, memOk_eq, bytes_sendKeys, bytes_foldl, bytes_mirror, bytes_reserveOn, bytes_emits, implies_true]
  rw [← memOk_eq]
  exact memOk_mk h (memZero_wf _ _ _) id id

theorem memOk_newRing (q r) : (newRing d q r).memOk = true := by
  unfold newRing
  split
  · exact h
  · exact memOk_mk h (memZero_wf _ _ _) id id

theorem memOk_takeState (i) : (takeState d i).memOk = true := by
  cases i with
  | sq q r => cases r with
    | none => exact h
    | some x => exact (memOk_congr (bytes_mk rfl rfl rfl)).trans (memOk_newRing h q x)
  | pd n e revoke => simpa [takeState, memOk_eq, ↓bytes_mk] using h
  | member k code =>
    simp only [takeState]
    split
    · exact h
    · exact h
  | _ => exact h

theorem memOk_applyItem (i) : (applyItem d i).memOk = true := by
  cases i with
  | ring off bs => exact memOk_mk h (memWrites_wf _ _ _) id id
  | st x => exact memOk_takeState h x
  | completion cq slot entry tag =>
    simp only [applyItem]
    split <;> exact h
  | _ => exact h

theorem memOk_takeItems (m l) : (takeItems d m l).memOk = true := by
  induction l generalizing d m with
  | nil => exact h
  | cons i l ih =>
    unfold takeItems
    split
    · exact ih h _
    split
    · exact ih (memOk_applyItem (d := { d with par.rxMseq := m + 1 }) h i) _
    · exact h

theorem memOk_releaseAcks : (releaseAcks d).memOk = true := by
  grind [releaseAcks, memOk_eq, bytes_mk, bytes_partnerReached, bytes_finishDeletes, memOk_postAll, bytes_advanceAll, bytes_gatedGo,
    bytes_ackAct, memOk_foldl, bytes_foldl]

/-! ### Take-over -/

theorem memOk_install (moved a byPlan) : (install d moved a byPlan).memOk = true := by
  grind [install, memOk_eq, bytes_mk, bytes_installForwarded, bytes_installQueues, bytes_installGroups, bytes_advanceAll,
    memOk_postAll, bytes_matchLate, bytes_replayAll]

theorem memOk_winArbitration : (winArbitration d).memOk = true := by
  grind [winArbitration, memOk_eq, bytes_mk, bytes_maybeRecover, bytes_joinOver, bytes_adoptAddrs, bytes_gatedGo, bytes_modDrive,
    bytes_fenceStep, bytes_emits, memOk_foldl, bytes_foldl]

theorem memOk_startTakeover (cause) : (startTakeover d cause).memOk = true := by
  grind [startTakeover, memOk_eq, bytes_mk, bytes_enter, bytes_delayAll, bytes_sliceInterrupt, bytes_parEvent, bytes_parCnt,
    memOk_winArbitration, bytes_askArbiter]

theorem memOk_losePartner (cause) : (losePartner d cause).memOk = true := by
  grind [losePartner, memOk_eq, bytes_mk, bytes_parCnt, memOk_releaseAcks, bytes_parEvent, memOk_startTakeover]

theorem memOk_takeoverEnd : (takeoverEnd d).memOk = true := by
  grind [takeoverEnd, memOk_eq, bytes_mk, bytes_parEvent, memOk_releaseAcks]

/-! ### The pair -/

theorem memOk_sameSide : (sameSide d).memOk = true := by grind [sameSide, memOk_eq, bytes_mk, memOk_releaseAcks]

/-! ### The viaduct -/

theorem memOk_useDone (u r) : (useDone d u r).memOk = true := by
  cases u with
  | none => exact h
  | frag c stripe col =>
    simp only [useDone]
    split
    · exact memOk_repairDone h ..
    · exact memOk_fragDone h ..
  | read c stripe col first => exact memOk_readDone h ..
  | bitmap v region => simpa [useDone, memOk_eq] using h
  | journal g copy jseq => simpa [useDone, memOk_eq] using h

/-! ### Self-test and faults -/

theorem memOk_slotLost (off) : (slotLost d off).memOk = true := by
  have hput (x bs) : ({ d with trs.rings := memWrites d.trs.rings x bs } : Dev).memOk = true := memOk_mk h (memWrites_wf _ _ _) id id
  unfold slotLost
  dsimp only
  split
  · exact h
  · rw [apply_ite Dev.memOk, h, hput, ite_self]

theorem memOk_recoverWord (addr pc) : (recoverWord d addr pc).memOk = true := by
  have hslot (off) : (slotLost d off).memOk = true := memOk_slotLost h off
  have hzero (x n) : ({ d with trs.pantry := memZero d.trs.pantry x n } : Dev).memOk = true := memOk_mk h id (memZero_wf _ _ _) id
  unfold recoverWord
  dsimp only
  split
  · simpa [memOk_eq, ↓bytes_mk] using h
  · split <;> simpa [memOk_eq] using h
  · split
    · exact h
    split
    · exact h
    · exact (memOk_congr (bytes_faultEvent ..)).trans (hslot _)
  · split
    · simpa [memOk_eq] using h
    · exact h
  · simpa [memOk_eq] using h
  · exact h
  · simpa [memOk_eq] using h
  · simpa [memOk_eq] using h
  · exact (memOk_congr (bytes_faultEvent ..)).trans (hzero ..)

/-! ### The register bus -/

theorem memOk_ownWrite (m o v) : (ownWrite d m o v).memOk = true := by
  have hreset : (resetCtrlGo d v).memOk = true := memOk_resetCtrlGo h v
  simp only [ownWrite, memOk_eq, bytes_ite, bytes_wdogGo, bytes_pwrCapGo, bytes_thermCfgGo, bytes_pwrCtrlGo, bytes_commitWrite,
    bytes_lockClaim, bytes_unlockBy, bytes_pageEntryW0, bytes_pageEntryW1, bytes_laneCtrl, bytes_fdbFlush, bytes_pdSelGo,
    bytes_putLive, bytes_pdCtrlGo, bytes_cmdPdSelGo, bytes_setSticky, bytes_msubGo, bytes_keyEntry, bytes_fuseGo, bytes_privSel,
    bytes_ctrEntry, bytes_gpioGo, bytes_mk, ite_self]
  split
  · split <;> assumption
  · exact h

theorem memOk_plainWrite (m o v) : (plainWrite d m o v).memOk = true := by
  grind [plainWrite, memOk_eq, bytes_stageReg, bytes_writeRw, bytes_clearBits, memOk_ownWrite]

theorem memOk_busWrite (m o v) : (busWrite d m o v).memOk = true := by grind [busWrite, memOk_eq, bytes_deny, memOk_plainWrite]

/-! ### The counter unit -/

theorem memOk_takeSnapshot (mask) : (takeSnapshot d mask).memOk = true := by
  unfold takeSnapshot
  extract_lets d₁ d₂ bs at_ off
  have h₂ : d₂.memOk = true := by simpa [d₂, d₁, memOk_eq] using h
  clear_value bs d₂
  exact memOk_mk h₂ id id (memWrites_wf _ _ _)

end

/-! ### Outcomes -/

/-- Where a command answers a next state, the memories of the device there are in canonical form. -/
def MemOkAfter (o : Host.Outcome State Fault Refusal) : Prop := ∀ t, o = .next t → t.dev.memOk = true

theorem memOk_settle {d : Dev} (h : d.memOk = true) : (settle d).memOk = true := (memOk_congr (bytes_settle d)).trans h

theorem memOk_forCmd {d : Dev} (h : d.memOk = true) (c) {f : Dev → Dev} (hf : ∀ d, d.memOk = true → (f d).memOk = true) :
    (forCmd d c f).memOk = true := by
  have hf' : (f (actFor d c)).memOk = true := hf _ ((memOk_congr (bytes_actFor d c)).trans h)
  unfold forCmd
  dsimp only
  split
  · split
    · exact hf'
    · exact (memOk_congr (bytes_modSlot ..)).trans hf'
  · exact hf'

theorem memOk_needPage {d : Dev} (h : d.memOk = true) (c x page right) {f : Dev → Dev}
    (hf : ∀ d, d.memOk = true → (f d).memOk = true) : (needPage d c x page right f).memOk = true := by
  unfold needPage
  split
  · exact hf d h
  · simpa [memOk_eq] using h

theorem bytes_begun {cmd op : Nat} {c : Prop} [Decidable c] {f : Slot → Dev → Dev} (hf : ∀ x d, (f x d).bytes = d.bytes) (d : Dev) :
    (if c then d else match adminStart d cmd op with
      | none => d
      | some (x, e) => forCmd e cmd (f x)).bytes = d.bytes := by
  split
  · rfl
  split
  · rfl
  · next hx => exact (bytes_forCmd _ _ _ (hf _)).trans (bytes_adminStart hx)

section
variable {s : State} (h : s.dev.memOk = true)
include h

theorem memOkAfter_act {f : Dev → Dev} (hf : ∀ d, d.memOk = true → (f d).memOk = true) : MemOkAfter (act s f) := by
  rintro t ⟨rfl⟩
  exact memOk_settle (hf _ h)

theorem memOkAfter_actIf {p : Dev → Bool} {f : Dev → Dev} (hf : ∀ d, d.memOk = true → (f d).memOk = true) :
    MemOkAfter (actIf p s f) := by
  unfold actIf
  split
  · exact memOkAfter_act h hf
  · rintro t ⟨rfl⟩
    exact h

theorem memOkAfter_actIf_of_bytes {p : Dev → Bool} {f : Dev → Dev} (hf : ∀ d, (f d).bytes = d.bytes) : MemOkAfter (actIf p s f) :=
  memOkAfter_actIf h fun d hd => (memOk_congr (hf d)).trans hd

/-! ### Administration commands: what they run once they have begun -/

theorem memOkAfter_adminRun {cmd op : Nat} {f : Slot → Dev → Dev} (hf : ∀ x d, d.memOk = true → (f x d).memOk = true) :
    MemOkAfter (adminRun s cmd op f) :=
  memOkAfter_actIf h fun d hd => by
    split
    · next hx => exact memOk_forCmd ((memOk_congr (bytes_adminStart hx)).trans hd) _ (hf _)
    · exact hd

theorem memOkAfter_adminBlock {cmd op : Nat} {blk : List Byte} {f : Slot → Dev → Dev} (hf : ∀ x d, (f x d).bytes = d.bytes) :
    MemOkAfter (adminBlock s cmd op blk f) :=
  memOkAfter_actIf_of_bytes h fun d => by grind [bytes_forCmd, bytes_adminStart]

theorem memOkAfter_queueCreate {cmd qt : Nat} {bad : Dev → Slot → List (Nat × Bool)} {f : Slot → Nat → Dev → Dev}
    (hf : ∀ x pd d, d.memOk = true → (f x pd d).memOk = true) : MemOkAfter (queueCreate cmd qt s bad f) :=
  memOkAfter_actIf h fun d hd => by
    split
    · exact hd
    split
    · exact hd
    next x e hx =>
      have he : e.memOk = true := (memOk_congr (bytes_adminStart hx)).trans hd
      have hgo (d : Dev) (hd : d.memOk = true) : (match queueBad x (bad d x) with
          | some off => badAt d cmd off
          | none => f x (leAt x.cap 44 2 % 4096) d).memOk = true := by
        split
        · simpa [memOk_eq] using hd
        · exact hf _ _ _ hd
      refine memOk_forCmd he _ fun d hd => ?_
      dsimp only
      split
      · exact hgo d hd
      · exact memOk_needPage hd _ _ _ _ hgo

theorem memOkAfter_queueDelete {cmd qt : Nat} {f : Slot → Nat → Dev → Dev} (hf : ∀ x n d, (f x n d).bytes = d.bytes) :
    MemOkAfter (queueDelete cmd qt s f) :=
  memOkAfter_actIf_of_bytes h fun _ => bytes_begun (fun x d => by split <;> simp [hf]) _

theorem memOkAfter_reshapeRun {cmd op len : Nat} {blk : List Byte} {f : Slot → Volume → Dev → Dev}
    (hf : ∀ x vol d, (f x vol d).bytes = d.bytes) : MemOkAfter (reshapeRun cmd op len blk s f) :=
  memOkAfter_actIf_of_bytes h fun _ => bytes_begun (fun x d => by simp [hf]) _

theorem memOkAfter_memberRun {cmd action : Nat} {blk : List Byte} {own : List (Nat × Bool)} {f : Slot → Dev → Dev}
    (hf : ∀ x d, (f x d).bytes = d.bytes) : MemOkAfter (memberRun cmd action blk s own f) :=
  memOkAfter_actIf_of_bytes h fun _ => bytes_begun (fun x d => by
    split
    · simp
    · exact bytes_needPage _ _ _ _ _ _ fun d => by split <;> simp [hf]) _

theorem memOkAfter_slotRun {cmd action : Nat} {blk : List Byte} {ok : Dev → Drive → Bool} {f : Nat → Dev → Dev}
    (hf : ∀ k d, (f k d).bytes = d.bytes) : MemOkAfter (slotRun cmd action blk s ok f) :=
  memOkAfter_memberRun h fun x d => by simp [hf]

theorem memOkAfter_volRun {cmd action : Nat} {blk : List Byte} {own : List (Nat × Bool)} {f : Nat → Volume → Dev → Dev}
    (hf : ∀ v vol d, (f v vol d).bytes = d.bytes) : MemOkAfter (volRun cmd action blk s own f) :=
  memOkAfter_memberRun h fun x d => by dsimp only; split <;> simp [hf]

theorem memOkAfter_ownershipRun {cmd action : Nat} {blk : List Byte} {own : Dev → List (Nat × Bool)} {f : Dev → Dev}
    (hf : ∀ d, (f d).bytes = d.bytes) : MemOkAfter (ownershipRun cmd action blk s own f) :=
  memOkAfter_actIf_of_bytes h fun _ => bytes_begun (fun x d => by
    split
    · simp
    · exact bytes_needPage _ _ _ _ _ _ fun d => by split <;> simp [hf]) _

theorem memOkAfter_viaductRun {cmd action : Nat} {blk : List Byte} {used : List Nat} {own : Dev → List (Nat × Bool)} {f : Dev → Dev}
    (hf : ∀ d, (f d).bytes = d.bytes) : MemOkAfter (viaductRun cmd action blk s used own f) :=
  memOkAfter_actIf_of_bytes h fun _ => bytes_begun (fun x d => by
    split
    · simp
    · exact bytes_needPage _ _ _ _ _ _ fun d => by dsimp only; split <;> simp [hf]) _

theorem memOkAfter_opRun {cmd code : Nat} {blk : List Byte} {mine : Bool} {fields : List (Nat × Bool)} {start : Dev → Dev}
    (hstart : ∀ d, (start d).bytes = d.bytes) : MemOkAfter (opRun cmd code blk s mine fields start) :=
  memOkAfter_actIf_of_bytes h fun _ => bytes_begun (fun x d => by
    have hkey (vol : Nat) (vols : Dev → List Nat) (d : Dev) : (match blockBad fields with
        | some off => badBlock d cmd off
        | none => if (if code == 0x8C then 1 else 2) == 2 && leAt blk 10 2 != 0xFFFF then
            needKey d cmd x (leAt blk 10 2) fun d => opGo d cmd (opOf d vol (if code == 0x8C then 1 else 2) blk) (vols d) start
          else opGo d cmd (opOf d vol (if code == 0x8C then 1 else 2) blk) (vols d) start).bytes = d.bytes := by
      split <;> simp [hstart]
    dsimp only
    split
    · simp
    split
    · split
      · simp
      · exact bytes_needVol _ _ _ _ _ fun vol d => bytes_needOwner _ _ _ _ fun d => hkey x.vol (fun _ => [x.vol]) d
    split
    · split
      · simp
      · exact bytes_needPage _ _ _ _ _ _ fun d => hkey 0xFFFF shelfVols d
    · simp) _

theorem memOkAfter_testRun {cmd code : Nat} {f : Dev → Dev} (hf : ∀ d, (f d).bytes = d.bytes) : MemOkAfter (testRun cmd code s f) :=
  memOkAfter_actIf_of_bytes h fun d => by
    split
    · rfl
    · exact bytes_begun (fun x d => by simp [hf]) d

theorem memOkAfter_setupRun {cmd action : Nat} {blk : List Byte} {first : List (Nat × Bool)} {sets : Dev → List Nat}
    {fields : List (Nat × Bool)} {f : Slot → Dev → Dev} (hf : ∀ x d, d.memOk = true → (f x d).memOk = true) :
    MemOkAfter (setupRun cmd action blk s first sets fields f) :=
  memOkAfter_actIf h fun d hd => by
    dsimp only
    split
    · exact hd
    split
    · exact hd
    next hx =>
      refine memOk_forCmd ((memOk_congr (bytes_adminStart hx)).trans hd) _ fun d hd => ?_
      split
      · simpa [memOk_eq] using hd
      split
      · simpa [memOk_eq] using hd
      split
      · simpa [memOk_eq] using hd
      unfold needSets
      split
      · simpa [memOk_eq] using hd
      split
      · simpa [memOk_eq] using hd
      · exact hf _ d hd

theorem memOkAfter_arrive {net : Net} {p : Pkt} : MemOkAfter (arrive s net p) :=
  memOkAfter_actIf h fun _ hd => memOk_rxPacket hd net p

/-! ### The commands, one by one -/

/-! #### Acknowledgement, paths and timers -/

theorem memOkAfter_execRtoExpire (c) : MemOkAfter (execRtoExpire c s) := memOkAfter_actIf_of_bytes h fun d => by simp

theorem memOkAfter_execPathProbeTimer (c path) : MemOkAfter (execPathProbeTimer c path s) := memOkAfter_actIf_of_bytes h fun d => by
  simp

theorem memOkAfter_execAckCoalesceExpire (c) : MemOkAfter (execAckCoalesceExpire c s) := memOkAfter_actIf_of_bytes h fun d => by simp
theorem memOkAfter_execDeadTimerExpire (c) : MemOkAfter (execDeadTimerExpire c s) := memOkAfter_actIf_of_bytes h fun d => by simp
theorem memOkAfter_execClosingTimeout (c) : MemOkAfter (execClosingTimeout c s) := memOkAfter_actIf_of_bytes h fun d => by simp

theorem memOkAfter_execTimeWaitExpire (c) : MemOkAfter (execTimeWaitExpire c s) := memOkAfter_actIf_of_bytes h fun d => by
  simp [↓bytes_mk]

theorem memOkAfter_execResumeRetry (c) : MemOkAfter (execResumeRetry c s) := memOkAfter_actIf_of_bytes h fun d => by simp

/-! #### Commands on media and what completes under them -/

theorem memOkAfter_execReadCmd (cmd) : MemOkAfter (execReadCmd cmd s) := memOkAfter_actIf_of_bytes h fun d => by simp
theorem memOkAfter_execWriteCmd (cmd) : MemOkAfter (execWriteCmd cmd s) := memOkAfter_actIf_of_bytes h fun d => by simp
theorem memOkAfter_execWriteZeroes (cmd) : MemOkAfter (execWriteZeroes cmd s) := memOkAfter_actIf_of_bytes h fun d => by simp
theorem memOkAfter_execDeallocate (cmd) : MemOkAfter (execDeallocate cmd s) := memOkAfter_actIf_of_bytes h fun d => by simp
theorem memOkAfter_execVerifyCmd (cmd) : MemOkAfter (execVerifyCmd cmd s) := memOkAfter_actIf_of_bytes h fun d => by simp
theorem memOkAfter_execReadTags (cmd) : MemOkAfter (execReadTags cmd s) := memOkAfter_actIf_of_bytes h fun d => by simp

theorem memOkAfter_execFlushCmd (cmd) : MemOkAfter (execFlushCmd cmd s) := memOkAfter_actIf_of_bytes h fun d => by
  split <;> simp

theorem memOkAfter_execTagComputeDone (cmd granule) : MemOkAfter (execTagComputeDone cmd granule s) :=
  memOkAfter_actIf_of_bytes h fun d => by grind [bytes_writeTag, bytes_readTag]

theorem memOkAfter_execParityComputeDone (cmd stripe) : MemOkAfter (execParityComputeDone cmd stripe s) :=
  memOkAfter_actIf_of_bytes h fun d => by grind [bytes_advance, bytes_buildFrags, bytes_modWork]

theorem memOkAfter_execBitmapWriteComplete (vol region ok) : MemOkAfter (execBitmapWriteComplete vol region ok s) :=
  memOkAfter_actIf_of_bytes h fun d => by simp

theorem memOkAfter_execDirtyIdleExpire (vol region) : MemOkAfter (execDirtyIdleExpire vol region s) :=
  memOkAfter_actIf_of_bytes h fun d => by simp

theorem memOkAfter_execJournalWriteComplete (group copy jseq ok) : MemOkAfter (execJournalWriteComplete group copy jseq ok s) :=
  memOkAfter_actIf_of_bytes h fun d => by simp

theorem memOkAfter_execJournalCheckpoint (group) : MemOkAfter (execJournalCheckpoint group s) :=
  memOkAfter_actIf_of_bytes h fun d => by simp

theorem memOkAfter_execFragmentWriteComplete (cmd stripe col r) : MemOkAfter (execFragmentWriteComplete cmd stripe col r s) :=
  memOkAfter_actIf h fun d hd => by grind [memOk_eq, bytes_proxyDone, memOk_repairDone, memOk_fragDone]

theorem memOkAfter_execDriveReadComplete (cmd stripe col first r) : MemOkAfter (execDriveReadComplete cmd stripe col first r s) :=
  memOkAfter_actIf h fun d hd => by grind [memOk_eq, bytes_proxyDone, memOk_readDone]

/-! #### Drive faults and background work -/

theorem memOkAfter_execDriveFaultReport (slot report) : MemOkAfter (execDriveFaultReport slot report s) :=
  memOkAfter_actIf_of_bytes h fun d => by simp

theorem memOkAfter_execCstsPoll (slot cfs) : MemOkAfter (execCstsPoll slot cfs s) := memOkAfter_actIf_of_bytes h fun d => by simp
theorem memOkAfter_execDriveCmdTimeout (slot) : MemOkAfter (execDriveCmdTimeout slot s) := memOkAfter_actIf_of_bytes h fun d => by simp

theorem memOkAfter_execHealthLogPoll (slot warning) : MemOkAfter (execHealthLogPoll slot warning s) :=
  memOkAfter_actIf_of_bytes h fun d => by simp

theorem memOkAfter_execAsyncEventNotice (slot warning) : MemOkAfter (execAsyncEventNotice slot warning s) :=
  memOkAfter_actIf_of_bytes h fun d => by simp

theorem memOkAfter_execMemberAnswer (slot) : MemOkAfter (execMemberAnswer slot s) := memOkAfter_actIf_of_bytes h fun _ => rfl

theorem memOkAfter_execMemberFailTimeout (slot cause) : MemOkAfter (execMemberFailTimeout slot cause s) :=
  memOkAfter_actIf_of_bytes h fun d => by simp

theorem memOkAfter_execCatchupComplete (slot) : MemOkAfter (execCatchupComplete slot s) := memOkAfter_actIf_of_bytes h fun d => by
  grind [bytes_memberChange, bytes_memberEvent, bytes_setMember, bytes_modDrive, bytes_countN, bytes_remirrorMissing,
    bytes_writeRecords, bytes_rbEvent]

theorem memOkAfter_execJournalRemirrorComplete (group copy) : MemOkAfter (execJournalRemirrorComplete group copy s) :=
  memOkAfter_actIf_of_bytes h fun d => by split <;> simp

theorem memOkAfter_execBandRestoreStart (group) : MemOkAfter (execBandRestoreStart group s) := memOkAfter_actIf_of_bytes h fun d => by
  split <;> simp

theorem memOkAfter_execBandRestoreComplete (group) : MemOkAfter (execBandRestoreComplete group s) :=
  memOkAfter_actIf_of_bytes h fun d => by grind [bytes_modGroup, bytes_bandLosses, bytes_rbCnt, bytes_rbEvent, bytes_advanceAll]

theorem memOkAfter_execCopybackComplete (group position) : MemOkAfter (execCopybackComplete group position s) :=
  memOkAfter_actIf_of_bytes h fun d => by split <;> simp

theorem memOkAfter_execRebuildProgressTick (group mbps gibLeft) : MemOkAfter (execRebuildProgressTick group mbps gibLeft s) :=
  memOkAfter_actIf_of_bytes h fun d => by grind [bytes_foldl, bytes_modGroup, bytes_progressRec]

theorem memOkAfter_execReshapeUnitCopy (vol) : MemOkAfter (execReshapeUnitCopy vol s) := memOkAfter_actIf_of_bytes h fun d => by
  grind [bytes_mk, bytes_foldl, bytes_jLog, bytes_rbCnt, bytes_takeCursor]

theorem memOkAfter_execReshapeSwitch (vol) : MemOkAfter (execReshapeSwitch vol s) := memOkAfter_actIf_of_bytes h fun d => by
  grind [bytes_jLog, bytes_renumber, bytes_modVol, bytes_writeRecordsFor, bytes_writeStructs, bytes_rbEvent]

theorem memOkAfter_execReshapeAbandonDone (vol) : MemOkAfter (execReshapeAbandonDone vol s) := memOkAfter_actIf_of_bytes h fun d => by
  grind [bytes_mk, bytes_modVol, bytes_writeRecordsFor, bytes_rbEvent]

/-! #### Power and temperature -/

theorem memOkAfter_execAonPowerOn : MemOkAfter (execAonPowerOn s) := memOkAfter_actIf h fun d hd => by
  grind [memOk_eq, memOk_coldReset]

theorem memOkAfter_execAonPowerLoss : MemOkAfter (execAonPowerLoss s) :=
  memOkAfter_act h fun d _ => memOk_coldReset d 0

theorem memOkAfter_execPorstAssert : MemOkAfter (execPorstAssert s) := memOkAfter_actIf h fun d hd => by
  grind [memOk_eq, memOk_coldReset]

theorem memOkAfter_execResetRelease (pairSide boot1 boot0) : MemOkAfter (execResetRelease pairSide boot1 boot0 s) :=
  memOkAfter_actIf_of_bytes h fun d => by simp [↓bytes_mk]

theorem memOkAfter_execAvsInitialSet (marginMv) : MemOkAfter (execAvsInitialSet marginMv s) := memOkAfter_actIf_of_bytes h fun _ => rfl

theorem memOkAfter_execAgingMonitorRead (slowdown marginPct more) : MemOkAfter (execAgingMonitorRead slowdown marginPct more s) :=
  memOkAfter_actIf_of_bytes h fun d => by simp [↓bytes_mk]

theorem memOkAfter_execPwrFailRecognise : MemOkAfter (execPwrFailRecognise s) := memOkAfter_actIf_of_bytes h fun d => by
  simp [↓bytes_mk]

theorem memOkAfter_execPwrFailClear : MemOkAfter (execPwrFailClear s) := memOkAfter_actIf_of_bytes h fun _ => rfl

theorem memOkAfter_execPresenceChange (slot present) : MemOkAfter (execPresenceChange slot present s) :=
  memOkAfter_actIf_of_bytes h fun d => by simp [↓bytes_mk]

theorem memOkAfter_execMgtGpioOutSet (m v) : MemOkAfter (execMgtGpioOutSet m v s) := memOkAfter_actIf_of_bytes h fun d => by simp
theorem memOkAfter_execMgtGpioOutClr (m v) : MemOkAfter (execMgtGpioOutClr m v s) := memOkAfter_actIf_of_bytes h fun d => by simp
theorem memOkAfter_execPmbusAlert (rail) : MemOkAfter (execPmbusAlert rail s) := memOkAfter_actIf_of_bytes h fun _ => rfl

theorem memOkAfter_execDomainSwitchOnRequest (dom takeover) : MemOkAfter (execDomainSwitchOnRequest dom takeover s) :=
  memOkAfter_actIf_of_bytes h fun d => by simp

theorem memOkAfter_execDomainSwitchOffRequest (dom takeover) : MemOkAfter (execDomainSwitchOffRequest dom takeover s) :=
  memOkAfter_actIf_of_bytes h fun d => by simp

theorem memOkAfter_execDomainReady (dom) : MemOkAfter (execDomainReady dom s) := memOkAfter_actIf_of_bytes h fun d => by simp

theorem memOkAfter_execDomainOffComplete (dom) : MemOkAfter (execDomainOffComplete dom s) := memOkAfter_actIf_of_bytes h fun d => by
  simp

theorem memOkAfter_execDeepIdleEnter (m) : MemOkAfter (execDeepIdleEnter m s) := memOkAfter_actIf_of_bytes h fun d => by simp
theorem memOkAfter_execDeepIdleExit (m) : MemOkAfter (execDeepIdleExit m s) := memOkAfter_actIf_of_bytes h fun d => by simp

theorem memOkAfter_execLoadGovernorTick (demand) : MemOkAfter (execLoadGovernorTick demand s) :=
  memOkAfter_actIf_of_bytes h fun _ => rfl

theorem memOkAfter_execPowerEstimateTick (estimateMw) : MemOkAfter (execPowerEstimateTick estimateMw s) :=
  memOkAfter_actIf_of_bytes h fun d => by simp [↓bytes_mk]

theorem memOkAfter_execPowerTelemetryCorrect (powerMw railMv railMa) : MemOkAfter (execPowerTelemetryCorrect powerMw railMv railMa s) :=
  memOkAfter_actIf_of_bytes h fun _ => rfl

theorem memOkAfter_execPwrCapWrite (m v) : MemOkAfter (execPwrCapWrite m v s) := memOkAfter_actIf_of_bytes h fun d => by simp
theorem memOkAfter_execPwrThermCfgWrite (m v) : MemOkAfter (execPwrThermCfgWrite m v s) := memOkAfter_actIf_of_bytes h fun d => by simp
theorem memOkAfter_execPowerAttnClear : MemOkAfter (execPowerAttnClear s) := memOkAfter_actIf_of_bytes h fun _ => rfl

theorem memOkAfter_execSensorScan (readings) : MemOkAfter (execSensorScan readings s) := memOkAfter_actIf_of_bytes h fun d => by
  simp [↓bytes_mk]

theorem memOkAfter_execThermtrip (sensor) : MemOkAfter (execThermtrip sensor s) := memOkAfter_actIf_of_bytes h fun d => by simp

theorem memOkAfter_execThermalGovernorTick : MemOkAfter (execThermalGovernorTick s) :=
  memOkAfter_act h fun d hd => by dsimp only; split <;> exact hd

theorem memOkAfter_execHaltEntry : MemOkAfter (execHaltEntry s) := memOkAfter_actIf h fun d hd => by
  grind [bytes_mk, memOk_eq, bytes_enter, memOk_clearVolatile]

theorem memOkAfter_execGlbResetCtrlWrite (m v) : MemOkAfter (execGlbResetCtrlWrite m v s) :=
  memOkAfter_actIf h fun d hd => by grind [writeAccess, memOk_eq, memOk_resetCtrlGo, bytes_deny]

theorem memOkAfter_execGlbWdogKick (m v) : MemOkAfter (execGlbWdogKick m v s) := memOkAfter_actIf_of_bytes h fun d => by simp

theorem memOkAfter_execWatchdogExpire : MemOkAfter (execWatchdogExpire s) := memOkAfter_actIf h fun d hd => by
  grind [memOk_eq, memOk_warmReset]

/-! #### Start-up -/

theorem memOkAfter_execBootSourceRead (flashB img) : MemOkAfter (execBootSourceRead flashB img s) := by
  dsimp only [execBootSourceRead]
  exact memOkAfter_actIf_of_bytes h fun d => by simp [↓bytes_mk]

theorem memOkAfter_execMgmtImageDelivery (m img) : MemOkAfter (execMgmtImageDelivery m img s) :=
  memOkAfter_actIf_of_bytes h fun d => by simp

theorem memOkAfter_execFloorPlanCheck (source img) : MemOkAfter (execFloorPlanCheck source img s) :=
  memOkAfter_actIf_of_bytes h fun d => by simp [↓bytes_mk]

theorem memOkAfter_execPlanApply : MemOkAfter (execPlanApply s) := memOkAfter_actIf_of_bytes h fun d => by split <;> simp

theorem memOkAfter_execBootBist (fails found) : MemOkAfter (execBootBist fails found s) := memOkAfter_actIf_of_bytes h fun d => by
  dsimp only; split <;> simp

theorem memOkAfter_execDrivePerstRelease : MemOkAfter (execDrivePerstRelease s) := memOkAfter_actIf_of_bytes h fun d => by
  split <;> simp

theorem memOkAfter_execDriveLinkUp (slot rate width) : MemOkAfter (execDriveLinkUp slot rate width s) :=
  memOkAfter_actIf_of_bytes h fun _ => rfl

theorem memOkAfter_execDriveReady (slot id) : MemOkAfter (execDriveReady slot id s) := memOkAfter_actIf_of_bytes h fun d => by simp

theorem memOkAfter_execDriveReadyTimeout (slot) : MemOkAfter (execDriveReadyTimeout slot s) := memOkAfter_actIf_of_bytes h fun d => by
  simp

/-! #### Queues and postings -/

theorem memOkAfter_execCompletionGenerate (cmd late waits latencyNs) : MemOkAfter (execCompletionGenerate cmd late waits latencyNs s) :=
  memOkAfter_actIf h fun d hd => by grind [memOk_eq, bytes_failXfer, bytes_advanceAll, bytes_finishDeletes, memOk_generate]

theorem memOkAfter_execRingFetch (sq) : MemOkAfter (execRingFetch sq s) := memOkAfter_actIf_of_bytes h fun d => by simp

theorem memOkAfter_execCqSpacePoll (cq) : MemOkAfter (execCqSpacePoll cq s) := memOkAfter_actIf h fun d hd => by
  grind [memOk_eq, bytes_readHead, memOk_postAll]

/-! #### Admission -/

theorem memOkAfter_execCommandAdmit : MemOkAfter (execCommandAdmit s) := memOkAfter_actIf_of_bytes h fun d => by simp
theorem memOkAfter_execSlotWaitTimeout (cls) : MemOkAfter (execSlotWaitTimeout cls s) := memOkAfter_actIf_of_bytes h fun d => by simp
theorem memOkAfter_execHoldTimeout (cmd) : MemOkAfter (execHoldTimeout cmd s) := memOkAfter_actIf_of_bytes h fun d => by simp

theorem memOkAfter_execCapRefuseTimeout (sq) : MemOkAfter (execCapRefuseTimeout sq s) := memOkAfter_actIf_of_bytes h fun d => by
  grind [bytes_foldl, bytes_answer, bytes_dropTransfers, bytes_refuseCap]

theorem memOkAfter_execTriggerLingerExpire : MemOkAfter (execTriggerLingerExpire s) := memOkAfter_actIf_of_bytes h fun d => by
  split <;> simp [↓bytes_mk]

/-! #### Queue administration -/

theorem memOkAfter_execQueueCreateSq (cmd) : MemOkAfter (execQueueCreateSq cmd s) := memOkAfter_queueCreate h fun x pd d hd => by
  grind [memOk_eq, memOk_createSq]

theorem memOkAfter_execQueueCreateCq (cmd) : MemOkAfter (execQueueCreateCq cmd s) := memOkAfter_queueCreate h fun x pd d hd => by
  grind [memOk_eq, bytes_createCq]

theorem memOkAfter_execQueueAttach (cmd) : MemOkAfter (execQueueAttach cmd s) := memOkAfter_queueCreate h fun x pd d hd => by
  grind [memOk_eq, memOk_attachCq]

theorem memOkAfter_execAbortCmd (cmd) : MemOkAfter (execAbortCmd cmd s) :=
  memOkAfter_actIf_of_bytes h fun d => by grind [bytes_adminStart, bytes_advanceAll, bytes_abortGo]

theorem memOkAfter_execReleaseCmd (cmd) : MemOkAfter (execReleaseCmd cmd s) :=
  memOkAfter_actIf_of_bytes h fun d => by grind [bytes_adminStart, bytes_succeed, bytes_releaseTag]

theorem memOkAfter_execQueueDeleteSq (cmd) : MemOkAfter (execQueueDeleteSq cmd s) := memOkAfter_queueDelete h fun x n d => by
  split <;> simp

theorem memOkAfter_execQueueDeleteCq (cmd) : MemOkAfter (execQueueDeleteCq cmd s) := memOkAfter_queueDelete h fun x n d => by
  split <;> simp [↓bytes_mk]

theorem memOkAfter_execCqDetachTimeout (cq) : MemOkAfter (execCqDetachTimeout cq s) := memOkAfter_actIf h fun d hd => by
  grind [bytes_mk, memOk_eq, memOk_foldl, bytes_foldl, memOk_discardSq, bytes_advanceAll, bytes_mirror]

theorem memOkAfter_execRegionCreate (cmd) : MemOkAfter (execRegionCreate cmd s) :=
  memOkAfter_adminRun h fun x d hd => (memOk_congr (by simp)).trans hd

theorem memOkAfter_execRegionDestroy (cmd) : MemOkAfter (execRegionDestroy cmd s) :=
  memOkAfter_adminRun h fun x d hd => (memOk_congr (by dsimp only; split <;> simp [↓bytes_mk])).trans hd

theorem memOkAfter_execIdentifyDevice (cmd) : MemOkAfter (execIdentifyDevice cmd s) :=
  memOkAfter_actIf_of_bytes h fun d => by grind [bytes_adminStart, bytes_badAt, bytes_succeed, bytes_sendHost]

theorem memOkAfter_execCmdPdSelWrite (m v) : MemOkAfter (execCmdPdSelWrite m v s) := memOkAfter_actIf_of_bytes h fun d => by
  grind [bytes_writeAccess, bytes_cmdPdSelGo]

theorem memOkAfter_execMsubGo (m) : MemOkAfter (execMsubGo m s) := memOkAfter_actIf_of_bytes h fun d => by simp

theorem memOkAfter_execOwnerWaitTimeout (cmd) : MemOkAfter (execOwnerWaitTimeout cmd s) := memOkAfter_actIf_of_bytes h fun d => by
  split <;> simp

/-! #### Trestle receive side -/

theorem memOkAfter_execTrestleWrite (net pk) : MemOkAfter (execTrestleWrite net pk s) := memOkAfter_arrive h
theorem memOkAfter_execTrestleReadReq (net pk) : MemOkAfter (execTrestleReadReq net pk s) := memOkAfter_arrive h
theorem memOkAfter_execTrestleReadResp (net pk) : MemOkAfter (execTrestleReadResp net pk s) := memOkAfter_arrive h
theorem memOkAfter_execTrestleAck (net pk) : MemOkAfter (execTrestleAck net pk s) := memOkAfter_arrive h
theorem memOkAfter_execTrestleNack (net pk) : MemOkAfter (execTrestleNack net pk s) := memOkAfter_arrive h
theorem memOkAfter_execTrestleCredit (net pk) : MemOkAfter (execTrestleCredit net pk s) := memOkAfter_arrive h
theorem memOkAfter_execTrestleProbe (net pk) : MemOkAfter (execTrestleProbe net pk s) := memOkAfter_arrive h
theorem memOkAfter_execTrestleConnect (net pk) : MemOkAfter (execTrestleConnect net pk s) := memOkAfter_arrive h
theorem memOkAfter_execTrestleClose (net pk) : MemOkAfter (execTrestleClose net pk s) := memOkAfter_arrive h
theorem memOkAfter_execTrestleResumeReply (net pk) : MemOkAfter (execTrestleResumeReply net pk s) := memOkAfter_arrive h
theorem memOkAfter_execTrestleConnectReply (net pk) : MemOkAfter (execTrestleConnectReply net pk s) := memOkAfter_arrive h
theorem memOkAfter_execTrestleResume (net pk) : MemOkAfter (execTrestleResume net pk s) := memOkAfter_arrive h

theorem memOkAfter_execFenceRelease (c psn) : MemOkAfter (execFenceRelease c psn s) := memOkAfter_actIf h fun d hd => by
  grind [memOk_eq, memOk_writeGo, bytes_modConn]

theorem memOkAfter_execContextFetchComplete (c eccOk late) : MemOkAfter (execContextFetchComplete c eccOk late s) :=
  memOkAfter_actIf h fun d hd => by
    grind [bytes_mk, memOk_eq, bytes_makeRoom, memOk_ctxReady, bytes_makeResident, bytes_ctxCnt, bytes_ctxError]

theorem memOkAfter_execContextWritebackDone (c eccOk) : MemOkAfter (execContextWritebackDone c eccOk s) :=
  memOkAfter_actIf_of_bytes h fun d => by simp [↓bytes_mk]

theorem memOkAfter_execTrsPdSelWrite (m v) : MemOkAfter (execTrsPdSelWrite m v s) := memOkAfter_actIf_of_bytes h fun d => by
  grind [bytes_writeAccess, bytes_pdSelGo]

theorem memOkAfter_execPdApply (m v) : MemOkAfter (execPdApply m v s) := memOkAfter_actIf_of_bytes h fun d => by simp
theorem memOkAfter_execPdApplyComplete : MemOkAfter (execPdApplyComplete s) := memOkAfter_actIf_of_bytes h fun d => by simp [↓bytes_mk]

/-! #### Volumes -/

theorem memOkAfter_execVolumeCreate (cmd blk) : MemOkAfter (execVolumeCreate cmd blk s) := memOkAfter_adminBlock h fun x d => by
  grind [bytes_badAt, bytes_needPage, bytes_badBlock, bytes_needKey, bytes_needOwner, bytes_createGo, bytes_answer]

theorem memOkAfter_execVolumeDelete (cmd) : MemOkAfter (execVolumeDelete cmd s) :=
  memOkAfter_adminRun h fun x d hd => (memOk_congr (by grind [bytes_foldl, bytes_needVol, bytes_needOwner, bytes_answer,
      bytes_writeRecords, bytes_modVol, bytes_mirror, bytes_advanceAll, bytes_finishDeletes, bytes_modSlot])).trans hd

theorem memOkAfter_execIdentifyVolume (cmd) : MemOkAfter (execIdentifyVolume cmd s) :=
  memOkAfter_actIf_of_bytes h fun _ => bytes_begun (fun x d => by simp) _

theorem memOkAfter_execVolumeQuery (cmd) : MemOkAfter (execVolumeQuery cmd s) :=
  memOkAfter_adminRun h fun x d hd => (memOk_congr (by simp)).trans hd

theorem memOkAfter_execSetAccess (cmd blk) : MemOkAfter (execSetAccess cmd blk s) := memOkAfter_reshapeRun h fun x vol d => by
  split <;> simp

theorem memOkAfter_execVolumeReshapeStart (cmd blk) : MemOkAfter (execVolumeReshapeStart cmd blk s) :=
  memOkAfter_reshapeRun h fun x vol d => by
    grind [bytes_answer, bytes_badBlock, bytes_needOwner, bytes_seedOf, bytes_takeSlabs, bytes_modVol, bytes_writeRecords,
      bytes_writeStructs, bytes_answerVol, bytes_structPut]

theorem memOkAfter_execVolumeReshapeAbandon (cmd blk) : MemOkAfter (execVolumeReshapeAbandon cmd blk s) :=
  memOkAfter_reshapeRun h fun x vol d => by split <;> simp

theorem memOkAfter_execMemberFail (cmd blk) : MemOkAfter (execMemberFail cmd blk s) := memOkAfter_slotRun h fun k d => by simp
theorem memOkAfter_execMemberRetire (cmd blk) : MemOkAfter (execMemberRetire cmd blk s) := memOkAfter_slotRun h fun k d => by simp
theorem memOkAfter_execSlotOff (cmd blk) : MemOkAfter (execSlotOff cmd blk s) := memOkAfter_slotRun h fun k d => by simp
theorem memOkAfter_execSlotOn (cmd blk) : MemOkAfter (execSlotOn cmd blk s) := memOkAfter_slotRun h fun k d => by simp
theorem memOkAfter_execAdoptMember (cmd blk) : MemOkAfter (execAdoptMember cmd blk s) := memOkAfter_slotRun h fun k d => by simp

theorem memOkAfter_execSetShare (cmd blk) : MemOkAfter (execSetShare cmd blk s) := by
  dsimp only [execSetShare]
  exact memOkAfter_volRun h fun v vol d => by simp

theorem memOkAfter_execPauseVolume (cmd blk) : MemOkAfter (execPauseVolume cmd blk s) := memOkAfter_volRun h fun v vol d => by simp
theorem memOkAfter_execResumeVolume (cmd blk) : MemOkAfter (execResumeVolume cmd blk s) := memOkAfter_volRun h fun v vol d => by simp
theorem memOkAfter_execGroupForm (g) : MemOkAfter (execGroupForm g s) := memOkAfter_actIf_of_bytes h fun d => by simp

/-! #### GET_LOG -/

theorem memOkAfter_execGetLog (cmd) : MemOkAfter (execGetLog cmd s) :=
  memOkAfter_adminRun h fun x d hd => (memOk_congr (by dsimp only; split <;> simp)).trans hd

/-! #### Recovery -/

theorem memOkAfter_execRecoveryScan (group copies bitmaps) : MemOkAfter (execRecoveryScan group copies bitmaps s) :=
  memOkAfter_actIf_of_bytes h fun d => by grind [bytes_mk, bytes_foldl, bytes_modGroup, bytes_modVol, bytes_scanSuspects]

theorem memOkAfter_execRecoveryReplay (group) : MemOkAfter (execRecoveryReplay group s) := memOkAfter_actIf_of_bytes h fun d => by
  split <;> simp [↓bytes_mk]

theorem memOkAfter_execRecoveryResync (group agree) : MemOkAfter (execRecoveryResync group agree s) :=
  memOkAfter_actIf_of_bytes h fun d => by grind [bytes_mk, bytes_foldl, bytes_resyncStripe]

/-! #### The mirror of a pair -/

theorem memOkAfter_execMirrorAckReceive (mseq) : MemOkAfter (execMirrorAckReceive mseq s) := memOkAfter_actIf h fun d hd => by
  grind [bytes_mk, memOk_eq, memOk_foldl, bytes_foldl, memOk_postAll, bytes_advanceAll, bytes_ackAct, bytes_modSlot, bytes_itgEvent,
    bytes_setSticky, bytes_finishDeletes]

theorem memOkAfter_execMirrorResend : MemOkAfter (execMirrorResend s) := memOkAfter_actIf_of_bytes h fun d => by simp

theorem memOkAfter_execSnapshotAcked (kcvAgree) : MemOkAfter (execSnapshotAcked kcvAgree s) := memOkAfter_actIf_of_bytes h fun d => by
  simp [↓bytes_mk]

/-! #### Take-over -/

theorem memOkAfter_execGarpRepeat : MemOkAfter (execGarpRepeat s) := memOkAfter_actIf_of_bytes h fun _ => rfl

theorem memOkAfter_execArbiterAcquireComplete (n a) : MemOkAfter (execArbiterAcquireComplete n a s) :=
  memOkAfter_actIf h fun d hd => by grind [bytes_mk, memOk_eq, memOk_selfFence, bytes_parCnt, memOk_winArbitration, bytes_nextArbiter]

theorem memOkAfter_execArbiterTimeout (n) : MemOkAfter (execArbiterTimeout n s) := memOkAfter_actIf_of_bytes h fun d => by simp

theorem memOkAfter_execArbitrationRetry : MemOkAfter (execArbitrationRetry s) := memOkAfter_actIf_of_bytes h fun d => by
  simp [↓bytes_mk]

theorem memOkAfter_execPreemptComplete (slot) : MemOkAfter (execPreemptComplete slot s) := memOkAfter_actIf_of_bytes h fun d => by
  grind [bytes_mk, bytes_fenceStep, bytes_gatedGo, bytes_memberChange, bytes_modDrive]

theorem memOkAfter_execPreemptTimeout (slot) : MemOkAfter (execPreemptTimeout slot s) := memOkAfter_actIf_of_bytes h fun d => by
  simp [↓bytes_mk]

theorem memOkAfter_execSelfFence : MemOkAfter (execSelfFence s) := memOkAfter_actIf h fun d hd => by grind [memOk_eq, memOk_selfFence]

theorem memOkAfter_execTakeoverFinish : MemOkAfter (execTakeoverFinish s) := memOkAfter_actIf h fun d hd => by
  grind [memOk_eq, memOk_foldl, bytes_foldl, bytes_shelfDone, bytes_endRecovery, bytes_enterService, memOk_takeoverEnd,
    bytes_finishDeletions]

theorem memOkAfter_execRecoveryComplete (micros) : MemOkAfter (execRecoveryComplete micros s) := memOkAfter_actIf h fun d hd => by
  grind [bytes_mk, memOk_eq, memOk_foldl, bytes_foldl, bytes_shelfDone, bytes_endRecovery, memOk_takeoverEnd, bytes_enterService,
    bytes_finishDeletions]

/-! #### The pair -/

theorem memOkAfter_execPairJoin (j) : MemOkAfter (execPairJoin j s) := memOkAfter_actIf h fun d hd => by
  grind [bytes_mk, memOk_eq, memOk_sameSide, bytes_joinSend, bytes_logEvent, bytes_takePartner, memOk_startSync, bytes_joinOver,
    bytes_enterService, bytes_maybeRecover]

theorem memOkAfter_execJoinTimeout : MemOkAfter (execJoinTimeout s) := memOkAfter_actIf_of_bytes h fun d => by simp [↓bytes_mk]
theorem memOkAfter_execHeartbeatSend : MemOkAfter (execHeartbeatSend s) := memOkAfter_actIf_of_bytes h fun d => by simp

theorem memOkAfter_execHeartbeatReceive (pathB hb) : MemOkAfter (execHeartbeatReceive pathB hb s) :=
  memOkAfter_actIf h fun d hd => by
    split
    · exact memOk_sameSide hd
    · refine (memOk_congr ?_).trans hd
      dsimp only
      split
      · simp [↓bytes_mk]
      · simp [↓bytes_mk]

theorem memOkAfter_execHeartbeatMiss (pathB) : MemOkAfter (execHeartbeatMiss pathB s) := memOkAfter_actIf h fun d hd => by
  grind [memOk_eq, bytes_parCnt, bytes_setPath, bytes_parEvent, memOk_losePartner]

theorem memOkAfter_execPartnerHaltedReceive : MemOkAfter (execPartnerHaltedReceive s) := memOkAfter_actIf h fun d hd => by
  grind [memOk_eq, memOk_losePartner]

theorem memOkAfter_execPowerFailFrameReceive : MemOkAfter (execPowerFailFrameReceive s) := memOkAfter_actIf_of_bytes h fun _ => rfl
theorem memOkAfter_execHealthSend : MemOkAfter (execHealthSend s) := memOkAfter_actIf_of_bytes h fun d => by simp

theorem memOkAfter_execHealthReceive (x) : MemOkAfter (execHealthReceive x s) :=
  memOkAfter_actIf_of_bytes h fun d => by simp [↓bytes_mk]

theorem memOkAfter_execMirrorReceive (mseq items) : MemOkAfter (execMirrorReceive mseq items s) := memOkAfter_actIf h fun d hd => by
  grind [memOk_eq, bytes_pairSend, memOk_takeState, memOk_takeItems, bytes_takingStep]

theorem memOkAfter_execHandoverReceive (groups roles lastMseq) : MemOkAfter (execHandoverReceive groups roles lastMseq s) :=
  memOkAfter_actIf_of_bytes h fun d => by simp [↓bytes_mk]

theorem memOkAfter_execOwnershipRecordDurable : MemOkAfter (execOwnershipRecordDurable s) := memOkAfter_actIf h fun d hd => by
  grind [bytes_mk, memOk_eq, bytes_announceAddrs, bytes_adoptAddrs, memOk_install, bytes_parEvent, bytes_parCnt]

theorem memOkAfter_execMaintRequest (cmd blk) : MemOkAfter (execMaintRequest cmd blk s) := memOkAfter_ownershipRun h fun d => by simp
theorem memOkAfter_execMoveGroups (cmd blk) : MemOkAfter (execMoveGroups cmd blk s) := memOkAfter_ownershipRun h fun d => by simp
theorem memOkAfter_execReturnRoles (cmd blk) : MemOkAfter (execReturnRoles cmd blk s) := memOkAfter_ownershipRun h fun d => by simp
theorem memOkAfter_execHandoverStart : MemOkAfter (execHandoverStart s) := memOkAfter_actIf_of_bytes h fun d => by simp [↓bytes_mk]

theorem memOkAfter_execHandoverDrainTimeout : MemOkAfter (execHandoverDrainTimeout s) := memOkAfter_actIf_of_bytes h fun d => by
  split <;> simp [↓bytes_mk]

theorem memOkAfter_execStableTimeExpire : MemOkAfter (execStableTimeExpire s) := memOkAfter_actIf_of_bytes h fun _ => rfl

/-! #### The viaduct -/

theorem memOkAfter_execInnerConnect (pier) : MemOkAfter (execInnerConnect pier s) := memOkAfter_actIf_of_bytes h fun d => by
  grind [bytes_drawBits, bytes_drawPortBase, bytes_takeConn, bytes_sendPkt]

theorem memOkAfter_execInnerIdleProbe (pier) : MemOkAfter (execInnerIdleProbe pier s) := memOkAfter_actIf_of_bytes h fun d => by
  split <;> simp

theorem memOkAfter_execFwdCmd (pier r) : MemOkAfter (execFwdCmd pier r s) := memOkAfter_actIf_of_bytes h fun d => by
  split <;> simp [↓bytes_mk]

theorem memOkAfter_execFwdCpl (pier r) : MemOkAfter (execFwdCpl pier r s) := memOkAfter_actIf_of_bytes h fun d => by
  dsimp only
  repeat' split
  all_goals simp

theorem memOkAfter_execFwdTrigger (pier r) : MemOkAfter (execFwdTrigger pier r s) := memOkAfter_actIf_of_bytes h fun d => by simp

theorem memOkAfter_execDirectoryRec (pier r) : MemOkAfter (execDirectoryRec pier r s) := memOkAfter_actIf_of_bytes h fun d => by
  simp [↓bytes_mk]

theorem memOkAfter_execFragReq (pier r group) : MemOkAfter (execFragReq pier r group s) := memOkAfter_actIf_of_bytes h fun d => by
  grind [bytes_mk, bytes_sendFragDone, bytes_fragSubmit, bytes_sendRead]

theorem memOkAfter_execFragDone (pier r) : MemOkAfter (execFragDone pier r s) := memOkAfter_actIf h fun d hd => by
  grind [bytes_mk, memOk_eq, memOk_warmClear, bytes_haltNotice, bytes_sendRead, memOk_useDone]

theorem memOkAfter_execEpochRec (pier r group) : MemOkAfter (execEpochRec pier r group s) := memOkAfter_actIf_of_bytes h fun d => by
  simp [↓bytes_mk]

theorem memOkAfter_execEpochGrantReceive (pier group epoch arbiter) : MemOkAfter (execEpochGrantReceive pier group epoch arbiter s) :=
  memOkAfter_actIf_of_bytes h fun d => by split <;> simp [↓bytes_mk]

theorem memOkAfter_execPierLossTimeout (pier) : MemOkAfter (execPierLossTimeout pier s) := memOkAfter_actIf_of_bytes h fun d => by
  simp [↓bytes_mk]

theorem memOkAfter_execAdmitPier (cmd blk) : MemOkAfter (execAdmitPier cmd blk s) := memOkAfter_viaductRun h fun d => by
  simp [↓bytes_mk]

theorem memOkAfter_execRemovePier (cmd blk) : MemOkAfter (execRemovePier cmd blk s) := memOkAfter_viaductRun h fun d => by
  dsimp only; split <;> simp [↓bytes_mk]

theorem memOkAfter_execFormGroup (cmd blk) : MemOkAfter (execFormGroup cmd blk s) := memOkAfter_viaductRun h fun d => by
  grind [bytes_foldl, bytes_answer, bytes_drawBits, bytes_modDrive, bytes_setVGroup, bytes_succeed, bytes_propagate, bytes_makeGroup]

theorem memOkAfter_execDissolveGroup (cmd blk) : MemOkAfter (execDissolveGroup cmd blk s) := memOkAfter_viaductRun h fun d => by
  simp [↓bytes_mk]

theorem memOkAfter_execGateOn (cmd blk) : MemOkAfter (execGateOn cmd blk s) := memOkAfter_viaductRun h fun d => by simp [↓bytes_mk]
theorem memOkAfter_execGateOff (cmd blk) : MemOkAfter (execGateOff cmd blk s) := memOkAfter_viaductRun h fun d => by simp [↓bytes_mk]
theorem memOkAfter_execGateDrainExpire : MemOkAfter (execGateDrainExpire s) := memOkAfter_actIf_of_bytes h fun d => by simp [↓bytes_mk]

/-! #### Integrity -/

theorem memOkAfter_execKeyLoad (cmd blk) : MemOkAfter (execKeyLoad cmd blk s) :=
  memOkAfter_actIf_of_bytes h fun d => by
    split
    · rfl
    · exact bytes_begun (fun x d => by split <;> simp) d

theorem memOkAfter_execKeyClear (cmd) : MemOkAfter (execKeyClear cmd s) :=
  memOkAfter_adminRun h fun x d hd => (memOk_congr (by split <;> simp [↓bytes_mk])).trans hd

theorem memOkAfter_execEntropyFault : MemOkAfter (execEntropyFault s) := memOkAfter_actIf_of_bytes h fun d => by simp [↓bytes_mk]

/-! #### Administration -/

theorem memOkAfter_execOverwriteCursorTick (vol finished) : MemOkAfter (execOverwriteCursorTick vol finished s) :=
  memOkAfter_actIf_of_bytes h fun d => by grind [bytes_sanCheck, bytes_arbSlab, bytes_shelfRefresh, bytes_owSlab, bytes_putOp]

theorem memOkAfter_execSanitizeStatusPoll (slot done failed) : MemOkAfter (execSanitizeStatusPoll slot done failed s) :=
  memOkAfter_actIf_of_bytes h fun d => by split <;> simp

theorem memOkAfter_execSanitizeOverwrite (cmd blk) : MemOkAfter (execSanitizeOverwrite cmd blk s) := memOkAfter_opRun h fun d => by
  simp

theorem memOkAfter_execSanitizeBlockErase (cmd blk) : MemOkAfter (execSanitizeBlockErase cmd blk s) := memOkAfter_opRun h fun d => by
  simp

theorem memOkAfter_execSanitizeDriveOverwrite (cmd blk) : MemOkAfter (execSanitizeDriveOverwrite cmd blk s) :=
  memOkAfter_opRun h fun d => by simp

theorem memOkAfter_execFormatCmd (cmd blk) : MemOkAfter (execFormatCmd cmd blk s) := memOkAfter_opRun h fun d => by simp

theorem memOkAfter_execFormatApply (vol) : MemOkAfter (execFormatApply vol s) := memOkAfter_actIf_of_bytes h fun d => by
  grind [bytes_freeBytes, bytes_putOp, bytes_clearMaps, bytes_shelfRefresh, bytes_admEvent]

theorem memOkAfter_execSelfTestShort (cmd) : MemOkAfter (execSelfTestShort cmd s) := memOkAfter_testRun h fun d => by simp
theorem memOkAfter_execSelfTestExtended (cmd) : MemOkAfter (execSelfTestExtended cmd s) := memOkAfter_testRun h fun d => by simp
theorem memOkAfter_execSelfTestStop (cmd) : MemOkAfter (execSelfTestStop cmd s) := memOkAfter_testRun h fun d => by simp
theorem memOkAfter_execSelfTestTimeout : MemOkAfter (execSelfTestTimeout s) := memOkAfter_actIf_of_bytes h fun d => by simp

theorem memOkAfter_execSelfTestComplete (failed driveFails first) : MemOkAfter (execSelfTestComplete failed driveFails first s) :=
  memOkAfter_actIf_of_bytes h fun d => by simp

theorem memOkAfter_execImageLoad (cmd blk read) : MemOkAfter (execImageLoad cmd blk read s) := memOkAfter_adminBlock h fun x d => by
  grind [bytes_needPage, bytes_badBlock, bytes_answer, bytes_imagePiece]

theorem memOkAfter_execImageActivate (cmd blk fw img) : MemOkAfter (execImageActivate cmd blk fw img s) :=
  memOkAfter_adminBlock h fun x d => by grind [bytes_badAt, bytes_needPage, bytes_badBlock, bytes_answer, bytes_activateGo]

theorem memOkAfter_execImageCopyFirstFlash : MemOkAfter (execImageCopyFirstFlash s) := memOkAfter_actIf_of_bytes h fun d => by
  simp [↓bytes_mk]

/-! #### The switch core and the egress scheduler -/

theorem memOkAfter_execPortBringupAttempt (p) : MemOkAfter (execPortBringupAttempt p s) := memOkAfter_actIf_of_bytes h fun d => by simp
theorem memOkAfter_execPortLinkUp (p) : MemOkAfter (execPortLinkUp p s) := memOkAfter_actIf_of_bytes h fun d => by simp

theorem memOkAfter_execPortBringupTimeout (p blame) : MemOkAfter (execPortBringupTimeout p blame s) :=
  memOkAfter_actIf_of_bytes h fun d => by simp

theorem memOkAfter_execPortRetrainTrigger (p cause) : MemOkAfter (execPortRetrainTrigger p cause s) :=
  memOkAfter_actIf_of_bytes h fun d => by simp

theorem memOkAfter_execEthLaneRetrain (m mac lanes) : MemOkAfter (execEthLaneRetrain m mac lanes s) :=
  memOkAfter_actIf_of_bytes h fun d => by simp

theorem memOkAfter_execEthLaneRestore (m mac lanes) : MemOkAfter (execEthLaneRestore m mac lanes s) :=
  memOkAfter_actIf_of_bytes h fun d => by simp

theorem memOkAfter_execPortLinkDown (p) : MemOkAfter (execPortLinkDown p s) := memOkAfter_actIf_of_bytes h fun d => by simp
theorem memOkAfter_execLinkHoldExpire (p) : MemOkAfter (execLinkHoldExpire p s) := memOkAfter_actIf_of_bytes h fun d => by simp
theorem memOkAfter_execFrameIngress (p f) : MemOkAfter (execFrameIngress p f s) := memOkAfter_actIf_of_bytes h fun d => by simp

theorem memOkAfter_execPauseFrameReceive (p quanta) : MemOkAfter (execPauseFrameReceive p quanta s) :=
  memOkAfter_actIf_of_bytes h fun d => by simp

theorem memOkAfter_execPfcFrameReceive (p enable quanta) : MemOkAfter (execPfcFrameReceive p enable quanta s) :=
  memOkAfter_actIf_of_bytes h fun d => by simp

theorem memOkAfter_execPauseQuantaExpire (p inst) : MemOkAfter (execPauseQuantaExpire p inst s) :=
  memOkAfter_actIf_of_bytes h fun _ => rfl

theorem memOkAfter_execPwdWatchExpire (p inst) : MemOkAfter (execPwdWatchExpire p inst s) := memOkAfter_actIf_of_bytes h fun d => by
  simp

theorem memOkAfter_execPwdRecoveryExpire (p inst) : MemOkAfter (execPwdRecoveryExpire p inst s) :=
  memOkAfter_actIf_of_bytes h fun _ => rfl

theorem memOkAfter_execPauseRefresh (p prio) : MemOkAfter (execPauseRefresh p prio s) := memOkAfter_actIf_of_bytes h fun d => by
  split <;> simp

theorem memOkAfter_execInternalFrameOffer (f) : MemOkAfter (execInternalFrameOffer f s) :=
  memOkAfter_actIf_of_bytes h fun d => by
    split
    · next hf => exact bytes_internalAdmit hf
    · simp [↓bytes_mk]

theorem memOkAfter_execHoldoffAccept (src) : MemOkAfter (execHoldoffAccept src s) :=
  memOkAfter_actIf_of_bytes h fun d => by
    split
    · next hf => exact (bytes_mk rfl rfl rfl).trans (bytes_admitFirst hf)
    · rfl

theorem memOkAfter_execFrameTransmitStart (p cellErr) : MemOkAfter (execFrameTransmitStart p cellErr s) :=
  memOkAfter_actIf_of_bytes h fun d => by
    grind [bytes_startNext, bytes_bankError, bytes_modEgress, bytes_setAside, bytes_nextSegment, bytes_dropAt, bytes_startWire]

theorem memOkAfter_execFrameTransmitComplete (p) : MemOkAfter (execFrameTransmitComplete p s) :=
  memOkAfter_actIf_of_bytes h fun d => by simp

theorem memOkAfter_execFrameAgeDiscard (p q) : MemOkAfter (execFrameAgeDiscard p q s) := memOkAfter_actIf_of_bytes h fun d => by simp
theorem memOkAfter_execFdbAgeOut (vid addr) : MemOkAfter (execFdbAgeOut vid addr s) := memOkAfter_actIf_of_bytes h fun _ => rfl
theorem memOkAfter_execSwcFdbFlush (m v) : MemOkAfter (execSwcFdbFlush m v s) := memOkAfter_actIf_of_bytes h fun d => by simp

theorem memOkAfter_execEthPtpTsRead (m mac) : MemOkAfter (execEthPtpTsRead m mac s) := memOkAfter_actIf_of_bytes h fun d => by
  simp [↓bytes_mk]

/-! #### Self-test and faults -/

theorem memOkAfter_execBistSliceStart : MemOkAfter (execBistSliceStart s) := memOkAfter_actIf_of_bytes h fun d => by
  split <;> simp [↓bytes_mk]

theorem memOkAfter_execSliceDrainTimeout : MemOkAfter (execSliceDrainTimeout s) := memOkAfter_actIf_of_bytes h fun d => by simp

theorem memOkAfter_execSliceSegmentEnd (r) : MemOkAfter (execSliceSegmentEnd r s) := memOkAfter_actIf_of_bytes h fun d => by
  grind [bytes_mk, bytes_sliceOver, bytes_softRepair, bytes_holdUnit, bytes_segPassed, bytes_bstCnt]

theorem memOkAfter_execFuseBurn (m v) : MemOkAfter (execFuseBurn m v s) := memOkAfter_actIf_of_bytes h fun d => by simp

theorem memOkAfter_execFuseBurnComplete (ok) : MemOkAfter (execFuseBurnComplete ok s) := memOkAfter_actIf_of_bytes h fun d => by
  simp [↓bytes_mk]

theorem memOkAfter_execHbmEccError (pc addr kind) : MemOkAfter (execHbmEccError pc addr kind s) := memOkAfter_actIf h fun d hd => by
  grind [bytes_mk, memOk_eq, bytes_memCnt, bytes_retirePc, bytes_faultEvent, bytes_softAdd, memOk_recoverWord]

theorem memOkAfter_execPcRetireCopyDone (pc) : MemOkAfter (execPcRetireCopyDone pc s) := memOkAfter_actIf_of_bytes h fun d => by
  simp [↓bytes_mk]

theorem memOkAfter_execMaintRequestRetry : MemOkAfter (execMaintRequestRetry s) := memOkAfter_actIf_of_bytes h fun d => by simp

theorem memOkAfter_execCpuCoreError (core uncorrectable) : MemOkAfter (execCpuCoreError core uncorrectable s) :=
  memOkAfter_actIf_of_bytes h fun d => by simp [↓bytes_mk]

theorem memOkAfter_execSensorDisagree (sensor) : MemOkAfter (execSensorDisagree sensor s) := memOkAfter_actIf_of_bytes h fun d => by
  simp [↓bytes_mk]

theorem memOkAfter_execRefclkLoss (clk) : MemOkAfter (execRefclkLoss clk s) := memOkAfter_actIf_of_bytes h fun d => by simp [↓bytes_mk]
theorem memOkAfter_execRefclkRestore (clk) : MemOkAfter (execRefclkRestore clk s) := memOkAfter_actIf_of_bytes h fun _ => rfl
theorem memOkAfter_execFatalClockFault : MemOkAfter (execFatalClockFault s) := memOkAfter_actIf_of_bytes h fun d => by simp [↓bytes_mk]

theorem memOkAfter_execScrubTick (step) : MemOkAfter (execScrubTick step s) := memOkAfter_actIf h fun d hd => by
  grind [bytes_mk, memOk_eq, bytes_memCnt]

/-! #### The register bus -/

theorem memOkAfter_execRegisterWrite (m off v) : MemOkAfter (execRegisterWrite m off v s) := memOkAfter_actIf h fun d hd => by
  grind [memOk_eq, memOk_busWrite]

theorem memOkAfter_execRegisterReadClear (m off) : MemOkAfter (execRegisterReadClear m off s) :=
  memOkAfter_actIf_of_bytes h fun d => by simp [↓bytes_mk]

theorem memOkAfter_execStagedRegisterWrite (m off v) : MemOkAfter (execStagedRegisterWrite m off v s) :=
  memOkAfter_actIf h fun d hd => by grind [memOk_eq, memOk_busWrite]

theorem memOkAfter_execPlnCommit (m g) : MemOkAfter (execPlnCommit m g s) := memOkAfter_actIf_of_bytes h fun d => by simp
theorem memOkAfter_execPlnDiscard (m g) : MemOkAfter (execPlnDiscard m g s) := memOkAfter_actIf_of_bytes h fun d => by simp
theorem memOkAfter_execPlnLockClaim (m g) : MemOkAfter (execPlnLockClaim m g s) := memOkAfter_actIf_of_bytes h fun d => by simp
theorem memOkAfter_execPlnLockRelease (m g) : MemOkAfter (execPlnLockRelease m g s) := memOkAfter_actIf_of_bytes h fun d => by simp
theorem memOkAfter_execPlnLockTimeout (g) : MemOkAfter (execPlnLockTimeout g s) := memOkAfter_actIf_of_bytes h fun _ => rfl

theorem memOkAfter_execAccessEntryWord0Write (m page e v) : MemOkAfter (execAccessEntryWord0Write m page e v s) :=
  memOkAfter_actIf_of_bytes h fun d => by grind [bytes_writeAccess, bytes_pageEntryW0]

theorem memOkAfter_execAccessEntryWord1Write (m page e v) : MemOkAfter (execAccessEntryWord1Write m page e v s) :=
  memOkAfter_actIf_of_bytes h fun d => by grind [bytes_writeAccess, bytes_pageEntryW1]

theorem memOkAfter_execCtrPrivSelWrite (m v) : MemOkAfter (execCtrPrivSelWrite m v s) := memOkAfter_actIf_of_bytes h fun d => by simp

theorem memOkAfter_execDebugUnlockRequest : MemOkAfter (execDebugUnlockRequest s) := memOkAfter_actIf_of_bytes h fun d => by
  simp [↓bytes_mk]

theorem memOkAfter_execDebugUnlockResponse (key sig) : MemOkAfter (execDebugUnlockResponse key sig s) :=
  memOkAfter_actIf_of_bytes h fun d => by simp [↓bytes_mk]

theorem memOkAfter_execTapInstructionLoad (i) : MemOkAfter (execTapInstructionLoad i s) := memOkAfter_actIf_of_bytes h fun _ => rfl

theorem memOkAfter_execConfigRead (cmd) : MemOkAfter (execConfigRead cmd s) :=
  memOkAfter_adminRun h fun x d hd => (memOk_congr (by grind [bytes_badAt, bytes_busRead, bytes_succeed, bytes_answer])).trans hd

theorem memOkAfter_execConfigWrite (cmd) : MemOkAfter (execConfigWrite cmd s) :=
  memOkAfter_adminRun h fun x d hd => by grind [memOk_eq, bytes_badAt, bytes_answer, bytes_succeed, memOk_busWrite]

/-! #### The counter unit -/

theorem memOkAfter_execCounterSnapshot : MemOkAfter (execCounterSnapshot s) := memOkAfter_actIf h fun d hd => by
  grind [memOk_eq, bytes_skipSnapshot, memOk_takeSnapshot]

theorem memOkAfter_execDumpWriteComplete : MemOkAfter (execDumpWriteComplete s) := memOkAfter_actIf_of_bytes h fun d => by
  split <;> simp [↓bytes_mk]

theorem memOkAfter_execWindowPublish (ports inner) : MemOkAfter (execWindowPublish ports inner s) :=
  memOkAfter_actIf_of_bytes h fun d => by simp

theorem memOkAfter_execSampleLfsrReseed : MemOkAfter (execSampleLfsrReseed s) := memOkAfter_actIf_of_bytes h fun d => by
  simp [↓bytes_mk]

theorem memOkAfter_execTraceRecordDrop : MemOkAfter (execTraceRecordDrop s) := memOkAfter_actIf_of_bytes h fun d => by simp [↓bytes_mk]

theorem memOkAfter_execCounterSetupDump (cmd blk) : MemOkAfter (execCounterSetupDump cmd blk s) :=
  memOkAfter_setupRun h fun x d hd => (memOk_congr (by simp)).trans hd

theorem memOkAfter_execClearSet (cmd blk) : MemOkAfter (execClearSet cmd blk s) := by
  dsimp only [execClearSet]
  exact memOkAfter_setupRun h fun x d hd => (memOk_congr (by simp)).trans hd

theorem memOkAfter_execSampleSetup (cmd blk) : MemOkAfter (execSampleSetup cmd blk s) :=
  memOkAfter_setupRun h fun _ _ hd => hd

theorem memOkAfter_execWindowSetup (cmd blk) : MemOkAfter (execWindowSetup cmd blk s) :=
  memOkAfter_setupRun h fun _ _ hd => hd

theorem memOkAfter_execCopyOut (cmd blk) : MemOkAfter (execCopyOut cmd blk s) :=
  memOkAfter_setupRun h fun x d hd => by
    have hflush : (traceFlush d).memOk = true := memOk_traceFlush hd
    grind [memOk_eq, bytes_succeed, bytes_failUse, bytes_sendMsg]

end

/-! ### The statement -/

/-- No command leaves a memory out of canonical form. -/
theorem memOkAfter_exec {s : State} (h : s.dev.memOk = true) (c : Instr) : MemOkAfter (exec c s) := by
  cases c with
  | aonPowerOn => exact memOkAfter_execAonPowerOn h
  | aonPowerLoss => exact memOkAfter_execAonPowerLoss h
  | porstAssert => exact memOkAfter_execPorstAssert h
  | resetRelease pairSide boot1 boot0 => exact memOkAfter_execResetRelease h pairSide boot1 boot0
  | avsInitialSet marginMv => exact memOkAfter_execAvsInitialSet h marginMv
  | agingMonitorRead slowdown marginPct more => exact memOkAfter_execAgingMonitorRead h slowdown marginPct more
  | pwrFailRecognise => exact memOkAfter_execPwrFailRecognise h
  | pwrFailClear => exact memOkAfter_execPwrFailClear h
  | presenceChange slot present => exact memOkAfter_execPresenceChange h slot present
  | mgtGpioOutSet m v => exact memOkAfter_execMgtGpioOutSet h m v
  | mgtGpioOutClr m v => exact memOkAfter_execMgtGpioOutClr h m v
  | pmbusAlert rail => exact memOkAfter_execPmbusAlert h rail
  | domainSwitchOnRequest d takeover => exact memOkAfter_execDomainSwitchOnRequest h d takeover
  | domainSwitchOffRequest d takeover => exact memOkAfter_execDomainSwitchOffRequest h d takeover
  | domainReady d => exact memOkAfter_execDomainReady h d
  | domainOffComplete d => exact memOkAfter_execDomainOffComplete h d
  | deepIdleEnter m => exact memOkAfter_execDeepIdleEnter h m
  | deepIdleExit m => exact memOkAfter_execDeepIdleExit h m
  | loadGovernorTick demand => exact memOkAfter_execLoadGovernorTick h demand
  | powerEstimateTick estimateMw => exact memOkAfter_execPowerEstimateTick h estimateMw
  | powerTelemetryCorrect powerMw railMv railMa => exact memOkAfter_execPowerTelemetryCorrect h powerMw railMv railMa
  | pwrCapWrite m v => exact memOkAfter_execPwrCapWrite h m v
  | pwrThermCfgWrite m v => exact memOkAfter_execPwrThermCfgWrite h m v
  | capRefuseTimeout sq => exact memOkAfter_execCapRefuseTimeout h sq
  | powerAttnClear => exact memOkAfter_execPowerAttnClear h
  | sensorScan readings => exact memOkAfter_execSensorScan h readings
  | thermtrip sensor => exact memOkAfter_execThermtrip h sensor
  | thermalGovernorTick => exact memOkAfter_execThermalGovernorTick h
  | haltEntry => exact memOkAfter_execHaltEntry h
  | glbResetCtrlWrite m v => exact memOkAfter_execGlbResetCtrlWrite h m v
  | glbWdogKick m v => exact memOkAfter_execGlbWdogKick h m v
  | watchdogExpire => exact memOkAfter_execWatchdogExpire h
  | bootSourceRead flashB img => exact memOkAfter_execBootSourceRead h flashB img
  | mgmtImageDelivery m img => exact memOkAfter_execMgmtImageDelivery h m img
  | floorPlanCheck source img => exact memOkAfter_execFloorPlanCheck h source img
  | planApply => exact memOkAfter_execPlanApply h
  | bootBist fails found => exact memOkAfter_execBootBist h fails found
  | drivePerstRelease => exact memOkAfter_execDrivePerstRelease h
  | driveLinkUp slot rate width => exact memOkAfter_execDriveLinkUp h slot rate width
  | driveReady slot id => exact memOkAfter_execDriveReady h slot id
  | driveReadyTimeout slot => exact memOkAfter_execDriveReadyTimeout h slot
  | pairJoin j => exact memOkAfter_execPairJoin h j
  | joinTimeout => exact memOkAfter_execJoinTimeout h
  | recoveryScan group copies bitmaps => exact memOkAfter_execRecoveryScan h group copies bitmaps
  | recoveryReplay group => exact memOkAfter_execRecoveryReplay h group
  | recoveryResync group agree => exact memOkAfter_execRecoveryResync h group agree
  | recoveryComplete micros => exact memOkAfter_execRecoveryComplete h micros
  | registerWrite m off v => exact memOkAfter_execRegisterWrite h m off v
  | registerReadClear m off => exact memOkAfter_execRegisterReadClear h m off
  | stagedRegisterWrite m off v => exact memOkAfter_execStagedRegisterWrite h m off v
  | plnCommit m g => exact memOkAfter_execPlnCommit h m g
  | plnDiscard m g => exact memOkAfter_execPlnDiscard h m g
  | plnLockClaim m g => exact memOkAfter_execPlnLockClaim h m g
  | plnLockRelease m g => exact memOkAfter_execPlnLockRelease h m g
  | plnLockTimeout g => exact memOkAfter_execPlnLockTimeout h g
  | accessEntryWord0Write m page e v => exact memOkAfter_execAccessEntryWord0Write h m page e v
  | accessEntryWord1Write m page e v => exact memOkAfter_execAccessEntryWord1Write h m page e v
  | debugUnlockRequest => exact memOkAfter_execDebugUnlockRequest h
  | debugUnlockResponse key sig => exact memOkAfter_execDebugUnlockResponse h key sig
  | tapInstructionLoad inst => exact memOkAfter_execTapInstructionLoad h inst
  | portBringupAttempt p => exact memOkAfter_execPortBringupAttempt h p
  | portLinkUp p => exact memOkAfter_execPortLinkUp h p
  | portBringupTimeout p blame => exact memOkAfter_execPortBringupTimeout h p blame
  | portRetrainTrigger p cause => exact memOkAfter_execPortRetrainTrigger h p cause
  | ethLaneRetrain m mac lanes => exact memOkAfter_execEthLaneRetrain h m mac lanes
  | ethLaneRestore m mac lanes => exact memOkAfter_execEthLaneRestore h m mac lanes
  | portLinkDown p => exact memOkAfter_execPortLinkDown h p
  | linkHoldExpire p => exact memOkAfter_execLinkHoldExpire h p
  | frameIngress p f => exact memOkAfter_execFrameIngress h p f
  | pauseFrameReceive p quanta => exact memOkAfter_execPauseFrameReceive h p quanta
  | pfcFrameReceive p enable quanta => exact memOkAfter_execPfcFrameReceive h p enable quanta
  | pauseQuantaExpire p inst => exact memOkAfter_execPauseQuantaExpire h p inst
  | pwdWatchExpire p inst => exact memOkAfter_execPwdWatchExpire h p inst
  | pwdRecoveryExpire p inst => exact memOkAfter_execPwdRecoveryExpire h p inst
  | pauseRefresh p prio => exact memOkAfter_execPauseRefresh h p prio
  | internalFrameOffer f => exact memOkAfter_execInternalFrameOffer h f
  | holdoffAccept src => exact memOkAfter_execHoldoffAccept h src
  | frameTransmitStart p cellErr => exact memOkAfter_execFrameTransmitStart h p cellErr
  | frameTransmitComplete p => exact memOkAfter_execFrameTransmitComplete h p
  | frameAgeDiscard p q => exact memOkAfter_execFrameAgeDiscard h p q
  | fdbAgeOut vid addr => exact memOkAfter_execFdbAgeOut h vid addr
  | swcFdbFlush m v => exact memOkAfter_execSwcFdbFlush h m v
  | ethPtpTsRead m mac => exact memOkAfter_execEthPtpTsRead h m mac
  | trestleWrite net pk => exact memOkAfter_execTrestleWrite h net pk
  | trestleReadReq net pk => exact memOkAfter_execTrestleReadReq h net pk
  | trestleReadResp net pk => exact memOkAfter_execTrestleReadResp h net pk
  | trestleAck net pk => exact memOkAfter_execTrestleAck h net pk
  | trestleNack net pk => exact memOkAfter_execTrestleNack h net pk
  | trestleCredit net pk => exact memOkAfter_execTrestleCredit h net pk
  | trestleProbe net pk => exact memOkAfter_execTrestleProbe h net pk
  | trestleConnect net pk => exact memOkAfter_execTrestleConnect h net pk
  | trestleClose net pk => exact memOkAfter_execTrestleClose h net pk
  | trestleResumeReply net pk => exact memOkAfter_execTrestleResumeReply h net pk
  | fenceRelease c psn => exact memOkAfter_execFenceRelease h c psn
  | rtoExpire c => exact memOkAfter_execRtoExpire h c
  | pathProbeTimer c path => exact memOkAfter_execPathProbeTimer h c path
  | ackCoalesceExpire c => exact memOkAfter_execAckCoalesceExpire h c
  | deadTimerExpire c => exact memOkAfter_execDeadTimerExpire h c
  | closingTimeout c => exact memOkAfter_execClosingTimeout h c
  | timeWaitExpire c => exact memOkAfter_execTimeWaitExpire h c
  | resumeRetry c => exact memOkAfter_execResumeRetry h c
  | trsPdSelWrite m v => exact memOkAfter_execTrsPdSelWrite h m v
  | pdApply m v => exact memOkAfter_execPdApply h m v
  | pdApplyComplete => exact memOkAfter_execPdApplyComplete h
  | contextFetchComplete c eccOk late => exact memOkAfter_execContextFetchComplete h c eccOk late
  | contextWritebackDone c eccOk => exact memOkAfter_execContextWritebackDone h c eccOk
  | triggerLingerExpire => exact memOkAfter_execTriggerLingerExpire h
  | ringFetch sq => exact memOkAfter_execRingFetch h sq
  | commandAdmit => exact memOkAfter_execCommandAdmit h
  | slotWaitTimeout cls => exact memOkAfter_execSlotWaitTimeout h cls
  | holdTimeout cmd => exact memOkAfter_execHoldTimeout h cmd
  | completionGenerate cmd late waits latencyNs => exact memOkAfter_execCompletionGenerate h cmd late waits latencyNs
  | cqSpacePoll cq => exact memOkAfter_execCqSpacePoll h cq
  | cqDetachTimeout cq => exact memOkAfter_execCqDetachTimeout h cq
  | cmdPdSelWrite m v => exact memOkAfter_execCmdPdSelWrite h m v
  | msubGo m => exact memOkAfter_execMsubGo h m
  | readCmd cmd => exact memOkAfter_execReadCmd h cmd
  | writeCmd cmd => exact memOkAfter_execWriteCmd h cmd
  | writeZeroes cmd => exact memOkAfter_execWriteZeroes h cmd
  | deallocate cmd => exact memOkAfter_execDeallocate h cmd
  | flushCmd cmd => exact memOkAfter_execFlushCmd h cmd
  | verifyCmd cmd => exact memOkAfter_execVerifyCmd h cmd
  | readTags cmd => exact memOkAfter_execReadTags h cmd
  | releaseCmd cmd => exact memOkAfter_execReleaseCmd h cmd
  | abortCmd cmd => exact memOkAfter_execAbortCmd h cmd
  | identifyDevice cmd => exact memOkAfter_execIdentifyDevice h cmd
  | identifyVolume cmd => exact memOkAfter_execIdentifyVolume h cmd
  | configRead cmd => exact memOkAfter_execConfigRead h cmd
  | configWrite cmd => exact memOkAfter_execConfigWrite h cmd
  | queueCreateSq cmd => exact memOkAfter_execQueueCreateSq h cmd
  | queueCreateCq cmd => exact memOkAfter_execQueueCreateCq h cmd
  | queueAttach cmd => exact memOkAfter_execQueueAttach h cmd
  | queueDeleteSq cmd => exact memOkAfter_execQueueDeleteSq h cmd
  | queueDeleteCq cmd => exact memOkAfter_execQueueDeleteCq h cmd
  | volumeCreate cmd blk => exact memOkAfter_execVolumeCreate h cmd blk
  | volumeDelete cmd => exact memOkAfter_execVolumeDelete h cmd
  | volumeReshapeStart cmd blk => exact memOkAfter_execVolumeReshapeStart h cmd blk
  | volumeReshapeAbandon cmd blk => exact memOkAfter_execVolumeReshapeAbandon h cmd blk
  | setAccess cmd blk => exact memOkAfter_execSetAccess h cmd blk
  | volumeQuery cmd => exact memOkAfter_execVolumeQuery h cmd
  | getLog cmd => exact memOkAfter_execGetLog h cmd
  | keyLoad cmd blk => exact memOkAfter_execKeyLoad h cmd blk
  | keyClear cmd => exact memOkAfter_execKeyClear h cmd
  | sanitizeOverwrite cmd blk => exact memOkAfter_execSanitizeOverwrite h cmd blk
  | sanitizeBlockErase cmd blk => exact memOkAfter_execSanitizeBlockErase h cmd blk
  | sanitizeDriveOverwrite cmd blk => exact memOkAfter_execSanitizeDriveOverwrite h cmd blk
  | formatCmd cmd blk => exact memOkAfter_execFormatCmd h cmd blk
  | formatApply vol => exact memOkAfter_execFormatApply h vol
  | selfTestShort cmd => exact memOkAfter_execSelfTestShort h cmd
  | selfTestExtended cmd => exact memOkAfter_execSelfTestExtended h cmd
  | selfTestStop cmd => exact memOkAfter_execSelfTestStop h cmd
  | selfTestTimeout => exact memOkAfter_execSelfTestTimeout h
  | imageLoad cmd blk read => exact memOkAfter_execImageLoad h cmd blk read
  | imageActivate cmd blk fw img => exact memOkAfter_execImageActivate h cmd blk fw img
  | imageCopyFirstFlash => exact memOkAfter_execImageCopyFirstFlash h
  | memberFail cmd blk => exact memOkAfter_execMemberFail h cmd blk
  | memberRetire cmd blk => exact memOkAfter_execMemberRetire h cmd blk
  | slotOff cmd blk => exact memOkAfter_execSlotOff h cmd blk
  | slotOn cmd blk => exact memOkAfter_execSlotOn h cmd blk
  | adoptMember cmd blk => exact memOkAfter_execAdoptMember h cmd blk
  | setShare cmd blk => exact memOkAfter_execSetShare h cmd blk
  | pauseVolume cmd blk => exact memOkAfter_execPauseVolume h cmd blk
  | resumeVolume cmd blk => exact memOkAfter_execResumeVolume h cmd blk
  | counterSetupDump cmd blk => exact memOkAfter_execCounterSetupDump h cmd blk
  | clearSet cmd blk => exact memOkAfter_execClearSet h cmd blk
  | sampleSetup cmd blk => exact memOkAfter_execSampleSetup h cmd blk
  | windowSetup cmd blk => exact memOkAfter_execWindowSetup h cmd blk
  | copyOut cmd blk => exact memOkAfter_execCopyOut h cmd blk
  | regionCreate cmd => exact memOkAfter_execRegionCreate h cmd
  | regionDestroy cmd => exact memOkAfter_execRegionDestroy h cmd
  | maintRequest cmd blk => exact memOkAfter_execMaintRequest h cmd blk
  | moveGroups cmd blk => exact memOkAfter_execMoveGroups h cmd blk
  | returnRoles cmd blk => exact memOkAfter_execReturnRoles h cmd blk
  | admitPier cmd blk => exact memOkAfter_execAdmitPier h cmd blk
  | removePier cmd blk => exact memOkAfter_execRemovePier h cmd blk
  | formGroup cmd blk => exact memOkAfter_execFormGroup h cmd blk
  | dissolveGroup cmd blk => exact memOkAfter_execDissolveGroup h cmd blk
  | gateOn cmd blk => exact memOkAfter_execGateOn h cmd blk
  | gateOff cmd blk => exact memOkAfter_execGateOff h cmd blk
  | gateDrainExpire => exact memOkAfter_execGateDrainExpire h
  | groupForm g => exact memOkAfter_execGroupForm h g
  | tagComputeDone cmd granule => exact memOkAfter_execTagComputeDone h cmd granule
  | parityComputeDone cmd stripe => exact memOkAfter_execParityComputeDone h cmd stripe
  | bitmapWriteComplete vol region ok => exact memOkAfter_execBitmapWriteComplete h vol region ok
  | dirtyIdleExpire vol region => exact memOkAfter_execDirtyIdleExpire h vol region
  | journalWriteComplete group copy jseq ok => exact memOkAfter_execJournalWriteComplete h group copy jseq ok
  | journalCheckpoint group => exact memOkAfter_execJournalCheckpoint h group
  | fragmentWriteComplete cmd stripe col r => exact memOkAfter_execFragmentWriteComplete h cmd stripe col r
  | driveReadComplete cmd stripe col first r => exact memOkAfter_execDriveReadComplete h cmd stripe col first r
  | driveFaultReport slot report => exact memOkAfter_execDriveFaultReport h slot report
  | cstsPoll slot cfs => exact memOkAfter_execCstsPoll h slot cfs
  | driveCmdTimeout slot => exact memOkAfter_execDriveCmdTimeout h slot
  | healthLogPoll slot warning => exact memOkAfter_execHealthLogPoll h slot warning
  | asyncEventNotice slot warning => exact memOkAfter_execAsyncEventNotice h slot warning
  | memberAnswer slot => exact memOkAfter_execMemberAnswer h slot
  | memberFailTimeout slot cause => exact memOkAfter_execMemberFailTimeout h slot cause
  | journalRemirrorComplete group copy => exact memOkAfter_execJournalRemirrorComplete h group copy
  | catchupComplete slot => exact memOkAfter_execCatchupComplete h slot
  | bandRestoreStart group => exact memOkAfter_execBandRestoreStart h group
  | bandRestoreComplete group => exact memOkAfter_execBandRestoreComplete h group
  | copybackComplete group position => exact memOkAfter_execCopybackComplete h group position
  | rebuildProgressTick group mbps gibLeft => exact memOkAfter_execRebuildProgressTick h group mbps gibLeft
  | reshapeUnitCopy vol => exact memOkAfter_execReshapeUnitCopy h vol
  | reshapeSwitch vol => exact memOkAfter_execReshapeSwitch h vol
  | reshapeAbandonDone vol => exact memOkAfter_execReshapeAbandonDone h vol
  | sanitizeStatusPoll slot done failed => exact memOkAfter_execSanitizeStatusPoll h slot done failed
  | overwriteCursorTick vol finished => exact memOkAfter_execOverwriteCursorTick h vol finished
  | heartbeatSend => exact memOkAfter_execHeartbeatSend h
  | heartbeatReceive pathB x => exact memOkAfter_execHeartbeatReceive h pathB x
  | heartbeatMiss pathB => exact memOkAfter_execHeartbeatMiss h pathB
  | partnerHaltedReceive => exact memOkAfter_execPartnerHaltedReceive h
  | powerFailFrameReceive => exact memOkAfter_execPowerFailFrameReceive h
  | healthSend => exact memOkAfter_execHealthSend h
  | healthReceive x => exact memOkAfter_execHealthReceive h x
  | mirrorReceive mseq items => exact memOkAfter_execMirrorReceive h mseq items
  | mirrorAckReceive mseq => exact memOkAfter_execMirrorAckReceive h mseq
  | mirrorResend => exact memOkAfter_execMirrorResend h
  | snapshotAcked kcvAgree => exact memOkAfter_execSnapshotAcked h kcvAgree
  | arbiterAcquireComplete n a => exact memOkAfter_execArbiterAcquireComplete h n a
  | arbiterTimeout n => exact memOkAfter_execArbiterTimeout h n
  | arbitrationRetry => exact memOkAfter_execArbitrationRetry h
  | garpRepeat => exact memOkAfter_execGarpRepeat h
  | preemptComplete slot => exact memOkAfter_execPreemptComplete h slot
  | preemptTimeout slot => exact memOkAfter_execPreemptTimeout h slot
  | ownershipRecordDurable => exact memOkAfter_execOwnershipRecordDurable h
  | takeoverFinish => exact memOkAfter_execTakeoverFinish h
  | selfFence => exact memOkAfter_execSelfFence h
  | handoverStart => exact memOkAfter_execHandoverStart h
  | handoverDrainTimeout => exact memOkAfter_execHandoverDrainTimeout h
  | handoverReceive groups roles lastMseq => exact memOkAfter_execHandoverReceive h groups roles lastMseq
  | stableTimeExpire => exact memOkAfter_execStableTimeExpire h
  | innerConnect pier => exact memOkAfter_execInnerConnect h pier
  | innerIdleProbe pier => exact memOkAfter_execInnerIdleProbe h pier
  | pierLossTimeout pier => exact memOkAfter_execPierLossTimeout h pier
  | fwdCmd pier r => exact memOkAfter_execFwdCmd h pier r
  | fwdCpl pier r => exact memOkAfter_execFwdCpl h pier r
  | fwdTrigger pier r => exact memOkAfter_execFwdTrigger h pier r
  | fragReq pier r group => exact memOkAfter_execFragReq h pier r group
  | fragDone pier r => exact memOkAfter_execFragDone h pier r
  | directoryRec pier r => exact memOkAfter_execDirectoryRec h pier r
  | epochRec pier r group => exact memOkAfter_execEpochRec h pier r group
  | ownerWaitTimeout cmd => exact memOkAfter_execOwnerWaitTimeout h cmd
  | entropyFault => exact memOkAfter_execEntropyFault h
  | bistSliceStart => exact memOkAfter_execBistSliceStart h
  | sliceDrainTimeout => exact memOkAfter_execSliceDrainTimeout h
  | sliceSegmentEnd r => exact memOkAfter_execSliceSegmentEnd h r
  | fuseBurn m v => exact memOkAfter_execFuseBurn h m v
  | hbmEccError pc addr kind => exact memOkAfter_execHbmEccError h pc addr kind
  | pcRetireCopyDone pc => exact memOkAfter_execPcRetireCopyDone h pc
  | maintRequestRetry => exact memOkAfter_execMaintRequestRetry h
  | cpuCoreError core uncorrectable => exact memOkAfter_execCpuCoreError h core uncorrectable
  | sensorDisagree sensor => exact memOkAfter_execSensorDisagree h sensor
  | refclkLoss clk => exact memOkAfter_execRefclkLoss h clk
  | refclkRestore clk => exact memOkAfter_execRefclkRestore h clk
  | fatalClockFault => exact memOkAfter_execFatalClockFault h
  | counterSnapshot => exact memOkAfter_execCounterSnapshot h
  | windowPublish ports inner => exact memOkAfter_execWindowPublish h ports inner
  | ctrPrivSelWrite m v => exact memOkAfter_execCtrPrivSelWrite h m v
  | sampleLfsrReseed => exact memOkAfter_execSampleLfsrReseed h
  | traceRecordDrop => exact memOkAfter_execTraceRecordDrop h
  | trestleConnectReply net pk => exact memOkAfter_execTrestleConnectReply h net pk
  | trestleResume net pk => exact memOkAfter_execTrestleResume h net pk
  | epochGrantReceive pier group epoch arbiter => exact memOkAfter_execEpochGrantReceive h pier group epoch arbiter
  | selfTestComplete failed driveFails first => exact memOkAfter_execSelfTestComplete h failed driveFails first
  | fuseBurnComplete ok => exact memOkAfter_execFuseBurnComplete h ok
  | dumpWriteComplete => exact memOkAfter_execDumpWriteComplete h
  | scrubTick step => exact memOkAfter_execScrubTick h step

theorem memOkAfter_step {s : State} (h : s.dev.memOk = true) : MemOkAfter (step s) := by
  unfold step
  split
  · next c rest _ => exact memOkAfter_exec (s := { s with pending := rest }) h c
  · rintro t ⟨rfl⟩
    exact (memOk_congr (bytes_idleTick s.dev)).trans h

/-- Settles O58: what writes a memory does so by `memWrites` and `memZero`, which keep the canonical form, and all else leaves the
three memories as they are. -/
theorem memoryKept : Obligations.MemoryKept := by
  unfold Obligations.MemoryKept
  intro s t h ht
  exact memOkAfter_step h t ht

end Sys2Proof.Machine

/-! ## Where a Trestle frame goes -/

namespace Sys2Proof.Machine

theorem destOf_of_isStation {d : Dev} {p v vid : Nat} {f : Frame} (h : isStation d f.dst = true) :
    destOf d p v vid f = stationDest d f := by
  simp only [destOf, h, if_true]

theorem stationDest_of_ownIp {d : Dev} {f : Frame} {h : IpHdr} (he : f.etype ≠ 0x88B5) (hf : f.ip = some h) (ho : ownIp d h.dst = true) :
    stationDest d f = .local (if isTrestle d h then trsPort h.trOp h.trConn else 35) := by
  simp [stationDest, he, hf, ho]

theorem isTrestle_iff {d : Dev} {h : IpHdr} : isTrestle d h = true ↔ h.proto = 17 ∧ h.dport = d.pln.plan.udpPort := by
  simp [isTrestle]

theorem trsPort_connect (conn : Word) : trsPort 10 conn = 33 := rfl

theorem trsPort_of_ne {op : Nat} (h : op ≠ 10) (conn : Word) : trsPort op conn = 33 + connIdx conn % 2 := by
  simp [trsPort, h]

/-- Settles O18: a frame to the device's own station and IP address goes where `trsPort` says. -/
theorem trestlePorts : Obligations.TrestlePorts := by
  unfold Obligations.TrestlePorts
  intro d p v vid f h he hst hip hproto hport hown
  have hdest : destOf d p v vid f = .local (trsPort h.trOp h.trConn) := by
    rw [destOf_of_isStation hst, stationDest_of_ownIp he hip hown, if_pos (isTrestle_iff.2 ⟨hproto, hport⟩)]
  refine ⟨fun hop h0 => ?_, fun hop h1 => ?_, fun hop => ?_⟩
  · rw [hdest, trsPort_of_ne hop, h0]
  · rw [hdest, trsPort_of_ne hop, h1]
  · rw [hdest, hop, trsPort_connect]

end Sys2Proof.Machine

/-! ## The passage of time -/

namespace Sys2Proof.Machine

theorem startReq_time (d : Dev) (r : DomReq) : (startReq d r).time = d.time := by
  unfold startReq
  dsimp only
  repeat' split
  all_goals rfl

theorem domServe_time (d : Dev) : (domServe d).time = d.time := by
  unfold domServe
  extract_lets go
  have hgo (d : Dev) (on : Bool) : (go d on).time = d.time := by
    simp only [go]
    split
    · exact startReq_time ..
    · split
      · exact startReq_time ..
      · rfl
  exact (hgo _ _).trans (hgo _ _)

theorem sgpioFrame_time (d : Dev) : (sgpioFrame d).time = d.time := rfl

theorem idleTick_time (d : Dev) : (idleTick d).time = d.time + tickNs d := by
  unfold idleTick
  dsimp only
  split <;> split <;> simp [sgpioFrame_time, domServe_time]

/-- With no domain request waiting, an idle step moves device time and sends the SGPIO frame that is due. -/
theorem idleTick_of_reqs_nil {d : Dev} (h : d.pwr.reqs = []) : idleTick d =
    if planned d && sgpioDue d.time (d.time + tickNs d) then sgpioFrame { d with time := d.time + tickNs d }
    else { d with time := d.time + tickNs d } := by
  simp only [idleTick, h, List.isEmpty_nil, if_true]
  rfl

/-- In a concatenation of pieces of three, the third bit of a piece. -/
theorem getElem?_flatMap_three {α : Type} {f : Nat → List α} (hf : ∀ k, (f k).length = 3) (n k : Nat) (hk : k < n) :
    ((List.range n).flatMap f)[3 * k + 2]? = (f k)[2]? := by
  induction n with
  | zero => omega
  | succ n ih =>
    have hlen : ((List.range n).flatMap f).length = 3 * n := by simp [List.length_flatMap, hf, mul_comm]
    rw [List.range_succ, List.flatMap_append, List.flatMap_singleton]
    rcases Nat.lt_succ_iff_lt_or_eq.1 hk with hk | rfl
    · rw [List.getElem?_append_left (by omega), ih hk]
    · rw [List.getElem?_append_right (by omega), hlen, Nat.add_sub_cancel_left]

theorem sgpioSlots_length (d : Dev) (n : Nat) : ((List.range 24).flatMap (sgpioSlot d n)).length = 72 := by
  simp [List.length_flatMap, sgpioSlot]

/-- Settles O54: an idle step without requests is the tick and, where one is due, the SGPIO frame. -/
theorem stepFront : Obligations.StepFront := by
  unfold Obligations.StepFront
  intro c rest d
  refine ⟨rfl, rfl, idleTick_time d, Nat.le_add_right .., fun hreqs hdue => ?_, fun hreqs hpl hdue => ?_⟩
  · rw [idleTick_of_reqs_nil hreqs, if_neg (by simpa [imp_iff_not_or] using hdue)]
  · rw [idleTick_of_reqs_nil hreqs, if_pos (by simp [hpl, hdue])]
    refine ⟨_, List.mem_append_right _ (List.mem_singleton_self _), sgpioSlots_length _ _, fun k hk => ?_⟩
    exact getElem?_flatMap_three (fun _ => rfl) 24 k hk

end Sys2Proof.Machine

/-! ## The machine right after reset -/

namespace Sys2Proof.Machine

/-- Settles O55: every clause is read off the reset state; its memories are those of `reset_memOk`. -/
theorem resetState : Obligations.ResetState := by
  unfold Obligations.ResetState
  exact ⟨rfl, rfl, rfl, rfl, ⟨by decide, by decide, by decide⟩, fun _ => rfl, rfl, rfl, rfl, rfl, rfl, rfl, rfl, rfl, reset_memOk⟩

end Sys2Proof.Machine

/-! ## Cold resets -/

namespace Sys2Proof.Machine

/-- A command that always acts gives what its effect has once settled. -/
theorem gives_of_act {c : Instr} {s : State} {f : Dev → Dev} {p : Dev → Prop} (hc : exec c s = act s f)
    (h : p (settle (f s.dev))) : Gives c s p :=
  ⟨_, hc.trans (act_eq s f), h⟩

/-- A burn that is not under way loses nothing. -/
theorem burnLost_of_not_burning {d : Dev} (h : d.bst.burning = false) : burnLost d = d := by
  simp only [burnLost, h, Bool.not_false, if_true]

@[simp] theorem burnLost_glb (d : Dev) : (burnLost d).glb = d.glb := by
  unfold burnLost
  split <;> rfl

@[simp] theorem burnLost_par (d : Dev) : (burnLost d).par = d.par := by
  unfold burnLost
  split <;> rfl

theorem coldCleared_coldReset (d : Dev) (c : BitVec 6) : ColdCleared d (coldReset d c) := by
  refine ⟨rfl, rfl, rfl, rfl, rfl, rfl, rfl, rfl, rfl, rfl, rfl, ?_, ?_, fun hb => ?_, ?_, ?_⟩
  · simp [coldReset]
  · simp [coldReset]
  · simp only [coldReset, burnLost_of_not_burning hb]
    exact ⟨rfl, rfl⟩
  · simp [coldReset, parDurable]
  · simp [coldReset, parDurable]

/-- What follows from a cold reset writes nothing that it cleared. -/
theorem coldCleared_settle {d e : Dev} (h : ColdCleared d e) : ColdCleared d (settle e) := by
  simpa [ColdCleared] using h

/-- The device state is not among what a cold reset clears. -/
theorem coldCleared_st {d e : Dev} {st : DevSt} (h : ColdCleared d e) : ColdCleared d { e with glb.st := st } := h

/-- Settles O1: each of the three commands is a cold reset, of which `coldCleared_coldReset` says what it leaves. -/
theorem coldResets : Obligations.ColdResets := by
  unfold Obligations.ColdResets
  intro s
  have hcold (c : BitVec 6) := coldCleared_settle (coldCleared_coldReset s.dev c)
  refine ⟨fun hoff => ?on, fun hoff => ?porst, ?loss⟩
  case on =>
    exact gives_of_actIf (rfl : execAonPowerOn s = _) (by simp [hoff]) ⟨by simp [coldReset], by simp [coldReset], hcold _⟩
  case porst =>
    exact gives_of_actIf (rfl : execPorstAssert s = _) (by simp [hoff]) ⟨by simp [coldReset], hcold _, by simp [coldReset]⟩
  case loss =>
    exact gives_of_act (rfl : execAonPowerLoss s = _)
      ⟨by simp, coldCleared_settle (coldCleared_st (coldCleared_coldReset s.dev 0))⟩

end Sys2Proof.Machine

/-! ## Power registers under a command's own rights -/

namespace Sys2Proof.Machine

theorem writeAccess_denied {d : Dev} {m : Master} {off : Nat} {f : Dev → Dev} (h : pageHas d m (off / 0x10000) rWRITE = false) :
    writeAccess d m off f = deny d m 0 off rWRITE := by
  simp [writeAccess, h]

theorem writeAccess_allowed {d : Dev} {m : Master} {off : Nat} {f : Dev → Dev} (h : pageHas d m (off / 0x10000) rWRITE = true) :
    writeAccess d m off f = f d := by
  simp [writeAccess, h]

/-- Two outcomes of one queue that agree leave the same device. -/
theorem dev_eq_of_next {s : State} {d e : Dev}
    (h : (.next { s with dev := d } : Host.Outcome State Fault Refusal) = .next { s with dev := e }) : d = e :=
  congrArg State.dev (Host.Outcome.next.inj h)

/-- A watchdog kick by a master without WRITE on the global window is a denial and nothing else. -/
theorem exec_glbWdogKick_denied {s : State} {m : Master} {v : Word} (hr : running s.dev = true)
    (h : pageHas s.dev m 0 rWRITE = false) :
    exec (.glbWdogKick m v) s = .next { s with dev := settle (deny s.dev m 0 0x34 rWRITE) } := by
  exact (actIf_true hr).trans (by rw [writeAccess_denied (off := 0x34) h])

/-- FW_CORE while a command runs that was admitted with no right on the global window (R24), in BOOT at 1 ns. -/
def fwWithoutGlobalWindow : State :=
  { dev := { time := 1, glb := { st := .boot }, acc := { acting := some (fwCore, [(0, 0)]) } } }

/-- Refutes O7: in a state where the rights found at a command's admission stand for those of FW_CORE (R24) and leave out the global
window, the kick is denied and the watchdog's time stays 0. -/
theorem not_powerRegisters : ¬ Obligations.PowerRegisters := by
  unfold Obligations.PowerRegisters
  intro h
  obtain ⟨-, -, -, -, -, kick, -, -⟩ := h fwWithoutGlobalWindow fwCore 0 (by decide)
  obtain ⟨d, hd, hwdog⟩ := kick (by decide) (by decide)
  rw [exec_glbWdogKick_denied (by decide) (by decide)] at hd
  rw [← dev_eq_of_next hd, settle_glb, deny_glb] at hwdog
  exact absurd hwdog (by decide)

end Sys2Proof.Machine

/-! ## Access entries, privileged captures, debug unlock and the TAP -/

namespace Sys2Proof.Machine

@[simp] theorem tdDraw_ctr (d : Dev) : (tdDraw d).ctr = d.ctr := by
  obtain ⟨_, _, h⟩ := tdDraw_only d
  rw [h]

/-- Following the counter mode writes no privileged capture. -/
theorem modeRefresh_priv (d : Dev) : (modeRefresh d).ctr.priv = d.ctr.priv ∧ (modeRefresh d).ctr.privAt = d.ctr.privAt := by
  unfold modeRefresh
  split
  · exact ⟨rfl, rfl⟩
  · split
    · simp
    · dsimp only
      split <;> exact ⟨rfl, rfl⟩

theorem settle_priv (d : Dev) : (settle d).ctr.priv = d.ctr.priv ∧ (settle d).ctr.privAt = d.ctr.privAt := by
  obtain ⟨_, _, _, hvols⟩ := noteVols_only d
  obtain ⟨_, hattn⟩ := attnRefresh_only (noteVols d)
  have hctr : (attnRefresh (noteVols d)).ctr = d.ctr := by rw [hattn, hvols]
  rw [← hctr]
  exact modeRefresh_priv _

@[simp] theorem settle_ctr_priv (d : Dev) : (settle d).ctr.priv = d.ctr.priv := (settle_priv d).1
@[simp] theorem settle_ctr_privAt (d : Dev) : (settle d).ctr.privAt = d.ctr.privAt := (settle_priv d).2

/-- The entry that a write of word 1 makes where word 0 is latched. -/
theorem entryFrom_latched {w0 : Tab Word} {t : Tab AccessEntry} {k : Nat} {w : Word} (h : tget w0 k = some w) (v : Word) :
    entryFrom w0 t k v = { w0 := w, w1 := v &&& entryMask1 } := by
  simp [entryFrom, entryWord, h]

/-- A capture by a master that may, with none in the last 10 µs to hold it back. -/
theorem privSel_captures {d : Dev} {m : Master} {v : Word} (hm : isFw m = true ∨ holds (ctrRights d m 12) rGLOBAL = true)
    (hat : d.ctr.privAt = none) :
    ((privSel d m v).ctr.priv.map (·.1)) = some (v.toNat % 64) ∧ (privSel d m v).ctr.privAt = some d.time := by
  have hmay : (!isFw m && !holds (ctrRights d m 12) rGLOBAL) = false := by
    rcases hm with h | h <;> simp [h]
  simp [privSel, hmay, hat]

theorem unlockOpen_iff {d : Dev} :
    unlockOpen d = true ↔ (d.glb.st = .maint ∨ d.glb.st = .halt) ∧ domOn d 62 = true ∧ d.acc.dbgFails < 3 := by
  simp [unlockOpen, pdDBG, and_assoc]

theorem unlockFail_acc (d : Dev) : (unlockFail d).acc = { d.acc with dbgFails := d.acc.dbgFails + 1 } := by
  simp [unlockFail]

/-- Both words of a page's access entry lie on configuration page 3 (R144). -/
theorem accessEntry_page {base page e : Nat} (hb : base = 0x38000 ∨ base = 0x38004) (hp : page < 224) (he : e < 8) :
    (base + 64 * page + 8 * e) / 0x10000 = 3 := by
  omega

/-- Settles O13: one branch of the model's access registers, privileged capture, unlock and TAP per clause. -/
theorem accessAndDebug : Obligations.AccessAndDebug := by
  unfold Obligations.AccessAndDebug
  intro s m page e v hon
  refine ⟨?word0, ?word1, ?priv, ?refused, ?request, ?response, ?tap⟩
  case word0 =>
    intro hr hp he hw
    refine gives_of_actIf (rfl : execAccessEntryWord0Write m page e v s = _) (by simp [hr, hp, he]) ?_
    have hpage : pageHas s.dev m ((0x38000 + 64 * page + 8 * e) / 0x10000) rWRITE = true := by
      rwa [accessEntry_page (.inl rfl) hp he]
    rw [writeAccess_allowed hpage]
    simp [pageEntryW0]
  case word1 =>
    intro w hr hp he hw hlatch
    refine gives_of_actIf (rfl : execAccessEntryWord1Write m page e v s = _) (by simp [hr, hp, he]) ?_
    have hpage : pageHas s.dev m ((0x38004 + 64 * page + 8 * e) / 0x10000) rWRITE = true := by
      rwa [accessEntry_page (.inr rfl) hp he]
    rw [writeAccess_allowed hpage]
    simp only [pageEntryW1, settle_acc, entryFrom_latched hlatch]
    exact ⟨tget_tset_same .., fun k hk => tget_tset_ne _ _ hk⟩
  case priv =>
    intro hr hw hm hat
    refine gives_of_actIf (rfl : execCtrPrivSelWrite m v s = _) hr ?_
    rw [writeAccess_allowed (off := 0xC00050) hw, settle_ctr_priv, settle_ctr_privAt]
    exact privSel_captures hm hat
  case refused =>
    intro hmaint hhalt
    refine gives_of_actIf (rfl : execDebugUnlockRequest s = _) (by simpa using hon) ?_
    simp [hmaint, hhalt]
  case request =>
    intro hst hdom hfails
    refine gives_of_actIf (rfl : execDebugUnlockRequest s = _) (by simpa using hon) ?_
    rw [if_neg (by rcases hst with h | h <;> simp [h]), if_neg (by simp [unlockOpen_iff.2 ⟨hst, hdom, hfails⟩])]
    simp
  case response =>
    intro key sig hst hdom hchal hfails
    refine gives_of_actIf (rfl : execDebugUnlockResponse key sig s = _) (by simp [unlockOpen_iff.2 ⟨hst, hdom, hfails⟩, hchal]) ?_
    by_cases hgood : key.length = 97 ∧ ownerSigned key sig (le 8 s.dev.acc.challenge.toNat ++ Config.serial) = true
    · rw [if_pos (by simpa using hgood)]
      simp [hgood]
    · rw [if_neg (by simpa using hgood)]
      simp [hgood, unlockFail_acc]
  case tap =>
    intro i
    refine gives_of_actIf (rfl : execTapInstructionLoad i s = _) (by simpa using hon) ?_
    simp [or_assoc]

end Sys2Proof.Machine

/-! ## Sensors, the thermal governor and AVS -/

namespace Sys2Proof.Machine

section
variable {part : Piece} {d₀ d : Dev}

theorem same_haltNotice (hpar : part ≠ .par) (houts : part ≠ .outs) : part.same d₀ (haltNotice d) ↔ part.same d₀ d := by
  simp only [haltNotice, same_pairOn hpar houts]

theorem same_allOff (hpwr : part ≠ .pwr) : part.same d₀ (allOff d) ↔ part.same d₀ d := by
  simp only [allOff, same_domQueueOff hpwr, same_foldl, implies_true]

end

@[simp] theorem haltNotice_glb (d : Dev) : (haltNotice d).glb = d.glb :=
  (same_haltNotice (part := .glb) nofun nofun).2 (same_refl _ d)

@[simp] theorem haltNotice_sense (d : Dev) : (haltNotice d).sense = d.sense :=
  (same_haltNotice (part := .sense) nofun nofun).2 (same_refl _ d)

@[simp] theorem allOff_glb (d : Dev) : (allOff d).glb = d.glb := (same_allOff (part := .glb) nofun).2 (same_refl _ d)

@[simp] theorem allOff_sense (d : Dev) : (allOff d).sense = d.sense := (same_allOff (part := .sense) nofun).2 (same_refl _ d)

@[simp] theorem sliceInterrupt_sense (d : Dev) : (sliceInterrupt d).sense = d.sense :=
  (same_sliceInterrupt (part := .sense) nofun nofun nofun).2 (same_refl _ d)

/-! ### The shutdown (R101) -/

@[simp] theorem shutdown_sense (d : Dev) : (shutdown d).sense = d.sense := by
  unfold shutdown
  split <;> simp

@[simp] theorem shutdown_thermtrip (d : Dev) : (shutdown d).glb.thermtrip = d.glb.thermtrip := by
  unfold shutdown
  split <;> simp

/-- A shutdown of a running device is under way, whether it begins now or had begun. -/
theorem shutdown_begun {d : Dev} (h : running d = true) : (shutdown d).glb.shutdown = true := by
  unfold shutdown
  split
  case isTrue hdone => simpa [h] using hdone
  case isFalse => simp

/-! ### What a scan leaves of the readings (R98 to R100) -/

theorem warnStep_readings (d : Dev) :
    (warnStep d).sense.temps = d.sense.temps ∧ (warnStep d).sense.tjMax = d.sense.tjMax := by
  unfold warnStep
  dsimp only
  split <;> simp

@[simp] theorem throttleStep_sense (d : Dev) : (throttleStep d).sense = d.sense := by
  unfold throttleStep
  dsimp only
  split_ifs <;> simp

@[simp] theorem thermtripGo_sense (d : Dev) : (thermtripGo d).sense = d.sense := shutdown_sense _

/-! ### The thermal cap of the next tick (R100) -/

/-- At THROTTLE_C and above the governor's cap falls, to no less than 40 W. -/
theorem thermalNext_throttled {d : Dev} (cap : Nat) (h : 16 * throttleC d ≤ d.sense.tjMax) :
    ∃ c, thermalNext d cap = some c ∧ 40000 ≤ c := by
  have htj : 16 * throttleC d ≤ if hbmAt d 95 then max d.sense.tjMax (16 * throttleC d) else d.sense.tjMax := by
    split
    · exact le_max_right ..
    · exact h
  exact ⟨_, if_pos htj, le_max_left ..⟩

/-- At THROTTLE_C less HYST_C, with no HBM stack at 95 °C, the cap rises, and throttling ends above 148 W. -/
theorem thermalNext_cooled {d : Dev} (cap : Nat) (h : d.sense.tjMax ≤ 16 * throttleC d - 16 * hystC d) (hy : 0 < hystC d)
    (hb : hbmAt d 95 = false) : thermalNext d cap = if 148000 < cap + 4000 then none else some (cap + 4000) := by
  have hcool : ¬ 16 * throttleC d ≤ d.sense.tjMax := by omega
  simp [thermalNext, hb, hcool, h]

theorem setpoint_bounds (mv : Nat) : 700 ≤ setpoint mv ∧ setpoint mv ≤ 780 := by
  unfold setpoint
  omega

/-- Settles O5: the branch of each command that its clause names. -/
theorem sensorsAndThermal : Obligations.SensorsAndThermal := by
  unfold Obligations.SensorsAndThermal
  intro s hon
  refine ⟨?scan, ?trip, ?tick, ?avs, ?aging⟩
  case scan =>
    intro readings
    refine gives_of_actIf (rfl : execSensorScan readings s = _) (by simpa using hon) ?_
    dsimp only
    split_ifs <;> simp [warnStep_readings]
  case trip =>
    intro sensor hs
    refine gives_of_actIf (rfl : execThermtrip sensor s = _) (by simp [hon, hs]) ⟨?_, fun hr => ?_⟩
    · simp [thermtripGo]
    · rw [settle_glb]
      exact shutdown_begun hr
  case tick =>
    intro cap hcap
    refine gives_of_act (rfl : execThermalGovernorTick s = _) ?_
    simp only [hcap, settle_pwr]
    refine ⟨trivial, thermalNext_throttled cap, fun hcool hy hb => ?_⟩
    rw [thermalNext_cooled cap hcool hy hb]
    exact ⟨fun hlow => if_neg (by omega), fun hhigh => if_pos (by omega)⟩
  case avs =>
    intro mv hboot hset
    refine gives_of_actIf (rfl : execAvsInitialSet mv s = _) (by simp [hboot, hset]) ?_
    rw [settle_sense]
    exact ⟨rfl, rfl, setpoint_bounds _⟩
  case aging =>
    intro slowdown margin more hset
    refine gives_of_actIf (rfl : execAgingMonitorRead slowdown margin more s = _) (by simp [hon, hset]) ?_
    rw [settle_sense]
    cases more
    · simp
    · by_cases hroom : s.dev.sense.avsMv + 5 ≤ 780
      · simp only [hroom, Bool.not_true, Bool.false_eq_true, if_true, if_false]
        exact ⟨trivial, trivial, nofun, fun _ _ => trivial, fun _ h => absurd h (by omega)⟩
      · simp only [hroom, Bool.not_true, Bool.false_eq_true, if_false]
        exact ⟨trivial, trivial, nofun, fun _ h => absurd h (by omega), fun _ _ => ⟨trivial, trivial⟩⟩

end Sys2Proof.Machine

/-! ## From RESET to TRAIN -/

namespace Sys2Proof.Machine

section
variable {part : Piece} {d₀ d : Dev}

theorem same_laneFail (hregs : part ≠ .regs) (hitg : part ≠ .itg) {lane : Nat} :
    part.same d₀ (laneFail d lane) ↔ part.same d₀ d := by
  simp only [laneFail, same_itgEvent, same_setSticky hregs, itgCntN, same_countN, same_itg hitg]

theorem same_softAdd (hbst : part ≠ .bst) {e : RepairEntry} : part.same d₀ (softAdd d e) ↔ part.same d₀ d := by
  simp only [softAdd, same_faultEvent, same_bst hbst, same_ite, ite_self]

theorem same_holdOff (hpwr : part ≠ .pwr) {n : Nat} : part.same d₀ (holdOff d n) ↔ part.same d₀ d := by
  simp only [holdOff, same_domQueueOff hpwr, same_logEvent, same_pwr hpwr]

theorem same_bootRepairs (hbst : part ≠ .bst) (l : List SramFault) : part.same d₀ (bootRepairs d l).1 ↔ part.same d₀ d := by
  refine foldl_keeps (fun r : Dev × List Nat => part.same d₀ r.1 ↔ part.same d₀ d) _ (fun r f hr => ?_) l _ Iff.rfl
  split
  · exact (same_softAdd hbst).trans hr
  · exact hr

theorem same_bootTested (hregs : part ≠ .regs) (hitg : part ≠ .itg) (hbst : part ≠ .bst) {fails lanes : List Nat}
    {repairs : List SramFault} : part.same d₀ (bootTested d fails lanes repairs).1 ↔ part.same d₀ d := by
  simp only [bootTested, same_bootRepairs hbst, same_laneFail hregs hitg, same_foldl, implies_true]

end

@[simp] theorem domRequestOn_glb (d : Dev) (n : Nat) (t : Bool) : (domRequestOn d n t).glb = d.glb :=
  (same_domRequestOn (part := .glb) nofun).2 (same_refl _ d)

@[simp] theorem domRequestOn_sense (d : Dev) (n : Nat) (t : Bool) : (domRequestOn d n t).sense = d.sense :=
  (same_domRequestOn (part := .sense) nofun).2 (same_refl _ d)

@[simp] theorem domRequestOn_pln (d : Dev) (n : Nat) (t : Bool) : (domRequestOn d n t).pln = d.pln :=
  (same_domRequestOn (part := .pln) nofun).2 (same_refl _ d)

@[simp] theorem spiRead_glb (d : Dev) (flashB header : Bool) : (spiRead d flashB header).glb = d.glb :=
  (same_spiRead (part := .glb) nofun).2 (same_refl _ d)

@[simp] theorem spiRead_pln (d : Dev) (flashB header : Bool) : (spiRead d flashB header).pln = d.pln :=
  (same_spiRead (part := .pln) nofun).2 (same_refl _ d)

@[simp] theorem spiRead_time (d : Dev) (flashB header : Bool) : (spiRead d flashB header).time = d.time := rfl

@[simp] theorem bootField_st (d : Dev) (lsb width x : Nat) : (bootField d lsb width x).glb.st = d.glb.st := rfl

@[simp] theorem bootField_planAccepted (d : Dev) (lsb width x : Nat) :
    (bootField d lsb width x).glb.planAccepted = d.glb.planAccepted := rfl

@[simp] theorem bootField_pln (d : Dev) (lsb width x : Nat) : (bootField d lsb width x).pln = d.pln := rfl

/-! ### Fields of GLB_BOOT_STATUS -/

theorem bootField_plan_result (d : Dev) {r : Nat} (h : r < 16) : fld (bootField d 14 4 r).glb.bootStatus.toNat 14 4 = r := by
  have := d.glb.bootStatus.isLt
  simp only [bootField, putFld, fld, Nat.shiftRight_eq_div_pow, Nat.shiftLeft_eq, BitVec.toNat_ofNat]
  omega

theorem bootField_plan_source (d : Dev) (x : Nat) :
    fld (bootField d 18 2 x).glb.bootStatus.toNat 14 4 = fld d.glb.bootStatus.toNat 14 4 := by
  have := d.glb.bootStatus.isLt
  simp only [bootField, putFld, fld, Nat.shiftRight_eq_div_pow, Nat.shiftLeft_eq, BitVec.toNat_ofNat]
  omega

theorem planResult_lt (d : Dev) (i : PlanImage) : planResult d i < 16 := by
  unfold planResult planJudge
  split_ifs <;> omega

/-! ### PLAN -/

theorem noPlan_glb (d : Dev) (source result staging : Nat) : (noPlan d source result staging).glb = (enter d .maint).glb := by
  simp [noPlan, toMaint, enter]

theorem noPlan_pln (d : Dev) (source result staging : Nat) : (noPlan d source result staging).pln = d.pln := by
  simp [noPlan, toMaint]

theorem startReq_heldOff (d : Dev) (r : DomReq) : (startReq d r).pwr.heldOff = d.pwr.heldOff := by
  unfold startReq
  dsimp only
  split_ifs <;> rfl

theorem domServe_heldOff (d : Dev) : (domServe d).pwr.heldOff = d.pwr.heldOff := by
  unfold domServe
  extract_lets go
  have hgo (d : Dev) (on : Bool) : (go d on).pwr.heldOff = d.pwr.heldOff := by
    simp only [go]
    split
    · exact startReq_heldOff ..
    · split
      · exact startReq_heldOff ..
      · rfl
  exact (hgo _ _).trans (hgo _ _)

theorem domRequestOn_heldOff (d : Dev) (n : Nat) (t : Bool) : (domRequestOn d n t).pwr.heldOff = d.pwr.heldOff := by
  unfold domRequestOn
  split_ifs <;> simp [domServe_heldOff]

/-- A turn of the switch-on sequence holds off no domain, and writes of the global window at most the device state. -/
theorem turnStep_keeps (d : Dev) :
    (turnStep d).pwr.heldOff = d.pwr.heldOff ∧ (turnStep d).glb.planApplied = d.glb.planApplied := by
  unfold turnStep
  split
  · exact ⟨rfl, rfl⟩
  · dsimp only
    split
    · exact ⟨rfl, rfl⟩
    · split
      · exact ⟨domRequestOn_heldOff .., by simp⟩
      · split <;> exact ⟨rfl, rfl⟩

theorem turnOn_keeps (d : Dev) (want : Dword) :
    (turnOn d want).pwr.heldOff = d.pwr.heldOff ∧ (turnOn d want).glb.planApplied = d.glb.planApplied
      ∧ (turnOn d want).pln = d.pln := by
  obtain ⟨hheld, happlied⟩ := turnStep_keeps { d with pwr.turn := some want }
  exact ⟨hheld, happlied, (same_turnStep (part := .pln) (d₀ := d) nofun nofun).2 rfl⟩

/-- A sequence that wants a domain which requires nothing does not end before that domain is on, unless it is held off. -/
theorem turnStep_glb_of_wanted {d : Dev} {want : Dword} {n : Nat} (hturn : d.pwr.turn = some want) (hn : n < 64)
    (hwant : bitAt want.toNat n = true) (hreq : domRequires n = []) (hon : domOn d n = false)
    (hheld : bitAt d.pwr.heldOff.toNat n = false) : (turnStep d).glb = d.glb := by
  have hmem : n ∈ bitList want.toNat 64 := List.mem_filter.2 ⟨List.mem_range.2 hn, hwant⟩
  unfold turnStep
  simp only [hturn]
  split
  case isTrue => rfl
  case isFalse hrest =>
    have hasked : domTarget d n = false := by
      have hrest := List.all_eq_true.1 (by simpa using hrest) n hmem
      simpa [domAtRest, hon] using hrest
    split
    case h_1 => exact domRequestOn_glb ..
    case h_2 hnone => exact absurd (List.find?_eq_none.1 hnone n hmem) (by simp [hasked, hheld, hreq])

/-- The case of `turnStep_glb_of_wanted` for a sequence that begins. -/
theorem turnOn_glb_of_wanted {d : Dev} {want : Dword} {n : Nat} (hn : n < 64) (hwant : bitAt want.toNat n = true)
    (hreq : domRequires n = []) (hon : domOn d n = false) (hheld : bitAt d.pwr.heldOff.toNat n = false) :
    (turnOn d want).glb = d.glb :=
  turnStep_glb_of_wanted (d := { d with pwr.turn := some want }) rfl hn hwant hreq hon hheld

/-! ### TRAIN -/

theorem judgeAll_of_no_drives {d : Dev} (h : d.sto.drives = []) : judgeAll d = d := by
  refine foldl_keeps (· = d) _ (fun e k he => ?_) _ d rfl
  rw [he]
  simp [driveOf, h, tgetD, tget]

/-- An unpaired device with no drive to judge has its join behind it when it enters TRAIN (R121). -/
theorem toTrain_unpaired {d : Dev} (hu : d.pln.plan.unpaired = true) (hd : d.sto.drives = []) :
    toTrain d = maybeRecover { enter d .train with par.st := .unpaired, glb.joinDone := true, glb.joinWait := false } := by
  simp only [toTrain, enter_pln, hu, if_true, joinOver]
  rw [judgeAll_of_no_drives (by exact hd)]

theorem toTrain_paired {d : Dev} (hu : d.pln.plan.unpaired = false) :
    (toTrain d).par.st = .alone ∧ (toTrain d).glb.st = .train := by
  simp only [toTrain, enter_pln, hu, Bool.false_eq_true, if_false]
  split <;> exact ⟨rfl, rfl⟩

theorem drivesSettled_congr {d e : Dev} (hsto : e.sto.drives = d.sto.drives) (hsense : e.sense = d.sense) (hpwr : e.pwr = d.pwr) :
    drivesSettled e = drivesSettled d := by
  simp only [drivesSettled, driveOf, domOn, hsto, hsense, hpwr]

/-- TRAIN with its join done goes on to RECOVERY where readiness is settled, and stays otherwise. -/
theorem maybeRecover_of_joinDone {d : Dev} (hst : d.glb.st = .train) (hj : d.glb.joinDone = true) :
    (maybeRecover d).par = d.par ∧ (maybeRecover d).glb.joinDone = true ∧ drivesSettled (settle (maybeRecover d)) = drivesSettled d
      ∧ (maybeRecover d).glb.st = if drivesSettled d then .recovery else .train := by
  have hgo : maybeRecover d = if drivesSettled d then enter d .recovery else d := by simp [maybeRecover, hst, hj]
  have hsettle (e : Dev) : drivesSettled (settle e) = drivesSettled e := drivesSettled_congr (by simp) (by simp) (by simp)
  rw [hsettle, hgo]
  by_cases h : drivesSettled d = true
  · simp only [h, if_true]
    exact ⟨rfl, hj, h, rfl⟩
  · simp only [h, if_false, Bool.false_eq_true]
    exact ⟨trivial, hj, trivial, hst⟩

/-- Settles O3: each step of the start-up sequence by its branches. -/
theorem bootToTrain : Obligations.BootToTrain := by
  unfold Obligations.BootToTrain
  intro s
  refine ⟨?release, ?boot, ?mgmt, ?check, ?apply, ?bist⟩
  case release =>
    intro side b1 b0 hst
    refine gives_of_actIf (rfl : execResetRelease side b1 b0 s = _) (by simp [hst]) ?_
    cases hp : s.dev.glb.porst <;> simp [hp, enter, strapSrc]
  case boot =>
    intro flashB img hst hwait hcpu hnext hfw
    refine gives_of_actIf (by unfold exec execBootSourceRead; rfl) ?_ ?_
    · simpa [hst, hwait, hcpu] using hnext
    dsimp only
    simp only [hfw, beq_self_eq_true, Bool.true_or, if_true]
    split_ifs <;> simp [fwStart, bootField, enter]
  case mgmt =>
    intro m img hst hwait hcpu hadmin hfw
    refine gives_of_actIf (rfl : execMgmtImageDelivery m img s = _) (by simp [hst, hwait, hcpu]) ?_
    simp [hadmin, hfw, fwStart, bootField, enter]
  case check =>
    intro source img hst hacc hnext
    refine gives_of_actIf (rfl : execFloorPlanCheck source img s = _) (by simpa [hst, hacc] using hnext) ?_
    by_cases hr : planResult s.dev img = 1
    · simp only [hr, beq_self_eq_true, if_true, settle_glb, settle_pln]
      refine ⟨?_, fun _ => ⟨?_, ?_, rfl⟩, fun h => absurd rfl h⟩
      · simp [bootField_plan_source, bootField_plan_result]
      · simp [apply_ite Dev.glb, hst]
      · rfl
    · have hresult (d : Dev) : fld (bootField d 14 4 (planResult s.dev img)).glb.bootStatus.toNat 14 4 = planResult s.dev img :=
        bootField_plan_result d (planResult_lt ..)
      simp only [beq_iff_eq, hr, if_false, settle_glb, settle_pln]
      refine ⟨?_, fun h => h.elim, fun _ => ?_⟩
      · split_ifs <;> simp [noPlan_glb, enter, hresult]
      · split_ifs <;> simp [noPlan_glb, noPlan_pln, enter, hst, hacc]
  case apply =>
    intro p hst hcand hstaging
    refine gives_of_actIf (rfl : execPlanApply s = _) (by simp [hst, hcand]) ?_
    simp only [hcand, if_neg (Nat.not_lt.2 hstaging)]
    obtain ⟨hheldOff, happlied, hpln⟩ := turnOn_keeps (loadPlan s.dev p) (BitVec.allOnes 64)
    simp only [settle_glb, settle_pln, settle_pwr, hheldOff, happlied, hpln]
    refine ⟨rfl, rfl, rfl, fun hon hheld => ?_⟩
    rw [turnOn_glb_of_wanted (d := loadPlan s.dev p) (n := 35) (by decide) (by decide) (by decide) hon hheld]
    exact hst
  case bist =>
    intro fails found hst hreqs hdom hdrives hok
    refine gives_of_actIf (rfl : execBootBist fails found s = _) (by simp [hst, hreqs, hdom]) ?_
    simp only [hok]
    set t := bootTested s.dev fails found.laneFails found.repairs with ht
    set off := (t.2.filter fun n => !isEssential t.1 t.2 n).foldl holdOff t.1
    have hoff {part : Piece} (hpwr : part ≠ .pwr) (hregs : part ≠ .regs) (hitg : part ≠ .itg) (hbst : part ≠ .bst) :
        part.same s.dev off := by
      simp only [off, ht, same_foldl, same_holdOff hpwr, same_bootTested hregs hitg hbst, implies_true]
      exact same_refl _ _
    have hpln : _ = s.dev.pln := hoff (part := .pln) nofun nofun nofun nofun
    have hdrives := (congrArg Sto.drives (hoff (part := .sto) nofun nofun nofun nofun)).trans hdrives
    refine ⟨fun hu => ?_, fun hu => ?_⟩
    · rw [toTrain_unpaired (hpln ▸ hu) hdrives]
      have hj := maybeRecover_of_joinDone
        (d := { enter off .train with par.st := .unpaired, glb.joinDone := true, glb.joinWait := false }) rfl rfl
      obtain ⟨hpar, hdone, hsettled, hst⟩ := hj
      rw [settle_par, settle_glb, hpar, hsettled]
      exact ⟨rfl, hdone, hst⟩
    · rw [settle_par, settle_glb]
      exact toTrain_paired (hpln ▸ hu)

end Sys2Proof.Machine

/-! ## Power, presence and telemetry -/

namespace Sys2Proof.Machine

/-! ### What a change of members leaves -/

/-- What a change of members writes at most through the states of its drives. -/
structure MemberView where
  slots : List Nat
  repairs : Tab Repair
  sense : Sense
  drives : Nat → MemberSt × Bring

def memberView (d : Dev) : MemberView where
  slots := tkeys d.cmd.slots
  repairs := d.sto.repairs
  sense := d.sense
  drives k := ((driveOf d k).st, (driveOf d k).bring)

/-- A view with one drive's state and bring-up written. -/
def MemberView.put (v : MemberView) (k : Nat) (x : MemberSt × Bring) : MemberView := { v with drives := Function.update v.drives k x }

@[simp] theorem MemberView.put_put (v : MemberView) (k : Nat) (x y : MemberSt × Bring) : (v.put k x).put k y = v.put k y := by
  simp only [MemberView.put, Function.update_idem]

theorem MemberView.put_self (v : MemberView) (k : Nat) : v.put k (v.drives k) = v := by
  simp only [MemberView.put, Function.update_eq_self]

section
variable {d e : Dev}

theorem memberView_of_same (h : ∀ part : Piece, part ≠ .par → part ≠ .via → part ≠ .outs → part.same d e) :
    memberView e = memberView d := by
  have hcmd : e.cmd = d.cmd := h .cmd nofun nofun nofun
  have hsense : e.sense = d.sense := h .sense nofun nofun nofun
  have hsto := h .sto nofun nofun nofun
  have hrepairs : e.sto.repairs = d.sto.repairs := (congrArg Sto.repairs hsto :)
  have hdrives : e.sto.drives = d.sto.drives := (congrArg Sto.drives hsto :)
  simp only [memberView, driveOf, hcmd, hrepairs, hsense, hdrives]

theorem memberView_ite {c : Prop} [Decidable c] {a b : Dev} :
    memberView (if c then a else b) = if c then memberView a else memberView b := apply_ite memberView c a b

theorem memberView_foldl {α : Type} {f : Dev → α → Dev} (h : ∀ d a, memberView (f d a) = memberView d) (l : List α) (d : Dev) :
    memberView (l.foldl f d) = memberView d :=
  foldl_keeps (memberView · = memberView d) f (fun e a he => (h e a).trans he) l d rfl

theorem memberView_modGroup (g : Nat) (f : Group → Group) : memberView (modGroup d g f) = memberView d := rfl

theorem memberView_recovery (t : Tab Recovery) : memberView { d with sto.recovery := t } = memberView d := rfl

/-- A write of a drive's other fields. -/
theorem memberView_modDrive {k : Nat} {f : Drive → Drive} (hst : ∀ x, (f x).st = x.st) (hbring : ∀ x, (f x).bring = x.bring) :
    memberView (modDrive d k f) = memberView d := by
  have hdrive (j : Nat) : (driveOf (modDrive d k f) j).st = (driveOf d j).st
      ∧ (driveOf (modDrive d k f) j).bring = (driveOf d j).bring := by
    by_cases hj : j = k
    · subst hj
      simp [driveOf, modDrive, tmod, hst, hbring]
    · simp [driveOf, modDrive, tmod, tgetD, tget_tset_ne _ _ hj]
  simp only [memberView, hdrive]
  rfl

theorem memberView_mirror (item : MirrorItem) : memberView (mirror d item) = memberView d :=
  memberView_of_same fun _ hpar _ houts => (same_mirror hpar houts).2 (same_refl _ d)

theorem memberView_stoCnt (i : Nat) : memberView (stoCnt d i) = memberView d :=
  memberView_of_same fun _ _ _ _ => same_stoCnt.2 (same_refl _ d)

theorem memberView_rbCnt (i : Nat) : memberView (rbCnt d i) = memberView d :=
  memberView_of_same fun _ _ _ _ => same_rbCnt.2 (same_refl _ d)

theorem memberView_logEvent (event attn : Nat) (t : Topic) (bs : List Byte) : memberView (logEvent d event attn t bs) = memberView d :=
  memberView_of_same fun _ _ _ _ => same_logEvent.2 (same_refl _ d)

theorem memberView_driveSendFor (g key : Nat) (c : DriveCmd) (use : FragUse) :
    memberView (driveSendFor d g key c use) = memberView d :=
  memberView_of_same fun _ hpar hvia houts => (same_driveSendFor hpar hvia houts).2 (same_refl _ d)

theorem memberView_driveSend (g key : Nat) (c : DriveCmd) : memberView (driveSend d g key c) = memberView d :=
  memberView_driveSendFor ..

theorem memberView_writeHead (g k epoch : Nat) : memberView (writeHead d g k epoch) = memberView d := by
  simp only [writeHead, memberView_ite, memberView_driveSend, ite_self]

theorem memberView_writeVols (g k : Nat) (vols : List (List Byte)) : memberView (writeVols d g k vols) = memberView d := by
  simp only [writeVols, memberView_driveSend, memberView_foldl, implies_true]

theorem memberView_headWritten (g k epoch : Nat) : memberView (headWritten d g k epoch) = memberView d :=
  memberView_modDrive (fun _ => rfl) fun _ => rfl

theorem memberView_writeRecords (g : Nat) : memberView (writeRecords d g) = memberView d := by
  simp only [writeRecords, writeRecordsFor, memberView_foldl, memberView_headWritten, memberView_writeHead, memberView_writeVols,
    memberView_driveSend, memberView_mirror, memberView_modGroup, implies_true, Bool.false_eq_true, if_false]

theorem memberView_journalHold (g : Nat) : memberView (journalHold d g) = memberView d := by
  simp only [journalHold, memberView_ite, memberView_modGroup, memberView_stoCnt, ite_self]

theorem memberView_jPlace (g : Nat) (r : JRec) (len off : Nat) (bs : List Byte) :
    memberView (jPlace d g r len off bs) = memberView d := by
  simp only [jPlace, memberView_foldl, memberView_driveSendFor, memberView_journalHold, memberView_modGroup, memberView_mirror,
    implies_true]

theorem memberView_jAppend (g vol : Nat) (tag : Word) (part last : Nat) (body : JBody) :
    memberView (jAppend d g vol tag part last body).2 = memberView d := by
  simp only [jAppend]
  split <;> simp only [memberView_jPlace]

theorem memberView_memberEvent (g k st : Nat) (regions : List (Nat × Nat)) :
    memberView (memberEvent d g k st regions) = memberView d := by
  simp only [memberEvent, memberView_ite, memberView_recovery, memberView_modDrive, memberView_jAppend, implies_true, ite_self]

theorem memberView_dropReads (k : Nat) : memberView (dropReads d k) = memberView d := by
  simp [memberView, dropReads, tkeys, driveOf]

theorem memberView_remirrorStart (g i : Nat) : memberView (remirrorStart d g i) = memberView d := by
  simp only [remirrorStart]
  split
  · rfl
  · simp only [memberView_rbCnt, memberView_modGroup, memberView_jAppend]

theorem memberView_dropCopy (g i : Nat) : memberView (dropCopy d g i) = memberView d := by
  simp only [dropCopy, stoEvent, memberView_ite, memberView_remirrorStart, memberView_writeRecords, memberView_logEvent,
    memberView_modGroup, ite_self]

theorem memberView_modDrive_put {k : Nat} {f : Drive → Drive} :
    memberView (modDrive d k f) = (memberView d).put k ((f (driveOf d k)).st, (f (driveOf d k)).bring) := by
  refine congrArg (MemberView.mk _ _ _) (funext fun j => ?_)
  by_cases hj : j = k
  · subst hj
    simp [memberView, driveOf, modDrive, tmod]
  · simp [memberView, driveOf, modDrive, tmod, tgetD, tget_tset_ne _ _ hj, hj]

/-- A drive enters a state. -/
theorem memberView_setMember (k : Nat) (st : MemberSt) :
    memberView (setMember d k st) = (memberView d).put k (st, (driveOf d k).bring) := by
  simp only [setMember, memberView_mirror, memberView_ite, memberView_modDrive_put]
  split
  case isTrue h =>
    rw [← beq_iff_eq.1 h]
    exact ((memberView d).put_self k).symm
  case isFalse => rfl

/-- The loss of a member whose state this device decides leaves it in the state given (R379). -/
theorem memberView_loseMember {k : Nat} (hk : decides d k = true) (st : MemberSt) :
    memberView (loseMember d k st) = (memberView d).put k (st, (driveOf d k).bring) := by
  simp only [loseMember, hk, Bool.not_true, Bool.false_eq_true, if_false]
  split
  · exact memberView_setMember k st
  · split <;> simp only [memberView_dropCopy, memberView_modDrive, memberView_dropReads, memberView_memberEvent, rbEvent,
      memberView_logEvent, memberView_setMember, implies_true] <;> rfl

/-- A slot that empties has its drive down, and ABSENT where this device decides its state (R316). -/
theorem memberView_slotAbsent (k : Nat) :
    memberView (slotAbsent d k) = (memberView d).put k (if decides d k then .absent else (driveOf d k).st, .down) := by
  unfold slotAbsent
  extract_lets e
  have hview : memberView e = (memberView d).put k ((driveOf d k).st, .down) := memberView_modDrive_put
  have hdrive : ((driveOf e k).st, (driveOf e k).bring) = ((driveOf d k).st, .down) :=
    (congrFun (congrArg MemberView.drives hview) k).trans (Function.update_self ..)
  obtain ⟨hst, hbring⟩ := Prod.mk.injEq .. ▸ hdrive
  have hdecides : decides e k = decides d k := rfl
  have hlost : (memberView e).put k (.absent, (driveOf e k).bring) = (memberView d).put k (.absent, .down) := by
    rw [hview, hbring, MemberView.put_put]
  clear_value e
  rw [hst, hdecides]
  cases hk : decides d k
  case false => simpa using hview
  case true =>
    split
    case isTrue h =>
      have : (driveOf d k).st = .absent := by simpa using h
      rw [hview, this]
      rfl
    case isFalse =>
      split
      · exact (memberView_loseMember (hdecides.trans hk) _).trans hlost
      · exact (memberView_setMember ..).trans hlost

end

/-! ### Tables -/

theorem mem_of_tget {α : Type} {t : Tab α} {k : Nat} {v : α} (h : tget t k = some v) : (k, v) ∈ t := by
  induction t with
  | nil => simp [tget] at h
  | cons e t ih =>
    obtain ⟨k', v'⟩ := e
    simp only [tget] at h
    split at h
    case isTrue hk => simp_all
    case isFalse => exact List.mem_cons_of_mem _ (ih h)

theorem tget_append {α : Type} (t u : Tab α) (k : Nat) : tget (t ++ u) k = (tget t k).or (tget u k) := by
  induction t with
  | nil => rfl
  | cons e t ih =>
    obtain ⟨k', v'⟩ := e
    simp only [List.cons_append, tget]
    split <;> simp [ih]

/-- The table of a function over the numbers below `n`. -/
theorem tget_range_map {α : Type} (f : Nat → α) (n k : Nat) :
    tget ((List.range n).map fun i => (i, f i)) k = if k < n then some (f k) else none := by
  induction n with
  | zero => simp [tget]
  | succ n ih =>
    rw [List.range_succ, List.map_append, tget_append, ih]
    by_cases hlt : k < n
    · simp [hlt, Nat.lt_succ_of_lt hlt]
    · by_cases heq : k = n
      · simp [heq, tget]
      · simp [hlt, tget, show ¬ n = k by omega, show ¬ k < n + 1 by omega]

/-- No key is as large as a bound that exceeds every key. -/
theorem tget_eq_none_of_bound {α : Type} {t : Tab α} {k : Nat} (h : ∀ j ∈ tkeys t, j < k) : tget t k = none := by
  cases hk : tget t k with
  | none => rfl
  | some v => exact absurd (h k (List.mem_map_of_mem (f := (·.1)) (mem_of_tget hk))) (Nat.lt_irrefl k)

/-! ### Bits of a number -/

theorem bitAt_eq_testBit (v i : Nat) : bitAt v i = v.testBit i := by
  rw [Nat.testBit_eq_decide_div_mod_eq, bitAt, Nat.shiftRight_eq_div_pow]
  rfl

theorem bitAt_setBit (v i j : Nat) : bitAt (setBit v i) j = (bitAt v j || decide (i = j)) := by
  simp [bitAt_eq_testBit, setBit, Nat.one_shiftLeft, Nat.testBit_two_pow]

/-- An odd number and its predecessor differ in bit 0 alone. -/
theorem testBit_pred_of_odd {q : Nat} (hq : q % 2 = 1) (j : Nat) : (q - 1).testBit j = (q.testBit j && decide (0 ≠ j)) := by
  cases j with
  | zero => simp [Nat.testBit_zero, show (q - 1) % 2 = 0 by omega]
  | succ j => simp [Nat.testBit_succ, show (q - 1) / 2 = q / 2 by omega]

/-- Taking a bit's own value away clears that bit alone. -/
theorem bitAt_sub_bit (v i j : Nat) : bitAt (v - 2 ^ i * b2n (bitAt v i)) j = (bitAt v j && decide (i ≠ j)) := by
  have hji (h : ¬ j < i) : 0 = j - i ↔ i = j := by omega
  cases hbit : bitAt v i with
  | false =>
    by_cases hij : i = j
    · simp [b2n, ← hij, hbit]
    · simp [b2n, hij]
  | true =>
    have hodd : v / 2 ^ i % 2 = 1 := by simpa [bitAt, Nat.shiftRight_eq_div_pow] using hbit
    have hlt : v % 2 ^ i < 2 ^ i := Nat.mod_lt _ (Nat.two_pow_pos i)
    have hv : v = 2 ^ i * (v / 2 ^ i) + v % 2 ^ i := (Nat.div_add_mod v (2 ^ i)).symm
    have hpos : 0 < v / 2 ^ i := Nat.pos_of_ne_zero fun h => by simp [h] at hodd
    have hle : 2 ^ i * 1 ≤ 2 ^ i * (v / 2 ^ i) := Nat.mul_le_mul_left _ hpos
    have hsub : v - 2 ^ i * b2n true = 2 ^ i * (v / 2 ^ i - 1) + v % 2 ^ i := by
      rw [Nat.mul_sub]
      simp only [b2n, if_true]
      omega
    rw [hsub, bitAt_eq_testBit, bitAt_eq_testBit, Nat.testBit_two_pow_mul_add _ hlt]
    conv_rhs => rw [hv, Nat.testBit_two_pow_mul_add _ hlt]
    by_cases hj : j < i
    · simp [hj, Nat.ne_of_gt hj]
    · simp [hj, testBit_pred_of_odd hodd, hji hj]

theorem bitAt_ofNat_24 {v i : Nat} (h : i < 24) : bitAt (BitVec.ofNat 24 v).toNat i = bitAt v i := by
  rw [bitAt_eq_testBit, bitAt_eq_testBit, BitVec.toNat_ofNat, Nat.testBit_mod_two_pow]
  simp [h]

/-! ### The load governor -/

theorem le_foldl_max {l : List Nat} {n : Nat} :
    n ≤ l.foldl (fun n k => max n (k + 1)) n ∧ ∀ k ∈ l, k < l.foldl (fun n k => max n (k + 1)) n := by
  induction l generalizing n with
  | nil => simp
  | cons a l ih =>
    obtain ⟨hn, hl⟩ := ih (n := max n (a + 1))
    simp only [List.foldl_cons, List.mem_cons, forall_eq_or_imp]
    exact ⟨by omega, by omega, hl⟩

theorem activityNext_bounds (a w : Nat) : activityNext a w ≤ a + 25 ∧ a ≤ activityNext a w + 4 := by
  unfold activityNext
  split <;> omega

/-- The activity of every block after one microsecond, listed or not. -/
theorem tgetD_activity (d : Dev) (demand : List Nat) (i : Nat) :
    tgetD (((List.range ((tkeys d.pwr.activity).foldl (fun n k => max n (k + 1)) demand.length)).map fun i => (i, demandOf d demand i)).map
        fun e => (e.1, activityNext (tgetD d.pwr.activity e.1 0) e.2)) i 0
      = activityNext (tgetD d.pwr.activity i 0) (demandOf d demand i) := by
  obtain ⟨hlen, hkeys⟩ := le_foldl_max (l := tkeys d.pwr.activity) (n := demand.length)
  rw [List.map_map, tgetD]
  have hget := tget_range_map fun i => activityNext (tgetD d.pwr.activity i 0) (demandOf d demand i)
  refine (congrArg (Option.getD · 0) (hget _ i)).trans ?_
  split
  case isTrue => rfl
  case isFalse h =>
    have hidle : tget d.pwr.activity i = none := tget_eq_none_of_bound fun j hj => (hkeys j hj).trans_le (Nat.le_of_not_lt h)
    have hdemand : demandOf d demand i = 0 := by
      simp [demandOf, List.getElem?_eq_none (hlen.trans (Nat.le_of_not_lt h))]
    simp [tgetD, hidle, hdemand, activityNext]

/-! ### The power cap -/

/-- A step down stays below the value and does not pass the lower end. -/
theorem lowerTo_bounds (d : Dev) {lo x : Nat} (h : lo < x) : lo ≤ (lowerTo d lo x).1 ∧ (lowerTo d lo x).1 < x := by
  have hlt := Nat.mod_lt (Config.freeNat (draw d).1) (show 0 < max 1 (x - lo) by omega)
  simp only [lowerTo]
  omega

theorem capDown_estimate (d : Dev) : (capDown d).pwr.estimate = d.pwr.estimate := by
  unfold capDown
  dsimp only
  split_ifs
  · rfl
  · rfl
  · rfl
  · split <;> rfl

theorem capUp_estimate (d : Dev) : (capUp d).pwr.estimate = d.pwr.estimate := by
  unfold capUp
  split
  · rfl
  · split_ifs <;> rfl

theorem capUp_cpuMhz (d : Dev) : (capUp d).pwr.cpuMhz = d.pwr.cpuMhz ∨ (capUp d).pwr.cpuMhz = 2000 := by
  unfold capUp
  split
  · exact .inl rfl
  · split_ifs <;> simp

/-! ### A presence change -/

/-- The presence bits after a change at one slot. -/
theorem bitAt_presence (m : BitVec 24) (slot : Nat) (present : Bool) {k : Nat} (hk : k < 24) :
    bitAt (BitVec.ofNat 24 (if present then setBit m.toNat slot else m.toNat - 2 ^ slot * b2n (bitAt m.toNat slot))).toNat k
      = if k = slot then present else bitAt m.toNat k := by
  rw [bitAt_ofNat_24 hk]
  cases present
  · by_cases h : k = slot <;> simp [bitAt_sub_bit, h, Ne.symm]
  · by_cases h : k = slot <;> simp [bitAt_setBit, h, Ne.symm]

theorem groupOf_recs_eq_nil {d : Dev} (h : ∀ e ∈ d.sto.groups, e.2.journal.recs = []) (g : Nat) : (groupOf d g).journal.recs = [] := by
  unfold groupOf tgetD
  cases hg : tget d.sto.groups g with
  | none => rfl
  | some x => exact h _ (mem_of_tget hg)

/-- With no command, no repair and no record on its way, a change of members is the change alone. -/
theorem memberChange_of_noWork {d : Dev} {f : Dev → Dev} (h : NoWork d) (hview : tkeys (f d).cmd.slots = [] ∧ (f d).sto.repairs = []) :
    memberChange d f = f d := by
  obtain ⟨-, -, hrecs⟩ := h
  obtain ⟨hslots, hrepairs⟩ := hview
  have hjournal : settleJournal d (f d) = f d :=
    foldl_keeps (· = f d) _ (fun e g he => by simp [groupOf_recs_eq_nil hrecs, he]) _ _ rfl
  simp only [memberChange, hjournal, advanceAll, repairsGo, hslots, List.foldl_nil, hrepairs]
  rfl

/-- With no work under way, a slot that empties leaves the pins, has its drive down, and is ABSENT where this device decides. -/
theorem memberChange_slotAbsent {d : Dev} (slot : Nat) (h : NoWork d) :
    let e := memberChange d fun d => slotAbsent d slot
    e.sense = d.sense ∧ (decides d slot = true → (driveOf e slot).st = .absent) ∧ (driveOf e slot).bring = .down := by
  have hview := memberView_slotAbsent (d := d) slot
  have hslots : tkeys (slotAbsent d slot).cmd.slots = [] := (congrArg MemberView.slots hview).trans (congrArg tkeys h.1)
  have hrepairs : (slotAbsent d slot).sto.repairs = [] := (congrArg MemberView.repairs hview).trans h.2.1
  have hdrive : ((driveOf (slotAbsent d slot) slot).st, (driveOf (slotAbsent d slot) slot).bring)
      = (if decides d slot then .absent else (driveOf d slot).st, .down) :=
    (congrFun (congrArg MemberView.drives hview) slot).trans (Function.update_self ..)
  obtain ⟨hst, hbring⟩ := Prod.mk.injEq .. ▸ hdrive
  rw [memberChange_of_noWork h ⟨hslots, hrepairs⟩]
  exact ⟨congrArg MemberView.sense hview, fun hdec => hst.trans (if_pos hdec), hbring⟩

@[simp] theorem maybeRecover_sense (d : Dev) : (maybeRecover d).sense = d.sense :=
  (same_maybeRecover (part := .sense) nofun).2 (same_refl _ d)

@[simp] theorem maybeRecover_sto (d : Dev) : (maybeRecover d).sto = d.sto := by
  unfold maybeRecover
  split <;> rfl

/-- Settles O6: the branch of each command that its clause names; `memberView_slotAbsent` says what a slot that empties leaves. -/
theorem powerTelemetry : Obligations.PowerTelemetry := by
  unfold Obligations.PowerTelemetry
  intro s hon
  refine ⟨?fail, ?clear, ?telemetry, ?alert, ?estimate, ?governor, ?presence, ?emptied, ?attn, ?refuse⟩
  case fail =>
    refine gives_of_actIf (rfl : execPwrFailRecognise s = _) (by simp [hon]) ?_
    have hpwr (d : Dev) : (if running d then pairOn d false .powerFail else d).pwr = d.pwr := by
      split
      · exact (same_pairOn (part := .pwr) nofun nofun).2 (same_refl _ d)
      · rfl
    have hslice (d : Dev) : (sliceInterrupt d).pwr = d.pwr := (same_sliceInterrupt (part := .pwr) nofun nofun nofun).2 (same_refl _ d)
    simp only [settle_pwr, hpwr, hslice, count_pwr]
  case clear =>
    intro hfail
    exact gives_of_actIf (rfl : execPwrFailClear s = _) hfail (by simp)
  case telemetry =>
    intro mw mv ma
    refine gives_of_actIf (rfl : execPowerTelemetryCorrect mw mv ma s = _) (by simp [hon]) ?_
    simp [energyNow]
  case alert =>
    intro rail
    exact gives_of_actIf (rfl : execPmbusAlert rail s = _) (by simp [hon]) (by simp)
  case estimate =>
    intro mw hrun
    refine gives_of_actIf (rfl : execPowerEstimateTick mw s = _) (by simp [hon]) ?_
    have hdrun : running { s.dev with pwr.estimate := mw } = true := hrun
    have hcap (p : Nat) : effectiveCap { s.dev with pwr.estimate := mw, pwr.bgPct := p } = effectiveCap s.dev := rfl
    simp only [hdrun, Bool.not_true, Bool.false_eq_true, if_false, settle_pwr, hcap]
    split
    case isTrue hover =>
      refine ⟨?_, fun _ hmhz => ?_, fun h => absurd hover (Nat.not_lt.2 h)⟩
      · exact capDown_estimate _
      · simp only [capDown, hmhz, if_true]
        exact lowerTo_bounds _ hmhz
    case isFalse hunder =>
      refine ⟨?_, fun h => absurd h hunder, fun _ hmhz => ?_⟩
      · exact capUp_estimate _
      · rcases capUp_cpuMhz _ with h | h <;> rw [h]
        exact hmhz
  case governor =>
    intro demand i _
    refine gives_of_actIf (rfl : execLoadGovernorTick demand s = _) (by simp [hon]) ?_
    simp only [settle_pwr, tgetD_activity]
    exact ⟨trivial, activityNext_bounds ..⟩
  case presence =>
    intro slot present hslot hkeep
    refine gives_of_actIf (rfl : execPresenceChange slot present s = _) (by simp [hon, hslot]) ?_
    have hkept : (!present && planned s.dev) = false := by cases hkeep <;> simp [*]
    have hplanned (p : BitVec 24) : planned { s.dev with sense.present := p } = planned s.dev := rfl
    simp only [hplanned, hkept, Bool.false_eq_true, if_false, settle_sense, maybeRecover_sense]
    exact ⟨(bitAt_presence _ _ _ hslot).trans (if_pos rfl), fun k hk hne => (bitAt_presence _ _ _ hk).trans (if_neg hne)⟩
  case emptied =>
    intro slot hslot hplanned hwork
    refine gives_of_actIf (rfl : execPresenceChange slot false s = _) (by simp [hon, hslot]) ?_
    have hplanned' (p : BitVec 24) : planned { s.dev with sense.present := p } = true := hplanned
    have hpresent := bitAt_presence s.dev.sense.present slot false hslot
    simp only [hplanned', Bool.not_false, Bool.true_and, if_true, Bool.false_eq_true, if_false] at hpresent ⊢
    generalize BitVec.ofNat 24 _ = p at hpresent ⊢
    obtain ⟨hsense, hst, hbring⟩ := memberChange_slotAbsent (d := { s.dev with sense.present := p }) slot hwork
    simp only [settle_sense, maybeRecover_sense, hsense, driveOf, settle_sto_drives, maybeRecover_sto]
    exact ⟨hpresent, hst, hbring⟩
  case attn =>
    intro hheld hwaits
    exact gives_of_actIf (rfl : execPowerAttnClear s = _) (by simpa [hheld] using hwaits) (by simp)
  case refuse =>
    intro sq r f hserving hms hlate hheld hsq hnext
    refine gives_of_actIf (rfl : execCapRefuseTimeout sq s = _) hserving ?_
    simp [hms, hlate, hheld, hsq, hnext]

end Sys2Proof.Machine

/-! ## The pair join and the phases of RECOVERY -/

namespace Sys2Proof.Machine

/-! ### What the release of held acknowledgements leaves of the pair -/

/-- What the pair machine alone writes, and which slots stand. -/
structure PairView where
  st : PairSt
  barred : Bool
  lostAttn : Bool
  slots : List Nat

def pairView (d : Dev) : PairView where
  st := d.par.st
  barred := d.par.barred
  lostAttn := d.par.lostAttn
  slots := tkeys d.cmd.slots

theorem tkeys_tupd {α : Type} (t : Tab α) (k : Nat) (f : α → α) : tkeys (tupd t k f) = tkeys t := by
  simp only [tkeys, tupd, List.map_map]
  refine List.map_congr_left fun e _ => ?_
  simp only [Function.comp]
  split <;> rfl

section
variable {d e : Dev}

theorem pairView_of_same
    (h : ∀ part : Piece, part ≠ .trs → part ≠ .sto → part ≠ .via → part ≠ .adm → part ≠ .outs → part.same d e) :
    pairView e = pairView d := by
  have hpar : e.par = d.par := h .par nofun nofun nofun nofun nofun
  have hcmd : e.cmd = d.cmd := h .cmd nofun nofun nofun nofun nofun
  simp only [pairView, hpar, hcmd]

@[simp] theorem pairView_ite {c : Prop} [Decidable c] {a b : Dev} :
    pairView (if c then a else b) = if c then pairView a else pairView b := apply_ite pairView c a b

@[simp] theorem pairView_foldl {α : Type} {f : Dev → α → Dev} (h : ∀ d a, pairView (f d a) = pairView d) (l : List α) (d : Dev) :
    pairView (l.foldl f d) = pairView d :=
  foldl_keeps (pairView · = pairView d) f (fun e a he => (h e a).trans he) l d rfl

/-- A record update that keeps the pair's state, bar, attention and slots. The device updated is read off device time. -/
theorem pairView_mk {free : Nat} {glb : Glb} {pwr : Pwr} {sense : Sense} {reg : Reg} {pln : Pln} {acc : Acc} {log : Log} {eth : Eth}
    {swc : Swc} {trs : Trs} {cmd : Cmd} {sto : Sto} {par : Par} {via : Via} {itg : Itg} {adm : Adm} {bst : Bst} {ctr : Ctr}
    {out : List Emit} (hst : par.st = d.par.st) (hbarred : par.barred = d.par.barred) (hattn : par.lostAttn = d.par.lostAttn)
    (hslots : tkeys cmd.slots = tkeys d.cmd.slots) :
    pairView ⟨d.time, free, glb, pwr, sense, reg, pln, acc, log, eth, swc, trs, cmd, sto, par, via, itg, adm, bst, ctr, out⟩
      = pairView d := by
  simp only [pairView, hst, hbarred, hattn, hslots]

/-! ### Drives, mirror and journal -/

@[simp] theorem pairView_modDrive (k : Nat) (f : Drive → Drive) : pairView (modDrive d k f) = pairView d := rfl
@[simp] theorem pairView_modGroup (g : Nat) (f : Group → Group) : pairView (modGroup d g f) = pairView d := rfl
@[simp] theorem pairView_modShelf (f : AdmOp → AdmOp) : pairView (modShelf d f) = pairView d := rfl
@[simp] theorem pairView_emit (x : Emit) : pairView (emit d x) = pairView d := rfl
@[simp] theorem pairView_lockDropAll (c : Nat) : pairView (lockDropAll d c) = pairView d := rfl

@[simp] theorem pairView_count (off : Nat) : pairView (count d off) = pairView d :=
  pairView_of_same fun _ _ _ _ _ _ => same_count.2 (same_refl _ d)

@[simp] theorem pairView_logEvent (event attn : Nat) (t : Topic) (bs : List Byte) : pairView (logEvent d event attn t bs) = pairView d :=
  pairView_of_same fun _ _ _ _ _ _ => same_logEvent.2 (same_refl _ d)

@[simp] theorem pairView_driveGo (g key : Nat) (c : DriveCmd) (use : FragUse) : pairView (driveGo d g key c use) = pairView d :=
  pairView_of_same fun _ _ _ hvia _ houts => (same_driveGo hvia houts).2 (same_refl _ d)

@[simp] theorem pairView_driveSendFor (g key : Nat) (c : DriveCmd) (use : FragUse) :
    pairView (driveSendFor d g key c use) = pairView d := by
  simp only [driveSendFor, pairView_ite, pairView_driveGo]
  split <;> rfl

@[simp] theorem pairView_driveSend (g key : Nat) (c : DriveCmd) : pairView (driveSend d g key c) = pairView d :=
  pairView_driveSendFor ..

@[simp] theorem pairView_gatedGo : pairView (gatedGo d) = pairView d := by
  simp only [gatedGo, pairView_driveSendFor, pairView_foldl, implies_true]
  rfl

@[simp] theorem pairView_pairOn (pathB : Bool) (m : PairMsg) : pairView (pairOn d pathB m) = pairView d := by
  simp only [pairOn, pairView_ite]
  split <;> rfl

@[simp] theorem pairView_mirrorQueue (item : MirrorItem) (a : OnAck) : pairView (mirrorQueue d item a) = pairView d := by
  simp only [mirrorQueue, pairView_ite, pairView_count, pairSend, pairView_pairOn]
  split_ifs <;> rfl

@[simp] theorem pairView_mirror (item : MirrorItem) : pairView (mirror d item) = pairView d := pairView_mirrorQueue ..

@[simp] theorem pairView_writeHead (g k epoch : Nat) : pairView (writeHead d g k epoch) = pairView d := by simp [writeHead]

@[simp] theorem pairView_writeVols (g k : Nat) (vols : List (List Byte)) : pairView (writeVols d g k vols) = pairView d := by
  simp [writeVols]

@[simp] theorem pairView_headWritten (g k epoch : Nat) : pairView (headWritten d g k epoch) = pairView d :=
  pairView_modDrive ..

@[simp] theorem pairView_writeRecords (g : Nat) : pairView (writeRecords d g) = pairView d := by
  simp only [writeRecords, writeRecordsFor, pairView_foldl, pairView_headWritten, pairView_writeHead, pairView_writeVols,
    pairView_driveSend, pairView_mirror, pairView_modGroup, implies_true, Bool.false_eq_true, if_false]

@[simp] theorem pairView_writeHeader (k kind : Nat) : pairView (writeHeader d k kind) = pairView d := by simp [writeHeader]

/-! ### Changes of members -/

@[simp] theorem pairView_setMember (k : Nat) (st : MemberSt) : pairView (setMember d k st) = pairView d := by simp [setMember]

@[simp] theorem pairView_takeReplacement (g pos k : Nat) : pairView (takeReplacement d g pos k) = pairView d := by
  simp [takeReplacement, reserveOn]

@[simp] theorem pairView_becomeSpare (k : Nat) : pairView (becomeSpare d k) = pairView d := by
  simp only [becomeSpare]
  split <;> simp

@[simp] theorem pairView_sanIssue (k : Nat) (o : AdmOp) : pairView (sanIssue d k o) = pairView d := by simp [sanIssue]

@[simp] theorem pairView_sanDone (k : Nat) (failed : Bool) : pairView (sanDone d k failed) = pairView d := rfl

@[simp] theorem pairView_sanFail (k : Nat) (o : AdmOp) : pairView (sanFail d k o) = pairView d := by simp [sanFail]

@[simp] theorem pairView_sanResume (k : Nat) (o : AdmOp) : pairView (sanResume d k o) = pairView d := by simp [sanResume]

@[simp] theorem pairView_judgeDrive (k : Nat) : pairView (judgeDrive d k) = pairView d := by
  grind [judgeDrive, pairView_sanResume, pairView_logEvent, pairView_becomeSpare, pairView_modDrive, pairView_setMember]

@[simp] theorem pairView_takeCursor (g v : Nat) : pairView (takeCursor d g v) = pairView d := by
  unfold takeCursor
  dsimp only
  split <;> rfl

@[simp] theorem pairView_recordDurable (g : Nat) (r : JRec) : pairView (recordDurable d g r) = pairView d := by
  unfold recordDurable
  split <;> simp

@[simp] theorem pairView_settleJournal (old : Dev) : pairView (settleJournal old d) = pairView d := by simp [settleJournal]

@[simp] theorem pairView_repairGo (r : Nat) : pairView (repairGo d r) = pairView d := by
  simp only [repairGo]
  repeat' split
  all_goals simp [↓pairView_mk, stoCnt, stoEvent]

/-! ### The transport -/

theorem pairView_chargeWait (u : Use) (reason ns : Nat) : pairView (chargeWait d u reason ns) = pairView d := by
  simp only [chargeWait]
  split <;> simp [↓pairView_mk, tkeys_tupd]

theorem pairView_chargeMsg (m : OutMsg) : pairView (chargeMsg d m) = pairView d := by
  simp only [chargeMsg, pairView_chargeWait]

theorem pairView_modConn (c : Nat) (f : Conn → Conn) : pairView (modConn d c f) = pairView d := rfl

theorem pairView_sendPkt (x : Conn) (p : Pkt) : pairView (sendPkt d x p) = pairView d :=
  pairView_of_same fun _ _ _ _ _ houts => (same_sendPkt houts).2 (same_refl _ d)

theorem pairView_sendOne (c : Nat) (x : Conn) (i : Nat) (m : OutMsg) (path : Nat) : pairView (sendOne d c x i m path) = pairView d := by
  simp only [sendOne, pairView_sendPkt, pairView_modConn, pairView_chargeMsg]

theorem pairView_pumpGo (c fuel : Nat) : pairView (pumpGo c fuel d) = pairView d := by
  induction fuel generalizing d with
  | zero => rfl
  | succ fuel ih =>
    unfold pumpGo
    split
    · rfl
    · split
      · exact ih.trans (pairView_sendOne ..)
      · rfl

theorem pairView_wantCtx (c : Nat) : pairView (wantCtx d c).2 = pairView d :=
  pairView_of_same fun _ htrs _ _ _ houts => (same_wantCtx htrs houts).2 (same_refl _ d)

theorem pairView_pump (c : Nat) : pairView (pump d c) = pairView d := by
  simp only [pump]
  split
  · rfl
  · simp only [pairView_ite, pairView_modConn, pairView_pumpGo, pairView_wantCtx, ite_self]

theorem pairView_sendMsg (c : Nat) (m : OutMsg) : pairView (sendMsg d c m) = pairView d :=
  (pairView_pump c).trans (pairView_modConn ..)

theorem pairView_readHead (cq : Nat) : pairView (readHead d cq) = pairView d := by
  simp only [readHead]
  split
  · split
    · rfl
    · simp only [sendRead]
      split <;> simp [pairView_sendMsg, draw, modCq, ↓pairView_mk]
  · rfl

theorem pairView_sendAck (c path probe : Nat) : pairView (sendAck d c path probe) = pairView d :=
  pairView_of_same fun _ htrs _ _ _ houts => (same_sendAck htrs houts).2 (same_refl _ d)

theorem pairView_ctxDo_ack (c : Nat) : pairView (ctxDo d c .ack) = pairView d := by
  have hack (e : Dev) : pairView (ackGo e c) = pairView e := by
    simp only [ackGo]
    split
    · rw [pairView_ite, pairView_sendAck, ite_self]
    · rfl
  simp [ctxDo, timerGo, hack, pairView_wantCtx, ↓pairView_mk]

theorem pairView_answerWith (ip : Nat) (conn id : Word) (x : Emit) : pairView (answerWith d ip conn id x) = pairView d := by
  simp [answerWith, trsCnt, ↓pairView_mk]

/-! ### With no command on the device -/

theorem slotOf_of_no_slots (h : (pairView d).slots = []) (c : Nat) : slotOf d c = none := by
  have : d.cmd.slots = [] := List.map_eq_nil_iff.1 h
  simp [slotOf, this, tget]

theorem pairView_ackAct (h : (pairView d).slots = []) (a : OnAck) : pairView (ackAct d a) = pairView d := by
  cases a with
  | nothing | cmd => rfl
  | reply e c =>
    simp only [ackAct]
    split
    · exact pairView_answerWith ..
    · rfl
  | ring c psn => exact (pairView_ctxDo_ack c).trans (pairView_modConn ..)
  | post c => rfl
  | answer c => simp only [ackAct, ackAnswer, slotOf_of_no_slots h]
  | pd => rfl
  | keyAccess i x => rfl

theorem pairView_advanceAll (h : (pairView d).slots = []) : pairView (advanceAll d) = pairView d := by
  have hslots : tkeys d.cmd.slots = [] := h
  simp only [advanceAll, hslots, List.foldl_nil, repairsGo, pairView_foldl, pairView_repairGo, implies_true]

theorem pairView_postOne (h : (pairView d).slots = []) (p : Posting) (q : CqRec) : pairView (postOne d p q) = pairView d := by
  simp only [postOne]
  rw [slotOf_of_no_slots] <;> simp [pairView_sendMsg, pairView_readHead, ↓pairView_mk, h]

theorem pairView_postGo (l : List Posting) (blocked : List Nat) (h : (pairView d).slots = []) :
    pairView (postGo l blocked d) = pairView d := by
  induction l generalizing blocked d with
  | nil => rfl
  | cons p l ih =>
    unfold postGo
    split
    · exact ih _ h
    · split
      · exact (ih _ (pairView_postOne h p _ ▸ h)).trans (pairView_postOne h p _)
      · exact ih _ h

theorem pairView_postAll (h : (pairView d).slots = []) : pairView (postAll d) = pairView d := pairView_postGo _ _ h

theorem finishDeletes_of_no_slots (h : (pairView d).slots = []) : finishDeletes d = d := by
  have : d.cmd.slots = [] := List.map_eq_nil_iff.1 h
  simp [finishDeletes, this]

theorem pairView_memberChange {f : Dev → Dev} (hf : pairView (f d) = pairView d) (h : (pairView d).slots = []) :
    pairView (memberChange d f) = pairView d := by
  have hjournal : pairView (settleJournal d (f d)) = pairView d := (pairView_settleJournal d).trans hf
  exact (pairView_advanceAll (hjournal ▸ h)).trans hjournal

theorem pairView_partnerReached (h : (pairView d).slots = []) (slots : Nat) : pairView (partnerReached d slots) = pairView d := by
  refine foldl_keeps (pairView · = pairView d) _ (fun e k he => ?_) _ d rfl
  exact (pairView_memberChange (by rw [pairView_ite, pairView_judgeDrive, ite_self]) (he ▸ h)).trans he

/-- The release of every acknowledgement that waited for the partner leaves the pair machine, where no command is on the device. -/
theorem pairView_releaseAcks (h : (pairView d).slots = []) : pairView (releaseAcks d) = pairView d := by
  have hacts : pairView ((d.par.items.map (·.act) ++ d.par.keyItems.map (·.act)).foldl ackAct
      { d with par.items := [], par.keyItems := [] }) = pairView d :=
    foldl_keeps (pairView · = pairView d) _ (fun e a he => (pairView_ackAct (he ▸ h) a).trans he) _ _ rfl
  have hgated := pairView_gatedGo.trans hacts
  have hadvanced := (pairView_advanceAll (hgated ▸ h)).trans hgated
  have hposted := (pairView_postAll (hadvanced ▸ h)).trans hadvanced
  unfold releaseAcks
  dsimp only
  rw [finishDeletes_of_no_slots (hposted ▸ h)]
  exact (pairView_partnerReached (hposted ▸ h) _).trans hposted

end

/-! ### The pair join -/

theorem same_joinSend {part : Piece} {d₀ d : Dev} (hpar : part ≠ .par) (houts : part ≠ .outs) :
    part.same d₀ (joinSend d) ↔ part.same d₀ d := by
  simp only [joinSend, pairAll, same_pairOn hpar houts]

@[simp] theorem joinSend_glb (d : Dev) : (joinSend d).glb = d.glb := (same_joinSend (part := .glb) nofun nofun).2 (same_refl _ d)

@[simp] theorem joinSend_pln (d : Dev) : (joinSend d).pln = d.pln := (same_joinSend (part := .pln) nofun nofun).2 (same_refl _ d)

theorem joinFails_joinSend (d : Dev) (j : JoinInfo) : joinFails (joinSend d) j = joinFails d j := by
  simp only [joinFails, joinSend_pln]

theorem pairView_joinSend (d : Dev) : pairView (joinSend d) = pairView d := (pairView_pairOn ..).trans (pairView_pairOn ..)

/-- A join by a partner of the same side bars a device with no command on it (R121). -/
theorem pairView_sameSide {d : Dev} (hbarred : d.par.barred = false) (hslots : d.cmd.slots = []) :
    pairView (sameSide d) = { st := .alone, barred := true, lostAttn := true, slots := [] } := by
  have hview : pairView { d with par := { d.par with st := .alone, barred := true, lostAttn := true, lost := true } }
      = { st := .alone, barred := true, lostAttn := true, slots := [] } := by
    simp [pairView, hslots, tkeys]
  rw [sameSide, if_neg (by simp [hbarred])]
  exact (pairView_releaseAcks (congrArg PairView.slots hview)).trans hview

theorem itgEvent_glb (d : Dev) (ev : Nat) (page : Option Nat) (lane vol : Nat) : (itgEvent d ev page lane vol).glb = d.glb :=
  (same_itgEvent (part := .glb)).2 (same_refl _ d)

theorem enterService_par (d : Dev) : (enterService d).par = d.par :=
  foldl_keeps (fun e : Dev => e.par = d.par) _ (fun e _ he => ((same_itgEvent (part := .par)).2 (same_refl _ e)).trans he) _ _ rfl

theorem enterService_st (d : Dev) : (enterService d).glb.st = .service :=
  foldl_keeps (fun e : Dev => e.glb.st = .service) _ (fun e _ he => (congrArg Glb.st (itgEvent_glb e ..)).trans he) _ _ rfl

/-! ### The phases of RECOVERY -/

theorem tget_tupd_same {α : Type} (t : Tab α) (k : Nat) (f : α → α) : tget (tupd t k f) k = (tget t k).map f := by
  induction t with
  | nil => rfl
  | cons e t ih =>
    obtain ⟨k', v⟩ := e
    simp only [tupd, List.map_cons, tget]
    split
    case isTrue => simp
    case isFalse h => simpa [h, tget, tupd] using ih

theorem finishDeletions_of_no_volumes {d : Dev} (h : d.sto.vols = []) : finishDeletions d = d := by
  simp [finishDeletions, h, tkeys]

theorem takeoverEnd_of_not_resuming {d : Dev} (h : d.par.step ≠ .resume) : takeoverEnd d = d := by
  simp [takeoverEnd, h]

/-- Settles O10: the branch of each command that its clause names; `pairView_sameSide` says what a partner of the same side leaves. -/
theorem joinAndRecovery : Obligations.JoinAndRecovery := by
  unfold Obligations.JoinAndRecovery
  intro s hplanned
  refine ⟨?same, ?join, ?timeout, ?scan, ?replay, ?resync, ?complete⟩
  case same =>
    intro j hpair hst hbarred hside hslots
    refine gives_of_actIf (rfl : execPairJoin j s = _) (by simp [hplanned, hpair, hst, hbarred]) ?_
    have hjoin := pairView_joinSend s.dev
    have hview := pairView_sameSide (d := joinSend s.dev) ((congrArg PairView.barred hjoin).trans hbarred)
      (List.map_eq_nil_iff.1 ((congrArg PairView.slots hjoin).trans (congrArg tkeys hslots)))
    simp only [hside, beq_self_eq_true, if_true, settle_par]
    exact ⟨congrArg PairView.barred hview, congrArg PairView.st hview, congrArg PairView.lostAttn hview⟩
  case join =>
    intro j hpair hst hbarred hside hout hfails hserving hmine _
    refine gives_of_actIf (rfl : execPairJoin j s = _) (by simp [hplanned, hpair, hst, hbarred]) ?_
    have htrain : (takePartner (joinSend s.dev) j).glb.st = .train := (congrArg Glb.st (joinSend_glb s.dev)).trans hst
    simp only [beq_eq_false_iff_ne.2 hside, hout, joinFails_joinSend, hfails, hserving, hmine, htrain, settle_glb, Bool.false_eq_true,
      if_false, bne_self_eq_false, Nat.reduceBEq, beq_self_eq_true, Bool.and_true, if_true]
    exact enterService_st _
  case timeout =>
    intro hst hpair hjoin hrefused hpartner hstep
    refine gives_of_actIf (rfl : execJoinTimeout s = _) (by simp [hst, hpair, hjoin, hrefused, hpartner, hstep]) ?_
    simp only [askArbiter]
    split <;> simp
  case scan =>
    intro g copies bitmaps hrec hphase
    refine gives_of_actIf (rfl : execRecoveryScan g copies bitmaps s = _) hplanned ?_
    have hgo : (!recoverable s.dev g || recPhase s.dev g != 1) = false := by simp [hrec, hphase]
    simp only [hgo, Bool.false_eq_true, if_false]
    simp only [recPhase, settle_sto_recovery, tget_tset_same]
    exact ⟨rfl, rfl⟩
  case replay =>
    intro g x hst hx hrec hphase hrecs
    refine gives_of_actIf (rfl : execRecoveryReplay g s = _) hplanned ?_
    simp [hx, hrec, hphase, hrecs, hst, recPhase, tget_tupd_same]
  case resync =>
    intro g x agree hx hrec hphase hdirty
    refine gives_of_actIf (rfl : execRecoveryResync g agree s = _) hplanned ?_
    simp [hx, hrec, hphase, hdirty, recPhase, tget_tupd_same]
  case complete =>
    intro us hst hstep hgroups hvols
    refine gives_of_actIf (rfl : execRecoveryComplete us s = _) (by simp [hplanned, hst, hstep, hgroups]) ?_
    simp only [hgroups, List.foldl_nil, settle_glb]
    rw [finishDeletions_of_no_volumes (by exact hvols), takeoverEnd_of_not_resuming, enterService_st]
    rw [enterService_par]
    simp [hstep]

end Sys2Proof.Machine

/-! ## The thermal configuration and the sensor scan -/

namespace Sys2Proof.Machine

/-! ### The rejected configuration (R104) -/

/-- A configuration with a field out of its range is rejected, and nothing else of the device changes. -/
theorem thermCfgGo_out_of_range {d : Dev} {v : Word}
    (h : fld v.toNat 0 8 < 60 ∨ 125 < fld v.toNat 0 8 ∨ fld v.toNat 8 8 < 85 ∨ 115 < fld v.toNat 8 8 ∨ fld v.toNat 16 8 < 1
      ∨ 10 < fld v.toNat 16 8) : thermCfgGo d v = { d with pwr.thermReject := true } := by
  unfold thermCfgGo
  refine if_neg ?_
  simp only [Bool.and_eq_true, decide_eq_true_eq]
  omega

/-! ### What a scan reads (R98) -/

/-- The table of a list's places, numbered from `k`. -/
theorem tget_zipIdx {α : Type} (l : List α) (k n : Nat) :
    tget ((l.zipIdx k).map fun e => (e.2, e.1)) (k + n) = l[n]? := by
  induction l generalizing k n with
  | nil => rfl
  | cons a l ih =>
    simp only [List.zipIdx_cons, List.map_cons, tget]
    cases n with
    | zero => simp
    | succ n => simpa [Nat.add_assoc, Nat.add_comm 1] using ih (k + 1) n

@[simp] theorem sliceInterrupt_glb (d : Dev) : (sliceInterrupt d).glb = d.glb :=
  (same_sliceInterrupt (part := .glb) nofun nofun nofun).2 (same_refl _ d)

@[simp] theorem throttleStep_glb (d : Dev) : (throttleStep d).glb = d.glb := by
  unfold throttleStep
  dsimp only
  split_ifs <;> simp

@[simp] theorem warnStep_glb (d : Dev) : (warnStep d).glb = d.glb := by
  unfold warnStep
  dsimp only
  split <;> simp

/-- A scan takes each reading to its sensor and leaves the global window; then the shutdown thresholds are judged (R99). -/
theorem gives_sensorScan {s : State} {l : List Int} {p : Dev → Prop} (hon : s.dev.glb.st ≠ .off)
    (h : ∀ d : Dev, d.glb = s.dev.glb → (∀ n < 30, tempOf d n = l[n]?.getD 0) →
      p (settle (if (List.range 28).any fun n => 2080 ≤ tempOf d n then thermtripGo d else if hbmAt d 105 then shutdown d else d))) :
    Gives (.sensorScan l) s p := by
  refine gives_of_actIf (rfl : execSensorScan l s = _) (by simpa using hon) (h _ (by simp) fun n hn => ?_)
  have hget := tget_zipIdx (l.take 30) 0 n
  rw [Nat.zero_add, List.getElem?_take_of_lt hn] at hget
  simp [tempOf, tgetD, warnStep_readings, hget]

/-- Settles O8: what the scan reads is `gives_sensorScan`, and the thresholds of R99 stand above it as constants. -/
theorem thermCfgOutOfRange : Obligations.ThermCfgOutOfRange := by
  unfold Obligations.ThermCfgOutOfRange
  intro s hon
  refine ⟨?config, ?die, ?hbm, ?cool⟩
  case config =>
    intro m v hw hrange
    refine gives_of_actIf (rfl : execPwrThermCfgWrite m v s = _) (by simpa using hon) ?_
    rw [writeAccess_allowed (off := 0x10030) hw, thermCfgGo_out_of_range hrange]
  case die =>
    intro l n t hn ht hot
    refine gives_sensorScan hon fun d _ htemp => ?_
    have htrip : ((List.range 28).any fun n => 2080 ≤ tempOf d n) = true :=
      List.any_eq_true.2 ⟨n, List.mem_range.2 hn, by simp [htemp n (by omega), ht]; omega⟩
    simp [htrip, thermtripGo]
  case hbm =>
    intro l n t hlo hhi ht hot hrun
    refine gives_sensorScan hon fun d hglb htemp => ?_
    have hrund : running d = true := by rwa [running, hglb]
    have hshut : hbmAt d 105 = true := by
      have hn : tempOf d n = t := by simp [htemp n hhi, ht]
      obtain rfl | rfl : n = 28 ∨ n = 29 := by omega
      all_goals
        simp [hbmAt, hn]
        omega
    rw [settle_glb, if_pos hshut]
    split <;> exact shutdown_begun hrund
  case cool =>
    intro l hdie hhbm
    refine gives_sensorScan hon fun d hglb htemp => ?_
    have hbelow {c : Int} (hc : 0 < c) (n : Nat) (hn : n < 30) (hl : ∀ t, l[n]? = some t → t < c) : tempOf d n < c := by
      rw [htemp n hn]
      cases ht : l[n]? with
      | none => exact hc
      | some t => exact hl t ht
    have htrip : ¬ ((List.range 28).any fun n => 2080 ≤ tempOf d n) = true := by
      simpa using fun n hn => hbelow (by decide) n (by omega) fun t => hdie n t hn
    have hshut : ¬ hbmAt d 105 = true := by
      simpa [hbmAt] using And.intro (hbelow (by decide) 28 (by decide) fun t => hhbm 28 t (by decide) (by decide))
        (hbelow (by decide) 29 (by decide) fun t => hhbm 29 t (by decide) (by decide))
    rw [if_neg htrip, if_neg hshut, settle_glb, hglb]
    exact ⟨rfl, rfl⟩

end Sys2Proof.Machine

/-! ## Warm resets and the entry to HALT -/

namespace Sys2Proof.Machine

/-! ### What a frame to the partner and a lost burn leave -/

@[simp] theorem pairOn_time (d : Dev) (pathB : Bool) (m : PairMsg) : (pairOn d pathB m).time = d.time := by
  unfold pairOn
  dsimp only
  split <;> rfl

@[simp] theorem pairOn_reg (d : Dev) (pathB : Bool) (m : PairMsg) : (pairOn d pathB m).reg = d.reg := by
  unfold pairOn
  dsimp only
  split <;> rfl

@[simp] theorem pairOn_glb (d : Dev) (pathB : Bool) (m : PairMsg) : (pairOn d pathB m).glb = d.glb :=
  (same_pairOn (part := .glb) nofun nofun).2 (same_refl _ d)

@[simp] theorem pairOn_sense (d : Dev) (pathB : Bool) (m : PairMsg) : (pairOn d pathB m).sense = d.sense :=
  (same_pairOn (part := .sense) nofun nofun).2 (same_refl _ d)

@[simp] theorem burnLost_time (d : Dev) : (burnLost d).time = d.time := by
  unfold burnLost
  split <;> rfl

@[simp] theorem burnLost_reg (d : Dev) : (burnLost d).reg = d.reg := by
  unfold burnLost
  split <;> rfl

@[simp] theorem burnLost_sense (d : Dev) : (burnLost d).sense = d.sense := by
  unfold burnLost
  split <;> rfl

@[simp] theorem count_reg_live (d : Dev) (off : Nat) : (count d off).reg.live = d.reg.live :=
  ((same_count (part := .regs)).2 (same_refl _ d)).1

/-! ### What is cleared (R108, R109) -/

/-- Of what stood before, the clearing keeps device time, the sensors and the words of AON. -/
theorem warmCleared_clearVolatile {d e : Dev} (ht : e.time = d.time) (hs : e.sense = d.sense) (hl : e.reg.live = d.reg.live) :
    WarmCleared d (clearVolatile e) :=
  ⟨ht, hs, congrArg (tfilter · fun o _ => aonWord o) hl, rfl, rfl, rfl, rfl, rfl, rfl, rfl, rfl, rfl, rfl, rfl⟩

/-- The device state is not among what a warm reset clears. -/
theorem warmCleared_enter {d e : Dev} {st : DevSt} (h : WarmCleared d e) : WarmCleared d (enter e st) := h

/-- What follows from a warm reset writes nothing that it cleared. -/
theorem warmCleared_settle {d e : Dev} (h : WarmCleared d e) : WarmCleared d (settle e) := by
  simpa [WarmCleared] using h

theorem warmCleared_warmClear {d e : Dev} (ht : e.time = d.time) (hs : e.sense = d.sense) (hl : e.reg.live = d.reg.live) :
    WarmCleared d (settle (warmClear e)) :=
  warmCleared_settle (warmCleared_enter (warmCleared_clearVolatile (by simpa using ht) (by simpa using hs) (by simpa using hl)))

theorem warmClear_st (d : Dev) : (warmClear d).glb.st = .reset := rfl

theorem warmClear_cause (d : Dev) : (warmClear d).glb.cause = d.glb.cause := by
  simp [warmClear, enter, clearVolatile]

/-- A warm reset adds its cause bit (R109). -/
theorem warmReset_leaves (d : Dev) (bit : Nat) :
    (settle (warmReset d bit)).glb.st = .reset ∧ (settle (warmReset d bit)).glb.cause = d.glb.cause ||| BitVec.ofNat 6 (1 <<< bit)
      ∧ WarmCleared d (settle (warmReset d bit)) := by
  refine ⟨?_, ?_, warmCleared_warmClear (by simp [haltNotice]) (by simp) (by simp [haltNotice])⟩
  · rw [settle_glb]
    exact warmClear_st _
  · rw [settle_glb]
    exact (warmClear_cause _).trans (by rw [haltNotice_glb])

/-- Settles O2: each of the four is `clearVolatile`, of which `warmCleared_clearVolatile` says what it leaves. -/
theorem warmResets : Obligations.WarmResets := by
  unfold Obligations.WarmResets
  intro s
  refine ⟨?watchdog, ?register, ?fence, ?halt⟩
  case watchdog =>
    intro hrun hboot
    exact gives_of_actIf (rfl : execWatchdogExpire s = _) (by simp [hrun, hboot]) (warmReset_leaves s.dev 2)
  case register =>
    intro m v hrun hw hkey hbit
    refine gives_of_actIf (rfl : execGlbResetCtrlWrite m v s = _) hrun ?_
    have hgo : resetCtrlGo s.dev v = warmReset s.dev 1 := by simp [resetCtrlGo, hkey, hbit]
    rw [writeAccess_allowed (off := 0x30) hw, hgo]
    exact warmReset_leaves s.dev 1
  case fence =>
    intro hpl hst
    refine gives_of_actIf (rfl : execSelfFence s = _) (by simpa [hpl] using hst) ⟨?_, ?_, ?_⟩
    · rw [settle_glb]
      exact warmClear_st _
    · rw [settle_glb]
      exact (warmClear_cause _).trans (by simp [pairAll])
    · exact warmCleared_warmClear (by simp [pairAll]) (by simp [pairAll]) (by simp [pairAll])
  case halt =>
    intro hshut hrun hoff
    refine gives_of_actIf (rfl : execHaltEntry s = _) (by simp only [hshut, hrun, hoff, Bool.and_self]) ⟨?_, ?_⟩
    · rw [settle_glb]
      rfl
    · exact warmCleared_settle (warmCleared_clearVolatile (e := s.dev) rfl rfl rfl)

end Sys2Proof.Machine

/-! ## Power domains -/

namespace Sys2Proof.Machine

/-! ### A request with none before it (R81, R82) -/

theorem domPhase_setDom_same (d : Dev) (n : Nat) (p : DomPhase) : domPhase (setDom d n p) n = p := by
  simp [domPhase, setDom]

theorem domPhase_setDom_ne (d : Dev) {n k : Nat} (p : DomPhase) (h : k ≠ n) : domPhase (setDom d n p) k = domPhase d k := by
  simp [domPhase, setDom, tgetD, tget_tset_ne _ _ h]

/-- With no request waiting, a domain is asked for just where it is on or rising. -/
theorem domTarget_of_reqs_nil {d : Dev} (h : d.pwr.reqs = []) (n : Nat) :
    domTarget d n = (domPhase d n == .on || domPhase d n == .rising) := by
  simp only [domTarget, h, List.filter_nil, List.getLast?_nil]
  cases domPhase d n <;> rfl

theorem domServe_of_reqs_nil {d : Dev} (h : d.pwr.reqs = []) : domServe d = d := by
  simp [domServe, h]

theorem startReq_reqs (d : Dev) (r : DomReq) : (startReq d r).pwr.reqs = d.pwr.reqs.erase r := by
  unfold startReq
  dsimp only
  split_ifs <;> rfl

/-- A request that waits alone and can start is started, whether a take-over asks for it or not. -/
theorem domServe_single {d : Dev} {r : DomReq} (hready : reqReady d r = true) (hreqs : d.pwr.reqs = [r]) :
    domServe d = startReq d r := by
  have hrest : (startReq d r).pwr.reqs = [] := by simp [startReq_reqs, hreqs]
  cases hon : r.on <;> cases ht : r.takeover <;> simp [domServe, hreqs, hready, hon, ht, hrest]

theorem startReq_on {d : Dev} {r : DomReq} (h : r.on = true) :
    startReq d r = { setDom { d with pwr.reqs := d.pwr.reqs.erase r } r.d .rising with pwr.onAt := some d.time } := by
  simp [startReq, h, setDom]

/-- A switch-off starts where the domain need not stay on (R83). -/
theorem startReq_off {d : Dev} {r : DomReq} (h : r.on = false) (hstay : mustStay d r.d = false) :
    startReq d r = { setDom { d with pwr.reqs := d.pwr.reqs.erase r } r.d .falling with pwr.offAt := some d.time } := by
  have hstay' : mustStay { d with pwr.reqs := d.pwr.reqs.erase r } r.d = false := hstay
  simp [startReq, h, hstay', setDom]

/-- A switch-on request that finds the domain off, what it requires ready and its turn come starts at once (R81). -/
theorem domRequestOn_starts {d : Dev} {n : Nat} (takeover : Bool) (hn : n < 64) (hreqs : d.pwr.reqs = [])
    (hheld : bitAt d.pwr.heldOff.toNat n = false) (hoff : domPhase d n = .off) (hreq : (domRequires n).all (domOn d) = true)
    (hturn : d.pwr.onAt.all (· + 2000 ≤ d.time) = true) :
    domRequestOn d n takeover = { setDom d n .rising with pwr.onAt := some d.time } := by
  have htarget : domTarget d n = false := by simp [domTarget_of_reqs_nil hreqs, hoff]
  let r : DomReq := { d := n, on := true, takeover }
  have hready : reqReady { d with pwr.reqs := [r] } r = true := by
    simp only [reqReady, r, if_true, Bool.and_eq_true, beq_iff_eq]
    exact ⟨⟨hoff, hreq⟩, hturn⟩
  have hserve : domRequestOn d n takeover = domServe { d with pwr.reqs := [r] } := by
    simp [domRequestOn, hheld, htarget, hreqs, r, Nat.not_le.2 hn]
  rw [hserve, domServe_single hready rfl, startReq_on rfl]
  simp [setDom, hreqs, r]

/-- A switch-off request that finds the domain on and free to go off, its users off and its turn come starts at once (R81). -/
theorem domQueueOff_starts {d : Dev} {n : Nat} (takeover : Bool) (hn : n < 64) (hreqs : d.pwr.reqs = [])
    (hstay : mustStay d n = false) (hon : domPhase d n = .on) (husers : ((domUsers n).all fun k => domPhase d k == .off) = true)
    (hturn : d.pwr.offAt.all (· + 2000 ≤ d.time) = true) :
    domQueueOff d n takeover = { setDom d n .falling with pwr.offAt := some d.time } := by
  have htarget : domTarget d n = true := by simp [domTarget_of_reqs_nil hreqs, hon]
  let r : DomReq := { d := n, on := false, takeover }
  have hready : reqReady { d with pwr.reqs := [r] } r = true := by
    simp only [reqReady, r, Bool.false_eq_true, if_false, Bool.and_eq_true, beq_iff_eq]
    exact ⟨⟨hon, husers⟩, hturn⟩
  have hserve : domQueueOff d n takeover = domServe { d with pwr.reqs := [r] } := by
    simp [domQueueOff, htarget, hreqs, r, Nat.not_le.2 hn]
  rw [hserve, domServe_single hready rfl, startReq_off rfl hstay]
  simp [setDom, hreqs, r]

/-! ### The switch-on sequence (R113, R117) -/

theorem turnStep_of_no_turn {d : Dev} (h : d.pwr.turn = none) : turnStep d = d := by
  simp only [turnStep, h]

/-- In PLAN the sequence ends once every domain it wants is on, or off and held off. -/
theorem turnStep_ends {d : Dev} {want : Dword} (hturn : d.pwr.turn = some want) (hst : d.glb.st = .plan) (hreqs : d.pwr.reqs = [])
    (h : ∀ n, n < 64 → bitAt want.toNat n = true → domPhase d n = .on ∨ (domPhase d n = .off ∧ bitAt d.pwr.heldOff.toNat n = true)) :
    turnStep d = enter { d with pwr.turn := none } .selftest := by
  have hwant : ∀ n ∈ bitList want.toNat 64,
      domPhase d n = .on ∨ (domPhase d n = .off ∧ bitAt d.pwr.heldOff.toNat n = true) := fun n hn =>
    h n (List.mem_range.1 (List.mem_filter.1 hn).1) (List.mem_filter.1 hn).2
  have hrest : (bitList want.toNat 64).all (domAtRest d) = true := by
    refine List.all_eq_true.2 fun n hn => ?_
    rcases hwant n hn with hon | ⟨hoff, -⟩
    · simpa [domAtRest, domOn, domPhase, hreqs] using Or.inr hon
    · simp [domAtRest, domTarget_of_reqs_nil hreqs, hoff]
  have hnext : (bitList want.toNat 64).find? (fun n => !domTarget d n && !bitAt d.pwr.heldOff.toNat n
      && (domRequires n).all (domOn d)) = none := by
    refine List.find?_eq_none.2 fun n hn => ?_
    rcases hwant n hn with hon | ⟨-, hheld⟩
    · simp [domTarget_of_reqs_nil hreqs, hon]
    · simp [hheld]
  simp [turnStep, hturn, hrest, hnext, hst]

/-! ### What a domain loses (R79) -/

section
variable {part : Piece} {d₀ d : Dev}

theorem same_macroDown (heth : part ≠ .eth) (hswc : part ≠ .swc) (houts : part ≠ .outs) {m : Nat} :
    part.same d₀ (macroDown d m) ↔ part.same d₀ d := by
  simp only [macroDown, same_cnt, same_portDown heth hswc houts, same_modPort heth, same_ite, ite_self, same_foldl, implies_true]

theorem same_bankDown (hswc : part ≠ .swc) (houts : part ≠ .outs) : part.same d₀ (bankDown d) ↔ part.same d₀ d := by
  simp only [bankDown, same_draw, same_free, same_leaveIfEmpty hswc, same_freeCopy hswc houts, same_modQueue hswc, same_foldl,
    implies_true]

theorem same_burnLost (hbst : part ≠ .bst) : part.same d₀ (burnLost d) ↔ part.same d₀ d := by
  simp only [burnLost, same_bst hbst, same_draw, same_ite, ite_self]

theorem same_memberEvent (hsto : part ≠ .sto) (hpar : part ≠ .par) (hvia : part ≠ .via) (houts : part ≠ .outs) {g k st : Nat}
    {regions : List (Nat × Nat)} : part.same d₀ (memberEvent d g k st regions) ↔ part.same d₀ d := by
  simp only [memberEvent, same_sto hsto, same_modDrive hsto, same_jAppend hsto hpar hvia houts, same_ite, ite_self]

theorem same_dropReads (hcmd : part ≠ .cmd) {k : Nat} : part.same d₀ (dropReads d k) ↔ part.same d₀ d := by
  simp only [dropReads, same_cmd hcmd]

theorem same_remirrorStart (hsto : part ≠ .sto) (hpar : part ≠ .par) (hvia : part ≠ .via) (houts : part ≠ .outs) {g i : Nat} :
    part.same d₀ (remirrorStart d g i) ↔ part.same d₀ d := by
  simp only [remirrorStart]
  split <;> simp only [same_rbCnt, same_modGroup hsto, same_jAppend hsto hpar hvia houts]

theorem same_dropCopy (hsto : part ≠ .sto) (hpar : part ≠ .par) (hvia : part ≠ .via) (houts : part ≠ .outs) {g i : Nat} :
    part.same d₀ (dropCopy d g i) ↔ part.same d₀ d := by
  simp only [dropCopy, stoEvent, same_remirrorStart hsto hpar hvia houts, same_writeRecords hsto hpar hvia houts, same_logEvent,
    same_modGroup hsto, same_ite, ite_self]

theorem same_loseMember (hcmd : part ≠ .cmd) (hsto : part ≠ .sto) (hpar : part ≠ .par) (hvia : part ≠ .via) (houts : part ≠ .outs)
    {k : Nat} {st : MemberSt} : part.same d₀ (loseMember d k st) ↔ part.same d₀ d := by
  simp only [loseMember, same_ite]
  split
  · rfl
  · split
    · exact same_setMember hsto hpar houts
    · split <;> simp only [same_dropCopy hsto hpar hvia houts, same_modDrive hsto, same_dropReads hcmd,
        same_memberEvent hsto hpar hvia houts, same_rbEvent, same_setMember hsto hpar houts, dropGated, same_par hpar]

theorem same_slotAbsent (hcmd : part ≠ .cmd) (hsto : part ≠ .sto) (hpar : part ≠ .par) (hvia : part ≠ .via) (houts : part ≠ .outs)
    {k : Nat} : part.same d₀ (slotAbsent d k) ↔ part.same d₀ d := by
  simp only [slotAbsent, same_loseMember hcmd hsto hpar hvia houts, same_setMember hsto hpar houts, same_modDrive hsto, same_ite,
    ite_self]

end

@[simp] theorem sliceOver_pwr (d : Dev) : (sliceOver d).pwr = d.pwr :=
  (same_sliceOver (part := .pwr) nofun nofun nofun).2 (same_refl _ d)

@[simp] theorem sliceOver_glb (d : Dev) : (sliceOver d).glb = d.glb :=
  (same_sliceOver (part := .glb) nofun nofun nofun).2 (same_refl _ d)

@[simp] theorem sliceAbandon_pwr (d : Dev) : (sliceAbandon d).pwr = d.pwr :=
  (same_sliceAbandon (part := .pwr) nofun nofun nofun).2 (same_refl _ d)

@[simp] theorem macroDown_pwr (d : Dev) (m : Nat) : (macroDown d m).pwr = d.pwr :=
  (same_macroDown (part := .pwr) nofun nofun nofun).2 (same_refl _ d)

@[simp] theorem bankDown_pwr (d : Dev) : (bankDown d).pwr = d.pwr := (same_bankDown (part := .pwr) nofun nofun).2 (same_refl _ d)

@[simp] theorem quarterDown_pwr (d : Dev) (t : Nat) : (quarterDown d t).pwr = d.pwr :=
  (same_quarterDown (part := .pwr) nofun nofun).2 (same_refl _ d)

@[simp] theorem burnLost_pwr (d : Dev) : (burnLost d).pwr = d.pwr := (same_burnLost (part := .pwr) nofun).2 (same_refl _ d)

@[simp] theorem maybeRecover_pwr (d : Dev) : (maybeRecover d).pwr = d.pwr :=
  (same_maybeRecover (part := .pwr) nofun).2 (same_refl _ d)

theorem noWork_sliceOver {d : Dev} (h : NoWork d) : NoWork (sliceOver d) := by
  have hcmd : (sliceOver d).cmd = d.cmd := (same_sliceOver (part := .cmd) nofun nofun nofun).2 (same_refl _ d)
  have hsto := (same_sliceOver (part := .sto) nofun nofun nofun).2 (same_refl _ d)
  have hrepairs : (sliceOver d).sto.repairs = d.sto.repairs := (congrArg Sto.repairs hsto :)
  have hgroups : (sliceOver d).sto.groups = d.sto.groups := (congrArg Sto.groups hsto :)
  rwa [NoWork, hcmd, hrepairs, hgroups]

/-- With no work under way, a slot that empties leaves the power domains. -/
theorem memberChange_slotAbsent_pwr {d : Dev} (k : Nat) (h : NoWork d) :
    (memberChange d fun d => slotAbsent d k).pwr = d.pwr := by
  have hview := memberView_slotAbsent (d := d) k
  have hslots : tkeys (slotAbsent d k).cmd.slots = [] := (congrArg MemberView.slots hview).trans (congrArg tkeys h.1)
  have hrepairs : (slotAbsent d k).sto.repairs = [] := (congrArg MemberView.repairs hview).trans h.2.1
  rw [memberChange_of_noWork h ⟨hslots, hrepairs⟩]
  exact (same_slotAbsent (part := .pwr) nofun nofun nofun nofun nofun).2 (same_refl _ d)

/-- What a domain loses is not among the power domains themselves, where no command's work ends with a drive's domain. -/
theorem domLost_pwr {d : Dev} {n : Nat} (h : planned d = false ∨ n < 8 ∨ 32 ≤ n ∨ NoWork d) : (domLost d n).pwr = d.pwr := by
  unfold domLost
  extract_lets e
  have hpwr : e.pwr = d.pwr := by
    simp only [e]
    split <;> simp
  have hwork : planned e = false ∨ n < 8 ∨ 32 ≤ n ∨ NoWork e := by
    simp only [e]
    split
    · exact h.imp (fun h => by simpa [planned] using h) (Or.imp_right (Or.imp_right noWork_sliceOver))
    · exact h
  clear_value e
  simp only [apply_ite Dev.pwr, macroDown_pwr, bankDown_pwr, quarterDown_pwr, sliceAbandon_pwr, burnLost_pwr, hpwr, ite_self]
  split_ifs with hmacro hdrive hplanned
  · rfl
  · have hnone : NoWork e := by
      rcases hwork with h | h | h | h
      · simp [h] at hplanned
      · omega
      · omega
      · exact h
    exact (memberChange_slotAbsent_pwr _ hnone).trans hpwr
  all_goals rfl

/-- Settles O9: a request that waits alone starts at once, and with no other request waiting a domain's readiness or switch-off
changes its own phase alone, but for the end of the switch-on sequence. -/
theorem domainSwitching : Obligations.DomainSwitching := by
  unfold Obligations.DomainSwitching
  intro s dom takeover hreqs
  refine ⟨?on, ?off, ?ready, ?last, ?offDone, ?heldOff⟩
  case on =>
    intro hdom hrun hidle hshut hheld hoff hreq hturn
    refine gives_of_actIf (rfl : execDomainSwitchOnRequest dom takeover s = _) (by simp [hrun, hidle, hshut]) ?_
    rw [domRequestOn_starts takeover hdom hreqs hheld hoff hreq hturn, domPhase, settle_pwr]
    exact ⟨domPhase_setDom_same .., rfl, hreqs⟩
  case off =>
    intro hdom hrun hidle hshut hstay hon husers hturn
    refine gives_of_actIf (rfl : execDomainSwitchOffRequest dom takeover s = _) (by simp [hrun, hidle, hshut, hstay]) ?_
    rw [domQueueOff_starts takeover hdom hreqs hstay hon husers hturn, domPhase, settle_pwr]
    exact ⟨domPhase_setDom_same .., rfl, hreqs⟩
  case ready =>
    intro hrising hturn
    refine gives_of_actIf (rfl : execDomainReady dom s = _) (by simp [hrising]) ?_
    rw [domServe_of_reqs_nil (by exact hreqs), turnStep_of_no_turn (by exact hturn)]
    simp only [domPhase, settle_pwr]
    exact ⟨domPhase_setDom_same .., fun k hk => domPhase_setDom_ne _ _ hk⟩
  case last =>
    intro want hrising hturn hst hwant
    refine gives_of_actIf (rfl : execDomainReady dom s = _) (by simp [hrising]) ?_
    rw [domServe_of_reqs_nil (by exact hreqs), turnStep_ends (want := want) (by exact hturn) (by exact hst) (by exact hreqs)]
    · rw [domPhase, settle_pwr, settle_glb]
      exact ⟨domPhase_setDom_same .., rfl, rfl⟩
    · intro n hn hbit
      by_cases hself : n = dom
      · subst hself
        exact .inl (domPhase_setDom_same ..)
      · rw [domPhase_setDom_ne _ _ hself]
        exact (hwant n hn hself hbit).imp_left beq_iff_eq.1
  case offDone =>
    intro hfalling hturn hwork
    refine gives_of_actIf (rfl : execDomainOffComplete dom s = _) (by simp [hfalling]) ?_
    have hpwr : (domLost (setDom s.dev dom .off) dom).pwr = (setDom s.dev dom .off).pwr := domLost_pwr hwork
    rw [domServe_of_reqs_nil (by rw [hpwr]; exact hreqs), turnStep_of_no_turn (by rw [hpwr]; exact hturn), domPhase, settle_pwr,
      maybeRecover_pwr, hpwr]
    exact domPhase_setDom_same ..
  case heldOff =>
    intro hdom hrun hidle hshut hheld
    refine gives_of_actIf (rfl : execDomainSwitchOnRequest dom takeover s = _) (by simp [hrun, hidle, hshut]) ?_
    simp [domRequestOn, hheld, Nat.not_le.2 hdom]

end Sys2Proof.Machine

/-! ## Admission -/

namespace Sys2Proof.Machine

/-! ### What a command keeps from its admission on -/

/-- What a slot says of its command that nothing writes after its admission. -/
structure SlotIdent where
  cap : List Byte
  sq : Nat
  cls : Nat
  adm : Nat
  reserved : Bool
  master : Master
  msub : Bool

def slotIdent (x : Slot) : SlotIdent where
  cap := x.cap
  sq := x.sq
  cls := x.cls
  adm := x.adm
  reserved := x.reserved
  master := x.master
  msub := x.msub

/-- What the judgement of an admitted command leaves of the command engine. -/
structure AdmView where
  slots : Tab SlotIdent
  bufs : Tab (List Fetched)
  msubBusy : Bool
  msubDone : Bool

def admView (d : Dev) : AdmView where
  slots := d.cmd.slots.map fun e => (e.1, slotIdent e.2)
  bufs := d.cmd.bufs
  msubBusy := d.cmd.msubBusy
  msubDone := d.cmd.msubDone

theorem tget_map {α β : Type} (f : α → β) (t : Tab α) (k : Nat) : tget (t.map fun e => (e.1, f e.2)) k = (tget t k).map f := by
  induction t with
  | nil => rfl
  | cons e t ih =>
    simp only [List.map_cons, tget]
    split
    · rfl
    · exact ih

/-- A slot's command in a device of the same view. -/
theorem slotOf_of_admView {d e : Dev} {c : Nat} {x : Slot} (h : admView e = admView d) (hx : slotOf d c = some x) :
    ∃ y, slotOf e c = some y ∧ slotIdent y = slotIdent x := by
  have hslots := congrArg (tget · c) (congrArg AdmView.slots h)
  simp only [admView, tget_map] at hslots
  rw [slotOf] at hx
  rw [hx] at hslots
  exact Option.map_eq_some_iff.1 hslots

section
variable {d e : Dev}

theorem admView_of_cmd (h : e.cmd = d.cmd) : admView e = admView d := by
  simp only [admView, h]

theorem admView_of_same (h : ∀ part : Piece, part ≠ .trs → part ≠ .acc → part ≠ .par → part ≠ .via → part ≠ .outs → part ≠ .pwr →
    part.same d e) : admView e = admView d :=
  admView_of_cmd (h .cmd nofun nofun nofun nofun nofun nofun)

@[simp] theorem admView_ite {c : Prop} [Decidable c] {a b : Dev} :
    admView (if c then a else b) = if c then admView a else admView b := apply_ite admView c a b

/-- A write of a slot's other fields. -/
theorem admView_modSlot (he : admView e = admView d) {c : Nat} {f : Slot → Slot} (hf : ∀ x, slotIdent (f x) = slotIdent x) :
    admView (modSlot e c f) = admView d := by
  have hslots : (tupd e.cmd.slots c f).map (fun e => (e.1, slotIdent e.2)) = e.cmd.slots.map fun e => (e.1, slotIdent e.2) := by
    simp only [tupd, List.map_map]
    refine List.map_congr_left fun e _ => ?_
    simp only [Function.comp]
    split <;> simp only [hf]
  rw [← he]
  simp only [admView, modSlot, hslots]

/-! ### The transport -/

@[simp] theorem admView_count (off : Nat) : admView (count d off) = admView d := admView_of_cmd (count_cmd d off)

@[simp] theorem admView_mirror (item : MirrorItem) : admView (mirror d item) = admView d :=
  admView_of_same fun _ _ _ hpar _ houts _ => (same_mirror hpar houts).2 (same_refl _ d)

@[simp] theorem admView_innerSend (pier kind : Nat) (r : InnerRec) : admView (innerSend d pier kind r) = admView d :=
  admView_of_same fun _ _ _ _ _ houts _ => (same_innerSend houts).2 (same_refl _ d)

theorem admView_modConn (c : Nat) (f : Conn → Conn) : admView (modConn d c f) = admView d := rfl

theorem admView_sendPkt (x : Conn) (p : Pkt) : admView (sendPkt d x p) = admView d :=
  admView_of_same fun _ _ _ _ _ houts _ => (same_sendPkt houts).2 (same_refl _ d)

theorem admView_wantCtx (c : Nat) : admView (wantCtx d c).2 = admView d :=
  admView_of_same fun _ htrs _ _ _ houts _ => (same_wantCtx htrs houts).2 (same_refl _ d)

theorem admView_chargeWait (u : Use) (reason ns : Nat) : admView (chargeWait d u reason ns) = admView d := by
  unfold chargeWait
  split
  · split
    · rfl
    · exact admView_modSlot rfl fun _ => rfl
  · rfl

theorem admView_sendOne (c : Nat) (x : Conn) (i : Nat) (m : OutMsg) (path : Nat) : admView (sendOne d c x i m path) = admView d := by
  simp only [sendOne, chargeMsg, admView_sendPkt, admView_modConn, admView_chargeWait]

theorem admView_pumpGo (c fuel : Nat) : admView (pumpGo c fuel d) = admView d := by
  induction fuel generalizing d with
  | zero => rfl
  | succ fuel ih =>
    unfold pumpGo
    split
    · rfl
    · split
      · exact ih.trans (admView_sendOne ..)
      · rfl

theorem admView_pump (c : Nat) : admView (pump d c) = admView d := by
  unfold pump
  split
  · rfl
  · simp only [admView_ite, admView_modConn, admView_pumpGo, admView_wantCtx, ite_self]

theorem admView_sendMsg (c : Nat) (m : OutMsg) : admView (sendMsg d c m) = admView d :=
  (admView_pump c).trans (admView_modConn ..)

theorem admView_sendRead (c addr key len : Nat) (u : Use) : admView (sendRead d c addr key len u) = admView d := by
  unfold sendRead
  split
  · rfl
  · exact admView_sendMsg ..

theorem admView_failUse_pull (c off code : Nat) : admView (failUse d (.pull c off) code) = admView d :=
  admView_modSlot rfl fun x => by split <;> rfl

theorem admView_pullData (c : Nat) : admView (pullData d c) = admView d := by
  have hasked (n : Nat) : admView (modSlot d c fun s => { s with asked := n }) = admView d := admView_modSlot rfl fun _ => rfl
  unfold pullData
  split
  · rfl
  · dsimp only
    split
    · rfl
    · split
      · exact (admView_failUse_pull ..).trans (hasked _)
      · exact foldl_keeps (admView · = admView d) _ (fun e i he => (admView_sendRead ..).trans he) _ _ (hasked _)

/-! ### The judgement of a command -/

theorem slotIdent_mile (t i : Nat) (x : Slot) : slotIdent (mile t i x) = slotIdent x := by
  unfold mile
  split <;> rfl

theorem admView_answer (c st r0 r1 : Nat) : admView (answer d c st r0 r1) = admView d :=
  admView_modSlot rfl fun x => by split <;> rfl

theorem admView_forCmd (c : Nat) {f : Dev → Dev} (hf : ∀ d, admView (f d) = admView d) : admView (forCmd d c f) = admView d := by
  have hrun : admView (f (actFor d c)) = admView d := hf (actFor d c)
  unfold forCmd
  dsimp only
  split
  · split
    · exact hrun
    · exact admView_modSlot hrun fun _ => rfl
  · exact hrun

theorem admView_volCheck (c : Nat) (s : Slot) : admView (volCheck d c s).2 = admView d := by
  have hdeny (right : Nat) : admView (forCmd d c fun d => deny d s.master 2 s.vol right) = admView d :=
    admView_forCmd c fun d => admView_of_cmd (deny_cmd ..)
  have hkey : admView (itgCntN d 7 1) = admView d := admView_of_cmd (countN_cmd ..)
  unfold volCheck
  dsimp only
  split
  · rfl
  · split
    · split
      · exact hdeny _
      · split
        · rfl
        · split
          · rfl
          · split
            · exact hkey
            · rfl
    · exact hdeny _

theorem admView_takeKey (c : Nat) : admView (takeKey d c) = admView d := by
  unfold takeKey
  split
  · exact admView_modSlot rfl fun _ => rfl
  · rfl

theorem admView_takePlace (c : Nat) : admView (takePlace d c) = admView d := by
  unfold takePlace
  dsimp only
  split
  · split
    · exact (admView_count _).trans (admView_modSlot rfl fun _ => rfl)
    · exact admView_modSlot rfl fun _ => rfl
  · exact admView_modSlot rfl fun _ => rfl

theorem admView_powerHeld (cls : Nat) : admView (powerHeld d cls).2 = admView d := by
  unfold powerHeld
  dsimp only
  split_ifs <;> rfl

theorem admView_tryPlace (c : Nat) : admView (tryPlace d c) = admView d := by
  unfold tryPlace
  split
  case h_1 => rfl
  case h_2 s _ =>
    split
    · exact admView_modSlot rfl fun _ => rfl
    · have hheld : admView (if s.from_.isSome || s.cls < 2 then (false, d) else powerHeld d s.cls).2 = admView d := by
        split
        · rfl
        · exact admView_powerHeld _
      generalize (if s.from_.isSome || s.cls < 2 then (false, d) else powerHeld d s.cls) = r at hheld ⊢
      obtain ⟨held, e⟩ := r
      dsimp only at hheld ⊢
      split
      · exact admView_modSlot hheld fun _ => rfl
      · exact (admView_takePlace c).trans hheld

theorem admView_releaseOne (c : Nat) : admView (releaseOne d c) = admView d := by
  unfold releaseOne
  split
  case h_1 => rfl
  case h_2 s _ =>
    extract_lets e e'
    have he : admView e' = admView d := by
      refine (admView_mirror _).trans ((admView_takeKey c).trans (admView_modSlot (admView_count _) fun x => ?_))
      exact slotIdent_mile ..
    clear_value e e'
    split
    · exact (admView_answer ..).trans ((admView_of_cmd (countN_cmd ..)).trans he)
    · exact (admView_tryPlace c).trans he

theorem admView_holdStart (c : Nat) (s : Slot) : admView (holdStart d c s) = admView d := by
  unfold holdStart
  extract_lets e e'
  have he : admView e' = admView d := by
    refine (admView_pullData c).trans ((admView_mirror _).trans ((admView_of_cmd (countN_cmd ..)).trans ((admView_count _).trans ?_)))
    exact admView_modSlot rfl fun _ => rfl
  clear_value e e'
  split
  · exact (admView_releaseOne c).trans he
  · exact he

theorem admView_goOn (c : Nat) : admView (goOn d c) = admView d := by
  unfold goOn
  split
  · rfl
  · split_ifs
    · exact (admView_holdStart ..).trans (admView_takeKey c)
    · exact admView_takePlace c
    · exact (admView_pullData c).trans ((admView_takePlace c).trans (admView_takeKey c))

theorem admView_ownerJudge (c : Nat) : admView (ownerJudge d c) = admView d := by
  unfold ownerJudge
  split
  case h_1 => rfl
  case h_2 s _ =>
    have hcheck := admView_volCheck (d := d) c s
    generalize volCheck d c s = r at hcheck ⊢
    obtain ⟨answered, e⟩ := r
    dsimp only at hcheck ⊢
    split
    · exact (admView_answer ..).trans hcheck
    · exact (admView_goOn c).trans hcheck

theorem admView_forwardTo (c pier : Nat) : admView (forwardTo d c pier) = admView d := by
  have hmirror (e : Dev) : admView (match slotOf e c with | some s => mirror e (cmdItem s false true) | none => e) = admView e := by
    split
    · exact admView_mirror _
    · rfl
  unfold forwardTo
  split
  · rfl
  · dsimp only
    rw [admView_count, admView_innerSend]
    exact (hmirror _).trans (admView_modSlot (by split_ifs <;> rfl) fun _ => rfl)

theorem admView_forwardOrWait (c pier : Nat) : admView (forwardOrWait d c pier) = admView d := by
  unfold forwardOrWait
  dsimp only
  split
  · exact (admView_forwardTo ..).trans (admView_pullData c)
  · exact admView_modSlot (admView_pullData c) fun _ => rfl

/-- Whatever admission decides of a command, its slot goes on holding it. -/
theorem admView_judge (c : Nat) : admView (judge d c) = admView d := by
  unfold judge
  split
  · rfl
  · split
    · exact admView_answer ..
    · split
      · exact admView_forwardOrWait ..
      · exact admView_ownerJudge c

theorem sampleDraw_cmd (s : Slot) : (sampleDraw d s).2.cmd = d.cmd := by
  unfold sampleDraw
  dsimp only
  split_ifs
  · rfl
  · exact count_cmd ..
  · rfl

end

/-- A command that is placed has its slot, with the next admission number. -/
theorem place_leaves (d : Dev) (c : Nat) (s : Slot) :
    (∃ y, slotOf (place d c s) c = some y ∧ slotIdent y = { slotIdent s with adm := d.cmd.nextAdm })
      ∧ (place d c s).cmd.bufs = d.cmd.bufs ∧ (place d c s).cmd.msubBusy = d.cmd.msubBusy
      ∧ (place d c s).cmd.msubDone = d.cmd.msubDone := by
  have hcmd : (if s.to_.isNone then sampleDraw d s else (false, d)).2.cmd = d.cmd := by
    split
    · exact sampleDraw_cmd s
    · rfl
  unfold place
  generalize (if s.to_.isNone then sampleDraw d s else (false, d)) = r at hcmd ⊢
  obtain ⟨traced, e⟩ := r
  dsimp only at hcmd ⊢
  rw [← hcmd]
  let x : Slot :=
    { s with traced, adm := e.cmd.nextAdm, admitted := e.time, miles := tset s.miles 1 e.time, rights := rightsNow e s }
  let e' : Dev := { e with cmd.slots := tset e.cmd.slots c x, cmd.nextAdm := e.cmd.nextAdm + 1 }
  have hview : admView (judge (cmdCnt e' 1) c) = admView e' := (admView_judge c).trans (admView_count _)
  exact ⟨slotOf_of_admView (x := x) hview (tget_tset_same ..), congrArg AdmView.bufs hview, congrArg AdmView.msubBusy hview,
    congrArg AdmView.msubDone hview⟩

/-! ### The one capsule that waits (R299, R300) -/

/-- A class whose fetch buffer is empty offers no capsule. -/
theorem classCandidate_of_empty {d : Dev} {cls : Nat} (h : bufOf d cls = []) : classCandidate d cls = none := by
  simp [classCandidate, h, sortN, sortBy]

/-- The capsule that waits alone is its class's candidate, whichever queue was served last. -/
theorem classCandidate_of_alone {d : Dev} {cls : Nat} {f : Fetched} (h : bufOf d cls = [f]) (hf : sqCandidate d cls f.sq = some f) :
    classCandidate d cls = some f := by
  have hqs : sortN ((bufOf d cls).map (·.sq)).eraseDups = [f.sq] := by
    rw [h]
    rfl
  simp only [classCandidate, hqs]
  cases hlast : (tget d.cmd.lastSq cls).any fun l => decide (l < f.sq) <;> simp [hlast, hf]

theorem refuseClass_of_empty {d : Dev} {cls : Nat} (h : bufOf d cls = []) : refuseClass d cls = d := by
  simp [refuseClass, h]

/-- With every fetch buffer empty nothing is refused. -/
theorem refuseNow_of_empty {d : Dev} (h : ∀ cls, bufOf d cls = []) : refuseNow d = d := by
  unfold refuseNow
  split
  · exact foldl_keeps (· = d) _ (fun e cls he => by rw [he, refuseClass_of_empty (h cls)]) _ d rfl
  · rfl

/-- Of classes without a capsule none is eligible. -/
theorem eligible_of_empty {d : Dev} {l : List Nat} (h : ∀ cls ∈ l, bufOf d cls = []) : eligible l d = ([], d) := by
  induction l with
  | nil => rfl
  | cons c l ih =>
    rw [eligible, classCandidate_of_empty (h c List.mem_cons_self)]
    exact ih fun cls hcls => h cls (List.mem_cons_of_mem _ hcls)

/-- Of the classes that share the budget, the one whose capsule waits alone is eligible where power holds none. -/
theorem eligible_of_alone {d : Dev} {l : List Nat} {cls : Nat} {f : Fetched} {r : Bool} (hmem : cls ∈ l) (hnodup : l.Nodup)
    (hother : ∀ k ∈ l, k ≠ cls → bufOf d k = []) (hf : classCandidate d cls = some f) (hr : slotFor d cls = some r)
    (hpower : powerHeld d cls = (false, d)) : eligible l d = ([cls], noteFree d cls) := by
  induction l with
  | nil => cases hmem
  | cons c l ih =>
    obtain ⟨hnot, hnodup⟩ := List.nodup_cons.1 hnodup
    have hother' : ∀ k ∈ l, k ≠ cls → bufOf d k = [] := fun k hk => hother k (List.mem_cons_of_mem _ hk)
    by_cases hc : c = cls
    · subst hc
      have hrest : eligible l (noteFree d c) = ([], noteFree d c) :=
        eligible_of_empty fun k hk => hother' k hk fun h => hnot (h ▸ hk)
      simp [eligible, hf, hr, hpower, hrest]
    · have hmem : cls ∈ l := (List.mem_cons.1 hmem).resolve_left (Ne.symm hc)
      rw [eligible, classCandidate_of_empty (hother c List.mem_cons_self hc)]
      exact ih hmem hnodup hother'

/-- The class whose capsule waits alone is picked; the round's budget and the notes of holds are all that changes (R299, R300). -/
theorem pickClass_of_alone {d : Dev} {cls : Nat} {f : Fetched} {r : Bool} (hcls : cls < 5) (hother : ∀ k, k ≠ cls → bufOf d k = [])
    (hf : classCandidate d cls = some f) (hr : slotFor d cls = some r) (hpower : powerHeld d cls = (false, d))
    (hbudget : cls < 2 ∨ 0 < d.cmd.budget.getD (cls - 2) 0 ∨ 0 < (weightsNow d).getD (cls - 2) 0) :
    ∃ b h, pickClass d = (some cls, { d with cmd.budget := b, cmd.heldSince := h }) := by
  by_cases hlow : cls < 2
  · refine ⟨d.cmd.budget, d.cmd.heldSince, ?_⟩
    obtain rfl | rfl : cls = 0 ∨ cls = 1 := by omega
    · simp [pickClass, hf, hr]
    · simp [pickClass, classCandidate_of_empty (hother 0 (by decide)), hf, hr]
  · have hnone : [0, 1].find? (fun c => (classCandidate d c).isSome && (slotFor d c).isSome) = none := by
      simp [classCandidate_of_empty (hother 0 (by omega)), classCandidate_of_empty (hother 1 (by omega))]
    have helig : eligible [2, 3, 4] d = ([cls], noteFree d cls) :=
      eligible_of_alone (by simp; omega) (by decide) (fun k _ => hother k) hf hr hpower
    have hweights (h : Tab Nat) : weightsNow { d with cmd.heldSince := h } = weightsNow d := rfl
    simp only [List.getD_eq_getElem?_getD] at hbudget
    by_cases hzero : d.cmd.budget[cls - 2]?.getD 0 = 0
    · have hweight : 0 < (weightsNow d)[cls - 2]?.getD 0 := by omega
      refine ⟨(weightsNow d).set (cls - 2) ((weightsNow d).getD (cls - 2) 0 - 1), (noteFree d cls).cmd.heldSince, ?_⟩
      simp [pickClass, hnone, helig, noteFree, hweights, hzero, hweight]
    · refine ⟨d.cmd.budget.set (cls - 2) (d.cmd.budget.getD (cls - 2) 0 - 1), (noteFree d cls).cmd.heldSince, ?_⟩
      simp [pickClass, hnone, helig, noteFree, hzero, Nat.pos_of_ne_zero hzero]

/-! ### The answers without execution (R299, R305) -/

/-- A refused capsule leaves its buffer for an entry of its own, with the status it is refused with. -/
theorem refuseCap_leaves (d : Dev) (cls : Nat) (f : Fetched) (st r0 r1 : Nat) :
    resultOf (refuseCap d cls f st r0 r1) (pseudoSlot d) = some (st, r0, r1)
      ∧ bufOf (refuseCap d cls f st r0 r1) cls = (bufOf d cls).erase f := by
  have hslots : slotOf (refuseCap d cls f st r0 r1) (pseudoSlot d)
      = some { slotFrom d f cls false with phase := .answered, result := some (st, r0, r1) } := tget_tset_same ..
  exact ⟨by rw [resultOf, hslots]; rfl, tgetD_tset_same ..⟩

/-- The first answer to a command stands as its result (R295). -/
theorem resultOf_answer {d : Dev} {c : Nat} {x : Slot} (hx : slotOf d c = some x) (h : x.result = none) (st r0 r1 : Nat) :
    resultOf (answer d c st r0 r1) c = some (st, r0, r1) := by
  rw [slotOf] at hx
  simp [resultOf, slotOf, answer, modSlot, tget_tupd_same, hx, h]

theorem resultOf_settle (d : Dev) (c : Nat) : resultOf (settle d) c = resultOf d c := by
  simp only [resultOf, slotOf, settle_cmd]

/-- A write of CMD_PD_SEL loads the selection, its quota and its outstanding commands (R313). -/
theorem cmdPdSelGo_loads (d : Dev) (v : Word) :
    tget (cmdPdSelGo d v).reg.live 0x40005C = some (BitVec.ofNat 32 (v.toNat % 4096))
      ∧ tget (cmdPdSelGo d v).reg.live 0x400060 = some (BitVec.ofNat 32 (quotaOf d (v.toNat % 4096)))
      ∧ tget (cmdPdSelGo d v).reg.live 0x400064 = some (BitVec.ofNat 32 (outstanding d (v.toNat % 4096))) := by
  simp [cmdPdSelGo, tget_tset_ne]

/-! ### The management submission (R314) -/

/-- With BUSY clear and a slot free, GO makes the submission busy and places the capsule as the writing master's. -/
theorem msubGo_leaves {d : Dev} {r : Bool} (m : Master) (hbusy : d.cmd.msubBusy = false) (hslot : slotFor d 0 = some r) :
    (msubGo d m).cmd.msubBusy = true ∧ (msubGo d m).cmd.msubDone = false
      ∧ ∃ x, slotOf (msubGo d m) (lowFree (tkeys d.cmd.slots) 0) = some x ∧ slotIdent x
        = { cap := msubCapsule d, sq := 0xFFFF, cls := 0, adm := d.cmd.nextAdm, reserved := r, master := m, msub := true } := by
  let e : Dev := { d with cmd.msubBusy := true, cmd.msubDone := false }
  let x : Slot := { sq := 0xFFFF, cid := leAt (msubCapsule d) 2 2, cap := msubCapsule d, cls := 0, master := m, msub := true,
                    fetched := d.time, placed := d.time, miles := [(0, d.time)], reserved := r }
  have hgo : msubGo d m = place e (lowFree (tkeys d.cmd.slots) 0) x := by
    have hslot' : slotFor { d with cmd.msubBusy := true, cmd.msubDone := false } 0 = some r := hslot
    simp only [msubGo, hbusy, Bool.false_eq_true, if_false, hslot']
    rfl
  obtain ⟨hx, -, hmsub, hdone⟩ := place_leaves e (lowFree (tkeys d.cmd.slots) 0) x
  rw [hgo]
  exact ⟨hmsub, hdone, hx⟩

/-! ### The admission of the one capsule that waits (R299, R300) -/

/-- The capsule that is admitted has left its buffer for its slot. -/
theorem admitCap_leaves (d : Dev) (cls : Nat) (f : Fetched) (r : Bool) :
    (admitCap d cls f r).cmd.bufs = tset d.cmd.bufs cls ((bufOf d cls).erase f)
      ∧ ∃ x, slotOf (admitCap d cls f r) (lowFree (tkeys d.cmd.slots) 0) = some x
        ∧ slotIdent x = { slotIdent (slotFrom d f cls r) with adm := d.cmd.nextAdm } := by
  let x := slotFrom d f cls r
  let e : Dev := { unbuffer d cls f with cmd.lastSq := tset d.cmd.lastSq cls f.sq, cmd.heldSince := tdel d.cmd.heldSince f.sq }
  let q := (sqOf e f.sq).getD {}
  have hcmd (item : MirrorItem) : (mirror e item).cmd = e.cmd := (same_mirror (part := .cmd) nofun nofun).2 (same_refl _ e)
  obtain ⟨hx, hbufs, -⟩ :=
    place_leaves (mirror e (.admission x.sq x.cid e.cmd.nextAdm q.head q.phase)) (lowFree (tkeys d.cmd.slots) 0) x
  rw [hcmd] at hx hbufs
  exact ⟨hbufs, hx⟩

/-- The buffers of a device where one capsule waits. -/
theorem bufOf_of_alone {d : Dev} {cls : Nat} {f : Fetched} (h : d.cmd.bufs = [(cls, [f])]) (k : Nat) :
    bufOf d k = if cls = k then [f] else [] := by
  simp only [bufOf, h, tgetD, tget, beq_iff_eq]
  split <;> rfl

/-- Once the capsule that waited alone is admitted, none waits. -/
theorem bufOf_admitCap_of_alone {d : Dev} {cls : Nat} {f : Fetched} (r : Bool) (h : d.cmd.bufs = [(cls, [f])]) (k : Nat) :
    bufOf (admitCap d cls f r) k = [] := by
  obtain ⟨hleft, -⟩ := admitCap_leaves d cls f r
  have hone : (bufOf d cls).erase f = [] := by simp [bufOf_of_alone h]
  rw [bufOf, hleft, hone, h]
  by_cases hk : k = cls
  · rw [hk, tgetD_tset_same]
  · simp [tgetD, tget_tset_ne _ _ hk, tget, Ne.symm hk]

/-- Which capsule of a queue may go does not turn on the round's budget or the notes of holds. -/
theorem candGo_round (d : Dev) (b : List Nat) (h : Tab Nat) (q : Nat) (l : List Fetched) (ahead : Bool) :
    candGo { d with cmd.budget := b, cmd.heldSince := h } q l ahead = candGo d q l ahead := by
  induction l generalizing ahead with
  | nil => rfl
  | cons f l ih =>
    simp only [candGo, ih]
    rfl

/-- With nothing else to do, an admission opportunity admits the one capsule that waits. -/
theorem admitNext_of_alone {d : Dev} {cls : Nat} {f : Fetched} {r : Bool} (hfail : d.pwr.fail = false) (hearly : d.via.early = [])
    (hpaired : paired d = false) (hslots : d.cmd.slots = []) (hcls : cls < 5) (hbuf : bufOf d cls = [f])
    (hother : ∀ k, k ≠ cls → bufOf d k = []) (hf : sqCandidate d cls f.sq = some f) (hr : slotFor d cls = some r)
    (hpower : powerHeld d cls = (false, d))
    (hbudget : cls < 2 ∨ 0 < d.cmd.budget.getD (cls - 2) 0 ∨ 0 < (weightsNow d).getD (cls - 2) 0) :
    ∃ b h, admitNext d = refuseNow (admitCap { d with cmd.budget := b, cmd.heldSince := h } cls f r) := by
  have hready : fwdDrain d.via.early.length (fwdMark (placeReleased (markFail d))) = d := by
    simp [markFail, hfail, placeReleased, hslots, sortBy, fwdMark, hearly, fwdDrain]
  obtain ⟨b, h, hpick⟩ := pickClass_of_alone hcls hother (classCandidate_of_alone hbuf hf) hr hpower hbudget
  have hcand : classCandidate { d with cmd.budget := b, cmd.heldSince := h } cls = some f :=
    classCandidate_of_alone (by exact hbuf) ((candGo_round ..).trans hf)
  have hslot : slotFor { d with cmd.budget := b, cmd.heldSince := h } cls = some r := hr
  refine ⟨b, h, ?_⟩
  unfold admitNext
  dsimp only
  rw [hready, hpick, if_neg (by simp [mirrorHolds, hpaired])]
  simp only [hcand, hslot]

/-- Settles O27: what admission decides of a command leaves its slot (`place_leaves`), and a capsule that waits alone is the one
picked (`pickClass_of_alone`). -/
theorem admission : Obligations.Admission := by
  unfold Obligations.Admission
  intro s hquiet
  obtain ⟨-, -, hearly, -, hpaired⟩ := hquiet
  refine ⟨?oneWaits, ?slotWait, ?hold, ?msub, ?pdSel⟩
  case oneWaits =>
    intro cls f r hserving hst hfail hcls hpct hbufs hslots hcand hslot hbudget
    refine gives_of_actIf (rfl : execCommandAdmit s = _) (by simp [hserving, hst]) ?_
    have hpower : powerHeld s.dev cls = (false, s.dev) := by
      obtain rfl | rfl | rfl | rfl | rfl : cls = 0 ∨ cls = 1 ∨ cls = 2 ∨ cls = 3 ∨ cls = 4 := by omega
      all_goals simp [powerHeld, hpct]
    obtain ⟨b, h, hnext⟩ := admitNext_of_alone hfail hearly hpaired hslots hcls (by simp [bufOf_of_alone hbufs])
      (fun k hk => by simp [bufOf_of_alone hbufs, Ne.symm hk]) hcand hslot hpower hbudget
    obtain ⟨-, x, hx, hid⟩ := admitCap_leaves { s.dev with cmd.budget := b, cmd.heldSince := h } cls f r
    have hempty := bufOf_admitCap_of_alone (d := { s.dev with cmd.budget := b, cmd.heldSince := h }) r hbufs
    have hfree : lowFree (tkeys s.dev.cmd.slots) 0 = 0 := by
      rw [hslots]
      rfl
    rw [hnext, refuseNow_of_empty hempty]
    simp only [bufOf, slotOf, settle_cmd]
    obtain ⟨hcap, hsq, hxcls, hadm, hreserved, -, -⟩ := SlotIdent.mk.injEq .. ▸ hid
    exact ⟨hempty cls, x, hfree ▸ hx, hcap, hsq, hxcls, hadm, hreserved⟩
  case slotWait =>
    intro cls f hserving hst hcls hslot hfind
    refine gives_of_actIf (rfl : execSlotWaitTimeout cls s = _) (by simp [hserving, hst, hcls]) ?_
    have hrefuse : refuseClass s.dev cls = refuseCap s.dev cls f stSLOTS cls 0 := by simp [refuseClass, hslot, hfind]
    rw [hrefuse, resultOf_settle, bufOf, settle_cmd]
    exact refuseCap_leaves ..
  case hold =>
    intro cmd x hpl hx hphase hresult hlive
    refine gives_of_actIf (rfl : execHoldTimeout cmd s = _) hpl ?_
    have hheld : ((slotOf s.dev cmd).any (fun x => x.phase == .held && x.result.isNone) && liveN s.dev 0x400054 != 0) = true := by
      simp [hx, hphase, hresult, hlive]
    have hslot : slotOf (dropTransfers (cmdCnt s.dev 9) cmd) cmd = some x :=
      (congrArg (fun e : Cmd => tget e.slots cmd) (count_cmd ..)).trans hx
    rw [if_pos hheld, resultOf_settle]
    exact resultOf_answer hslot hresult ..
  case msub =>
    intro m r hserving hw hbusy hslot
    refine gives_of_actIf (rfl : execMsubGo m s = _) hserving ?_
    obtain ⟨hbusy', hdone', x, hx, hid⟩ := msubGo_leaves m hbusy hslot
    simp only [writeAccess_allowed (off := 0x400140) hw, slotOf, settle_cmd]
    obtain ⟨hcap, -, -, hadm, hreserved, hmaster, hmsub⟩ := SlotIdent.mk.injEq .. ▸ hid
    exact ⟨hbusy', hdone', x, hx, hcap, hmaster, hmsub, hreserved, hadm⟩
  case pdSel =>
    intro m v hrun hw
    refine gives_of_actIf (rfl : execCmdPdSelWrite m v s = _) hrun ?_
    rw [writeAccess_allowed (off := 0x40005C) hw, settle_reg_live]
    exact cmdPdSelGo_loads ..

end Sys2Proof.Machine

/-! ## What the operations behind the wide commands leave alone

One lemma per operation, `same_<operation>`, over those for short commands: it leaves every part of which nothing under it writes a field. -/

namespace Sys2Proof.Machine

section
variable {part : Piece} {d₀ d : Dev}

theorem same_foldl_snd {α β : Type} {f : β × Dev → α → β × Dev} (h : ∀ p a, part.same d₀ (f p a).2 ↔ part.same d₀ p.2) (l : List α)
    (p : β × Dev) : part.same d₀ (l.foldl f p).2 ↔ part.same d₀ p.2 := by
  induction l generalizing p with
  | nil => rfl
  | cons a l ih => exact (ih _).trans (h p a)

variable (hglb : part ≠ .glb) (hpwr : part ≠ .pwr) (hsense : part ≠ .sense) (hregs : part ≠ .regs) (hlatch : part ≠ .latch)
  (hacc : part ≠ .acc) (hpln : part ≠ .pln) (heth : part ≠ .eth) (hswc : part ≠ .swc) (htrs : part ≠ .trs) (hbytes : part ≠ .bytes)
  (hcmd : part ≠ .cmd) (hsto : part ≠ .sto) (hpar : part ≠ .par) (hvia : part ≠ .via) (hitg : part ≠ .itg) (hadm : part ≠ .adm)
  (hbst : part ≠ .bst) (houts : part ≠ .outs)

/-! ### Access -/

include hacc in
theorem same_keyApply {k x} : part.same d₀ (keyApply d k x) ↔ part.same d₀ d := by
  simp [keyApply, same_mk, *]

/-! ### Registers -/

include hregs in
theorem same_writeRw {o i v} : part.same d₀ (writeRw d o i v) ↔ part.same d₀ d := by
  grind [writeRw, same_setSticky, same_mk]

/-! ### The switch core -/

include hswc in
theorem same_fdbCheckVlans : part.same d₀ (fdbCheckVlans d) ↔ part.same d₀ d := by
  simp [fdbCheckVlans, same_mk, *]

/-! ### Messages to the partner -/

include hpar houts in
theorem same_pairAll {m} : part.same d₀ (pairAll d m) ↔ part.same d₀ d := by
  simp [pairAll, same_pairOn, *]

include hpar houts in
theorem same_mirrorThen {item a now} (hnow : ∀ d, part.same d₀ (now d) ↔ part.same d₀ d) :
    part.same d₀ (mirrorThen d item a now) ↔ part.same d₀ d := by
  simp [mirrorThen, same_mirrorQueue, same_mirror, same_ite, *]

/-! ### Trestle connections -/

include htrs houts in
theorem same_sendNack {c p code detail} : part.same d₀ (sendNack d c p code detail) ↔ part.same d₀ d := by
  simp only [sendNack]
  split <;> simp [same_trsCnt, same_modConn, same_sendPkt, same_ite, *]

include htrs houts in
theorem same_nackBadConn {net p} : part.same d₀ (nackBadConn d net p) ↔ part.same d₀ d := by
  simp [nackBadConn, same_emit, same_trsCnt, same_drawPortBase, same_mk, same_ite, *]

include hcmd in
theorem same_detachCqs {c} : part.same d₀ (detachCqs d c) ↔ part.same d₀ d := by
  simp [detachCqs, same_mk, same_foldl, *]

include hvia in
theorem same_innerLost {x} : part.same d₀ (innerLost d x) ↔ part.same d₀ d := by
  simp only [innerLost]
  split <;> simp [same_mk, *]

include htrs hcmd hpar hvia houts in
theorem same_enterTimeWait {c} : part.same d₀ (enterTimeWait d c) ↔ part.same d₀ d := by
  unfold enterTimeWait
  split
  · rfl
  · simp only [same_mirror hpar houts, same_detachCqs hcmd, same_innerLost hvia, same_trs htrs, same_modConn htrs,
      same_failOpen htrs hcmd hvia]

include htrs hcmd hpar hvia houts in
theorem same_closingDone {c} : part.same d₀ (closingDone d c) ↔ part.same d₀ d := by
  simp only [closingDone]
  split <;> simp [same_enterTimeWait, same_ite, *]

/-! ### Acknowledgement, paths and timers -/

include htrs in
theorem same_modPath {c p f} : part.same d₀ (modPath d c p f) ↔ part.same d₀ d := by
  simp [modPath, same_modConn, *]

include htrs houts in
theorem same_sendProbe {c p} : part.same d₀ (sendProbe d c p) ↔ part.same d₀ d := by
  simp only [sendProbe]
  split <;> simp [same_modConn, same_sendPkt, same_modPath, same_mk, *]

include htrs houts in
theorem same_chargePath {c p} : part.same d₀ (chargePath d c p) ↔ part.same d₀ d := by
  grind [chargePath, same_trsCnt, same_modPath, same_sendProbe, same_mk]

include htrs houts in
theorem same_resend {c t path} : part.same d₀ (resend d c t path) ↔ part.same d₀ d := by
  simp only [resend]
  split <;> simp [same_trsCnt, same_pdCnt, same_modConn, same_sendPkt, *]

include htrs in
theorem same_rttSample {c r} : part.same d₀ (rttSample d c r) ↔ part.same d₀ d := by
  simp [rttSample, same_modConn, *]

include hcmd hpar hvia houts in
theorem same_msgDone {u failed code} : part.same d₀ (msgDone d u failed code) ↔ part.same d₀ d := by
  simp only [msgDone]
  split <;> simp [same_mirror, same_failUse, same_ite, *]

include htrs hcmd hpar hvia houts in
theorem same_retireMsgs {c done mask} : part.same d₀ (retireMsgs d c done mask) ↔ part.same d₀ d := by
  simp only [retireMsgs]
  split <;> simp [same_modConn, same_failUse, same_msgDone, same_foldl, *]

include htrs in
theorem same_takeEdge {c edge} : part.same d₀ (takeEdge d c edge) ↔ part.same d₀ d := by
  simp [takeEdge, same_modConn, *]

include htrs in
theorem same_pathEvidence {c p tag} : part.same d₀ (pathEvidence d c p tag) ↔ part.same d₀ d := by
  grind [pathEvidence, same_trsCnt, same_modPath, same_mk]

include htrs hcmd hpar hvia houts in
theorem same_takeAck {c p} : part.same d₀ (takeAck d c p) ↔ part.same d₀ d := by
  unfold takeAck
  split
  · rfl
  · refine (same_pump htrs hcmd houts).trans <| (same_closingDone htrs hcmd hpar hvia houts).trans <| (same_modConn htrs).trans <|
      (same_foldl (fun d t => ?_) _ _).trans ?_
    · split <;> simp only [same_trsCnt, same_resend htrs houts, same_modConn htrs]
    · simp only [same_takeEdge htrs, same_retireMsgs htrs hcmd hpar hvia houts, same_pathEvidence htrs, same_rttSample htrs,
        same_modConn htrs, same_foldl, same_ite, implies_true, ite_self]

include htrs houts in
theorem same_rtoGo {c} : part.same d₀ (rtoGo d c) ↔ part.same d₀ d := by
  unfold rtoGo
  split
  · rfl
  dsimp only
  split
  · rfl
  · refine (same_modConn htrs).trans <| (same_foldl (fun d p => same_chargePath htrs houts) _ _).trans <|
      (same_foldl (fun d t => ?_) _ _).trans same_trsCnt
    split <;> simp only [same_resend htrs houts]

include htrs hcmd hpar hvia houts in
theorem same_deadGo {c} : part.same d₀ (deadGo d c) ↔ part.same d₀ d := by
  simp only [deadGo]
  split <;> simp [same_trsCnt, same_enterTimeWait, same_ite, *]

include htrs houts in
theorem same_probeGo {c p} : part.same d₀ (probeGo d c p) ↔ part.same d₀ d := by
  simp only [probeGo]
  split <;> simp [same_sendProbe, same_ite, *]

include htrs houts in
theorem same_ackGo {c} : part.same d₀ (ackGo d c) ↔ part.same d₀ d := by
  simp only [ackGo]
  split <;> simp [same_sendAck, same_ite, *]

include htrs houts in
theorem same_idleProbeGo {c} : part.same d₀ (idleProbeGo d c) ↔ part.same d₀ d := by
  simp only [idleProbeGo]
  split <;> simp [same_sendProbe, same_foldl, same_ite, *]

include htrs hcmd hpar hvia houts in
theorem same_timerGo {c t} : part.same d₀ (timerGo d c t) ↔ part.same d₀ d := by
  simp only [timerGo]
  split <;> simp [same_creditIfDue, same_rtoGo, same_deadGo, same_probeGo, same_ackGo, same_idleProbeGo, *]

include htrs hcmd hpar hvia houts in
theorem same_ctxDo {c t} : part.same d₀ (ctxDo d c t) ↔ part.same d₀ d := by
  simp [ctxDo, same_wantCtx, same_timerGo, same_mk, same_ite, *]

include htrs hcmd hpar hvia houts in
theorem same_timerDue {c t} : part.same d₀ (timerDue d c t) ↔ part.same d₀ d := by
  simp only [timerDue]
  split <;> simp [same_ctxDo, same_ite, *]

include htrs houts in
theorem same_sendResume {c} : part.same d₀ (sendResume d c) ↔ part.same d₀ d := by
  simp only [sendResume]
  split <;> simp [same_trsCnt, same_modConn, same_sendPkt, *]

include htrs hcmd hpar hvia houts in
theorem same_resumeAgain {c} : part.same d₀ (resumeAgain d c) ↔ part.same d₀ d := by
  simp only [resumeAgain]
  split <;> simp [same_trsCnt, same_sendPkt, same_enterTimeWait, same_sendResume, same_ite, *]

/-! ### The store -/

theorem same_volCnt {v i n} : part.same d₀ (volCnt d v i n) ↔ part.same d₀ d := by
  simp [volCnt, same_countN, *]

include hpar in
theorem same_dropGated {k} : part.same d₀ (dropGated d k) ↔ part.same d₀ d := by
  simp [dropGated, same_mk, *]

include hpar hvia houts in
theorem same_structZero {v g kind} : part.same d₀ (structZero d v g kind) ↔ part.same d₀ d := by
  grind [structZero, same_metaDo, same_foldl]

include hpar hvia houts in
theorem same_writeStructs {v} : part.same d₀ (writeStructs d v) ↔ part.same d₀ d := by
  simp only [writeStructs]
  split <;> simp [same_structWrite, same_structZero, same_writeAllocBlock, same_structPut, same_writeLost, same_foldl, *]

include hsto hpar hvia houts in
theorem same_writeHeader {k kind} : part.same d₀ (writeHeader d k kind) ↔ part.same d₀ d := by
  simp [writeHeader, same_modDrive, same_driveSend, same_ite, *]

include hsto in
theorem same_jDone {g l} : part.same d₀ (jDone d g l) ↔ part.same d₀ d := by
  simp [jDone, same_modGroup, *]

include hsto hpar hvia houts in
theorem same_needRegion {v r} : part.same d₀ (needRegion d v r) ↔ part.same d₀ d := by
  simp only [needRegion]
  split <;> simp [same_stoCnt, same_bmSubmit, same_setDirty, *]

include hsto in
theorem same_lockAsk {v cmd stripes excl} : part.same d₀ (lockAsk d v cmd stripes excl) ↔ part.same d₀ d := by
  simp [lockAsk, same_stoCntN, same_mk, same_ite, *]

include hsto in
theorem same_lockDrop {v cmd stripe} : part.same d₀ (lockDrop d v cmd stripe) ↔ part.same d₀ d := by
  simp [lockDrop, same_mk, *]

/-! ### Command slots -/

theorem same_itgCntN {i n} : part.same d₀ (itgCntN d i n) ↔ part.same d₀ d := by
  simp [itgCntN, same_countN, *]

include hcmd in
theorem same_driveIssued {c n} : part.same d₀ (driveIssued d c n) ↔ part.same d₀ d := by
  simp [driveIssued, same_modSlot, same_ite, *]

include hcmd in
theorem same_answerLba {c st lba} : part.same d₀ (answerLba d c st lba) ↔ part.same d₀ d := by
  simp [answerLba, same_answer, *]

include hcmd in
theorem same_answerGo {c} : part.same d₀ (answerGo d c) ↔ part.same d₀ d := by
  simp [answerGo, same_modSlot, *]

include htrs hcmd hvia houts in
theorem same_pullData {c} : part.same d₀ (pullData d c) ↔ part.same d₀ d := by
  grind [pullData, same_sendRead, same_failUse, same_modSlot, same_mk, same_foldl]

include hcmd in
theorem same_landData {c off bs} : part.same d₀ (landData d c off bs) ↔ part.same d₀ d := by
  simp [landData, same_modSlot, *]

/-! ### The shutdown -/

include hglb hpwr hpar hitg hbst houts in
theorem same_shutdown : part.same d₀ (shutdown d) ↔ part.same d₀ d := by
  simp [shutdown, same_haltNotice, same_allOff, same_mk, same_ite, *]

/-! ### Members -/

theorem same_stoEvent {ev vol lba slot t} : part.same d₀ (stoEvent d ev vol lba slot t) ↔ part.same d₀ d := by
  simp [stoEvent, same_logEvent, *]

include houts in
theorem same_registerOn {k} : part.same d₀ (registerOn d k) ↔ part.same d₀ d := by
  simp [registerOn, same_emit, same_reserveOn, same_ite, *]

include hsto hpar hvia houts in
theorem same_remirrorMissing {g} : part.same d₀ (remirrorMissing d g) ↔ part.same d₀ d := by
  simp [remirrorMissing, same_remirrorStart, same_foldl, *]

include hsto hpar hvia houts in
theorem same_suspectAgain {k} : part.same d₀ (suspectAgain d k) ↔ part.same d₀ d := by
  grind [suspectAgain, same_modDrive, same_memberEvent, same_mk]

include hcmd hsto hpar hvia houts in
theorem same_suspect {k} : part.same d₀ (suspect d k) ↔ part.same d₀ d := by
  simp [suspect, same_emit, same_loseMember, same_suspectAgain, same_ite, *]

include hsto hpar houts in
theorem same_takeReplacement {g pos k} : part.same d₀ (takeReplacement d g pos k) ↔ part.same d₀ d := by
  simp [takeReplacement, same_modDrive, same_modGroup, same_setMember, same_reserveOn, *]

include hsto hpar hvia houts in
theorem same_claimSpace {g pos} : part.same d₀ (claimSpace d g pos) ↔ part.same d₀ d := by
  simp only [claimSpace]
  repeat' split
  all_goals simp [same_modGroup, same_rbCnt, same_writeRecords, same_jAppend, same_rbEvent, same_takeReplacement, *]

include hcmd hsto hpar hvia houts in
theorem same_failMember {k cause} : part.same d₀ (failMember d k cause) ↔ part.same d₀ d := by
  simp only [failMember]
  repeat' split
  all_goals simp [same_modDrive, same_modGroup, same_dropGated, same_rbEvent, same_setMember, same_dropCopy, same_memberEvent,
    same_dropReads, same_claimSpace, *]

include hcmd hsto hpar hvia houts in
theorem same_overLimit {k cause} : part.same d₀ (overLimit d k cause) ↔ part.same d₀ d := by
  simp [overLimit, same_failMember, same_ite, *]

include hsto hpar hvia houts in
theorem same_becomeSpare {k} : part.same d₀ (becomeSpare d k) ↔ part.same d₀ d := by
  simp only [becomeSpare]
  split <;> simp [same_modDrive, same_modGroup, same_writeRecords, same_writeHeader, same_setMember, same_takeReplacement, *]

include hadm in
theorem same_modShelf {f} : part.same d₀ (modShelf d f) ↔ part.same d₀ d := by
  simp [modShelf, same_mk, *]

include hsto houts in
theorem same_sanIssue {k o} : part.same d₀ (sanIssue d k o) ↔ part.same d₀ d := by
  simp [sanIssue, same_modDrive, same_emit, same_ite, *]

include hsto hadm in
theorem same_sanDone {k failed} : part.same d₀ (sanDone d k failed) ↔ part.same d₀ d := by
  simp [sanDone, same_modDrive, same_modShelf, *]

include hsto hadm houts in
theorem same_sanFail {k o} : part.same d₀ (sanFail d k o) ↔ part.same d₀ d := by
  simp [sanFail, same_modDrive, same_sanIssue, same_sanDone, same_ite, *]

include hsto hadm houts in
theorem same_sanResume {k o} : part.same d₀ (sanResume d k o) ↔ part.same d₀ d := by
  simp [sanResume, same_modDrive, same_sanIssue, same_sanDone, same_sanFail, same_ite, *]

include hsto hpar hvia hadm houts in
theorem same_judgeDrive {k} : part.same d₀ (judgeDrive d k) ↔ part.same d₀ d := by
  grind [judgeDrive, same_modDrive, same_logEvent, same_setMember, same_becomeSpare, same_sanResume, same_mk]

include hsto hpar hvia hadm houts in
theorem same_admitDrive {k} : part.same d₀ (admitDrive d k) ↔ part.same d₀ d := by
  simp [admitDrive, same_setMember, same_judgeDrive, same_ite, *]

include hsto hpar hvia hadm houts in
theorem same_judgeAll : part.same d₀ (judgeAll d) ↔ part.same d₀ d := by
  simp [judgeAll, same_admitDrive, same_foldl, same_ite, *]

/-! ### Execution of commands on volumes -/

include hcmd in
theorem same_modWork {c stripe f} : part.same d₀ (modWork d c stripe f) ↔ part.same d₀ d := by
  simp [modWork, same_modSlot, *]

include hcmd hpar hvia houts in
theorem same_askRows {c g w need} : part.same d₀ (askRows d c g w need) ↔ part.same d₀ d := by
  grind [askRows, same_driveSendFor, same_driveIssued, same_modWork, same_mk, same_foldl]

include hsto in
theorem same_lockWant {v vol c stripes excl} : part.same d₀ (lockWant d v vol c stripes excl) ↔ part.same d₀ d := by
  simp [lockWant, same_lockAsk, same_ite, *]

include hsto hpar hvia houts in
theorem same_repairGo {r} : part.same d₀ (repairGo d r) ↔ part.same d₀ d := by
  simp only [repairGo]
  repeat' split
  all_goals simp [same_stoCnt, same_driveSendFor, same_driveSend, same_lockDropAll, same_stoEvent, same_mk, same_foldl, *]

include hsto hpar hvia hadm houts in
theorem same_repairAsk {c v stripe col g rows shadow} : part.same d₀ (repairAsk d c v stripe col g rows shadow) ↔ part.same d₀ d := by
  simp [repairAsk, same_lockAsk, same_repairGo, same_mk, same_ite, *]

include hsto hpar hvia houts in
theorem same_repairsGo : part.same d₀ (repairsGo d) ↔ part.same d₀ d := by
  simp [repairsGo, same_repairGo, same_foldl, *]

include hsto hpar hvia houts in
theorem same_unlock {v c stripe} : part.same d₀ (unlock d v c stripe) ↔ part.same d₀ d := by
  simp [unlock, same_lockDrop, same_repairsGo, *]

include hsto hpar hvia houts in
theorem same_unlockAll {c} : part.same d₀ (unlockAll d c) ↔ part.same d₀ d := by
  simp [unlockAll, same_lockDropAll, same_repairsGo, *]

include hsto hpar hvia hadm houts in
theorem same_repairBad {c v g w} : part.same d₀ (repairBad d c v g w) ↔ part.same d₀ d := by
  simp [repairBad, same_repairAsk, same_foldl, *]

include hcmd hsto hpar hvia houts in
theorem same_endWork {c st lba} : part.same d₀ (endWork d c st lba) ↔ part.same d₀ d := by
  simp [endWork, same_modSlot, same_answerLba, same_unlockAll, *]

include hcmd hsto hpar hvia houts in
theorem same_readStep {c v vol s w} : part.same d₀ (readStep d c v vol s w) ↔ part.same d₀ d := by
  simp [readStep, same_askRows, same_lockWant, same_ite, *]

include htrs hcmd hsto hpar hvia houts in
theorem same_deliver {c v vol s} : part.same d₀ (deliver d c v vol s) ↔ part.same d₀ d := by
  simp [deliver, same_draw, same_modSlot, same_succeed, same_answerLba, same_sendHost, same_unlockAll, same_ite, *]

include hcmd hsto hpar hvia houts in
theorem same_mismatchEnd {c v vol s gr} : part.same d₀ (mismatchEnd d c v vol s gr) ↔ part.same d₀ d := by
  simp [mismatchEnd, same_stoCnt, same_volCnt, same_stoEvent, same_endWork, *]

include hacc htrs hcmd hsto hpar hvia hadm houts in
theorem same_advanceRead {c} : part.same d₀ (advanceRead d c) ↔ part.same d₀ d := by
  simp only [advanceRead]
  repeat' split
  all_goals simp [same_forCmd, same_unlock, same_repairBad, same_endWork, same_loseBlocks, same_readStep, same_deliver, same_mismatchEnd,
    same_foldl, same_ite, *]

include hcmd hsto hpar hvia hadm houts in
theorem same_resolveGranule {c v vol s w gr key} : part.same d₀ (resolveGranule d c v vol s w gr key) ↔ part.same d₀ d := by
  simp only [resolveGranule]
  repeat' split
  all_goals simp [same_stoCnt, same_itgCntN, same_modSlot, same_stoEvent, same_modWork, same_repairAsk, *]

include hacc hcmd hsto hpar hvia hadm houts in
theorem same_checkGranule {c v vol s w gr key} : part.same d₀ (checkGranule d c v vol s w gr key) ↔ part.same d₀ d := by
  simp [checkGranule, same_forCmd, same_resolveGranule, *]

include hsto hpar hvia houts in
theorem same_appendSet {g vol tag bodies} : part.same d₀ (appendSet d g vol tag bodies).2 ↔ part.same d₀ d :=
  same_foldl_snd (fun p b => by simp [same_jAppend, same_stoCntN, same_stoCnt, same_volCnt, *]) _ _

include hcmd hsto hpar hvia houts in
theorem same_makeRecords {c v vol s} : part.same d₀ (makeRecords d c v vol s) ↔ part.same d₀ d := by
  simp [makeRecords, same_modSlot, same_endWork, same_appendSet, same_ite, *]

include hcmd in
theorem same_modFrag {c stripe col f} : part.same d₀ (modFrag d c stripe col f) ↔ part.same d₀ d := by
  simp [modFrag, same_modWork, *]

include hcmd hpar hvia houts in
theorem same_sendFrag {c g w f} : part.same d₀ (sendFrag d c g w f) ↔ part.same d₀ d := by
  simp only [sendFrag]
  split <;> simp [same_driveSendFor, same_driveSend, same_modSlot, same_driveIssued, same_modFrag, same_foldl, *]

include hcmd in
theorem same_dropFrags {c g w} : part.same d₀ (dropFrags d c g w) ↔ part.same d₀ d := by
  simp [dropFrags, same_modFrag, same_foldl, same_ite, *]

include hsto in
theorem same_noteBehind {grp g v region} : part.same d₀ (noteBehind d grp g v region) ↔ part.same d₀ d := by
  simp [noteBehind, same_modDrive, same_foldl, same_ite, *]

theorem same_countMethod {m} : part.same d₀ (countMethod d m) ↔ part.same d₀ d := by
  simp only [countMethod]
  split <;> simp [same_stoCnt, *]

include hsto in
theorem same_markRedo {v vol g w} : part.same d₀ (markRedo d v vol g w) ↔ part.same d₀ d := by
  simp [markRedo, same_modGroup, same_rbCnt, same_ite, *]

include hcmd in
theorem same_buildData {c v vol s w} : part.same d₀ (buildData d c v vol s w) ↔ part.same d₀ d := by
  simp [buildData, same_modWork, same_ite, *]

include hcmd in
theorem same_buildFrags {c v vol s w} : part.same d₀ (buildFrags d c v vol s w) ↔ part.same d₀ d := by
  simp [buildFrags, same_modWork, same_countMethod, same_ite, *]

include hcmd hsto hpar hvia houts in
theorem same_makeAlloc {c v vol s} : part.same d₀ (makeAlloc d c v vol s) ↔ part.same d₀ d := by
  grind [makeAlloc, same_jAppend, same_modSlot, same_endWork, same_mk]

include hsto hpar hvia houts in
theorem same_applyAlloc {v vol s} : part.same d₀ (applyAlloc d v vol s) ↔ part.same d₀ d := by
  simp [applyAlloc, same_modVol, same_writeAllocBlock, same_writeLost, same_jDone, same_foldl, same_ite, *]

include hsto in
theorem same_touchRegions {v regions} : part.same d₀ (touchRegions d v regions) ↔ part.same d₀ d := by
  simp [touchRegions, same_mk, same_foldl, *]

include htrs hcmd hsto hpar hvia houts in
theorem same_finishWrite {c v vol s} : part.same d₀ (finishWrite d c v vol s) ↔ part.same d₀ d := by
  simp only [finishWrite]
  split <;> simp [same_jDone, same_modSlot, same_succeed, same_sendHost, same_unlockAll, same_endWork, same_applyAlloc, same_touchRegions,
    same_ite, *]

include hcmd hsto hpar hvia houts in
theorem same_landedStep {c v s} : part.same d₀ (landedStep d c v s) ↔ part.same d₀ d := by
  simp [landedStep, same_mirror, same_needRegion, same_modSlot, same_foldl, same_ite, *]

include hcmd hpar hvia houts in
theorem same_writeStep {c v vol s w} : part.same d₀ (writeStep d c v vol s w) ↔ part.same d₀ d := by
  simp only [writeStep]
  split <;> simp [same_askRows, same_buildData, same_buildFrags, same_ite, *]

include hcmd hsto hpar hvia houts in
theorem same_fragStep {c v vol s w} : part.same d₀ (fragStep d c v vol s w) ↔ part.same d₀ d := by
  simp only [fragStep]
  repeat' split
  all_goals simp [same_unlock, same_sendFrag, same_dropFrags, same_noteBehind, same_markRedo, same_foldl, *]

include htrs hcmd hsto hpar hvia hadm houts in
theorem same_advanceWrite {c} : part.same d₀ (advanceWrite d c) ↔ part.same d₀ d := by
  unfold advanceWrite
  split
  · rfl
  split
  · rfl
  extract_lets
  split
  · simp [same_endWork, *]
  next d₁ d₂ d₃ d₄ d₅ d₆ _ _ =>
    have h₁ : part.same d₀ d₁ ↔ part.same d₀ d := same_landedStep hcmd hsto hpar hvia houts
    have h₂ : part.same d₀ d₂ ↔ part.same d₀ d₁ := same_lockWant hsto
    have h₃ : part.same d₀ d₃ ↔ part.same d₀ d₂ := same_foldl (fun d w => by split <;> simp [same_writeStep, same_ite, *]) _ _
    have h₄ : part.same d₀ d₄ ↔ part.same d₀ d₃ := by simp only [d₄]; split <;> simp [same_makeRecords, same_ite, *]
    have h₅ : part.same d₀ d₅ ↔ part.same d₀ d₄ := by simp only [d₅]; split <;> simp [same_lockWant, same_ite, *]
    have h₆ : part.same d₀ d₆ ↔ part.same d₀ d₅ := by
      simp only [d₆]
      split
      · split
        · exact same_foldl (fun d w => by split <;> simp [same_fragStep, *]) _ _
        · rfl
      · rfl
    clear_value d₁ d₂ d₃ d₄ d₅ d₆
    grind [same_makeAlloc, same_finishWrite, same_foldl, same_repairBad]

include hacc htrs hcmd hsto hpar hvia hadm houts in
theorem same_advance {c} : part.same d₀ (advance d c) ↔ part.same d₀ d := by
  simp only [advance]
  split <;> simp [same_advanceRead, same_advanceWrite, same_ite, *]

include hacc htrs hcmd hsto hpar hvia hadm houts in
theorem same_advanceAll : part.same d₀ (advanceAll d) ↔ part.same d₀ d := by
  simp [advanceAll, same_repairsGo, same_advance, same_foldl, *]

/-! ### Commands on media and what completes under them -/

include hacc htrs hcmd hsto hpar hvia hadm houts in
theorem same_startRead {c op} : part.same d₀ (startRead d c op) ↔ part.same d₀ d := by
  simp only [startRead]
  repeat' split
  all_goals simp [same_stoCntN, same_volCnt, same_modSlot, same_answerLba, same_advance, *]

include hacc htrs hcmd hsto hpar hvia hadm houts in
theorem same_startWrite {c op} : part.same d₀ (startWrite d c op) ↔ part.same d₀ d := by
  simp only [startWrite]
  split <;> simp [same_modSlot, same_lockWant, same_advance, *]

include hacc htrs hcmd hsto hpar hvia hadm houts in
theorem same_writeTag {c vol s gr} : part.same d₀ (writeTag d c vol s gr) ↔ part.same d₀ d := by
  simp only [writeTag]
  split <;> simp [same_itgCntN, same_modSlot, same_advance, same_ite, *]

include hacc htrs hcmd hsto hpar hvia hadm houts in
theorem same_readTag {c vol s gr} : part.same d₀ (readTag d c vol s gr) ↔ part.same d₀ d := by
  simp only [readTag]
  split <;> simp [same_checkGranule, same_advance, same_ite, *]

include hsto hpar hvia houts in
theorem same_regionDone {v r} : part.same d₀ (regionDone d v r) ↔ part.same d₀ d := by
  simp only [regionDone]
  split <;> simp [same_stoCnt, same_bmSubmit, same_setDirty, *]

include hcmd hsto hpar hvia houts in
theorem same_regionFailed {v r} : part.same d₀ (regionFailed d v r) ↔ part.same d₀ d := by
  simp only [regionFailed]
  split <;> simp [same_setDirty, same_stoEvent, same_endWork, same_foldl, *]

include hacc htrs hcmd hsto hpar hvia hadm houts in
theorem same_bitmapDone {vol region ok} : part.same d₀ (bitmapDone d vol region ok) ↔ part.same d₀ d := by
  simp only [bitmapDone]
  split <;> simp [same_bmSubmit, same_advanceAll, same_regionDone, same_regionFailed, same_mk, same_foldl, same_ite, *]

include hcmd hsto hpar hvia houts in
theorem same_journalLost {g} : part.same d₀ (journalLost d g) ↔ part.same d₀ d := by
  simp [journalLost, same_endWork, same_foldl, same_ite, *]

include hsto in
theorem same_recordDurable {g r} : part.same d₀ (recordDurable d g r) ↔ part.same d₀ d := by
  simp only [recordDurable]
  split <;> simp [same_modGroup, same_takeCursor, *]

include hacc htrs hcmd hsto hpar hvia hadm houts in
theorem same_journalDone {g copy jseq ok} : part.same d₀ (journalDone d g copy jseq ok) ↔ part.same d₀ d := by
  simp only [journalDone]
  split <;> simp [same_modGroup, same_journalHold, same_dropCopy, same_advanceAll, same_journalLost, same_recordDurable, same_foldl,
    same_ite, *]

include hsto in
theorem same_settleJournal {old : Dev} : part.same d₀ (settleJournal old d) ↔ part.same d₀ d := by
  grind [settleJournal, same_recordDurable, same_foldl]

include hacc htrs hcmd hsto hpar hvia hadm houts in
theorem same_memberChange {f} (hf : ∀ d, part.same d₀ (f d) ↔ part.same d₀ d) : part.same d₀ (memberChange d f) ↔ part.same d₀ d := by
  simp [memberChange, same_advanceAll, same_settleJournal, *]

include hcmd hsto hpar hvia houts in
theorem same_mediaError {k} : part.same d₀ (mediaError d k) ↔ part.same d₀ d := by
  simp [mediaError, same_modDrive, same_overLimit, *]

include hvia houts in
theorem same_proxyDone {n r} : part.same d₀ (proxyDone d n r) ↔ part.same d₀ d := by
  grind [proxyDone, same_epochAcks, same_sendFragDone, same_mk]

/-! ### Drive faults and background work -/

include hcmd hsto hpar hvia houts in
theorem same_faultReport {k r} : part.same d₀ (faultReport d k r) ↔ part.same d₀ d := by
  simp only [faultReport]
  split <;> simp [same_modDrive, same_emit, same_suspect, same_overLimit, same_slotAbsent, *]

include hcmd hsto hpar hvia houts in
theorem same_cfsSet {k} : part.same d₀ (cfsSet d k) ↔ part.same d₀ d := by
  simp [cfsSet, same_modDrive, same_emit, same_suspect, same_failMember, same_ite, *]

include hcmd hsto hpar hvia houts in
theorem same_warningRead {k w} : part.same d₀ (warningRead d k w) ↔ part.same d₀ d := by
  simp [warningRead, same_modDrive, same_suspect, same_overLimit, same_ite, *]

include hsto hpar hvia houts in
theorem same_bandLosses {b} : part.same d₀ (bandLosses d b) ↔ part.same d₀ d := by
  grind [bandLosses, same_recordLost, same_foldl]

include hcmd hsto in
theorem same_renumber {v} : part.same d₀ (renumber d v) ↔ part.same d₀ d := by
  simp [renumber, same_mk, *]

/-! ### Images -/

include hpwr hregs hpln in
theorem same_withPlan {p} : part.same d₀ (withPlan d p) ↔ part.same d₀ d := by
  simp [withPlan, same_mk, *]

/-! ### Self-test slices -/

include hbst in
theorem same_retirePc {pc addr} : part.same d₀ (retirePc d pc addr) ↔ part.same d₀ d := by
  simp [retirePc, same_memCnt, same_faultEvent, same_softAdd, same_mk, same_ite, *]

/-! ### Power and temperature -/

include hacc heth hswc htrs hcmd hsto hpar hvia hitg hadm hbst houts in
theorem same_domLost {n} : part.same d₀ (domLost d n) ↔ part.same d₀ d := by
  simp [domLost, same_burnLost, same_slotAbsent, same_memberChange, same_sliceOver, same_sliceAbandon, same_macroDown, same_bankDown,
    same_quarterDown, same_mk, same_ite, *]

include hglb hpwr in
theorem same_pwrCtrlGo {v} : part.same d₀ (pwrCtrlGo d v) ↔ part.same d₀ d := by
  simp [pwrCtrlGo, same_pwrCtrlIgnored, same_idleEnter, same_idleExit, same_ite, *]

include hsense in
theorem same_warnStep : part.same d₀ (warnStep d) ↔ part.same d₀ d := by
  simp [warnStep, same_logEvent, same_mk, same_ite, *]

include hpwr hswc hbst houts in
theorem same_throttleStep : part.same d₀ (throttleStep d) ↔ part.same d₀ d := by
  simp only [throttleStep, same_pwr hpwr, same_sliceInterrupt hswc hbst houts, same_ite, ite_self]

include hglb hpwr hpar hitg hbst houts in
theorem same_thermtripGo : part.same d₀ (thermtripGo d) ↔ part.same d₀ d := by
  simp [thermtripGo, same_shutdown, same_mk, *]

/-! ### Start-up -/

include hglb hpwr hregs hacc hpln hswc hcmd hvia in
theorem same_loadPlan {p} : part.same d₀ (loadPlan d p) ↔ part.same d₀ d := by
  simp [loadPlan, same_mk, *]

include hglb hsto hpar hvia hadm houts in
theorem same_joinOver : part.same d₀ (joinOver d) ↔ part.same d₀ d := by
  simp [joinOver, same_judgeAll, same_mk, *]

include hglb hsto hpar hvia hadm houts in
theorem same_toTrain : part.same d₀ (toTrain d) ↔ part.same d₀ d := by
  simp [toTrain, same_maybeRecover, same_joinOver, same_mk, same_ite, *]

include hglb in
theorem same_enterService : part.same d₀ (enterService d) ↔ part.same d₀ d := by
  simp [enterService, same_enter, same_itgEvent, same_foldl, *]

/-! ### Queues -/

include hcmd in
theorem same_modCq {q f} : part.same d₀ (modCq d q f) ↔ part.same d₀ d := by
  simp [modCq, same_mk, *]

include htrs in
theorem same_modWr {q f} : part.same d₀ (modWr d q f) ↔ part.same d₀ d := by
  simp [modWr, same_mk, *]

include htrs in
theorem same_edgeMove {c} : part.same d₀ (edgeMove d c) ↔ part.same d₀ d := by
  simp [edgeMove, same_modConn, same_ite, *]

include htrs hcmd hpar hvia houts in
theorem same_edgeRefresh {c} : part.same d₀ (edgeRefresh d c) ↔ part.same d₀ d := by
  simp only [edgeRefresh]
  split <;> simp [same_ctxDo, same_edgeMove, same_ite, *]

include hcmd in
theorem same_fetchOne {e : Dev} {q : Nat} {r : SqRec} (h : fetchOne d q r = some e) : part.same d₀ e ↔ part.same d₀ d := by
  simp only [fetchOne] at h
  split at h
  · cases h
  · cases h
    exact same_cmdCnt.trans (same_cmd hcmd)

include hcmd in
theorem same_fetchGo {q fuel} : part.same d₀ (fetchGo q fuel d) ↔ part.same d₀ d := by
  induction fuel generalizing d with
  | zero => rfl
  | succ fuel ih =>
    unfold fetchGo
    split
    · next e h =>
      obtain ⟨r, -, h⟩ := Option.bind_eq_some_iff.1 h
      exact ih.trans (same_fetchOne hcmd h)
    · rfl

include htrs hcmd hpar hvia houts in
theorem same_fetchRing {q} : part.same d₀ (fetchRing d q) ↔ part.same d₀ d := by
  simp only [fetchRing]
  repeat' split
  all_goals simp [same_cmdCnt, same_modWr, same_edgeRefresh, same_fetchGo, *]

theorem same_tenantCount {s st flags latency} : part.same d₀ (tenantCount d s st flags latency) ↔ part.same d₀ d := by
  simp [tenantCount, same_pdCnt, same_volCnt, same_ite, *]

theorem same_engineCount {st flags} : part.same d₀ (engineCount d st flags) ↔ part.same d₀ d := by
  simp [engineCount, same_cmdCnt, same_ite, *]

include hbytes in
theorem same_traceFlush : part.same d₀ (traceFlush d) ↔ part.same d₀ d := by
  simp only [traceFlush]
  split <;> simp [same_mk, same_ite, *]

include hbytes in
theorem same_traceWrite {bs} : part.same d₀ (traceWrite d bs) ↔ part.same d₀ d := by
  simp [traceWrite, same_traceFlush, same_mk, same_ite, *]

include hbytes in
theorem same_traceOf {s} : part.same d₀ (traceOf d s) ↔ part.same d₀ d := by
  simp [traceOf, same_traceWrite, same_ite, *]

include htrs hcmd houts in
theorem same_readHead {cq} : part.same d₀ (readHead d cq) ↔ part.same d₀ d := by
  simp only [readHead]
  split <;> simp [same_sendRead, same_modCq, same_ite, *]

include htrs hcmd hpar houts in
theorem same_removeSq {q} : part.same d₀ (removeSq d q) ↔ part.same d₀ d := by
  simp only [removeSq]
  split <;> simp [same_mirror, same_mk, *]

include hsto hpar hvia houts in
theorem same_removeVol {v} : part.same d₀ (removeVol d v) ↔ part.same d₀ d := by
  simp only [removeVol]
  split <;> simp [same_writeRecordsFor, same_mk, *]

include htrs hcmd hsto hpar hvia hitg houts in
theorem same_finishDelete {c s} : part.same d₀ (finishDelete d c s) ↔ part.same d₀ d := by
  simp [finishDelete, same_modSlot, same_answer, same_answerAfter, same_removeSq, same_removeVol, same_mk, same_foldl, same_ite, *]

include htrs hcmd hsto hpar hvia hitg houts in
theorem same_finishDeletes : part.same d₀ (finishDeletes d) ↔ part.same d₀ d := by
  simp [finishDeletes, same_finishDelete, same_foldl, same_ite, *]

include hcmd hsto hpar hvia houts in
theorem same_failXfer {c} : part.same d₀ (failXfer d c) ↔ part.same d₀ d := by
  grind [failXfer, same_modSlot, same_answer, same_unlockAll, same_mk]

/-! ### Admission -/

include hacc hcmd in
theorem same_volCheck {c s} : part.same d₀ (volCheck d c s).2 ↔ part.same d₀ d := by
  grind [volCheck, same_deny, same_itgCntN, same_forCmd]

include hcmd in
theorem same_takeKey {c} : part.same d₀ (takeKey d c) ↔ part.same d₀ d := by
  simp only [takeKey]
  split <;> simp [same_modSlot, *]

include hcmd in
theorem same_takePlace {c} : part.same d₀ (takePlace d c) ↔ part.same d₀ d := by
  simp only [takePlace]
  split <;> simp [same_cmdCnt, same_modSlot, same_mk, same_ite, *]

theorem same_powerHeld {c} : part.same d₀ (powerHeld d c).2 ↔ part.same d₀ d := by
  grind [powerHeld, same_draw]

include hpwr hcmd in
theorem same_tryPlace {c} : part.same d₀ (tryPlace d c) ↔ part.same d₀ d := by
  grind [tryPlace, same_modSlot, same_takePlace, same_powerHeld, same_mk]

include hpwr hcmd hpar houts in
theorem same_releaseOne {c} : part.same d₀ (releaseOne d c) ↔ part.same d₀ d := by
  simp only [releaseOne]
  split <;> simp [same_mirror, same_ctxCnt, same_itgCntN, same_modSlot, same_answer, same_takeKey, same_tryPlace, same_ite, *]

include hpwr hcmd hpar houts in
theorem same_releaseTag {pd tag} : part.same d₀ (releaseTag d pd tag).2 ↔ part.same d₀ d := by
  simp [releaseTag, same_releaseOne, same_foldl, *]

include hpwr htrs hcmd hpar hvia houts in
theorem same_holdStart {c s} : part.same d₀ (holdStart d c s) ↔ part.same d₀ d := by
  simp only [holdStart]
  split <;> simp [same_mirror, same_pdCnt, same_cmdCnt, same_modSlot, same_pullData, same_releaseOne, same_mk, *]

include hpwr htrs hcmd hpar hvia houts in
theorem same_goOn {c} : part.same d₀ (goOn d c) ↔ part.same d₀ d := by
  simp only [goOn]
  split <;> simp [same_pullData, same_takeKey, same_takePlace, same_holdStart, same_ite, *]

include hpwr hacc htrs hcmd hpar hvia houts in
theorem same_ownerJudge {c} : part.same d₀ (ownerJudge d c) ↔ part.same d₀ d := by
  grind [ownerJudge, same_answer, same_volCheck, same_goOn]

include htrs hcmd hpar hvia houts in
theorem same_forwardOrWait {c pier} : part.same d₀ (forwardOrWait d c pier) ↔ part.same d₀ d := by
  simp [forwardOrWait, same_modSlot, same_pullData, same_forwardTo, same_ite, *]

include hpwr hacc htrs hcmd hpar hvia houts in
theorem same_judge {c} : part.same d₀ (judge d c) ↔ part.same d₀ d := by
  grind [judge, same_answer, same_ownerJudge, same_forwardOrWait]

theorem same_sampleDraw {s} : part.same d₀ (sampleDraw d s).2 ↔ part.same d₀ d := by
  grind [sampleDraw, same_count, same_drawBits, same_mk]

include hpwr hacc htrs hcmd hpar hvia hadm houts in
theorem same_place {c s} : part.same d₀ (place d c s) ↔ part.same d₀ d := by
  simp only [place]
  split <;> simp [same_cmdCnt, same_judge, same_sampleDraw, same_mk, *]

include hpwr hacc htrs hcmd hpar hvia hadm houts in
theorem same_admitCap {cls f reserved} : part.same d₀ (admitCap d cls f reserved) ↔ part.same d₀ d := by
  simp [admitCap, ↓same_mk, same_unbuffer, same_mirror, same_place, *]

include hpwr hcmd in
theorem same_noteHeld {cls f} : part.same d₀ (noteHeld d cls f) ↔ part.same d₀ d := by
  simp [noteHeld, same_mk, *]

include hcmd in
theorem same_markFail : part.same d₀ (markFail d) ↔ part.same d₀ d := by
  simp [markFail, same_mk, same_ite, *]

include hpwr hcmd in
theorem same_noteHeldClass {cls} : part.same d₀ (noteHeldClass d cls) ↔ part.same d₀ d := by
  simp [noteHeldClass, same_noteHeld, same_foldl, *]

include hcmd in
theorem same_noteFree {cls} : part.same d₀ (noteFree d cls) ↔ part.same d₀ d := by
  simp [noteFree, same_mk, *]

include hpwr hcmd in
theorem same_eligible {l} : part.same d₀ (eligible l d).2 ↔ part.same d₀ d := by
  induction l generalizing d with
  | nil => rfl
  | cons c l ih => grind [eligible, same_powerHeld, same_noteHeldClass, same_noteFree]

include hpwr hcmd in
theorem same_pickClass : part.same d₀ (pickClass d).2 ↔ part.same d₀ d := by
  grind [pickClass, same_eligible, same_mk]

include hcmd in
theorem same_refuseNow : part.same d₀ (refuseNow d) ↔ part.same d₀ d := by
  simp [refuseNow, same_refuseClass, same_foldl, same_ite, *]

include hpwr hcmd in
theorem same_placeReleased : part.same d₀ (placeReleased d) ↔ part.same d₀ d := by
  simp [placeReleased, same_tryPlace, same_foldl, *]

include hpwr hacc htrs hcmd hpar hvia hadm houts in
theorem same_fwdAdmit {pier r slow} : part.same d₀ (fwdAdmit d pier r slow) ↔ part.same d₀ d := by
  simp [fwdAdmit, same_mirror, same_cmdCnt, same_ownerJudge, same_sampleDraw, same_mk, *]

include hvia in
theorem same_fwdMark : part.same d₀ (fwdMark d) ↔ part.same d₀ d := by
  simp [fwdMark, same_mk, same_ite, *]

include hpwr hacc htrs hcmd hpar hvia hadm houts in
theorem same_fwdDrain {fuel} : part.same d₀ (fwdDrain fuel d) ↔ part.same d₀ d := by
  induction fuel generalizing d with
  | zero => rfl
  | succ fuel ih => grind [fwdDrain, same_fwdAdmit, same_via]

include hpwr hacc htrs hcmd hpar hvia hadm houts in
theorem same_admitNext : part.same d₀ (admitNext d) ↔ part.same d₀ d := by
  simp only [admitNext]
  repeat' split
  all_goals simp [same_count, same_admitCap, same_markFail, same_pickClass, same_refuseNow, same_placeReleased, same_fwdMark,
    same_fwdDrain, *]

include hpwr htrs hcmd hpar houts in
theorem same_matchTrigger {pd tag} : part.same d₀ (matchTrigger d pd tag) ↔ part.same d₀ d := by
  simp [matchTrigger, same_ctxCnt, same_releaseTag, same_mk, same_ite, *]

include hpwr htrs hcmd hpar houts in
theorem same_heldTrigger {pd tag} : part.same d₀ (heldTrigger d pd tag) ↔ part.same d₀ d := by
  simp [heldTrigger, same_matchTrigger, same_mk, same_ite, *]

include hpwr htrs hcmd hpar houts in
theorem same_matchLate : part.same d₀ (matchLate d) ↔ part.same d₀ d := by
  simp [matchLate, same_matchTrigger, same_mk, same_foldl, *]

include hpwr htrs hcmd hpar houts in
theorem same_deliverTrigger {pd tag} : part.same d₀ (deliverTrigger d pd tag) ↔ part.same d₀ d := by
  grind [deliverTrigger, same_ctxCnt, same_pdCnt, same_innerSend, same_modWr, same_heldTrigger, same_mk, same_foldl]

/-! ### Queue administration -/

include htrs hbytes hcmd hpar houts in
theorem same_createSq {cmd x pd} : part.same d₀ (createSq cmd x pd d) ↔ part.same d₀ d := by
  simp only [createSq]
  split <;> simp [same_mirror, same_answer, same_answerAfter, same_badAt, same_mk, *]

include htrs hcmd hsto hpar hvia houts in
theorem same_catchCmd {c} : part.same d₀ (catchCmd d c) ↔ part.same d₀ d := by
  simp [catchCmd, same_modSlot, same_dropTransfers, same_unlockAll, *]

include htrs hcmd hsto hpar hvia houts in
theorem same_abortGo {c x} : part.same d₀ (abortGo d c x) ↔ part.same d₀ d := by
  grind [abortGo, same_cmdCnt, same_modSlot, same_succeed, same_forwardOrWait, same_refuseCap, same_badAt, same_catchCmd, same_mk]

include htrs hcmd hpar hvia houts in
theorem same_abortFar {t s pier} : part.same d₀ (abortFar d t s pier) ↔ part.same d₀ d := by
  simp [abortFar, same_forwardOrWait, same_mk, *]

include htrs hcmd hsto hpar hvia houts in
theorem same_abortSq {c q} : part.same d₀ (abortSq d c q) ↔ part.same d₀ d := by
  grind [abortSq, same_refuseCap, same_catchCmd, same_abortFar, same_foldl]

theorem same_chooseRing {len} : part.same d₀ (chooseRing d len).2 ↔ part.same d₀ d := by
  simp [chooseRing, same_draw, *]

include htrs hcmd hpar houts in
theorem same_makeRegion {c idx r n} : part.same d₀ (makeRegion d c idx r n) ↔ part.same d₀ d := by
  simp [makeRegion, same_succeed, same_answerAfter, same_mk, same_ite, *]

include htrs hcmd hpar houts in
theorem same_regionGo {c x} : part.same d₀ (regionGo d c x) ↔ part.same d₀ d := by
  grind [regionGo, same_answer, same_badAt, same_chooseRing, same_makeRegion, same_mk]

include htrs in
theorem same_takeResps {key} : part.same d₀ (takeResps d key) ↔ part.same d₀ d := by
  simp [takeResps, same_mk, *]

include hpwr hacc htrs hcmd hpar hvia hadm houts in
theorem same_msubGo {m} : part.same d₀ (msubGo d m) ↔ part.same d₀ d := by
  grind [msubGo, same_place, same_mk]

/-! ### Trestle receive side -/

include htrs in
theorem same_failMsg {c msn len} : part.same d₀ (failMsg d c msn len) ↔ part.same d₀ d := by
  simp [failMsg, same_modConn, *]

include htrs houts in
theorem same_ackOrWait {c p now} : part.same d₀ (ackOrWait d c p now) ↔ part.same d₀ d := by
  simp only [ackOrWait]
  split <;> simp [same_modConn, same_sendAck, same_ite, *]

include htrs hcmd hpar hvia houts in
theorem same_peerClose {c} : part.same d₀ (peerClose d c) ↔ part.same d₀ d := by
  simp only [peerClose]
  repeat' split
  all_goals simp [same_modConn, same_sendAck, same_sendMsg, same_failOpen, same_closingDone, *]

include htrs hcmd hpar hvia houts in
theorem same_markRx {c p now} : part.same d₀ (markRx d c p now) ↔ part.same d₀ d := by
  simp only [markRx]
  split <;> simp [same_modConn, same_creditIfDue, same_edgeMove, same_ackOrWait, same_peerClose, *]

include htrs hcmd hpar hvia houts in
theorem same_failRx {c p msn code detail} : part.same d₀ (failRx d c p msn code detail) ↔ part.same d₀ d := by
  simp [failRx, same_sendNack, same_failMsg, same_markRx, *]

include hacc htrs hcmd hpar hvia houts in
theorem same_regionNack {c x p write e} : part.same d₀ (regionNack d c x p write e) ↔ part.same d₀ d := by
  simp [regionNack, same_deny, same_ctxCnt, same_failRx, same_ite, *]

include htrs hbytes hpar houts in
theorem same_placeData {c x p} : part.same d₀ (placeData d c x p) ↔ part.same d₀ d := by
  grind [placeData, same_mirrorQueue, same_mirror, same_modConn, same_mk, same_foldl]

include hpwr htrs hbytes hcmd hpar hvia houts in
theorem same_placeWrite {c p} : part.same d₀ (placeWrite d c p) ↔ part.same d₀ d := by
  simp only [placeWrite]
  repeat' split
  all_goals simp [same_modConn, same_deliverTrigger, same_markRx, same_placeData, *]

include hpwr hacc htrs hbytes hcmd hpar hvia houts in
theorem same_writeGo {c p} : part.same d₀ (writeGo d c p) ↔ part.same d₀ d := by
  grind [writeGo, same_trsCnt, same_modConn, same_sendAck, same_markRx, same_regionNack, same_placeWrite, same_mk, same_foldl]

include hpwr hacc htrs hbytes hcmd hpar hvia houts in
theorem same_rxWrite {c x p} : part.same d₀ (rxWrite d c x p) ↔ part.same d₀ d := by
  simp [rxWrite, same_trsCnt, same_modConn, same_sendNack, same_failRx, same_writeGo, same_ite, *]

include htrs hcmd houts in
theorem same_respond {c p n src data} : part.same d₀ (respond d c p n src data) ↔ part.same d₀ d := by
  simp [respond, same_sendMsg, *]

include htrs hcmd hpar hvia houts in
theorem same_readDoneRx {c p} : part.same d₀ (readDoneRx d c p) ↔ part.same d₀ d := by
  simp [readDoneRx, same_modConn, same_markRx, *]

include hacc htrs hcmd hpar hvia houts in
theorem same_rxReadReq {c x p} : part.same d₀ (rxReadReq d c x p) ↔ part.same d₀ d := by
  grind [rxReadReq, same_ctxCnt, same_sendNack, same_markRx, same_failRx, same_regionNack, same_respond, same_readDoneRx, same_mk]

include htrs hcmd hvia houts in
theorem same_serveHeld : part.same d₀ (serveHeld d) ↔ part.same d₀ d :=
  same_foldl (fun d e => by split <;> simp [same_respond, same_via, *]) _ _

include htrs hcmd hvia houts in
theorem same_relayBack {c addr bs} : part.same d₀ (relayBack d c addr bs) ↔ part.same d₀ d := by
  simp [relayBack, same_modSlot, same_sendHost, *]

include hvia houts in
theorem same_landFrag {n off bs} : part.same d₀ (landFrag d n off bs) ↔ part.same d₀ d := by
  simp only [landFrag]
  split <;> simp [same_fragSubmit, same_mk, same_ite, *]

include htrs hcmd hpar hvia houts in
theorem same_takeNack {c x p} : part.same d₀ (takeNack d c x p) ↔ part.same d₀ d := by
  simp [takeNack, same_trsCnt, same_modConn, same_pump, same_failUse, same_enterTimeWait, same_foldl, same_ite, *]

theorem same_viaEvent {ev pier group micros attn} : part.same d₀ (viaEvent d ev pier group micros attn) ↔ part.same d₀ d := by
  simp [viaEvent, same_logEvent, *]

include hcmd hpar hvia houts in
theorem same_pierReached {pier c} : part.same d₀ (pierReached d pier c) ↔ part.same d₀ d := by
  simp [pierReached, same_viaEvent, same_sendDirectory, same_reForward, same_mk, same_ite, *]

include htrs hcmd hpar hvia houts in
theorem same_takeResumeReply {c x p} : part.same d₀ (takeResumeReply d c x p) ↔ part.same d₀ d := by
  grind [takeResumeReply, same_modConn, same_pump, same_enterTimeWait, same_closeConn, same_pierReached, same_mk]

include htrs in
theorem same_dropAttempt {c} : part.same d₀ (dropAttempt d c) ↔ part.same d₀ d := by
  simp [dropAttempt, same_mk, *]

include htrs hcmd hpar hvia houts in
theorem same_takeConnectReply {c x p} : part.same d₀ (takeConnectReply d c x p) ↔ part.same d₀ d := by
  grind [takeConnectReply, same_mirror, same_modConn, same_pierReached, same_dropAttempt, same_mk]

include htrs houts in
theorem same_answerWith {ip conn id e} : part.same d₀ (answerWith d ip conn id e) ↔ part.same d₀ d := by
  simp [answerWith, same_emit, same_trsCnt, same_mk, *]

include hcmd hvia in
theorem same_rewindUse {u n} : part.same d₀ (rewindUse d u n) ↔ part.same d₀ d := by
  simp only [rewindUse]
  split <;> simp [same_modSlot, same_mk, *]

include htrs houts in
theorem same_resumeUnknown {net p} : part.same d₀ (resumeUnknown d net p) ↔ part.same d₀ d := by
  simp only [resumeUnknown]
  split <;> simp [same_emit, same_trsCnt, same_drawPortBase, same_answerWith, *]

include htrs hcmd hpar hvia houts in
theorem same_takeNew {net c x p dst} : part.same d₀ (takeResume.takeNew d net c x p dst) ↔ part.same d₀ d := by
  unfold takeResume.takeNew
  split
  · simp only [same_trsCnt, same_emit houts]
  · refine (same_pump htrs hcmd houts).trans <| same_trsCnt.trans <| (same_emit houts).trans ?_
    dsimp only
    split <;> simp only [same_mirror hpar houts, same_modConn htrs, same_rewindUse hcmd hvia, same_free, same_foldl, implies_true]

include htrs hcmd hpar hvia houts in
theorem same_takeResume {net c x p} : part.same d₀ (takeResume d net c x p) ↔ part.same d₀ d := by
  unfold takeResume
  dsimp only
  split <;> simp only [same_takeNew htrs hcmd hpar hvia houts, same_trsCnt, same_emit houts, same_ite, ite_self]

include htrs hcmd hpar hvia houts in
theorem same_connAccept {net p c inner} : part.same d₀ (connAccept d net p c inner) ↔ part.same d₀ d := by
  simp only [connAccept]
  split <;> simp [same_mirrorThen, same_trsCnt, same_drawBits, same_drawPortBase, same_takeConn, same_pierReached, same_answerWith,
    same_ite, *]

include htrs hcmd hpar hvia houts in
theorem same_rxConnect {net p} : part.same d₀ (rxConnect d net p) ↔ part.same d₀ d := by
  simp only [rxConnect]
  repeat' split
  all_goals simp [same_emit, same_trsCnt, same_drawPortBase, same_answerWith, same_connAccept, *]

include htrs hcmd hvia houts in
theorem same_violate {c x p code detail} : part.same d₀ (violate d c x p code detail) ↔ part.same d₀ d := by
  simp [violate, same_trsCnt, same_sendNack, same_closeConn, same_dropAttempt, same_ite, *]

include htrs in
theorem same_park {c net p} : part.same d₀ (park d c net p) ↔ part.same d₀ d := by
  simp [park, same_ctxCnt, same_mk, same_ite, *]

include htrs hcmd hpar hvia houts in
theorem same_ctxError {c} : part.same d₀ (ctxError d c) ↔ part.same d₀ d := by
  simp [ctxError, same_ctxCnt, same_enterTimeWait, *]

include htrs hcmd hvia houts in
theorem same_pdCloses {pd was now revoke} : part.same d₀ (pdCloses d pd was now revoke) ↔ part.same d₀ d := by
  simp only [pdCloses]
  split <;> simp [same_zeroCnts, same_closeConn, same_foldl, same_ite, *]

include hregs htrs hcmd hpar hvia houts in
theorem same_pdCtrlGo {v} : part.same d₀ (pdCtrlGo d v) ↔ part.same d₀ d := by
  simp [pdCtrlGo, same_setSticky, same_mirrorQueue, same_mirror, same_putLive, same_pdCloses, same_mk, same_ite, *]

/-! ### Volumes -/

include hacc hcmd in
theorem same_needVol {c x right f} (hf : ∀ v d, part.same d₀ (f v d) ↔ part.same d₀ d) :
    part.same d₀ (needVol d c x right f) ↔ part.same d₀ d := by
  simp only [needVol]
  split <;> simp [same_deny, same_answer, same_ite, *]

include hacc hcmd in
theorem same_needKey {c x page f} (hf : ∀ d, part.same d₀ (f d) ↔ part.same d₀ d) :
    part.same d₀ (needKey d c x page f) ↔ part.same d₀ d := by
  simp [needKey, same_deny, same_answer, same_ite, *]

include hcmd in
theorem same_needOwner {c vol f} (hf : ∀ d, part.same d₀ (f d) ↔ part.same d₀ d) : part.same d₀ (needOwner d c vol f) ↔ part.same d₀ d := by
  simp [needOwner, same_answer, same_ite, *]

include hcmd hitg in
theorem same_loadKey {s} : part.same d₀ (loadKey d s) ↔ part.same d₀ d := by
  simp [loadKey, same_itgCntN, same_itgEvent, same_mk, *]

include hcmd hsto hitg in
theorem same_opFinish {s} : part.same d₀ (opFinish d s) ↔ part.same d₀ d := by
  simp only [opFinish]
  split <;> simp [same_modVol, same_loadKey, same_mk, same_ite, *]

include houts in
theorem same_announce : part.same d₀ (announce d) ↔ part.same d₀ d := by
  simp [announce, same_sendDirectory, same_foldl, same_ite, *]

include hvia houts in
theorem same_listVols {vols pier} : part.same d₀ (listVols d vols pier) ↔ part.same d₀ d := by
  simp [listVols, same_announce, same_mk, same_ite, *]

include hvia houts in
theorem same_listVol {v own} : part.same d₀ (listVol d v own) ↔ part.same d₀ d := by
  simp [listVol, same_announce, same_mk, same_ite, *]

include hcmd hsto hpar hvia houts in
theorem same_createVol {c v vol} : part.same d₀ (createVol d c v vol) ↔ part.same d₀ d := by
  simp [createVol, same_zeroCnts, same_writeStructs, same_writeRecords, same_answerAfter, same_listVol, same_mk, *]

include hcmd hsto hpar hvia hitg houts in
theorem same_ackAnswer {c} : part.same d₀ (ackAnswer d c) ↔ part.same d₀ d := by
  simp only [ackAnswer]
  repeat' split
  all_goals simp [same_answerGo, same_opFinish, same_createVol, *]

include hcmd hsto hpar hitg houts in
theorem same_answerVol {c v shown n} : part.same d₀ (answerVol d c v shown n) ↔ part.same d₀ d := by
  grind [answerVol, same_answerAfter, same_opFinish]

theorem same_takeSlabs {g n acc} : part.same d₀ (takeSlabs d g n acc).2 ↔ part.same d₀ d := by
  induction n generalizing d acc with
  | zero => rfl
  | succ n ih => exact ih.trans same_free

theorem same_seedOf {b} : part.same d₀ (seedOf d b).2 ↔ part.same d₀ d := by
  simp only [seedOf]
  split <;> simp [same_drawBits, *]

include hcmd hsto hpar hvia houts in
theorem same_createGo {c b} : part.same d₀ (createGo d c b) ↔ part.same d₀ d := by
  simp only [createGo]
  repeat' split
  all_goals simp [same_modVol, same_answer, same_answerAfter, same_createVol, same_takeSlabs, same_seedOf, same_mk, *]

include hsto in
theorem same_viewVol {v vol} : part.same d₀ (viewVol d v vol) ↔ part.same d₀ d := by
  simp [viewVol, same_mk, *]

include hcmd hsto hpar hvia hitg houts in
theorem same_volSet {c v record f} : part.same d₀ (volSet d c v record f) ↔ part.same d₀ d := by
  simp [volSet, same_modVol, same_writeRecords, same_answerVol, same_ite, *]

/-! ### GET_LOG -/

include htrs hcmd hvia houts in
theorem same_giveLog {c x bs} : part.same d₀ (giveLog d c x bs) ↔ part.same d₀ d := by
  simp [giveLog, same_succeed, same_sendHost, *]

include htrs hcmd hvia houts in
theorem same_giveEvents {c x} : part.same d₀ (giveEvents d c x) ↔ part.same d₀ d := by
  simp [giveEvents, same_succeed, same_sendHost, same_badAt, same_giveLog, same_mk, same_ite, *]

/-! ### Recovery -/

include hsto hpar houts in
theorem same_scanSuspects {g recs dirty} : part.same d₀ (scanSuspects d g recs dirty) ↔ part.same d₀ d := by
  grind [scanSuspects, same_modDrive, same_setMember, same_mk, same_foldl]

include hsto hpar hvia houts in
theorem same_endRecovery {micros g} : part.same d₀ (endRecovery d micros g) ↔ part.same d₀ d := by
  simp [endRecovery, same_modVol, same_jLog, same_bmSubmit, same_stoEvent, same_remirrorMissing, same_mk, same_foldl, *]

include hsto hpar hvia houts in
theorem same_finishDeletions : part.same d₀ (finishDeletions d) ↔ part.same d₀ d := by
  simp [finishDeletions, same_mirror, same_removeVol, same_foldl, same_ite, *]

/-! ### The mirror of a pair -/

theorem same_parCnt {i} : part.same d₀ (parCnt d i) ↔ part.same d₀ d := by
  simp [parCnt, same_count, *]

theorem same_parEvent {ev attn a b micros} : part.same d₀ (parEvent d ev attn a b micros) ↔ part.same d₀ d := by
  simp [parEvent, same_logEvent, *]

include htrs hbytes hpar houts in
theorem same_startSync : part.same d₀ (startSync d) ↔ part.same d₀ d := by
  simp [startSync, same_emits, same_sendKeys, same_mirror, same_reserveOn, same_mk, same_foldl, *]

include htrs hbytes in
theorem same_newRing {q r} : part.same d₀ (newRing d q r) ↔ part.same d₀ d := by
  simp [newRing, same_mk, same_ite, *]

include hacc htrs hbytes hcmd hsto hpar hvia hitg houts in
theorem same_takeState {i} : part.same d₀ (takeState d i) ↔ part.same d₀ d := by
  simp only [takeState]
  repeat' split
  all_goals simp [same_modDrive, same_pdCloses, same_newRing, same_mk, *]

include hacc htrs hbytes hcmd hsto hpar hvia hitg houts in
theorem same_applyItem {i} : part.same d₀ (applyItem d i) ↔ part.same d₀ d := by
  simp only [applyItem]
  split <;> simp [same_takeState, same_mk, same_ite, *]

include hacc htrs hbytes hcmd hsto hpar hvia hitg houts in
theorem same_takeItems {m l} : part.same d₀ (takeItems d m l) ↔ part.same d₀ d := by
  induction l generalizing d m with
  | nil => rfl
  | cons i l ih =>
    unfold takeItems
    split
    · exact ih
    split
    · simp only [ih, same_applyItem hacc htrs hbytes hcmd hsto hpar hvia hitg houts, same_par hpar]
    · rfl

include hacc htrs hcmd hsto hpar hvia hitg houts in
theorem same_ackAct {a} : part.same d₀ (ackAct d a) ↔ part.same d₀ d := by
  simp only [ackAct]
  repeat' split
  all_goals simp [same_keyApply, same_modConn, same_ctxDo, same_answerWith, same_ackAnswer, same_mk, *]

include hacc htrs hcmd hsto hpar hvia hadm houts in
theorem same_partnerReached {slots} : part.same d₀ (partnerReached d slots) ↔ part.same d₀ d := by
  grind [partnerReached, same_modDrive, same_judgeDrive, same_memberChange, same_mk, same_foldl]

/-! ### Take-over -/

include hpar houts in
theorem same_adoptAddrs {l} : part.same d₀ (adoptAddrs d l) ↔ part.same d₀ d := by
  simp [adoptAddrs, same_announceAddrs, same_mk, *]

include htrs hvia houts in
theorem same_adoptConn {r byPlan} : part.same d₀ (adoptConn d r byPlan).2 ↔ part.same d₀ d := by
  simp only [adoptConn]
  repeat' split
  all_goals simp [same_drawBits, same_drawPortBase, same_sendPkt, same_sendResume, same_takeConn, same_mk, *]

include htrs hvia houts in
theorem same_adoptConns {l byPlan} : part.same d₀ (adoptConns d l byPlan).2 ↔ part.same d₀ d :=
  same_foldl_snd (fun p e => by simpa using same_adoptConn htrs hvia houts) _ _

include hcmd in
theorem same_adoptCq {conns e} : part.same d₀ (adoptCq conns d e) ↔ part.same d₀ d := by
  simp only [adoptCq]
  split <;> simp [same_mk, *]

include htrs hcmd hvia houts in
theorem same_installQueues {a byPlan} : part.same d₀ (installQueues d a byPlan) ↔ part.same d₀ d := by
  simp [installQueues, same_parCnt, same_adoptConns, same_adoptCq, same_mk, same_foldl, *]

include hsto in
theorem same_adoptGroup {g r} : part.same d₀ (adoptGroup d g r) ↔ part.same d₀ d := by
  simp [adoptGroup, same_modDrive, same_mk, same_foldl, *]

include hsto hpar hvia hadm houts in
theorem same_adoptVol {v vol} : part.same d₀ (adoptVol d v vol) ↔ part.same d₀ d := by
  simp only [adoptVol]
  split <;> simp [same_modDrive, same_bmSubmit, same_mk, same_foldl, *]

include hcmd hsto hpar hvia hadm houts in
theorem same_installGroups {moved} : part.same d₀ (installGroups d moved) ↔ part.same d₀ d := by
  simp [installGroups, same_suspect, same_judgeAll, same_listVols, same_adoptGroup, same_adoptVol, same_mk, same_foldl, same_ite, *]

include hpwr hacc htrs hcmd hpar hvia hadm houts in
theorem same_replayOne {p sq cid} : part.same d₀ (replayOne d p sq cid) ↔ part.same d₀ d := by
  grind [replayOne, same_place, same_parCnt, same_mk]

include hpwr hacc htrs hcmd hpar hvia hadm houts in
theorem same_replayAll {p sqs} : part.same d₀ (replayAll d p sqs) ↔ part.same d₀ d := by
  simp [replayAll, same_replayOne, same_foldl, *]

include hvia in
theorem same_installForwarded {p} : part.same d₀ (installForwarded d p) ↔ part.same d₀ d := by
  grind [installForwarded, same_mk, same_foldl]

include hpar houts in
theorem same_fenceStep : part.same d₀ (fenceStep d) ↔ part.same d₀ d := by
  simp [fenceStep, same_writeOwnership, same_mk, same_ite, *]

include hglb hsto hpar hvia hadm houts in
theorem same_winArbitration : part.same d₀ (winArbitration d) ↔ part.same d₀ d := by
  simp [winArbitration, same_modDrive, same_emits, same_gatedGo, same_maybeRecover, same_joinOver, same_adoptAddrs, same_fenceStep,
    same_mk, same_foldl, same_ite, *]

include hcmd in
theorem same_delayAll : part.same d₀ (delayAll d) ↔ part.same d₀ d := by
  simp [delayAll, same_mk, *]

include hglb hswc hcmd hsto hpar hvia hadm hbst houts in
theorem same_startTakeover {cause} : part.same d₀ (startTakeover d cause) ↔ part.same d₀ d := by
  simp only [startTakeover, same_winArbitration hglb hsto hpar hvia hadm houts, same_askArbiter hpar houts, same_parEvent,
    same_parCnt, ↓same_mk, hsto, hpar, same_delayAll hcmd, same_sliceInterrupt hswc hbst houts, same_enter hglb, same_ite, ite_self,
    false_implies, implies_true, and_self]

include hvia houts in
theorem same_shelfDone {g} : part.same d₀ (shelfDone d g) ↔ part.same d₀ d := by
  simp only [shelfDone]
  split <;> simp [same_viaEvent, same_listVols, same_mk, same_ite, *]

/-! ### The pair -/

include hpar in
theorem same_takePartner {j} : part.same d₀ (takePartner d j) ↔ part.same d₀ d := by
  simp [takePartner, same_mk, *]

include hpar in
theorem same_setPath {pathB p} : part.same d₀ (setPath d pathB p) ↔ part.same d₀ d := by
  simp [setPath, same_mk, same_ite, *]

include hregs hlatch htrs hcmd hpar in
theorem same_giveQueues {a} : part.same d₀ (giveQueues d a) ↔ part.same d₀ d := by
  simp [giveQueues, same_mk, *]

include hglb hregs hlatch htrs hcmd hsto hpar hvia in
theorem same_handoverDone {epoch groups roles maint} : part.same d₀ (handoverDone d epoch groups roles maint) ↔ part.same d₀ d := by
  simp [handoverDone, same_enter, same_parCnt, same_giveQueues, same_mk, same_ite, *]

/-! ### The viaduct -/

include hvia houts in
theorem same_claimGroup {g} : part.same d₀ (claimGroup d g) ↔ part.same d₀ d := by
  simp [claimGroup, same_innerSend, same_viaEvent, same_mk, same_foldl, *]

theorem same_removeBad {n} : part.same d₀ (removeBad d n).2 ↔ part.same d₀ d := by
  grind [removeBad, same_draw]

/-! ### Integrity -/

include hpar houts in
theorem same_sendKey {page k a} : part.same d₀ (sendKey d page k a) ↔ part.same d₀ d := by
  simp [sendKey, same_pairOn, same_mk, *]

include hcmd hpar hitg houts in
theorem same_keyLoadGo {c x b} : part.same d₀ (keyLoadGo d c x b) ↔ part.same d₀ d := by
  grind [keyLoadGo, same_modSlot, same_answer, same_succeed, same_badBlock, same_loadKey, same_sendKey, same_mk]

/-! ### Administration -/

include htrs hcmd hsto hpar hvia houts in
theorem same_stopCmds {v sanitize} : part.same d₀ (stopCmds d v sanitize) ↔ part.same d₀ d := by
  simp [stopCmds, same_modSlot, same_answer, same_dropTransfers, same_unlockAll, same_foldl, same_ite, *]

include hsto in
theorem same_stopBands {vols} : part.same d₀ (stopBands d vols) ↔ part.same d₀ d := by
  simp [stopBands, same_mk, *]

include htrs hcmd hsto hpar hvia houts in
theorem same_enterOp {vols o} : part.same d₀ (enterOp d vols o) ↔ part.same d₀ d := by
  simp [enterOp, same_modVol, same_mirror, same_writeRecords, same_stopCmds, same_stopBands, same_foldl, same_ite, *]

include hcmd hpar houts in
theorem same_answerMirrored {c vols} : part.same d₀ (answerMirrored d c vols) ↔ part.same d₀ d := by
  simp only [answerMirrored]
  split <;> simp [same_succeed, same_answerAfter, *]

include htrs hcmd hsto hpar hvia hadm houts in
theorem same_opGo {c o vols start} (hstart : ∀ d, part.same d₀ (start d) ↔ part.same d₀ d) :
    part.same d₀ (opGo d c o vols start) ↔ part.same d₀ d := by
  grind [opGo, same_answer, same_admEvent, same_enterOp, same_answerMirrored, same_mk, same_foldl]

include hpar hvia houts in
theorem same_fillSlab {g slab key pattern} : part.same d₀ (fillSlab d g slab key pattern) ↔ part.same d₀ d := by
  simp [fillSlab, same_driveSend, *]

include hsto hpar hvia houts in
theorem same_zeroVestibule {g v} : part.same d₀ (zeroVestibule d g v) ↔ part.same d₀ d := by
  grind [zeroVestibule, same_modGroup, same_driveSend, same_mk, same_foldl]

include hsto hpar hvia houts in
theorem same_clearMaps {v} : part.same d₀ (clearMaps d v) ↔ part.same d₀ d := by
  simp [clearMaps, same_modVol, same_writeAllocBlock, same_writeLost, same_foldl, *]

include hsto in
theorem same_allRestored {v vol} : part.same d₀ (allRestored d v vol) ↔ part.same d₀ d := by
  simp [allRestored, same_modGroup, *]

include hsto hpar hvia houts in
theorem same_putOp {v f} : part.same d₀ (putOp d v f) ↔ part.same d₀ d := by
  simp [putOp, same_modVol, same_mirror, same_writeRecords, *]

include hadm in
theorem same_shelfRefresh : part.same d₀ (shelfRefresh d) ↔ part.same d₀ d := by
  simp only [shelfRefresh]
  split <;> simp [same_admEvent, same_mk, same_ite, *]

include hsto hpar hvia houts in
theorem same_endOverwrite {v vol o} : part.same d₀ (endOverwrite d v vol o) ↔ part.same d₀ d := by
  simp [endOverwrite, same_admEvent, same_zeroVestibule, same_clearMaps, same_allRestored, same_putOp, same_ite, *]

include hsto hpar hvia houts in
theorem same_nextSlab {v vol o} : part.same d₀ (nextSlab d v vol o) ↔ part.same d₀ d := by
  simp [nextSlab, same_putOp, same_endOverwrite, same_ite, *]

include hsto hpar hvia houts in
theorem same_owSlab {v vol o} : part.same d₀ (owSlab d v vol o) ↔ part.same d₀ d := by
  simp only [owSlab]
  split <;> simp [same_fillSlab, same_nextSlab, same_foldl, *]

include hpar hvia hadm houts in
theorem same_arbSlab {o} : part.same d₀ (arbSlab d o) ↔ part.same d₀ d := by
  grind [arbSlab, same_driveSend, same_modShelf, same_fillSlab, same_mk, same_foldl]

include hsto hpar hvia hadm houts in
theorem same_sanFinish {o} : part.same d₀ (sanFinish d o) ↔ part.same d₀ d := by
  simp [sanFinish, same_modDrive, same_mirror, same_writeHeader, same_setMember, same_becomeSpare, same_removeVol, same_admEvent, same_mk,
    same_foldl, same_ite, *]

include hsto hpar hvia hadm houts in
theorem same_sanCheck : part.same d₀ (sanCheck d) ↔ part.same d₀ d := by
  simp only [sanCheck]
  split <;> simp [same_sanFinish, same_ite, *]

include hsto hpar hvia hadm houts in
theorem same_sanStart : part.same d₀ (sanStart d) ↔ part.same d₀ d := by
  unfold sanStart
  extract_lets slots arbs total d₁ d₂ d₃ d₄
  have h₁ : part.same d₀ d₁ ↔ part.same d₀ d := same_modShelf hadm
  have h₂ : part.same d₀ d₂ ↔ part.same d₀ d₁ := same_foldl (fun _ _ => same_modDrive hsto) _ _
  have h₃ : part.same d₀ d₃ ↔ part.same d₀ d₂ := same_foldl (fun _ _ => same_writeRecords hsto hpar hvia houts) _ _
  have h₄ : part.same d₀ d₄ ↔ part.same d₀ d₃ := same_foldl (fun d k => by
    split
    · simp only [same_ite, same_writeHead hpar hvia houts, ite_self]
    · exact same_writeHeader hsto hpar hvia houts) _ _
  refine Iff.trans ?_ (h₄.trans (h₃.trans (h₂.trans h₁)))
  split
  · simp only [same_ite, same_foldl, same_sanIssue hsto houts, same_putOp hsto hpar hvia houts, implies_true, ite_self]
  · rfl

include hcmd hadm hbst houts in
theorem same_testStart {c code} : part.same d₀ (testStart d c code) ↔ part.same d₀ d := by
  simp only [testStart]
  split <;> simp [same_emits, same_answer, same_succeed, same_mk, *]

include hglb hcmd hadm houts in
theorem same_activateGo {c b fw img} : part.same d₀ (activateGo d c b fw img) ↔ part.same d₀ d := by
  grind [activateGo, same_answer, same_succeed, same_admEvent, same_spiOps, same_mk]

/-! ### Self-test and faults -/

include hglb hpwr hregs hpar hitg hbst houts in
theorem same_holdUnit {u} : part.same d₀ (holdUnit d u) ↔ part.same d₀ d := by
  simp [holdUnit, same_shutdown, same_bstCnt, same_faultEvent, same_laneFail, same_mk, same_ite, *]

include hglb hpwr hregs hpar hitg hbst houts in
theorem same_softRepair {u f} : part.same d₀ (softRepair d u f) ↔ part.same d₀ d := by
  simp only [softRepair, same_holdUnit hglb hpwr hregs hpar hitg hbst houts, same_faultEvent, same_bstCnt, same_bst hbst,
    same_softAdd hbst, same_ite, ite_self]

include hbst in
theorem same_segPassed {u} : part.same d₀ (segPassed d u) ↔ part.same d₀ d := by
  simp [segPassed, same_faultEvent, same_mk, same_ite, *]

include htrs hbytes in
theorem same_slotLost {off} : part.same d₀ (slotLost d off) ↔ part.same d₀ d := by
  simp only [slotLost]
  split <;> simp [same_mk, same_ite, *]

include hsto hpar hvia houts in
theorem same_dirtyLost : part.same d₀ (dirtyLost d) ↔ part.same d₀ d := by
  simp only [dirtyLost]
  split <;> simp [same_draw, same_needRegion, same_foldl, *]

include hacc htrs hcmd hsto hpar hvia hadm houts in
theorem same_stagingLost : part.same d₀ (stagingLost d) ↔ part.same d₀ d := by
  simp only [stagingLost]
  split <;> simp [same_draw, same_modSlot, same_pullData, same_advanceAll, same_ite, *]

theorem same_dumpLost {off} : part.same d₀ (dumpLost d off) ↔ part.same d₀ d := by
  simp [dumpLost, same_logEvent, same_mk, *]

include hglb hpwr hacc htrs hbytes hcmd hsto hpar hvia hitg hadm hbst houts in
theorem same_recoverWord {addr pc} : part.same d₀ (recoverWord d addr pc) ↔ part.same d₀ d := by
  simp only [recoverWord]
  split <;> simp [same_shutdown, same_memCnt, same_faultEvent, same_ctxError, same_slotLost, same_dirtyLost, same_stagingLost,
    same_dumpLost, same_mk, same_ite, *]

include hacc heth hswc htrs hcmd hsto hpar hvia hadm houts in
theorem same_clockDown {clk} : part.same d₀ (clockDown d clk) ↔ part.same d₀ d := by
  grind [clockDown, same_modDrive, same_modPort, same_portDown, same_resendB, same_memberChange, same_faultReport, same_mk, same_foldl]

/-! ### Status registers -/

theorem same_rebuildEta {g} : part.same d₀ (rebuildEta d g).2 ↔ part.same d₀ d := by
  grind [rebuildEta, same_draw]

theorem same_statusReg {o} : part.same d₀ (statusReg d o).2 ↔ part.same d₀ d := by
  simp only [statusReg, apply_ite Prod.snd, same_ite, same_rebuildEta, ite_self]

/-! ### The register bus -/

theorem same_roCounter {m s o} : part.same d₀ (roCounter d m s o).2 ↔ part.same d₀ d := by
  grind [roCounter, same_tdDraw, same_mk]

include hlatch in
theorem same_takeLatch {o now} : part.same d₀ (takeLatch d o now).2 ↔ part.same d₀ d := by
  simp only [takeLatch]
  split <;> simp [same_mk, *]

include hlatch in
theorem same_rcCounter {s o} : part.same d₀ (rcCounter d s o).2 ↔ part.same d₀ d := by
  simp only [rcCounter]
  split <;> simp [same_fecDraw, same_takeLatch, same_mk, *]

include hsense hacc heth htrs in
theorem same_rcRead {o} : part.same d₀ (rcRead d o).2 ↔ part.same d₀ d := by
  grind [rcRead, same_ptpRead, same_mk]

include hsense hlatch hacc heth htrs in
theorem same_plainRead {m o i} : part.same d₀ (plainRead d m o i).2 ↔ part.same d₀ d := by
  grind [plainRead, same_statusReg, same_takeLatch, same_rcRead, same_mk]

include hsense hlatch hacc heth htrs in
theorem same_busRead {m o} : part.same d₀ (busRead d m o).2 ↔ part.same d₀ d := by
  grind [busRead, same_deny, same_roCounter, same_rcCounter, same_plainRead]

include hregs in
theorem same_withStaged {g} : part.same d₀ (withStaged d g) ↔ part.same d₀ d := by
  simp [withStaged, same_mk, *]

include hpln in
theorem same_commitDone {g result detail} : part.same d₀ (commitDone d g result detail) ↔ part.same d₀ d := by
  simp [commitDone, same_mk, *]

include hregs in
theorem same_dropStaged {g} : part.same d₀ (dropStaged d g) ↔ part.same d₀ d := by
  simp [dropStaged, same_mk, *]

include hswc in
theorem same_tokensNowAll : part.same d₀ (tokensNowAll d) ↔ part.same d₀ d := by
  simp [tokensNowAll, same_mk, *]

include heth hswc houts in
theorem same_pwdRecheck {p} : part.same d₀ (pwdRecheck d p) ↔ part.same d₀ d := by
  simp [pwdRecheck, same_setPwd, same_pwdExpire, same_foldl, same_ite, *]

include heth hswc houts in
theorem same_afterCommit {g} : part.same d₀ (afterCommit d g) ↔ part.same d₀ d := by
  simp [afterCommit, same_xonAll, same_fdbCheckVlans, same_tokensNowAll, same_pwdRecheck, same_mk, same_foldl, same_ite, *]

include hregs hpln heth hswc houts in
theorem same_commitGo {m g} : part.same d₀ (commitGo d m g) ↔ part.same d₀ d := by
  simp only [commitGo]
  repeat' split
  all_goals simp [same_logEvent, same_withStaged, same_commitDone, same_unlockBy, same_dropStaged, same_tokensNowAll, same_afterCommit,
    same_mk, *]

include hregs hpln in
theorem same_discardGo {m g} : part.same d₀ (discardGo d m g) ↔ part.same d₀ d := by
  simp [discardGo, same_commitDone, same_unlockBy, same_dropStaged, same_ite, *]

include hregs hacc hpln heth hswc houts in
theorem same_commitWrite {m g discard} : part.same d₀ (commitWrite d m g discard) ↔ part.same d₀ d := by
  simp [commitWrite, same_deny, same_commitDone, same_commitGo, same_discardGo, same_ite, *]

include hacc in
theorem same_ctrEntry {k x v} : part.same d₀ (ctrEntry d k x v) ↔ part.same d₀ d := by
  simp [ctrEntry, same_mk, same_ite, *]

include hacc hpar houts in
theorem same_keyEntry {e x v} : part.same d₀ (keyEntry d e x v) ↔ part.same d₀ d := by
  simp [keyEntry, same_keyApply, same_mirrorThen, same_mk, same_ite, *]

include hregs in
theorem same_stageReg {o v} : part.same d₀ (stageReg d o v) ↔ part.same d₀ d := by
  simp only [stageReg]
  split <;> simp [same_mk, *]

include hglb hpwr hregs in
theorem same_clearBits {o v mask} : part.same d₀ (clearBits d o v mask) ↔ part.same d₀ d := by
  simp [clearBits, same_mk, same_ite, *]

/-! ### The counter unit -/

include hregs in
theorem same_stageDump {b} : part.same d₀ (stageDump d b) ↔ part.same d₀ d := by
  simp [stageDump, same_stageReg, *]

include hregs hpln heth hswc houts in
theorem same_dumpCommit {m sets} : part.same d₀ (dumpCommit d m sets) ↔ part.same d₀ d := by
  simp [dumpCommit, same_commitDone, same_commitGo, same_ite, *]

end

end Sys2Proof.Machine

/-! ## What each wide command leaves alone -/

namespace Sys2Proof.Machine

/-! ### Commands that a slot runs -/

section
variable {parts : List Piece} {s : State} {cmd : Nat} {blk : List Byte}

theorem framed_adminRun (ha : .acc ∈ parts) (hc : .cmd ∈ parts) {op : Nat} {f : Slot → Dev → Dev}
    (h : ∀ part, parts.Forall (part ≠ ·) → ∀ x d₀ d, part.same d₀ (f x d) ↔ part.same d₀ d) :
    Framed parts s (adminRun s cmd op f) := by
  refine framed_begun ha hc fun d => ?_
  split
  · rename_i x e he
    exact .inr ⟨cmd, _, x, e, f x, he, rfl, fun part hp _ _ => h part hp x⟩
  · exact .inl rfl

theorem framed_memberRun (ha : .acc ∈ parts) (hc : .cmd ∈ parts) {action : Nat} {own : List (Nat × Bool)} {f : Slot → Dev → Dev}
    (h : ∀ part, parts.Forall (part ≠ ·) → ∀ x d₀ d, part.same d₀ (f x d) ↔ part.same d₀ d) :
    Framed parts s (memberRun cmd action blk s own f) := by
  refine framed_begun ha hc fun d => ?_
  dsimp only
  split
  · exact .inl rfl
  · split
    · exact .inl rfl
    · rename_i x e he
      refine .inr ⟨cmd, _, x, e, _, he, rfl, fun part hp hacc hcmd d₀ d => ?_⟩
      split
      · exact same_badAt hcmd
      · refine same_needPage hacc hcmd fun d => ?_
        split
        · exact same_badBlock hcmd
        · exact h part hp x d₀ d

theorem framed_slotRun (ha : .acc ∈ parts) (hc : .cmd ∈ parts) {action : Nat} {ok : Dev → Drive → Bool} {f : Nat → Dev → Dev}
    (h : ∀ part, parts.Forall (part ≠ ·) → ∀ k d₀ d, part.same d₀ (f k d) ↔ part.same d₀ d) :
    Framed parts s (slotRun cmd action blk s ok f) := by
  refine framed_memberRun ha hc fun part hp x d₀ d => ?_
  have hcmd := ne_of_outside hp hc
  simp only [same_answer hcmd, same_succeed hcmd, h part hp, same_free, same_ite, ite_self, drawBits, draw]

theorem framed_volRun (ha : .acc ∈ parts) (hc : .cmd ∈ parts) {action : Nat} {own : List (Nat × Bool)} {f : Nat → Volume → Dev → Dev}
    (h : ∀ part, parts.Forall (part ≠ ·) → ∀ v vol d₀ d, part.same d₀ (f v vol d) ↔ part.same d₀ d) :
    Framed parts s (volRun cmd action blk s own f) := by
  refine framed_memberRun ha hc fun part hp x d₀ d => ?_
  have hcmd := ne_of_outside hp hc
  dsimp only
  split
  · exact same_badBlock hcmd
  · exact same_needOwner hcmd fun d => h part hp _ _ d₀ d

theorem framed_reshapeRun (ha : .acc ∈ parts) (hc : .cmd ∈ parts) {op len : Nat} {f : Slot → Volume → Dev → Dev}
    (h : ∀ part, parts.Forall (part ≠ ·) → ∀ x vol d₀ d, part.same d₀ (f x vol d) ↔ part.same d₀ d) :
    Framed parts s (reshapeRun cmd op len blk s f) := by
  refine framed_begun ha hc fun d => ?_
  split
  · exact .inl rfl
  · split
    · exact .inl rfl
    · rename_i x e he
      refine .inr ⟨cmd, _, x, e, _, he, rfl, fun part hp hacc hcmd d₀ d => ?_⟩
      split
      · exact same_badBlock hcmd
      split
      · exact same_badAt hcmd
      · exact same_needVol hacc hcmd fun vol d => same_needOwner hcmd fun d => h part hp x vol d₀ d

theorem framed_opRun {code : Nat} {mine : Bool} {fields : List (Nat × Bool)} {start : Dev → Dev}
    (h : ∀ part : Piece, [Piece.acc, .trs, .cmd, .sto, .par, .via, .adm, .outs].Forall (part ≠ ·) → ∀ d₀ d,
      part.same d₀ (start d) ↔ part.same d₀ d) :
    Framed [.acc, .trs, .cmd, .sto, .par, .via, .adm, .outs] s (opRun cmd code blk s mine fields start) := by
  refine framed_begun (by simp) (by simp) fun d => ?_
  split
  · exact .inl rfl
  · split
    · exact .inl rfl
    · rename_i x e he
      refine .inr ⟨cmd, _, x, e, _, he, rfl, fun part hp _ _ d₀ d => ?_⟩
      have hstart := h part hp d₀
      simp only [List.Forall] at hp
      obtain ⟨hacc, htrs, hcmd, hsto, hpar, hvia, hadm, houts⟩ := hp
      have hgo (o : AdmOp) (vols : List Nat) (d : Dev) : part.same d₀ (opGo d cmd o vols start) ↔ part.same d₀ d :=
        same_opGo htrs hcmd hsto hpar hvia hadm houts hstart
      have hkey (op vol : Nat) (vols : Dev → List Nat) (d : Dev) : part.same d₀ (match blockBad fields with
          | some off => badBlock d cmd off
          | none => if op == 2 && leAt blk 10 2 != 0xFFFF then
              needKey d cmd x (leAt blk 10 2) fun d => opGo d cmd (opOf d vol op blk) (vols d) start
            else opGo d cmd (opOf d vol op blk) (vols d) start) ↔ part.same d₀ d := by
        split
        · exact same_badBlock hcmd
        split
        · exact same_needKey hacc hcmd fun d => hgo _ _ d
        · exact hgo _ _ d
      dsimp only
      split
      · exact same_badAt hcmd
      split
      · split
        · exact same_badAt hcmd
        · exact same_needVol hacc hcmd fun vol d => same_needOwner hcmd fun d => hkey _ x.vol (fun _ => [x.vol]) d
      split
      · split
        · exact same_badAt hcmd
        · exact same_needPage hacc hcmd fun d => hkey _ 0xFFFF shelfVols d
      · exact same_badBlock hcmd

end

/-! ### Acknowledgement, paths and timers -/

theorem execRtoExpire_framed (c : Nat) (s : State) :
    Framed [.trs, .cmd, .sto, .par, .via, .outs] s (execRtoExpire c s) := by
  refine framed_actIf fun part h d₀ d => ?_
  simp only [List.Forall] at h
  simp [same_timerDue, h]

theorem execPathProbeTimer_framed (c : Nat) (path : Nat) (s : State) :
    Framed [.trs, .cmd, .sto, .par, .via, .outs] s (execPathProbeTimer c path s) := by
  refine framed_actIf fun part h d₀ d => ?_
  simp only [List.Forall] at h
  simp [same_timerDue, h]

theorem execAckCoalesceExpire_framed (c : Nat) (s : State) :
    Framed [.trs, .cmd, .sto, .par, .via, .outs] s (execAckCoalesceExpire c s) := by
  refine framed_actIf fun part h d₀ d => ?_
  simp only [List.Forall] at h
  simp [same_timerDue, h]

theorem execDeadTimerExpire_framed (c : Nat) (s : State) :
    Framed [.trs, .cmd, .sto, .par, .via, .outs] s (execDeadTimerExpire c s) := by
  refine framed_actIf fun part h d₀ d => ?_
  simp only [List.Forall] at h
  simp [same_timerDue, h]

theorem execClosingTimeout_framed (c : Nat) (s : State) :
    Framed [.trs, .cmd, .par, .via, .outs] s (execClosingTimeout c s) := by
  refine framed_actIf fun part h d₀ d => ?_
  simp only [List.Forall] at h
  simp [same_enterTimeWait, same_ite, h]

theorem execResumeRetry_framed (c : Nat) (s : State) :
    Framed [.trs, .cmd, .par, .via, .outs] s (execResumeRetry c s) := by
  refine framed_actIf fun part h d₀ d => ?_
  simp only [List.Forall] at h
  simp [same_resumeAgain, h]

/-! ### Commands on media and what completes under them -/

theorem execReadCmd_framed (cmd : Nat) (s : State) :
    Framed [.acc, .trs, .cmd, .sto, .par, .via, .adm, .outs] s (execReadCmd cmd s) := by
  refine framed_actIf fun part h d₀ d => ?_
  simp only [List.Forall] at h
  simp [same_startRead, h]

theorem execWriteCmd_framed (cmd : Nat) (s : State) :
    Framed [.acc, .trs, .cmd, .sto, .par, .via, .adm, .outs] s (execWriteCmd cmd s) := by
  refine framed_actIf fun part h d₀ d => ?_
  simp only [List.Forall] at h
  simp [same_startWrite, h]

theorem execWriteZeroes_framed (cmd : Nat) (s : State) :
    Framed [.acc, .trs, .cmd, .sto, .par, .via, .adm, .outs] s (execWriteZeroes cmd s) := by
  refine framed_actIf fun part h d₀ d => ?_
  simp only [List.Forall] at h
  simp [same_startWrite, h]

theorem execDeallocate_framed (cmd : Nat) (s : State) :
    Framed [.acc, .trs, .cmd, .sto, .par, .via, .adm, .outs] s (execDeallocate cmd s) := by
  refine framed_actIf fun part h d₀ d => ?_
  simp only [List.Forall] at h
  simp [same_startWrite, h]

theorem execVerifyCmd_framed (cmd : Nat) (s : State) :
    Framed [.acc, .trs, .cmd, .sto, .par, .via, .adm, .outs] s (execVerifyCmd cmd s) := by
  refine framed_actIf fun part h d₀ d => ?_
  simp only [List.Forall] at h
  simp [same_startRead, h]

theorem execReadTags_framed (cmd : Nat) (s : State) :
    Framed [.acc, .trs, .cmd, .sto, .par, .via, .adm, .outs] s (execReadTags cmd s) := by
  refine framed_actIf fun part h d₀ d => ?_
  simp only [List.Forall] at h
  simp [same_startRead, h]

theorem execTagComputeDone_framed (cmd : Nat) (granule : Nat) (s : State) :
    Framed [.acc, .trs, .cmd, .sto, .par, .via, .adm, .outs] s (execTagComputeDone cmd granule s) := by
  refine framed_actIf fun part h d₀ d => ?_
  simp only [List.Forall] at h
  grind [same_writeTag, same_readTag]

theorem execParityComputeDone_framed (cmd : Nat) (stripe : Nat) (s : State) :
    Framed [.acc, .trs, .cmd, .sto, .par, .via, .adm, .outs] s (execParityComputeDone cmd stripe s) := by
  refine framed_actIf fun part h d₀ d => ?_
  simp only [List.Forall] at h
  grind [same_modWork, same_buildFrags, same_advance, same_mk]

theorem execBitmapWriteComplete_framed (vol : Nat) (region : Nat) (ok : Bool) (s : State) :
    Framed [.acc, .trs, .cmd, .sto, .par, .via, .adm, .outs] s (execBitmapWriteComplete vol region ok s) := by
  refine framed_actIf fun part h d₀ d => ?_
  simp only [List.Forall] at h
  simp [same_bitmapDone, h]

theorem execJournalWriteComplete_framed (group : Nat) (copy : Nat) (jseq : Nat) (ok : Bool) (s : State) :
    Framed [.acc, .trs, .cmd, .sto, .par, .via, .adm, .outs] s (execJournalWriteComplete group copy jseq ok s) := by
  refine framed_actIf fun part h d₀ d => ?_
  simp only [List.Forall] at h
  simp [same_journalDone, h]

/-! ### Drive faults and background work -/

theorem execDriveFaultReport_framed (slot : Nat) (report : FaultReport) (s : State) :
    Framed [.acc, .trs, .cmd, .sto, .par, .via, .adm, .outs] s (execDriveFaultReport slot report s) := by
  refine framed_actIf fun part h d₀ d => ?_
  simp only [List.Forall] at h
  simp [same_memberChange, same_faultReport, h]

theorem execCstsPoll_framed (slot : Nat) (cfs : Bool) (s : State) :
    Framed [.acc, .trs, .cmd, .sto, .par, .via, .adm, .outs] s (execCstsPoll slot cfs s) := by
  refine framed_actIf fun part h d₀ d => ?_
  simp only [List.Forall] at h
  simp [same_memberChange, same_cfsSet, same_ite, h]

theorem execDriveCmdTimeout_framed (slot : Nat) (s : State) :
    Framed [.acc, .trs, .cmd, .sto, .par, .via, .adm, .outs] s (execDriveCmdTimeout slot s) := by
  refine framed_actIf fun part h d₀ d => ?_
  simp only [List.Forall] at h
  simp [same_modDrive, same_suspect, same_overLimit, same_memberChange, h]

theorem execHealthLogPoll_framed (slot : Nat) (warning : Byte) (s : State) :
    Framed [.acc, .trs, .cmd, .sto, .par, .via, .adm, .outs] s (execHealthLogPoll slot warning s) := by
  refine framed_actIf fun part h d₀ d => ?_
  simp only [List.Forall] at h
  simp [same_memberChange, same_warningRead, h]

theorem execAsyncEventNotice_framed (slot : Nat) (warning : Byte) (s : State) :
    Framed [.acc, .trs, .cmd, .sto, .par, .via, .adm, .outs] s (execAsyncEventNotice slot warning s) := by
  refine framed_actIf fun part h d₀ d => ?_
  simp only [List.Forall] at h
  simp [same_memberChange, same_warningRead, h]

theorem execMemberAnswer_framed (slot : Nat) (s : State) :
    Framed [.cmd, .sto, .par, .via, .outs] s (execMemberAnswer slot s) := by
  refine framed_actIf fun part h d₀ d => ?_
  simp only [List.Forall] at h
  simp [same_modDrive, h]

theorem execMemberFailTimeout_framed (slot : Nat) (cause : Nat) (s : State) :
    Framed [.acc, .trs, .cmd, .sto, .par, .via, .adm, .outs] s (execMemberFailTimeout slot cause s) := by
  refine framed_actIf fun part h d₀ d => ?_
  simp only [List.Forall] at h
  simp [same_failMember, same_memberChange, h]

theorem execCatchupComplete_framed (slot : Nat) (s : State) :
    Framed [.acc, .trs, .cmd, .sto, .par, .via, .adm, .outs] s (execCatchupComplete slot s) := by
  refine framed_actIf fun part h d₀ d => ?_
  simp only [List.Forall] at h
  obtain ⟨hacc, htrs, hcmd, hsto, hpar, hvia, hadm, houts⟩ := h
  refine same_memberChange hacc htrs hcmd hsto hpar hvia hadm houts fun d => ?_
  split
  · rfl
  · simp only [same_countN, same_remirrorMissing hsto hpar hvia houts, same_writeRecords hsto hpar hvia houts, same_rbEvent,
      same_setMember hsto hpar houts, same_modDrive hsto, same_memberEvent hsto hpar hvia houts]

theorem execBandRestoreComplete_framed (group : Nat) (s : State) :
    Framed [.acc, .trs, .cmd, .sto, .par, .via, .adm, .outs] s (execBandRestoreComplete group s) := by
  refine framed_actIf fun part h d₀ d => ?_
  simp only [List.Forall] at h
  dsimp only
  repeat' split
  all_goals simp [same_modGroup, same_rbCnt, same_rbEvent, same_advanceAll, same_bandLosses, h]

theorem execCopybackComplete_framed (group : Nat) (position : Nat) (s : State) :
    Framed [.acc, .trs, .cmd, .sto, .par, .via, .adm, .outs] s (execCopybackComplete group position s) := by
  refine framed_actIf fun part h d₀ d => ?_
  simp only [List.Forall] at h
  dsimp only
  split <;> simp [same_modDrive, same_modGroup, same_countN, same_writeRecords, same_rbEvent, same_setMember, same_remirrorMissing,
    same_memberChange, same_ite, h]

theorem execReshapeSwitch_framed (vol : Nat) (s : State) :
    Framed [.cmd, .sto, .par, .via, .outs] s (execReshapeSwitch vol s) := by
  refine framed_actIf fun part h d₀ d => ?_
  simp only [List.Forall] at h
  dsimp only
  repeat' split
  all_goals simp [same_modVol, same_writeStructs, same_writeRecordsFor, same_jLog, same_rbEvent, same_renumber, h]

/-! ### Power and temperature -/

theorem execPwrFailRecognise_framed (s : State) :
    Framed [.pwr, .swc, .par, .bst, .outs] s (execPwrFailRecognise s) := by
  refine framed_actIf fun part h d₀ d => ?_
  simp only [List.Forall] at h
  simp [same_count, same_pairOn, same_sliceInterrupt, same_mk, same_ite, h]

theorem execPresenceChange_framed (slot : Nat) (present : Bool) (s : State) :
    Framed [.glb, .sense, .acc, .trs, .cmd, .sto, .par, .via, .adm, .outs] s (execPresenceChange slot present s) := by
  refine framed_actIf fun part h d₀ d => ?_
  simp only [List.Forall] at h
  simp [same_slotAbsent, same_memberChange, same_maybeRecover, same_mk, same_ite, h]

theorem execDomainOffComplete_framed (dom : Nat) (s : State) :
    Framed [.glb, .pwr, .acc, .eth, .swc, .trs, .cmd, .sto, .par, .via, .itg, .adm, .bst, .outs] s (execDomainOffComplete dom s) := by
  refine framed_actIf fun part h d₀ d => ?_
  simp only [List.Forall] at h
  simp [same_setDom, same_domServe, same_turnStep, same_maybeRecover, same_domLost, h]

theorem execSensorScan_framed (readings : List Int) (s : State) :
    Framed [.glb, .pwr, .sense, .swc, .par, .itg, .bst, .outs] s (execSensorScan readings s) := by
  refine framed_actIf fun part h d₀ d => ?_
  simp only [List.Forall] at h
  simp [same_shutdown, same_warnStep, same_throttleStep, same_thermtripGo, same_mk, same_ite, h]

theorem execThermtrip_framed (sensor : Nat) (s : State) :
    Framed [.glb, .pwr, .par, .itg, .bst, .outs] s (execThermtrip sensor s) := by
  refine framed_actIf fun part h d₀ d => ?_
  simp only [List.Forall] at h
  simp [same_thermtripGo, h]

/-! ### Start-up -/

theorem execPlanApply_framed (s : State) :
    Framed [.glb, .pwr, .regs, .acc, .pln, .swc, .cmd, .via] s (execPlanApply s) := by
  refine framed_actIf fun part h d₀ d => ?_
  simp only [List.Forall] at h
  dsimp only
  split <;> simp [same_turnOn, same_noPlan, same_loadPlan, same_ite, h]

theorem execBootBist_framed (fails : List Nat) (found : BootFound) (s : State) :
    Framed [.glb, .pwr, .regs, .cmd, .sto, .par, .via, .itg, .adm, .bst, .outs] s (execBootBist fails found s) := by
  refine framed_actIf fun part h d₀ d => ?_
  simp only [List.Forall] at h
  dsimp only
  split <;> simp [same_logEvent, same_toMaint, same_holdOff, same_toTrain, same_bootTested, same_foldl, h]

theorem execDriveReady_framed (slot : Nat) (id : DriveIdent) (s : State) :
    Framed [.glb, .acc, .trs, .cmd, .sto, .par, .via, .adm, .outs] s (execDriveReady slot id s) := by
  refine framed_actIf fun part h d₀ d => ?_
  simp only [List.Forall] at h
  simp [same_modDrive, same_emit, same_emits, same_registerOn, same_admitDrive, same_memberChange, same_maybeRecover, same_ite, h]

/-! ### Queues -/

theorem execRingFetch_framed (sq : Nat) (s : State) :
    Framed [.trs, .cmd, .sto, .par, .via, .outs] s (execRingFetch sq s) := by
  refine framed_actIf fun part h d₀ d => ?_
  simp only [List.Forall] at h
  simp [same_fetchRing, h]

/-! ### Admission -/

theorem execCommandAdmit_framed (s : State) :
    Framed [.pwr, .acc, .trs, .cmd, .par, .via, .adm, .outs] s (execCommandAdmit s) := by
  refine framed_actIf fun part h d₀ d => ?_
  simp only [List.Forall] at h
  simp [same_admitNext, h]

/-! ### Queue administration -/

theorem execQueueCreateSq_framed (cmd : Nat) (s : State) :
    Framed [.acc, .trs, .bytes, .cmd, .par, .outs] s (execQueueCreateSq cmd s) := by
  refine framed_queueCreate (by simp) (by simp) fun part h x pd d₀ d => ?_
  simp only [List.Forall] at h
  simp [same_createSq, h]

theorem execAbortCmd_framed (cmd : Nat) (s : State) :
    Framed [.acc, .trs, .cmd, .sto, .par, .via, .adm, .outs] s (execAbortCmd cmd s) := by
  refine framed_actIf fun part h d₀ d => ?_
  simp only [List.Forall] at h
  grind [same_adminStart, same_advanceAll, same_abortGo]

theorem execReleaseCmd_framed (cmd : Nat) (s : State) :
    Framed [.pwr, .acc, .trs, .cmd, .par, .via, .adm, .outs] s (execReleaseCmd cmd s) := by
  refine framed_actIf fun part h d₀ d => ?_
  simp only [List.Forall] at h
  grind [same_succeed, same_adminStart, same_releaseTag]

theorem execQueueDeleteSq_framed (cmd : Nat) (s : State) :
    Framed [.acc, .trs, .cmd, .sto, .par, .via, .itg, .adm, .outs] s (execQueueDeleteSq cmd s) := by
  refine framed_queueDelete (by simp) (by simp) fun part h x q d₀ d => ?_
  simp only [List.Forall] at h
  split <;> simp [same_modSlot, same_advanceAll, same_finishDeletes, same_badAt, same_needQueue, same_abortSq, h]

theorem execRegionCreate_framed (cmd : Nat) (s : State) :
    Framed [.acc, .trs, .cmd, .par, .outs] s (execRegionCreate cmd s) := by
  refine framed_adminRun (by simp) (by simp) fun part h x d₀ d => ?_
  simp only [List.Forall] at h
  simp [same_needPage, same_regionGo, same_ite, h]

theorem execRegionDestroy_framed (cmd : Nat) (s : State) :
    Framed [.acc, .trs, .cmd, .par, .outs] s (execRegionDestroy cmd s) := by
  refine framed_adminRun (by simp) (by simp) fun part h x d₀ d => ?_
  simp only [List.Forall] at h
  dsimp only
  split <;> simp [same_answer, same_succeed, same_answerAfter, same_badAt, same_takeResps, same_mk, same_ite, h]

theorem execMsubGo_framed (m : Master) (s : State) :
    Framed [.pwr, .acc, .trs, .cmd, .par, .via, .adm, .outs] s (execMsubGo m s) := by
  refine framed_actIf fun part h d₀ d => ?_
  simp only [List.Forall] at h
  simp [same_writeAccess, same_msubGo, h]

/-! ### Trestle receive side -/

theorem execFenceRelease_framed (c : Nat) (psn : Word) (s : State) :
    Framed [.pwr, .acc, .trs, .bytes, .cmd, .par, .via, .adm, .outs] s (execFenceRelease c psn s) := by
  refine framed_actIf fun part h d₀ d => ?_
  simp only [List.Forall] at h
  grind [same_modConn, same_writeGo, same_mk]

theorem execContextWritebackDone_framed (c : Nat) (eccOk : Bool) (s : State) :
    Framed [.trs, .cmd, .par, .via, .outs] s (execContextWritebackDone c eccOk s) := by
  refine framed_actIf fun part h d₀ d => ?_
  simp only [List.Forall] at h
  simp [same_ctxError, same_mk, same_ite, h]

theorem execPdApply_framed (m : Master) (v : Word) (s : State) :
    Framed [.regs, .acc, .trs, .cmd, .par, .via, .outs] s (execPdApply m v s) := by
  refine framed_actIf fun part h d₀ d => ?_
  simp only [List.Forall] at h
  simp [same_writeAccess, same_pdCtrlGo, h]

/-! ### Volumes -/

theorem execVolumeCreate_framed (cmd : Nat) (blk : List Byte) (s : State) :
    Framed [.acc, .cmd, .sto, .par, .via, .outs] s (execVolumeCreate cmd blk s) := by
  refine framed_adminBlock (by simp) (by simp) fun part h x d₀ d => ?_
  simp only [List.Forall] at h
  grind [same_answer, same_needPage, same_badAt, same_badBlock, same_needKey, same_needOwner, same_createGo]

theorem execVolumeDelete_framed (cmd : Nat) (s : State) :
    Framed [.acc, .trs, .cmd, .sto, .par, .via, .itg, .adm, .outs] s (execVolumeDelete cmd s) := by
  refine framed_adminRun (by simp) (by simp) fun part h x d₀ d => ?_
  simp only [List.Forall] at h
  obtain ⟨hacc, htrs, hcmd, hsto, hpar, hvia, hitg, hadm, houts⟩ := h
  refine same_needVol hacc hcmd fun vol d => same_needOwner hcmd fun d => ?_
  simp only [same_answer hcmd, same_advanceAll hacc htrs hcmd hsto hpar hvia hadm houts,
    same_finishDeletes htrs hcmd hsto hpar hvia hitg houts,
    same_modSlot hcmd, same_mirror hpar houts, same_writeRecords hsto hpar hvia houts, same_modVol hsto, same_ite, ite_self,
    same_foldl, implies_true]

theorem execIdentifyVolume_framed (cmd : Nat) (s : State) :
    Framed [.acc, .trs, .cmd, .via, .outs] s (execIdentifyVolume cmd s) := by
  refine framed_actIf fun part h d₀ d => ?_
  simp only [List.Forall] at h
  grind [same_forCmd, same_succeed, same_adminStart, same_sendHost, same_badAt, same_needVol]

theorem execVolumeQuery_framed (cmd : Nat) (s : State) :
    Framed [.acc, .trs, .cmd, .via, .outs] s (execVolumeQuery cmd s) := by
  refine framed_adminRun (by simp) (by simp) fun part h x d₀ d => ?_
  simp only [List.Forall] at h
  simp [same_succeed, same_sendHost, same_needVol, h]

theorem execSetAccess_framed (cmd : Nat) (blk : List Byte) (s : State) :
    Framed [.acc, .cmd, .sto, .par, .via, .itg, .outs] s (execSetAccess cmd blk s) := by
  refine framed_reshapeRun (by simp) (by simp) fun part h x vol d₀ d => ?_
  simp only [List.Forall] at h
  dsimp only
  split <;> simp [same_modVol, same_writeRecords, same_answer, same_badBlock, same_answerVol, same_ite, h]

theorem execVolumeReshapeStart_framed (cmd : Nat) (blk : List Byte) (s : State) :
    Framed [.acc, .cmd, .sto, .par, .via, .itg, .outs] s (execVolumeReshapeStart cmd blk s) := by
  refine framed_reshapeRun (by simp) (by simp) fun part h x vol d₀ d => ?_
  simp only [List.Forall] at h
  obtain ⟨hacc, hcmd, hsto, hpar, hvia, hitg, houts⟩ := h
  extract_lets st g nl n all same need
  split
  · exact same_answer hcmd
  split
  · exact same_badBlock hcmd
  refine same_needOwner hcmd fun d => ?_
  split
  · exact same_answer hcmd
  split
  · exact same_answer hcmd
  dsimp only
  split
  · simp only [same_answer hcmd, same_seedOf]
  · simp only [same_answerVol hcmd hsto hpar hitg houts, same_writeRecords hsto hpar hvia houts, same_writeStructs hpar hvia houts,
      same_structPut hpar hvia houts, same_modVol hsto, same_takeSlabs, same_seedOf, same_ite, ite_self]

theorem execVolumeReshapeAbandon_framed (cmd : Nat) (blk : List Byte) (s : State) :
    Framed [.acc, .cmd, .sto, .par, .via, .itg, .outs] s (execVolumeReshapeAbandon cmd blk s) := by
  refine framed_reshapeRun (by simp) (by simp) fun part h x vol d₀ d => ?_
  simp only [List.Forall] at h
  dsimp only
  split <;> simp [same_modVol, same_writeRecords, same_answer, same_badBlock, same_answerVol, same_ite, h]

theorem execMemberFail_framed (cmd : Nat) (blk : List Byte) (s : State) :
    Framed [.acc, .trs, .cmd, .sto, .par, .via, .adm, .outs] s (execMemberFail cmd blk s) := by
  refine framed_slotRun (by simp) (by simp) fun part h k d₀ d => ?_
  simp only [List.Forall] at h
  simp [same_failMember, same_memberChange, h]

theorem execMemberRetire_framed (cmd : Nat) (blk : List Byte) (s : State) :
    Framed [.acc, .cmd, .sto, .par, .via, .outs] s (execMemberRetire cmd blk s) := by
  refine framed_slotRun (by simp) (by simp) fun part h k d₀ d => ?_
  simp only [List.Forall] at h
  simp [same_setMember, h]

theorem execSlotOff_framed (cmd : Nat) (blk : List Byte) (s : State) :
    Framed [.pwr, .acc, .cmd, .sto, .par, .via, .outs] s (execSlotOff cmd blk s) := by
  refine framed_slotRun (by simp) (by simp) fun part h k d₀ d => ?_
  simp only [List.Forall] at h
  simp [same_modDrive, same_domServe, same_domQueueOff, h]

theorem execSlotOn_framed (cmd : Nat) (blk : List Byte) (s : State) :
    Framed [.pwr, .acc, .cmd, .sto, .par, .via, .outs] s (execSlotOn cmd blk s) := by
  refine framed_slotRun (by simp) (by simp) fun part h k d₀ d => ?_
  simp only [List.Forall] at h
  simp [same_modDrive, same_domServe, same_domRequestOn, h]

theorem execAdoptMember_framed (cmd : Nat) (blk : List Byte) (s : State) :
    Framed [.acc, .cmd, .sto, .par, .via, .outs] s (execAdoptMember cmd blk s) := by
  refine framed_slotRun (by simp) (by simp) fun part h k d₀ d => ?_
  simp only [List.Forall] at h
  simp [same_becomeSpare, h]

theorem execSetShare_framed (cmd : Nat) (blk : List Byte) (s : State) :
    Framed [.acc, .cmd, .sto, .par, .via, .itg, .outs] s (execSetShare cmd blk s) := by
  unfold execSetShare
  refine framed_volRun (by simp) (by simp) fun part h v vol d₀ d => ?_
  simp only [List.Forall] at h
  simp [same_volSet, h]

theorem execPauseVolume_framed (cmd : Nat) (blk : List Byte) (s : State) :
    Framed [.acc, .cmd, .sto, .par, .via, .itg, .outs] s (execPauseVolume cmd blk s) := by
  refine framed_volRun (by simp) (by simp) fun part h v vol d₀ d => ?_
  simp only [List.Forall] at h
  simp [same_drawBits, same_answer, same_volSet, same_ite, h]

theorem execResumeVolume_framed (cmd : Nat) (blk : List Byte) (s : State) :
    Framed [.acc, .cmd, .sto, .par, .via, .itg, .outs] s (execResumeVolume cmd blk s) := by
  refine framed_volRun (by simp) (by simp) fun part h v vol d₀ d => ?_
  simp only [List.Forall] at h
  simp [same_volSet, h]

/-! ### GET_LOG -/

theorem execGetLog_framed (cmd : Nat) (s : State) :
    Framed [.acc, .trs, .cmd, .via, .outs] s (execGetLog cmd s) := by
  refine framed_adminRun (by simp) (by simp) fun part h x d₀ d => ?_
  simp only [List.Forall] at h
  dsimp only
  split <;> simp [same_draw, same_needPage, same_badAt, same_needVol, same_giveLog, same_giveEvents, same_ite, h]

/-! ### Recovery -/

theorem execRecoveryScan_framed (group : Nat) (copies : List (List JRec)) (bitmaps : List (Nat × Nat)) (s : State) :
    Framed [.cmd, .sto, .par, .via, .outs] s (execRecoveryScan group copies bitmaps s) := by
  refine framed_actIf fun part h d₀ d => ?_
  simp only [List.Forall] at h
  simp [same_modGroup, same_modVol, same_scanSuspects, same_mk, same_foldl, same_ite, h]

/-! ### Take-over -/

theorem execPreemptComplete_framed (slot : Nat) (s : State) :
    Framed [.acc, .trs, .cmd, .sto, .par, .via, .adm, .outs] s (execPreemptComplete slot s) := by
  refine framed_actIf fun part h d₀ d => ?_
  simp only [List.Forall] at h
  simp [same_modDrive, same_gatedGo, same_memberChange, same_fenceStep, same_mk, h]

theorem execPreemptTimeout_framed (slot : Nat) (s : State) :
    Framed [.acc, .trs, .cmd, .sto, .par, .via, .adm, .outs] s (execPreemptTimeout slot s) := by
  refine framed_actIf fun part h d₀ d => ?_
  simp only [List.Forall] at h
  simp [same_dropGated, same_suspect, same_memberChange, same_parCnt, same_parEvent, same_fenceStep, same_mk, h]

/-! ### The pair -/

theorem execHealthReceive_framed (h : Health) (s : State) :
    Framed [.acc, .trs, .cmd, .sto, .par, .via, .adm, .outs] s (execHealthReceive h s) := by
  refine framed_actIf fun part h d₀ d => ?_
  simp only [List.Forall] at h
  simp [same_sendKeys, same_mirror, same_parEvent, same_partnerReached, same_stableRefresh, same_mk, same_foldl, same_ite, h]

theorem execMirrorReceive_framed (mseq : Nat) (items : List MirrorItem) (s : State) :
    Framed [.acc, .trs, .bytes, .cmd, .sto, .par, .via, .itg, .outs] s (execMirrorReceive mseq items s) := by
  refine framed_actIf fun part h d₀ d => ?_
  simp only [List.Forall] at h
  dsimp only
  split <;> simp [same_pairSend, same_takeState, same_takeItems, same_takingStep, same_ite, h]

/-! ### The viaduct -/

theorem execInnerIdleProbe_framed (pier : Nat) (s : State) :
    Framed [.trs, .cmd, .sto, .par, .via, .outs] s (execInnerIdleProbe pier s) := by
  refine framed_actIf fun part h d₀ d => ?_
  simp only [List.Forall] at h
  split <;> simp [same_ctxDo, same_ite, h]

theorem execFwdCmd_framed (pier : Nat) (r : InnerRec) (s : State) :
    Framed [.pwr, .acc, .trs, .cmd, .par, .via, .adm, .outs] s (execFwdCmd pier r s) := by
  refine framed_actIf fun part h d₀ d => ?_
  simp only [List.Forall] at h
  dsimp only
  split <;> simp [same_innerSend, same_fwdMark, same_fwdDrain, same_viaCnt, same_mk, same_ite, h]

theorem execFwdTrigger_framed (pier : Nat) (r : InnerRec) (s : State) :
    Framed [.pwr, .acc, .trs, .cmd, .par, .via, .adm, .outs] s (execFwdTrigger pier r s) := by
  refine framed_actIf fun part h d₀ d => ?_
  simp only [List.Forall] at h
  simp [same_heldTrigger, h]

theorem execPierLossTimeout_framed (pier : Nat) (s : State) :
    Framed [.acc, .trs, .cmd, .sto, .par, .via, .adm, .outs] s (execPierLossTimeout pier s) := by
  refine framed_actIf fun part h d₀ d => ?_
  simp only [List.Forall] at h
  grind [same_loseMember, same_memberChange, same_viaEvent, same_viaCnt, same_epochAcked, same_claimGroup, same_mk, same_foldl]

theorem execRemovePier_framed (cmd : Nat) (blk : List Byte) (s : State) :
    Framed [.acc, .trs, .cmd, .via, .outs] s (execRemovePier cmd blk s) := by
  refine framed_viaductRun (by simp) (by simp) fun part h d₀ d => ?_
  simp only [List.Forall] at h
  dsimp only
  split <;> simp [same_closeConn, same_answer, same_succeed, same_propagate, same_removeBad, same_mk, same_foldl, same_ite, h]

theorem execFormGroup_framed (cmd : Nat) (blk : List Byte) (s : State) :
    Framed [.acc, .cmd, .sto, .par, .via, .outs] s (execFormGroup cmd blk s) := by
  refine framed_viaductRun (by simp) (by simp) fun part h d₀ d => ?_
  simp only [List.Forall] at h
  simp [same_modDrive, same_drawBits, same_answer, same_succeed, same_makeGroup, same_setVGroup, same_propagate, same_foldl, same_ite, h]

theorem execDissolveGroup_framed (cmd : Nat) (blk : List Byte) (s : State) :
    Framed [.acc, .cmd, .sto, .par, .via, .outs] s (execDissolveGroup cmd blk s) := by
  refine framed_viaductRun (by simp) (by simp) fun part h d₀ d => ?_
  simp only [List.Forall] at h
  simp [same_modDrive, same_mirror, same_answer, same_succeed, same_setMember, same_propagate, same_mk, same_foldl, same_ite, h]

/-! ### Integrity -/

theorem execKeyLoad_framed (cmd : Nat) (blk : List Byte) (s : State) :
    Framed [.acc, .cmd, .par, .itg, .outs] s (execKeyLoad cmd blk s) := by
  refine framed_begun (by simp) (by simp) fun d => ?_
  split
  · exact .inl rfl
  split
  · exact .inl rfl
  split
  · exact .inl rfl
  · rename_i x e he
    refine .inr ⟨cmd, _, x, e, _, he, rfl, fun part h hacc hcmd d₀ d => ?_⟩
    simp only [List.Forall] at h
    split
    · simp only [same_answer hcmd, same_deny hacc, same_ite, ite_self]
    · simp [same_badAt, same_keyLoadGo, same_ite, h]

theorem execKeyClear_framed (cmd : Nat) (s : State) :
    Framed [.acc, .trs, .cmd, .sto, .par, .via, .itg, .outs] s (execKeyClear cmd s) := by
  refine framed_adminRun (by simp) (by simp) fun part h x d₀ d => ?_
  simp only [List.Forall] at h
  dsimp only
  split <;> simp [same_deny, same_itgCntN, same_modSlot, same_answer, same_succeed, same_itgEvent, same_finishDeletes, same_sendKey,
    same_mk, same_ite, h]

/-! ### Administration -/

theorem execOverwriteCursorTick_framed (vol : Nat) (finished : Bool) (s : State) :
    Framed [.sto, .par, .via, .adm, .outs] s (execOverwriteCursorTick vol finished s) := by
  refine framed_actIf fun part h d₀ d => ?_
  simp only [List.Forall] at h
  grind [same_putOp, same_shelfRefresh, same_owSlab, same_arbSlab, same_sanCheck]

theorem execSanitizeStatusPoll_framed (slot : Nat) (done : Bool) (failed : Bool) (s : State) :
    Framed [.sto, .par, .via, .adm, .outs] s (execSanitizeStatusPoll slot done failed s) := by
  refine framed_actIf fun part h d₀ d => ?_
  simp only [List.Forall] at h
  dsimp only
  split <;> simp [same_draw, same_modShelf, same_sanIssue, same_sanDone, same_sanFail, same_sanCheck, same_ite, h]

theorem execSanitizeOverwrite_framed (cmd : Nat) (blk : List Byte) (s : State) :
    Framed [.acc, .trs, .cmd, .sto, .par, .via, .adm, .outs] s (execSanitizeOverwrite cmd blk s) := by
  refine framed_opRun fun part h d₀ d => ?_
  simp only [List.Forall] at h
  simp [same_shelfRefresh, h]

theorem execSanitizeBlockErase_framed (cmd : Nat) (blk : List Byte) (s : State) :
    Framed [.acc, .trs, .cmd, .sto, .par, .via, .adm, .outs] s (execSanitizeBlockErase cmd blk s) := by
  refine framed_opRun fun part h d₀ d => ?_
  simp only [List.Forall] at h
  simp [same_sanCheck, same_sanStart, h]

theorem execSanitizeDriveOverwrite_framed (cmd : Nat) (blk : List Byte) (s : State) :
    Framed [.acc, .trs, .cmd, .sto, .par, .via, .adm, .outs] s (execSanitizeDriveOverwrite cmd blk s) := by
  refine framed_opRun fun part h d₀ d => ?_
  simp only [List.Forall] at h
  simp [same_sanCheck, same_sanStart, h]

theorem execFormatCmd_framed (cmd : Nat) (blk : List Byte) (s : State) :
    Framed [.acc, .trs, .cmd, .sto, .par, .via, .adm, .outs] s (execFormatCmd cmd blk s) := by
  refine framed_opRun fun part h d₀ d => ?_
  simp only [List.Forall] at h
  simp [same_shelfRefresh, h]

theorem execFormatApply_framed (vol : Nat) (s : State) :
    Framed [.sto, .par, .via, .adm, .outs] s (execFormatApply vol s) := by
  refine framed_actIf fun part h d₀ d => ?_
  simp only [List.Forall] at h
  dsimp only
  repeat' split
  all_goals simp [same_freeBytes, same_admEvent, same_clearMaps, same_putOp, same_shelfRefresh, h]

theorem execSelfTestShort_framed (cmd : Nat) (s : State) :
    Framed [.acc, .cmd, .adm, .bst, .outs] s (execSelfTestShort cmd s) := by
  refine framed_testRun (by simp) (by simp) fun part h d₀ d => ?_
  simp only [List.Forall] at h
  simp [same_testStart, h]

theorem execSelfTestExtended_framed (cmd : Nat) (s : State) :
    Framed [.acc, .cmd, .adm, .bst, .outs] s (execSelfTestExtended cmd s) := by
  refine framed_testRun (by simp) (by simp) fun part h d₀ d => ?_
  simp only [List.Forall] at h
  simp [same_testStart, h]

theorem execImageActivate_framed (cmd : Nat) (blk : List Byte) (fw : FwImage) (img : PlanImage) (s : State) :
    Framed [.glb, .acc, .cmd, .adm, .outs] s (execImageActivate cmd blk fw img s) := by
  refine framed_adminBlock (by simp) (by simp) fun part h x d₀ d => ?_
  simp only [List.Forall] at h
  grind [same_answer, same_needPage, same_badAt, same_badBlock, same_activateGo]

/-! ### Self-test and faults -/

theorem execSliceSegmentEnd_framed (r : SegResult) (s : State) :
    Framed [.glb, .pwr, .regs, .swc, .par, .itg, .bst, .outs] s (execSliceSegmentEnd r s) := by
  refine framed_actIf fun part h d₀ d => ?_
  simp only [List.Forall] at h
  grind [same_bstCnt, same_sliceOver, same_holdUnit, same_softRepair, same_segPassed, same_mk]

theorem execHbmEccError_framed (pc : Nat) (addr : Nat) (kind : EccKind) (s : State) :
    Framed [.glb, .pwr, .acc, .trs, .bytes, .cmd, .sto, .par, .via, .itg, .adm, .bst, .outs] s (execHbmEccError pc addr kind s) := by
  refine framed_actIf fun part h d₀ d => ?_
  simp only [List.Forall] at h
  grind [same_memCnt, same_faultEvent, same_softAdd, same_retirePc, same_recoverWord, same_mk]

theorem execCpuCoreError_framed (core : Nat) (uncorrectable : Bool) (s : State) :
    Framed [.glb, .pwr, .par, .itg, .bst, .outs] s (execCpuCoreError core uncorrectable s) := by
  refine framed_actIf fun part h d₀ d => ?_
  simp only [List.Forall] at h
  simp [same_shutdown, same_faultEvent, same_mk, same_ite, h]

theorem execRefclkLoss_framed (clk : Nat) (s : State) :
    Framed [.sense, .acc, .eth, .swc, .trs, .cmd, .sto, .par, .via, .adm, .outs] s (execRefclkLoss clk s) := by
  refine framed_actIf fun part h d₀ d => ?_
  simp only [List.Forall] at h
  simp [same_drawBits, same_faultEvent, same_clockDown, same_mk, same_ite, h]

theorem execFatalClockFault_framed (s : State) :
    Framed [.glb, .pwr, .par, .itg, .bst, .outs] s (execFatalClockFault s) := by
  refine framed_actIf fun part h d₀ d => ?_
  simp only [List.Forall] at h
  simp [same_shutdown, same_mk, h]

/-! ### The register bus -/

theorem execRegisterReadClear_framed (m : Master) (off : Nat) (s : State) :
    Framed [.sense, .latch, .acc, .eth, .trs] s (execRegisterReadClear m off s) := by
  refine framed_actIf fun part h d₀ d => ?_
  simp only [List.Forall] at h
  simp [same_busRead, same_mk, h]

theorem execPlnCommit_framed (m : Master) (g : Nat) (s : State) :
    Framed [.regs, .acc, .pln, .eth, .swc, .outs] s (execPlnCommit m g s) := by
  refine framed_actIf fun part h d₀ d => ?_
  simp only [List.Forall] at h
  simp [same_commitWrite, h]

theorem execPlnDiscard_framed (m : Master) (g : Nat) (s : State) :
    Framed [.regs, .acc, .pln, .eth, .swc, .outs] s (execPlnDiscard m g s) := by
  refine framed_actIf fun part h d₀ d => ?_
  simp only [List.Forall] at h
  simp [same_commitWrite, h]

theorem execConfigRead_framed (cmd : Nat) (s : State) :
    Framed [.sense, .latch, .acc, .eth, .trs, .cmd] s (execConfigRead cmd s) := by
  refine framed_adminRun (by simp) (by simp) fun part h x d₀ d => ?_
  simp only [List.Forall] at h
  grind [same_answer, same_succeed, same_badAt, same_busRead]

/-! ### The counter unit -/

theorem execCounterSetupDump_framed (cmd : Nat) (blk : List Byte) (s : State) :
    Framed [.regs, .acc, .pln, .eth, .swc, .cmd, .outs] s (execCounterSetupDump cmd blk s) := by
  refine framed_setupRun (by simp) (by simp) fun part h x d₀ d => ?_
  simp only [List.Forall] at h
  simp [same_deny, same_answer, same_succeed, same_stageDump, same_dumpCommit, same_ite, h]

theorem execCopyOut_framed (cmd : Nat) (blk : List Byte) (s : State) :
    Framed [.acc, .trs, .bytes, .cmd, .via, .outs] s (execCopyOut cmd blk s) := by
  refine framed_setupRun (by simp) (by simp) fun part h x d₀ d => ?_
  simp only [List.Forall] at h
  grind [same_sendMsg, same_failUse, same_succeed, same_traceFlush]

end Sys2Proof.Machine

/-! ## What a reset leaves

A warm reset, HALT and the self fence clear most of the device and leave the sensors and the OTP counters: `lasting_<operation>` for each
operation from which one of them may follow. -/

namespace Sys2Proof.Machine

section
variable {d : Dev}

/-- The sensors and the two OTP anti-rollback counters: what a reset of the device leaves. -/
def Dev.lasting (d : Dev) : Sense × Nat × Nat := (d.sense, d.glb.otpFw, d.glb.otpPlan)

theorem lasting_eq {e : Dev} (h : Piece.sense.same d e ∧ Piece.glb.same d e) : e.lasting = d.lasting := by
  simp_all [Dev.lasting, Piece.same]

/-- A record update that writes none of the three. The device updated is read off device time. -/
theorem lasting_mk {free : Nat} {glb : Glb} {pwr : Pwr} {sense : Sense} {reg : Reg} {pln : Pln} {acc : Acc} {log : Log} {eth : Eth}
    {swc : Swc} {trs : Trs} {cmd : Cmd} {sto : Sto} {par : Par} {via : Via} {itg : Itg} {adm : Adm} {bst : Bst} {ctr : Ctr}
    {out : List Emit} (hs : sense = d.sense) (hf : glb.otpFw = d.glb.otpFw) (hp : glb.otpPlan = d.glb.otpPlan) :
    (⟨d.time, free, glb, pwr, sense, reg, pln, acc, log, eth, swc, trs, cmd, sto, par, via, itg, adm, bst, ctr, out⟩ : Dev).lasting
      = d.lasting := by
  simp [Dev.lasting, hs, hf, hp]

@[simp] theorem lasting_ite {c : Prop} [Decidable c] {a b : Dev} : (if c then a else b).lasting = if c then a.lasting else b.lasting :=
  apply_ite Dev.lasting c a b

@[simp] theorem lasting_foldl {α : Type} {f : Dev → α → Dev} (h : ∀ d a, (f d a).lasting = d.lasting) (l : List α) (d : Dev) :
    (l.foldl f d).lasting = d.lasting := by
  induction l generalizing d with
  | nil => rfl
  | cons a l ih => exact (ih _).trans (h d a)

/-! ### What writes neither the sensors nor the global state -/

@[simp] theorem lasting_modDrive (k f) : (modDrive d k f).lasting = d.lasting := lasting_eq (by simp [same_modDrive, same_refl])
@[simp] theorem lasting_emit (e) : (emit d e).lasting = d.lasting := lasting_eq (by simp [same_emit, same_refl])
@[simp] theorem lasting_emits (l) : (emits d l).lasting = d.lasting := lasting_eq (by simp [same_emits, same_refl])
@[simp] theorem lasting_count (off) : (count d off).lasting = d.lasting := lasting_eq (by simp [same_count, same_refl])
@[simp] theorem lasting_setSticky (off bit) : (setSticky d off bit).lasting = d.lasting := lasting_eq (by simp [same_setSticky, same_refl])
@[simp] theorem lasting_logEvent (event attn topic detail) : (logEvent d event attn topic detail).lasting = d.lasting :=
  lasting_eq (by simp [same_logEvent, same_refl])
@[simp] theorem lasting_deny (m target wher right) : (deny d m target wher right).lasting = d.lasting :=
  lasting_eq (by simp [same_deny, same_refl])
@[simp] theorem lasting_settle : (settle d).lasting = d.lasting := lasting_eq (by simp [same_settle, same_refl])
@[simp] theorem lasting_setDom (n p) : (setDom d n p).lasting = d.lasting := lasting_eq (by simp [same_setDom, same_refl])
@[simp] theorem lasting_domServe : (domServe d).lasting = d.lasting := lasting_eq (by simp [same_domServe, same_refl])
@[simp] theorem lasting_domRequestOn (n takeover) : (domRequestOn d n takeover).lasting = d.lasting :=
  lasting_eq (by simp [same_domRequestOn, same_refl])
@[simp] theorem lasting_writeRw (o i v) : (writeRw d o i v).lasting = d.lasting := lasting_eq (by simp [same_writeRw, same_refl])
@[simp] theorem lasting_laneCtrl (m v) : (laneCtrl d m v).lasting = d.lasting := lasting_eq (by simp [same_laneCtrl, same_refl])
@[simp] theorem lasting_fdbFlush (v) : (fdbFlush d v).lasting = d.lasting := lasting_eq (by simp [same_fdbFlush, same_refl])
@[simp] theorem lasting_pairSend (m) : (pairSend d m).lasting = d.lasting := lasting_eq (by simp [same_pairSend, same_refl])
@[simp] theorem lasting_pairAll (m) : (pairAll d m).lasting = d.lasting := lasting_eq (by simp [same_pairAll, same_refl])
@[simp] theorem lasting_mirrorQueue (item a) : (mirrorQueue d item a).lasting = d.lasting :=
  lasting_eq (by simp [same_mirrorQueue, same_refl])
@[simp] theorem lasting_mirror (item) : (mirror d item).lasting = d.lasting := lasting_eq (by simp [same_mirror, same_refl])
@[simp] theorem lasting_trsCnt (i) : (trsCnt d i).lasting = d.lasting := lasting_eq (by simp [same_trsCnt, same_refl])
@[simp] theorem lasting_trsCntN (i n) : (trsCntN d i n).lasting = d.lasting := lasting_eq (by simp [same_trsCntN, same_refl])
@[simp] theorem lasting_ctxCnt (i) : (ctxCnt d i).lasting = d.lasting := lasting_eq (by simp [same_ctxCnt, same_refl])
@[simp] theorem lasting_pdCnt (pd i n) : (pdCnt d pd i n).lasting = d.lasting := lasting_eq (by simp [same_pdCnt, same_refl])
@[simp] theorem lasting_modConn (c f) : (modConn d c f).lasting = d.lasting := lasting_eq (by simp [same_modConn, same_refl])
@[simp] theorem lasting_drawBits (n) : (drawBits d n).2.lasting = d.lasting := lasting_eq (by simp [same_drawBits, same_refl])
@[simp] theorem lasting_sendAck (c path probe) : (sendAck d c path probe).lasting = d.lasting :=
  lasting_eq (by simp [same_sendAck, same_refl])
@[simp] theorem lasting_makeRoom : (makeRoom d).2.lasting = d.lasting := lasting_eq (by simp [same_makeRoom, same_refl])
@[simp] theorem lasting_makeResident (c) : (makeResident d c).lasting = d.lasting := lasting_eq (by simp [same_makeResident, same_refl])
@[simp] theorem lasting_wantCtx (c) : (wantCtx d c).2.lasting = d.lasting := lasting_eq (by simp [same_wantCtx, same_refl])
@[simp] theorem lasting_pump (c) : (pump d c).lasting = d.lasting := lasting_eq (by simp [same_pump, same_refl])
@[simp] theorem lasting_sendMsg (c m) : (sendMsg d c m).lasting = d.lasting := lasting_eq (by simp [same_sendMsg, same_refl])
@[simp] theorem lasting_sendRead (c addr key len u) : (sendRead d c addr key len u).lasting = d.lasting :=
  lasting_eq (by simp [same_sendRead, same_refl])
@[simp] theorem lasting_sendNack (c p code detail) : (sendNack d c p code detail).lasting = d.lasting :=
  lasting_eq (by simp [same_sendNack, same_refl])
@[simp] theorem lasting_nackBadConn (net p) : (nackBadConn d net p).lasting = d.lasting :=
  lasting_eq (by simp [same_nackBadConn, same_refl])
@[simp] theorem lasting_failUse (u code) : (failUse d u code).lasting = d.lasting := lasting_eq (by simp [same_failUse, same_refl])
@[simp] theorem lasting_takeEdge (c edge) : (takeEdge d c edge).lasting = d.lasting := lasting_eq (by simp [same_takeEdge, same_refl])
@[simp] theorem lasting_takeAck (c p) : (takeAck d c p).lasting = d.lasting := lasting_eq (by simp [same_takeAck, same_refl])
@[simp] theorem lasting_timerGo (c t) : (timerGo d c t).lasting = d.lasting := lasting_eq (by simp [same_timerGo, same_refl])
@[simp] theorem lasting_innerSend (pier kind r) : (innerSend d pier kind r).lasting = d.lasting :=
  lasting_eq (by simp [same_innerSend, same_refl])
@[simp] theorem lasting_gatedGo : (gatedGo d).lasting = d.lasting := lasting_eq (by simp [same_gatedGo, same_refl])
@[simp] theorem lasting_lockDropAll (cmd) : (lockDropAll d cmd).lasting = d.lasting := lasting_eq (by simp [same_lockDropAll, same_refl])
@[simp] theorem lasting_cmdCnt (i) : (cmdCnt d i).lasting = d.lasting := lasting_eq (by simp [same_cmdCnt, same_refl])
@[simp] theorem lasting_modSlot (c f) : (modSlot d c f).lasting = d.lasting := lasting_eq (by simp [same_modSlot, same_refl])
@[simp] theorem lasting_answer (c st n n1) : (answer d c st n n1).lasting = d.lasting := lasting_eq (by simp [same_answer, same_refl])
@[simp] theorem lasting_succeed (c n n1) : (succeed d c n n1).lasting = d.lasting := lasting_eq (by simp [same_succeed, same_refl])
@[simp] theorem lasting_answerAfter (c item st n n1) : (answerAfter d c item st n n1).lasting = d.lasting :=
  lasting_eq (by simp [same_answerAfter, same_refl])
@[simp] theorem lasting_landData (c off bs) : (landData d c off bs).lasting = d.lasting := lasting_eq (by simp [same_landData, same_refl])
@[simp] theorem lasting_dropTransfers (c) : (dropTransfers d c).lasting = d.lasting := lasting_eq (by simp [same_dropTransfers, same_refl])
@[simp] theorem lasting_burnLost : (burnLost d).lasting = d.lasting := lasting_eq (by simp [same_burnLost, same_refl])
@[simp] theorem lasting_haltNotice : (haltNotice d).lasting = d.lasting := lasting_eq (by simp [same_haltNotice, same_refl])
@[simp] theorem lasting_allOff : (allOff d).lasting = d.lasting := lasting_eq (by simp [same_allOff, same_refl])
@[simp] theorem lasting_setMember (k st) : (setMember d k st).lasting = d.lasting := lasting_eq (by simp [same_setMember, same_refl])
@[simp] theorem lasting_registerOn (k) : (registerOn d k).lasting = d.lasting := lasting_eq (by simp [same_registerOn, same_refl])
@[simp] theorem lasting_suspect (k) : (suspect d k).lasting = d.lasting := lasting_eq (by simp [same_suspect, same_refl])
@[simp] theorem lasting_admitDrive (k) : (admitDrive d k).lasting = d.lasting := lasting_eq (by simp [same_admitDrive, same_refl])
@[simp] theorem lasting_judgeAll : (judgeAll d).lasting = d.lasting := lasting_eq (by simp [same_judgeAll, same_refl])
@[simp] theorem lasting_modWork (c stripe f) : (modWork d c stripe f).lasting = d.lasting := lasting_eq (by simp [same_modWork, same_refl])
@[simp] theorem lasting_unlockAll (c) : (unlockAll d c).lasting = d.lasting := lasting_eq (by simp [same_unlockAll, same_refl])
@[simp] theorem lasting_modFrag (c stripe col f) : (modFrag d c stripe col f).lasting = d.lasting :=
  lasting_eq (by simp [same_modFrag, same_refl])
@[simp] theorem lasting_advance (c) : (advance d c).lasting = d.lasting := lasting_eq (by simp [same_advance, same_refl])
@[simp] theorem lasting_advanceAll : (advanceAll d).lasting = d.lasting := lasting_eq (by simp [same_advanceAll, same_refl])
@[simp] theorem lasting_bitmapDone (vol region ok) : (bitmapDone d vol region ok).lasting = d.lasting :=
  lasting_eq (by simp [same_bitmapDone, same_refl])
@[simp] theorem lasting_journalDone (g copy jseq ok) : (journalDone d g copy jseq ok).lasting = d.lasting :=
  lasting_eq (by simp [same_journalDone, same_refl])
@[simp] theorem lasting_settleJournal (old d : Dev) : (settleJournal old d).lasting = d.lasting :=
  lasting_eq (by simp [same_settleJournal, same_refl])
@[simp] theorem lasting_mediaError (k) : (mediaError d k).lasting = d.lasting := lasting_eq (by simp [same_mediaError, same_refl])
@[simp] theorem lasting_proxyDone (n r) : (proxyDone d n r).lasting = d.lasting := lasting_eq (by simp [same_proxyDone, same_refl])
@[simp] theorem lasting_memCnt (i) : (memCnt d i).lasting = d.lasting := lasting_eq (by simp [same_memCnt, same_refl])
@[simp] theorem lasting_bstCnt (i) : (bstCnt d i).lasting = d.lasting := lasting_eq (by simp [same_bstCnt, same_refl])
@[simp] theorem lasting_faultEvent (ev attn dom unit what) : (faultEvent d ev attn dom unit what).lasting = d.lasting :=
  lasting_eq (by simp [same_faultEvent, same_refl])
@[simp] theorem lasting_itgEvent (ev page lane vol) : (itgEvent d ev page lane vol).lasting = d.lasting :=
  lasting_eq (by simp [same_itgEvent, same_refl])
@[simp] theorem lasting_laneFail (lane) : (laneFail d lane).lasting = d.lasting := lasting_eq (by simp [same_laneFail, same_refl])
@[simp] theorem lasting_softAdd (e) : (softAdd d e).lasting = d.lasting := lasting_eq (by simp [same_softAdd, same_refl])
@[simp] theorem lasting_retirePc (pc addr) : (retirePc d pc addr).lasting = d.lasting := lasting_eq (by simp [same_retirePc, same_refl])
@[simp] theorem lasting_sliceOver : (sliceOver d).lasting = d.lasting := lasting_eq (by simp [same_sliceOver, same_refl])
@[simp] theorem lasting_sliceInterrupt : (sliceInterrupt d).lasting = d.lasting := lasting_eq (by simp [same_sliceInterrupt, same_refl])
@[simp] theorem lasting_gpioGo (m f) : (gpioGo d m f).lasting = d.lasting := lasting_eq (by simp [same_gpioGo, same_refl])
@[simp] theorem lasting_domLost (n) : (domLost d n).lasting = d.lasting := lasting_eq (by simp [same_domLost, same_refl])
@[simp] theorem lasting_pwrCtrlIgnored (bits) : (pwrCtrlIgnored d bits).lasting = d.lasting :=
  lasting_eq (by simp [same_pwrCtrlIgnored, same_refl])
@[simp] theorem lasting_idleEnter : (idleEnter d).lasting = d.lasting := lasting_eq (by simp [same_idleEnter, same_refl])
@[simp] theorem lasting_pwrCapGo (v) : (pwrCapGo d v).lasting = d.lasting := lasting_eq (by simp [same_pwrCapGo, same_refl])
@[simp] theorem lasting_thermCfgGo (v) : (thermCfgGo d v).lasting = d.lasting := lasting_eq (by simp [same_thermCfgGo, same_refl])
@[simp] theorem lasting_spiRead (flashB header) : (spiRead d flashB header).lasting = d.lasting :=
  lasting_eq (by simp [same_spiRead, same_refl])
@[simp] theorem lasting_holdOff (n) : (holdOff d n).lasting = d.lasting := lasting_eq (by simp [same_holdOff, same_refl])
@[simp] theorem lasting_bootTested (fails laneFails repairs) : (bootTested d fails laneFails repairs).1.lasting = d.lasting :=
  lasting_eq (by simp [same_bootTested, same_refl])
@[simp] theorem lasting_modCq (q f) : (modCq d q f).lasting = d.lasting := lasting_eq (by simp [same_modCq, same_refl])
@[simp] theorem lasting_tenantCount (s st flags latency) : (tenantCount d s st flags latency).lasting = d.lasting :=
  lasting_eq (by simp [same_tenantCount, same_refl])
@[simp] theorem lasting_engineCount (st flags) : (engineCount d st flags).lasting = d.lasting :=
  lasting_eq (by simp [same_engineCount, same_refl])
@[simp] theorem lasting_traceOf (s) : (traceOf d s).lasting = d.lasting := lasting_eq (by simp [same_traceOf, same_refl])
@[simp] theorem lasting_readHead (cq) : (readHead d cq).lasting = d.lasting := lasting_eq (by simp [same_readHead, same_refl])
@[simp] theorem lasting_removeSq (q) : (removeSq d q).lasting = d.lasting := lasting_eq (by simp [same_removeSq, same_refl])
@[simp] theorem lasting_finishDeletes : (finishDeletes d).lasting = d.lasting := lasting_eq (by simp [same_finishDeletes, same_refl])
@[simp] theorem lasting_failXfer (c) : (failXfer d c).lasting = d.lasting := lasting_eq (by simp [same_failXfer, same_refl])
@[simp] theorem lasting_matchLate : (matchLate d).lasting = d.lasting := lasting_eq (by simp [same_matchLate, same_refl])
@[simp] theorem lasting_badAt (c off) : (badAt d c off).lasting = d.lasting := lasting_eq (by simp [same_badAt, same_refl])
@[simp] theorem lasting_cmdPdSelGo (v) : (cmdPdSelGo d v).lasting = d.lasting := lasting_eq (by simp [same_cmdPdSelGo, same_refl])
@[simp] theorem lasting_msubGo (m) : (msubGo d m).lasting = d.lasting := lasting_eq (by simp [same_msubGo, same_refl])
@[simp] theorem lasting_markRx (c p now) : (markRx d c p now).lasting = d.lasting := lasting_eq (by simp [same_markRx, same_refl])
@[simp] theorem lasting_rxWrite (c x p) : (rxWrite d c x p).lasting = d.lasting := lasting_eq (by simp [same_rxWrite, same_refl])
@[simp] theorem lasting_rxReadReq (c x p) : (rxReadReq d c x p).lasting = d.lasting := lasting_eq (by simp [same_rxReadReq, same_refl])
@[simp] theorem lasting_serveHeld : (serveHeld d).lasting = d.lasting := lasting_eq (by simp [same_serveHeld, same_refl])
@[simp] theorem lasting_relayBack (c addr bs) : (relayBack d c addr bs).lasting = d.lasting :=
  lasting_eq (by simp [same_relayBack, same_refl])
@[simp] theorem lasting_landFrag (n off bs) : (landFrag d n off bs).lasting = d.lasting := lasting_eq (by simp [same_landFrag, same_refl])
@[simp] theorem lasting_takeNack (c x p) : (takeNack d c x p).lasting = d.lasting := lasting_eq (by simp [same_takeNack, same_refl])
@[simp] theorem lasting_takeResumeReply (c x p) : (takeResumeReply d c x p).lasting = d.lasting :=
  lasting_eq (by simp [same_takeResumeReply, same_refl])
@[simp] theorem lasting_takeConnectReply (c x p) : (takeConnectReply d c x p).lasting = d.lasting :=
  lasting_eq (by simp [same_takeConnectReply, same_refl])
@[simp] theorem lasting_resumeUnknown (net p) : (resumeUnknown d net p).lasting = d.lasting :=
  lasting_eq (by simp [same_resumeUnknown, same_refl])
@[simp] theorem lasting_takeResume (net c x p) : (takeResume d net c x p).lasting = d.lasting :=
  lasting_eq (by simp [same_takeResume, same_refl])
@[simp] theorem lasting_rxConnect (net p) : (rxConnect d net p).lasting = d.lasting := lasting_eq (by simp [same_rxConnect, same_refl])
@[simp] theorem lasting_violate (c x p code detail) : (violate d c x p code detail).lasting = d.lasting :=
  lasting_eq (by simp [same_violate, same_refl])
@[simp] theorem lasting_park (c net p) : (park d c net p).lasting = d.lasting := lasting_eq (by simp [same_park, same_refl])
@[simp] theorem lasting_ctxError (c) : (ctxError d c).lasting = d.lasting := lasting_eq (by simp [same_ctxError, same_refl])
@[simp] theorem lasting_putLive (o v) : (putLive d o v).lasting = d.lasting := lasting_eq (by simp [same_putLive, same_refl])
@[simp] theorem lasting_pdSelGo (v) : (pdSelGo d v).lasting = d.lasting := lasting_eq (by simp [same_pdSelGo, same_refl])
@[simp] theorem lasting_pdCtrlGo (v) : (pdCtrlGo d v).lasting = d.lasting := lasting_eq (by simp [same_pdCtrlGo, same_refl])
@[simp] theorem lasting_endRecovery (micros g) : (endRecovery d micros g).lasting = d.lasting :=
  lasting_eq (by simp [same_endRecovery, same_refl])
@[simp] theorem lasting_finishDeletions : (finishDeletions d).lasting = d.lasting := lasting_eq (by simp [same_finishDeletions, same_refl])
@[simp] theorem lasting_parCnt (i) : (parCnt d i).lasting = d.lasting := lasting_eq (by simp [same_parCnt, same_refl])
@[simp] theorem lasting_parEvent (ev attn a b micros) : (parEvent d ev attn a b micros).lasting = d.lasting :=
  lasting_eq (by simp [same_parEvent, same_refl])
@[simp] theorem lasting_startSync : (startSync d).lasting = d.lasting := lasting_eq (by simp [same_startSync, same_refl])
@[simp] theorem lasting_ackAct (a) : (ackAct d a).lasting = d.lasting := lasting_eq (by simp [same_ackAct, same_refl])
@[simp] theorem lasting_partnerReached (slots) : (partnerReached d slots).lasting = d.lasting :=
  lasting_eq (by simp [same_partnerReached, same_refl])
@[simp] theorem lasting_announceAddrs (l) : (announceAddrs d l).lasting = d.lasting := lasting_eq (by simp [same_announceAddrs, same_refl])
@[simp] theorem lasting_adoptAddrs (l) : (adoptAddrs d l).lasting = d.lasting := lasting_eq (by simp [same_adoptAddrs, same_refl])
@[simp] theorem lasting_installQueues (a byPlan) : (installQueues d a byPlan).lasting = d.lasting :=
  lasting_eq (by simp [same_installQueues, same_refl])
@[simp] theorem lasting_installGroups (moved) : (installGroups d moved).lasting = d.lasting :=
  lasting_eq (by simp [same_installGroups, same_refl])
@[simp] theorem lasting_replayAll (p sqs) : (replayAll d p sqs).lasting = d.lasting := lasting_eq (by simp [same_replayAll, same_refl])
@[simp] theorem lasting_installForwarded (p) : (installForwarded d p).lasting = d.lasting :=
  lasting_eq (by simp [same_installForwarded, same_refl])
@[simp] theorem lasting_askArbiter (n) : (askArbiter d n).lasting = d.lasting := lasting_eq (by simp [same_askArbiter, same_refl])
@[simp] theorem lasting_fenceStep : (fenceStep d).lasting = d.lasting := lasting_eq (by simp [same_fenceStep, same_refl])
@[simp] theorem lasting_delayAll : (delayAll d).lasting = d.lasting := lasting_eq (by simp [same_delayAll, same_refl])
@[simp] theorem lasting_nextArbiter (n) : (nextArbiter d n).lasting = d.lasting := lasting_eq (by simp [same_nextArbiter, same_refl])
@[simp] theorem lasting_shelfDone (g) : (shelfDone d g).lasting = d.lasting := lasting_eq (by simp [same_shelfDone, same_refl])
@[simp] theorem lasting_joinSend : (joinSend d).lasting = d.lasting := lasting_eq (by simp [same_joinSend, same_refl])
@[simp] theorem lasting_takePartner (j) : (takePartner d j).lasting = d.lasting := lasting_eq (by simp [same_takePartner, same_refl])
@[simp] theorem lasting_setPath (pathB p) : (setPath d pathB p).lasting = d.lasting := lasting_eq (by simp [same_setPath, same_refl])
@[simp] theorem lasting_admEvent (ev attn vol what code) : (admEvent d ev attn vol what code).lasting = d.lasting :=
  lasting_eq (by simp [same_admEvent, same_refl])
@[simp] theorem lasting_spiOps (flashB ops) : (spiOps d flashB ops).lasting = d.lasting := lasting_eq (by simp [same_spiOps, same_refl])
@[simp] theorem lasting_segPassed (u) : (segPassed d u).lasting = d.lasting := lasting_eq (by simp [same_segPassed, same_refl])
@[simp] theorem lasting_fuseGo (v) : (fuseGo d v).lasting = d.lasting := lasting_eq (by simp [same_fuseGo, same_refl])
@[simp] theorem lasting_slotLost (off) : (slotLost d off).lasting = d.lasting := lasting_eq (by simp [same_slotLost, same_refl])
@[simp] theorem lasting_dirtyLost : (dirtyLost d).lasting = d.lasting := lasting_eq (by simp [same_dirtyLost, same_refl])
@[simp] theorem lasting_stagingLost : (stagingLost d).lasting = d.lasting := lasting_eq (by simp [same_stagingLost, same_refl])
@[simp] theorem lasting_dumpLost (off) : (dumpLost d off).lasting = d.lasting := lasting_eq (by simp [same_dumpLost, same_refl])
@[simp] theorem lasting_unlockBy (m g) : (unlockBy d m g).lasting = d.lasting := lasting_eq (by simp [same_unlockBy, same_refl])
@[simp] theorem lasting_commitWrite (m g discard) : (commitWrite d m g discard).lasting = d.lasting :=
  lasting_eq (by simp [same_commitWrite, same_refl])
@[simp] theorem lasting_lockClaim (m g) : (lockClaim d m g).lasting = d.lasting := lasting_eq (by simp [same_lockClaim, same_refl])
@[simp] theorem lasting_pageEntryW0 (k v) : (pageEntryW0 d k v).lasting = d.lasting := lasting_eq (by simp [same_pageEntryW0, same_refl])
@[simp] theorem lasting_pageEntryW1 (k v) : (pageEntryW1 d k v).lasting = d.lasting := lasting_eq (by simp [same_pageEntryW1, same_refl])
@[simp] theorem lasting_ctrEntry (k x v) : (ctrEntry d k x v).lasting = d.lasting := lasting_eq (by simp [same_ctrEntry, same_refl])
@[simp] theorem lasting_keyEntry (e x v) : (keyEntry d e x v).lasting = d.lasting := lasting_eq (by simp [same_keyEntry, same_refl])
@[simp] theorem lasting_privSel (m v) : (privSel d m v).lasting = d.lasting := lasting_eq (by simp [same_privSel, same_refl])
@[simp] theorem lasting_stageReg (o v) : (stageReg d o v).lasting = d.lasting := lasting_eq (by simp [same_stageReg, same_refl])

@[simp] theorem lasting_memberChange (f) (hf : ∀ d, (f d).lasting = d.lasting) : (memberChange d f).lasting = d.lasting := by
  simp [memberChange, hf]
@[simp] theorem lasting_mirrorThen (item a now) (hnow : ∀ d, (now d).lasting = d.lasting) :
    (mirrorThen d item a now).lasting = d.lasting := by
  simp [mirrorThen, hnow]
@[simp] theorem lasting_writeAccess (m off f) (hf : ∀ d, (f d).lasting = d.lasting) : (writeAccess d m off f).lasting = d.lasting := by
  simp [writeAccess, hf]

/-! ### What changes the global state and leaves the counters -/

@[simp] theorem lasting_enter (st) : (enter d st).lasting = d.lasting := rfl
@[simp] theorem lasting_enterService : (enterService d).lasting = d.lasting := by simp [enterService]
@[simp] theorem lasting_maybeRecover : (maybeRecover d).lasting = d.lasting := by simp [maybeRecover]
@[simp] theorem lasting_joinOver : (joinOver d).lasting = d.lasting := by simp [joinOver, ↓lasting_mk]
@[simp] theorem lasting_wdogGo (m v) : (wdogGo d m v).lasting = d.lasting := by simp [wdogGo, ↓lasting_mk]
@[simp] theorem lasting_clearBits (o v mask) : (clearBits d o v mask).lasting = d.lasting := by simp [clearBits, ↓lasting_mk]
@[simp] theorem lasting_handoverDone (epoch groups roles maint) : (handoverDone d epoch groups roles maint).lasting = d.lasting := by
  simp [handoverDone, giveQueues, ↓lasting_mk]
@[simp] theorem lasting_turnStep : (turnStep d).lasting = d.lasting := by
  grind [turnStep, lasting_mk, lasting_domRequestOn, lasting_enter]
@[simp] theorem lasting_idleExit : (idleExit d).lasting = d.lasting := by
  simp only [idleExit, turnOn]
  split <;> simp [↓lasting_mk]
@[simp] theorem lasting_pwrCtrlGo (v) : (pwrCtrlGo d v).lasting = d.lasting := by simp [pwrCtrlGo]
@[simp] theorem lasting_winArbitration : (winArbitration d).lasting = d.lasting := by simp [winArbitration, ↓lasting_mk]
@[simp] theorem lasting_startTakeover (cause) : (startTakeover d cause).lasting = d.lasting := by
  simp [startTakeover, ↓lasting_mk]

@[simp] theorem lasting_bootField (lsb width x) : (bootField d lsb width x).lasting = d.lasting := rfl
@[simp] theorem lasting_fwStart (source i) : (fwStart d source i).lasting = d.lasting := rfl
@[simp] theorem lasting_toMaint : (toMaint d).lasting = d.lasting := by simp [toMaint, ↓lasting_mk]
@[simp] theorem lasting_noPlan (source result staging) : (noPlan d source result staging).lasting = d.lasting := by simp [noPlan]
@[simp] theorem lasting_toTrain : (toTrain d).lasting = d.lasting := by
  grind [toTrain, lasting_mk, lasting_maybeRecover, lasting_joinOver, lasting_enter]
@[simp] theorem lasting_loadPlan (p) : (loadPlan d p).lasting = d.lasting := rfl
@[simp] theorem lasting_shutdown : (shutdown d).lasting = d.lasting := by simp [shutdown, ↓lasting_mk]
@[simp] theorem lasting_thermtripGo : (thermtripGo d).lasting = d.lasting := by simp [thermtripGo, ↓lasting_mk]
@[simp] theorem lasting_holdUnit (u) : (holdUnit d u).lasting = d.lasting := by simp [holdUnit, ↓lasting_mk]
@[simp] theorem lasting_softRepair (u f) : (softRepair d u f).lasting = d.lasting := by simp [softRepair, ↓lasting_mk]
@[simp] theorem lasting_recoverWord (addr pc) : (recoverWord d addr pc).lasting = d.lasting := by
  simp only [recoverWord]
  split <;> simp [↓lasting_mk]

/-! ### Resets -/

@[simp] theorem lasting_clearVolatile : (clearVolatile d).lasting = d.lasting := rfl
@[simp] theorem lasting_warmClear : (warmClear d).lasting = d.lasting := by simp [warmClear]
@[simp] theorem lasting_warmReset (bit) : (warmReset d bit).lasting = d.lasting := by simp [warmReset, ↓lasting_mk]
@[simp] theorem lasting_selfFence : (selfFence d).lasting = d.lasting := by simp [selfFence]
@[simp] theorem lasting_resetCtrlGo (v) : (resetCtrlGo d v).lasting = d.lasting := by simp [resetCtrlGo]

/-! ### Commands on media -/

@[simp] theorem lasting_repairDone (n stripe col r) : (repairDone d n stripe col r).lasting = d.lasting := by
  grind [repairDone, lasting_mk, lasting_selfFence, lasting_advanceAll, lasting_unlockAll, lasting_mediaError]
@[simp] theorem lasting_fragDone (c stripe col r) : (fragDone d c stripe col r).lasting = d.lasting := by
  grind [fragDone, lasting_selfFence, lasting_advanceAll, lasting_modFrag, lasting_memberChange, lasting_suspect]
@[simp] theorem lasting_readDone (c stripe col first r) : (readDone d c stripe col first r).lasting = d.lasting := by
  grind [readDone, lasting_selfFence, lasting_advance, lasting_modWork, lasting_memberChange, lasting_mediaError]
@[simp] theorem lasting_useDone (u r) : (useDone d u r).lasting = d.lasting := by
  simp only [useDone]
  split <;> simp

/-! ### Postings -/

@[simp] theorem lasting_freeSlot (c) : (freeSlot d c).lasting = d.lasting := by simp [freeSlot, ↓lasting_mk]
@[simp] theorem lasting_postOne (p q) : (postOne d p q).lasting = d.lasting := by
  grind [postOne, lasting_mk, lasting_readHead, lasting_sendMsg, lasting_freeSlot, lasting_traceOf]
@[simp] theorem lasting_postGo (l blocked) : (postGo l blocked d).lasting = d.lasting := by
  induction l generalizing d blocked with
  | nil => rfl
  | cons p l ih => grind [postGo, lasting_postOne]
@[simp] theorem lasting_postAll : (postAll d).lasting = d.lasting := by simp [postAll]
@[simp] theorem lasting_enqueuePost (cq cmd slot entry tag wait) : (enqueuePost d cq cmd slot entry tag wait).lasting = d.lasting := by
  simp [enqueuePost, ↓lasting_mk]
@[simp] theorem lasting_generate (c s late waits latency) : (generate d c s late waits latency).lasting = d.lasting := by
  grind [generate, lasting_mk, lasting_freeSlot, lasting_engineCount, lasting_tenantCount, lasting_traceOf, lasting_drawBits,
    lasting_mirror, lasting_innerSend, lasting_cmdCnt, lasting_modCq, lasting_enqueuePost]
@[simp] theorem lasting_attachCq (cmd x pd) : (attachCq cmd x pd d).lasting = d.lasting := by
  grind [attachCq, lasting_mk, lasting_badAt, lasting_postAll, lasting_readHead, lasting_answerAfter]
@[simp] theorem lasting_discardSq (q) : (discardSq d q).lasting = d.lasting := by
  grind [discardSq, lasting_mk, lasting_freeSlot, lasting_dropTransfers, lasting_cmdCnt, lasting_modSlot, lasting_removeSq, lasting_foldl]

/-! ### Trestle -/

@[simp] theorem lasting_landFragBack (tag off bs) : (landFragBack d tag off bs).lasting = d.lasting := by
  grind [landFragBack, lasting_mk, lasting_readDone]
@[simp] theorem lasting_landRead (u off bs last) : (landRead d u off bs last).lasting = d.lasting := by
  simp only [landRead]
  split <;> simp
@[simp] theorem lasting_rxReadResp (c x p) : (rxReadResp d c x p).lasting = d.lasting := by
  simp only [rxReadResp]
  split <;> simp
@[simp] theorem lasting_rxAct (net c x p) : (rxAct d net c x p).lasting = d.lasting := by
  unfold rxAct
  dsimp only
  repeat' split
  all_goals simp [↓lasting_mk]
@[simp] theorem lasting_rxStep3 (net c p) : (rxStep3 d net c p).lasting = d.lasting := by
  grind [rxStep3, lasting_violate, lasting_rxAct]
@[simp] theorem lasting_rxConn (c x net p) : (rxConn d c x net p).lasting = d.lasting := by simp [rxConn]
@[simp] theorem lasting_rxPacket (net p) : (rxPacket d net p).lasting = d.lasting := by
  grind [rxPacket, lasting_trsCnt, lasting_trsCntN, lasting_rxConnect, lasting_rxConn, lasting_resumeUnknown, lasting_nackBadConn]
@[simp] theorem lasting_ctxReady (c) : (ctxReady d c).lasting = d.lasting := by simp [ctxReady, ↓lasting_mk]

/-! ### The pair -/

@[simp] theorem lasting_releaseAcks : (releaseAcks d).lasting = d.lasting := by simp [releaseAcks, ↓lasting_mk]
@[simp] theorem lasting_install (moved a byPlan) : (install d moved a byPlan).lasting = d.lasting := by simp [install, ↓lasting_mk]
@[simp] theorem lasting_losePartner (cause) : (losePartner d cause).lasting = d.lasting := by simp [losePartner, ↓lasting_mk]
@[simp] theorem lasting_takeoverEnd : (takeoverEnd d).lasting = d.lasting := by simp [takeoverEnd, ↓lasting_mk]
@[simp] theorem lasting_sameSide : (sameSide d).lasting = d.lasting := by simp [sameSide, ↓lasting_mk]

/-! ### The register port -/

@[simp] theorem lasting_ownWrite (m o v) : (ownWrite d m o v).lasting = d.lasting := by
  simp [ownWrite, ↓lasting_mk]
@[simp] theorem lasting_plainWrite (m o v) : (plainWrite d m o v).lasting = d.lasting := by
  grind [plainWrite, lasting_stageReg, lasting_writeRw, lasting_clearBits, lasting_ownWrite]
@[simp] theorem lasting_busWrite (m o v) : (busWrite d m o v).lasting = d.lasting := by simp [busWrite]
end

end Sys2Proof.Machine

/-! ## Commands that may reset the device -/

namespace Sys2Proof.Machine

/-! ### What a guard says of the device state -/

theorem running_of_planned {d : Dev} (h : planned d = true) : running d = true := by
  grind [planned, running]

theorem running_of_serving {d : Dev} (h : serving d = true) : running d = true := by
  grind [serving, running]

/-! ### Commands that a slot runs -/

section
variable {d : Dev}

theorem lasting_forCmd (c f) (hf : ∀ d, (f d).lasting = d.lasting) : (forCmd d c f).lasting = d.lasting := by
  have hact : (actFor d c).lasting = d.lasting := lasting_eq (by simp [same_actFor, same_refl])
  have hacting (x) : ({ f (actFor d c) with acc.acting := x } : Dev).lasting = d.lasting := (hf _).trans hact
  grind [forCmd, lasting_mk, lasting_modSlot]

theorem lasting_adminStart {c op : Nat} {x : Slot} {e : Dev} (h : adminStart d c op = some (x, e)) : e.lasting = d.lasting :=
  lasting_eq ⟨(same_adminStart (by simp) h).2 (same_refl ..), (same_adminStart (by simp) h).2 (same_refl ..)⟩

theorem lasting_needPage (c x page right f) (hf : ∀ d, (f d).lasting = d.lasting) : (needPage d c x page right f).lasting = d.lasting := by
  simp [needPage, hf]

/-! ### The device state under the register port -/

theorem st_eq_of_same {e : Dev} (h : Piece.glb.same d e) : e.glb.st = d.glb.st := congrArg Glb.st h

theorem st_turnStep (h : d.glb.st ≠ .plan) : (turnStep d).glb.st = d.glb.st := by
  have hon (n t) : (domRequestOn d n t).glb.st = d.glb.st := st_eq_of_same (by simp [same_domRequestOn, same_refl])
  grind [turnStep]

theorem st_pwrCtrlGo (h : d.glb.st ≠ .plan) (v) : (pwrCtrlGo d v).glb.st = d.glb.st := by
  have hidle : (idleEnter d).glb.st = d.glb.st := st_eq_of_same (by simp [same_idleEnter, same_refl])
  have hexit {d : Dev} (h : d.glb.st ≠ .plan) : (idleExit d).glb.st = d.glb.st := by
    unfold idleExit turnOn
    split
    · rfl
    · exact st_turnStep h
  have hign (b) : (pwrCtrlIgnored d b).glb.st = d.glb.st := st_eq_of_same (by simp [same_pwrCtrlIgnored, same_refl])
  grind [pwrCtrlGo]

theorem glb_ownWrite {o : Nat} (h30 : o ≠ 0x30) (h34 : o ≠ 0x34) (h48 : o ≠ 0x10048) (m v) : Piece.glb.same d (ownWrite d m o v) := by
  simp [ownWrite, h30, h34, h48, same_ite, same_refl, same_pwrCapGo, same_thermCfgGo, same_commitWrite, same_lockClaim, same_unlockBy,
    same_pageEntryW1, same_pageEntryW0, same_laneCtrl, same_fdbFlush, same_pdSelGo, same_putLive, same_mk, same_pdCtrlGo, same_cmdPdSelGo,
    same_setSticky, same_msubGo, same_keyEntry, same_fuseGo, same_privSel, same_ctrEntry, same_gpioGo]

theorem st_ownWrite (h : running d = false) (m o v) : (ownWrite d m o v).glb.st = d.glb.st := by
  have hp : d.glb.st ≠ .plan := fun hp => by simp [running, hp] at h
  by_cases h30 : o = 0x30
  · simp [ownWrite, h30, h]
  by_cases h34 : o = 0x34
  · simp [ownWrite, h34, h]
  by_cases h48 : o = 0x10048
  · simpa [ownWrite, h48] using st_pwrCtrlGo hp v
  · exact st_eq_of_same (glb_ownWrite h30 h34 h48 m v)

theorem st_plainWrite (h : running d = false) (m o v) : (plainWrite d m o v).glb.st = d.glb.st := by
  have hstage : (stageReg d o v).glb.st = d.glb.st := st_eq_of_same (by simp [same_stageReg, same_refl])
  have hrw (i) : (writeRw d o i v).glb.st = d.glb.st := st_eq_of_same (by simp [same_writeRw, same_refl])
  grind [plainWrite, clearBits, st_ownWrite]

theorem st_busWrite (h : running d = false) (m o v) : (busWrite d m o v).glb.st = d.glb.st := by
  have hdeny : (deny d m 0 o rWRITE).glb.st = d.glb.st := st_eq_of_same (by simp [same_deny, same_refl])
  grind [busWrite, st_plainWrite]

theorem st_settle : (settle d).glb.st = d.glb.st := st_eq_of_same (same_settle.2 (same_refl ..))
end

/-! ### Outcomes of commands that may reset the device -/

/-- The device is in HALT, or OFF. -/
def Dev.Stopped (d : Dev) : Prop := d.glb.st = .halt ∨ d.glb.st = .off

theorem running_of_stopped {d : Dev} (h : d.Stopped) : running d = false := by
  grind [Dev.Stopped, running]

/-- An outcome is a next state with the queue as it stood that has the sensors and the OTP counters as before, and the device state too
where it was HALT or OFF. -/
def Lasts (s : State) (o : Host.Outcome State Fault Refusal) : Prop :=
  ∃ d, o = .next { s with dev := d } ∧ d.lasting = s.dev.lasting ∧ (s.dev.Stopped → d.glb.st = s.dev.glb.st)

theorem lasts_actIf {s : State} {g : Dev → Bool} {f : Dev → Dev}
    (hst : ∀ d, g d = true → d.Stopped → (f d).glb.st = d.glb.st) (hf : ∀ d, (f d).lasting = d.lasting) :
    Lasts s (actIf g s f) := by
  refine ⟨_, actIf_eq g s f, ?_⟩
  split
  · next hg => exact ⟨by simp [hf], fun hr => st_settle.trans (hst _ hg hr)⟩
  · exact ⟨rfl, fun _ => rfl⟩

/-- Under a guard that only a running device meets, what lasts is all there is to show. -/
theorem lasts_whileRunning {s : State} {g : Dev → Bool} {f : Dev → Dev} (hg : ∀ d, g d = true → running d = true)
    (hf : ∀ d, (f d).lasting = d.lasting) : Lasts s (actIf g s f) :=
  lasts_actIf (fun d h hr => absurd (hg d h) (by simp [running_of_stopped hr])) hf

theorem lasts_arrive {s : State} {net : Net} {p : Pkt} : Lasts s (arrive s net p) :=
  lasts_whileRunning (fun d h => by simp_all [running_of_serving]) (by simp)

section
variable (s : State)

theorem execHaltEntry_lasts : Lasts s (execHaltEntry s) :=
  lasts_whileRunning (fun d h => by simp_all) fun d => rfl

theorem execGlbResetCtrlWrite_lasts (m v) : Lasts s (execGlbResetCtrlWrite m v s) :=
  lasts_whileRunning (fun d h => h) (by simp)

theorem execWatchdogExpire_lasts : Lasts s (execWatchdogExpire s) :=
  lasts_whileRunning (fun d h => by simp_all) (by simp)

theorem execPairJoin_lasts (j) : Lasts s (execPairJoin j s) := by
  refine lasts_whileRunning (fun d h => by simp_all [running_of_planned]) fun d => ?_
  grind [lasting_mk, lasting_sameSide, lasting_joinSend, lasting_logEvent, lasting_takePartner, lasting_startSync, lasting_joinOver,
    lasting_enterService, lasting_maybeRecover]

theorem execRecoveryComplete_lasts (micros) : Lasts s (execRecoveryComplete micros s) := by
  refine lasts_whileRunning (fun d h => by simp_all [running_of_planned]) fun d => ?_
  simp [↓lasting_mk]

theorem execRegisterWrite_lasts (m off v) : Lasts s (execRegisterWrite m off v s) :=
  lasts_actIf (fun d _ hr => st_busWrite (running_of_stopped hr) ..) (by simp)

theorem execStagedRegisterWrite_lasts (m off v) : Lasts s (execStagedRegisterWrite m off v s) :=
  lasts_actIf (fun d _ hr => st_busWrite (running_of_stopped hr) ..) (by simp)

theorem execContextFetchComplete_lasts (c eccOk late) : Lasts s (execContextFetchComplete c eccOk late s) :=
  lasts_whileRunning (fun d => running_of_planned) fun d => by simp [↓lasting_mk]

theorem execCompletionGenerate_lasts (cmd late waits latencyNs) :
    Lasts s (execCompletionGenerate cmd late waits latencyNs s) := by
  refine lasts_whileRunning (fun d => running_of_planned) fun d => ?_
  dsimp only
  split <;> simp

theorem execCqSpacePoll_lasts (cq) : Lasts s (execCqSpacePoll cq s) :=
  lasts_whileRunning (fun d => running_of_planned) (by simp)

theorem execCqDetachTimeout_lasts (cq) : Lasts s (execCqDetachTimeout cq s) :=
  lasts_whileRunning (fun d => running_of_planned) fun d => by simp [↓lasting_mk]

theorem execConfigWrite_lasts (cmd) : Lasts s (execConfigWrite cmd s) := by
  refine lasts_whileRunning (fun d => running_of_serving) fun d => ?_
  split
  · next x e he =>
    refine (lasting_forCmd _ _ fun d => ?_).trans (lasting_adminStart he)
    dsimp only
    split
    · simp
    split <;> simp
  · rfl

theorem execQueueAttach_lasts (cmd) : Lasts s (execQueueAttach cmd s) := by
  refine lasts_whileRunning (fun d => running_of_serving) fun d => ?_
  split
  · rfl
  split
  · rfl
  next x e he =>
  refine (lasting_forCmd _ _ fun d => ?_).trans (lasting_adminStart he)
  dsimp only
  split
  · split <;> simp
  · exact lasting_needPage _ _ _ _ _ fun d => by split <;> simp

theorem execFragmentWriteComplete_lasts (cmd stripe col r) : Lasts s (execFragmentWriteComplete cmd stripe col r s) :=
  lasts_whileRunning (fun d => running_of_planned) (by simp)

theorem execDriveReadComplete_lasts (cmd stripe col first r) : Lasts s (execDriveReadComplete cmd stripe col first r s) :=
  lasts_whileRunning (fun d => running_of_planned) (by simp)

theorem execHeartbeatReceive_lasts (pathB h) : Lasts s (execHeartbeatReceive pathB h s) := by
  refine lasts_whileRunning (fun d h => by simp_all [running_of_planned]) fun d => ?_
  grind [lasting_mk, lasting_sameSide, lasting_setPath, lasting_parEvent, lasting_handoverDone]

theorem execMirrorAckReceive_lasts (mseq) : Lasts s (execMirrorAckReceive mseq s) := by
  refine lasts_whileRunning (fun d h => by simp_all [running_of_planned]) fun d => ?_
  grind [lasting_mk, lasting_postAll, lasting_advanceAll, lasting_foldl, lasting_ackAct, lasting_modSlot, lasting_itgEvent,
    lasting_setSticky, lasting_finishDeletes]

theorem execOwnershipRecordDurable_lasts : Lasts s (execOwnershipRecordDurable s) := by
  refine lasts_whileRunning (fun d => running_of_planned) fun d => ?_
  split
  · rfl
  dsimp only
  split <;> simp [↓lasting_mk]

theorem execTakeoverFinish_lasts : Lasts s (execTakeoverFinish s) := by
  refine lasts_whileRunning (fun d h => by simp_all [running_of_planned]) fun d => ?_
  simp

theorem execSelfFence_lasts : Lasts s (execSelfFence s) :=
  lasts_whileRunning (fun d h => by simp_all [running_of_planned]) (by simp)

theorem execFragDone_lasts (pier r) : Lasts s (execFragDone pier r s) := by
  refine lasts_whileRunning (fun d => running_of_planned) fun d => ?_
  grind [lasting_mk, lasting_warmClear, lasting_haltNotice, lasting_sendRead, lasting_useDone]

theorem execHeartbeatMiss_lasts (pathB) : Lasts s (execHeartbeatMiss pathB s) := by
  refine lasts_whileRunning (fun d h => by simp_all [running_of_planned]) fun d => ?_
  simp

theorem execPartnerHaltedReceive_lasts : Lasts s (execPartnerHaltedReceive s) :=
  lasts_whileRunning (fun d h => by simp_all [running_of_planned]) (by simp)

theorem execArbiterAcquireComplete_lasts (n a) : Lasts s (execArbiterAcquireComplete n a s) := by
  refine lasts_whileRunning (fun d h => by simp_all [running_of_planned]) fun d => ?_
  simp [↓lasting_mk]
end

/-! ### Cold resets -/

/-- An outcome is a next state with the queue as it stood that has the OTP counters as before. -/
def KeepsOtp (s : State) (o : Host.Outcome State Fault Refusal) : Prop :=
  ∃ d, o = .next { s with dev := d } ∧ d.glb.otpFw = s.dev.glb.otpFw ∧ d.glb.otpPlan = s.dev.glb.otpPlan

theorem Lasts.keepsOtp {s : State} {o : Host.Outcome State Fault Refusal} (h : Lasts s o) : KeepsOtp s o := by
  obtain ⟨d, ho, hd, -⟩ := h
  exact ⟨d, ho, congrArg (·.2.1) hd, congrArg (·.2.2) hd⟩

theorem glb_settle {d : Dev} : (settle d).glb = d.glb := same_settle.2 (same_refl .glb d)

theorem otp_coldReset {d : Dev} (cause) : (coldReset d cause).glb.otpFw = d.glb.otpFw ∧ (coldReset d cause).glb.otpPlan = d.glb.otpPlan :=
    by
  simp [coldReset]

theorem execAonPowerOn_keepsOtp (s : State) : KeepsOtp s (execAonPowerOn s) := by
  refine ⟨_, actIf_eq _ s _, ?_⟩
  split
  · exact glb_settle (d := coldReset s.dev _) ▸ otp_coldReset _
  · exact ⟨rfl, rfl⟩

theorem execAonPowerLoss_keepsOtp (s : State) : KeepsOtp s (execAonPowerLoss s) :=
  ⟨_, act_eq s _, by rw [glb_settle]; exact otp_coldReset 0⟩

theorem execPorstAssert_keepsOtp (s : State) : KeepsOtp s (execPorstAssert s) := by
  refine ⟨_, actIf_eq _ s _, ?_⟩
  split
  · exact glb_settle (d := coldReset s.dev _) ▸ otp_coldReset _
  · exact ⟨rfl, rfl⟩

end Sys2Proof.Machine

/-! ## What every other command leaves alone (O57) -/

namespace Sys2Proof.Machine

/-- A list of all the parts asks only for a next state with the queue as it stood. -/
theorem framed_of_keepsOtp {s : State} {o : Host.Outcome State Fault Refusal} (h : KeepsOtp s o) :
    Framed [.glb, .pwr, .sense, .regs, .latch, .acc, .pln, .eth, .swc, .trs, .bytes, .cmd, .sto, .par, .via, .itg, .adm, .bst, .outs]
      s o := by
  obtain ⟨d, ho, -⟩ := h
  exact ⟨d, ho, fun p hp => absurd (by cases p <;> simp) hp⟩

/-- A command that may reset the device leaves the sensors. -/
theorem framed_of_lasts {s : State} {o : Host.Outcome State Fault Refusal} (h : Lasts s o) :
    Framed [.glb, .pwr, .regs, .latch, .acc, .pln, .eth, .swc, .trs, .bytes, .cmd, .sto, .par, .via, .itg, .adm, .bst, .outs] s o := by
  obtain ⟨d, ho, hd, -⟩ := h
  refine ⟨d, ho, fun p hp => ?_⟩
  obtain rfl : p = .sense := by cases p <;> simp at hp ⊢
  exact congrArg Prod.fst hd

/-- A command with at most four parts is not among those the statement speaks of. -/
theorem of_short_changes {c : Instr} {α : Prop} (hc : (changes c).length.ble 4 = true) (h : 4 < (changes c).length) : α :=
  absurd h (Nat.not_lt.2 (Nat.le_of_ble_eq_true hc))

/-- Settles O57: a command that may reset the device or take it over leaves the sensors, or nothing; each other command of more than four
parts is `Framed` by its list; the rest have shorter lists. -/
theorem frameOfWideCommands : Obligations.FrameOfWideCommands := by
  unfold Obligations.FrameOfWideCommands
  intro c s h
  cases c with
  | aonPowerOn => exact framed_of_keepsOtp (execAonPowerOn_keepsOtp s)
  | aonPowerLoss => exact framed_of_keepsOtp (execAonPowerLoss_keepsOtp s)
  | porstAssert => exact framed_of_keepsOtp (execPorstAssert_keepsOtp s)
  | pwrFailRecognise => exact execPwrFailRecognise_framed s
  | presenceChange slot present => exact execPresenceChange_framed slot present s
  | domainOffComplete dom => exact execDomainOffComplete_framed dom s
  | sensorScan readings => exact execSensorScan_framed readings s
  | thermtrip sensor => exact execThermtrip_framed sensor s
  | haltEntry => exact framed_of_lasts (execHaltEntry_lasts s)
  | glbResetCtrlWrite m v => exact framed_of_lasts (execGlbResetCtrlWrite_lasts s m v)
  | watchdogExpire => exact framed_of_lasts (execWatchdogExpire_lasts s)
  | planApply => exact execPlanApply_framed s
  | bootBist fails found => exact execBootBist_framed fails found s
  | driveReady slot id => exact execDriveReady_framed slot id s
  | pairJoin j => exact framed_of_lasts (execPairJoin_lasts s j)
  | recoveryScan group copies bitmaps => exact execRecoveryScan_framed group copies bitmaps s
  | recoveryComplete micros => exact framed_of_lasts (execRecoveryComplete_lasts s micros)
  | registerWrite m off v => exact framed_of_lasts (execRegisterWrite_lasts s m off v)
  | registerReadClear m off => exact execRegisterReadClear_framed m off s
  | stagedRegisterWrite m off v => exact framed_of_lasts (execStagedRegisterWrite_lasts s m off v)
  | plnCommit m g => exact execPlnCommit_framed m g s
  | plnDiscard m g => exact execPlnDiscard_framed m g s
  | trestleWrite _ _ => exact framed_of_lasts lasts_arrive
  | trestleReadReq _ _ => exact framed_of_lasts lasts_arrive
  | trestleReadResp _ _ => exact framed_of_lasts lasts_arrive
  | trestleAck _ _ => exact framed_of_lasts lasts_arrive
  | trestleNack _ _ => exact framed_of_lasts lasts_arrive
  | trestleCredit _ _ => exact framed_of_lasts lasts_arrive
  | trestleProbe _ _ => exact framed_of_lasts lasts_arrive
  | trestleConnect _ _ => exact framed_of_lasts lasts_arrive
  | trestleClose _ _ => exact framed_of_lasts lasts_arrive
  | trestleResumeReply _ _ => exact framed_of_lasts lasts_arrive
  | fenceRelease c psn => exact execFenceRelease_framed c psn s
  | rtoExpire c => exact execRtoExpire_framed c s
  | pathProbeTimer c path => exact execPathProbeTimer_framed c path s
  | ackCoalesceExpire c => exact execAckCoalesceExpire_framed c s
  | deadTimerExpire c => exact execDeadTimerExpire_framed c s
  | closingTimeout c => exact execClosingTimeout_framed c s
  | resumeRetry c => exact execResumeRetry_framed c s
  | pdApply m v => exact execPdApply_framed m v s
  | contextFetchComplete c eccOk late => exact framed_of_lasts (execContextFetchComplete_lasts s c eccOk late)
  | contextWritebackDone c eccOk => exact execContextWritebackDone_framed c eccOk s
  | ringFetch sq => exact execRingFetch_framed sq s
  | commandAdmit => exact execCommandAdmit_framed s
  | completionGenerate cmd late waits latencyNs => exact framed_of_lasts (execCompletionGenerate_lasts s cmd late waits latencyNs)
  | cqSpacePoll cq => exact framed_of_lasts (execCqSpacePoll_lasts s cq)
  | cqDetachTimeout cq => exact framed_of_lasts (execCqDetachTimeout_lasts s cq)
  | msubGo m => exact execMsubGo_framed m s
  | readCmd cmd => exact execReadCmd_framed cmd s
  | writeCmd cmd => exact execWriteCmd_framed cmd s
  | writeZeroes cmd => exact execWriteZeroes_framed cmd s
  | deallocate cmd => exact execDeallocate_framed cmd s
  | verifyCmd cmd => exact execVerifyCmd_framed cmd s
  | readTags cmd => exact execReadTags_framed cmd s
  | releaseCmd cmd => exact execReleaseCmd_framed cmd s
  | abortCmd cmd => exact execAbortCmd_framed cmd s
  | identifyVolume cmd => exact execIdentifyVolume_framed cmd s
  | configRead cmd => exact execConfigRead_framed cmd s
  | configWrite cmd => exact framed_of_lasts (execConfigWrite_lasts s cmd)
  | queueCreateSq cmd => exact execQueueCreateSq_framed cmd s
  | queueAttach cmd => exact framed_of_lasts (execQueueAttach_lasts s cmd)
  | queueDeleteSq cmd => exact execQueueDeleteSq_framed cmd s
  | volumeCreate cmd blk => exact execVolumeCreate_framed cmd blk s
  | volumeDelete cmd => exact execVolumeDelete_framed cmd s
  | volumeReshapeStart cmd blk => exact execVolumeReshapeStart_framed cmd blk s
  | volumeReshapeAbandon cmd blk => exact execVolumeReshapeAbandon_framed cmd blk s
  | setAccess cmd blk => exact execSetAccess_framed cmd blk s
  | volumeQuery cmd => exact execVolumeQuery_framed cmd s
  | getLog cmd => exact execGetLog_framed cmd s
  | keyLoad cmd blk => exact execKeyLoad_framed cmd blk s
  | keyClear cmd => exact execKeyClear_framed cmd s
  | sanitizeOverwrite cmd blk => exact execSanitizeOverwrite_framed cmd blk s
  | sanitizeBlockErase cmd blk => exact execSanitizeBlockErase_framed cmd blk s
  | sanitizeDriveOverwrite cmd blk => exact execSanitizeDriveOverwrite_framed cmd blk s
  | formatCmd cmd blk => exact execFormatCmd_framed cmd blk s
  | formatApply vol => exact execFormatApply_framed vol s
  | selfTestShort cmd => exact execSelfTestShort_framed cmd s
  | selfTestExtended cmd => exact execSelfTestExtended_framed cmd s
  | imageActivate cmd blk fw img => exact execImageActivate_framed cmd blk fw img s
  | memberFail cmd blk => exact execMemberFail_framed cmd blk s
  | memberRetire cmd blk => exact execMemberRetire_framed cmd blk s
  | slotOff cmd blk => exact execSlotOff_framed cmd blk s
  | slotOn cmd blk => exact execSlotOn_framed cmd blk s
  | adoptMember cmd blk => exact execAdoptMember_framed cmd blk s
  | setShare cmd blk => exact execSetShare_framed cmd blk s
  | pauseVolume cmd blk => exact execPauseVolume_framed cmd blk s
  | resumeVolume cmd blk => exact execResumeVolume_framed cmd blk s
  | counterSetupDump cmd blk => exact execCounterSetupDump_framed cmd blk s
  | copyOut cmd blk => exact execCopyOut_framed cmd blk s
  | regionCreate cmd => exact execRegionCreate_framed cmd s
  | regionDestroy cmd => exact execRegionDestroy_framed cmd s
  | removePier cmd blk => exact execRemovePier_framed cmd blk s
  | formGroup cmd blk => exact execFormGroup_framed cmd blk s
  | dissolveGroup cmd blk => exact execDissolveGroup_framed cmd blk s
  | tagComputeDone cmd granule => exact execTagComputeDone_framed cmd granule s
  | parityComputeDone cmd stripe => exact execParityComputeDone_framed cmd stripe s
  | bitmapWriteComplete vol region ok => exact execBitmapWriteComplete_framed vol region ok s
  | journalWriteComplete group copy jseq ok => exact execJournalWriteComplete_framed group copy jseq ok s
  | fragmentWriteComplete cmd stripe col r => exact framed_of_lasts (execFragmentWriteComplete_lasts s cmd stripe col r)
  | driveReadComplete cmd stripe col first r => exact framed_of_lasts (execDriveReadComplete_lasts s cmd stripe col first r)
  | driveFaultReport slot report => exact execDriveFaultReport_framed slot report s
  | cstsPoll slot cfs => exact execCstsPoll_framed slot cfs s
  | driveCmdTimeout slot => exact execDriveCmdTimeout_framed slot s
  | healthLogPoll slot warning => exact execHealthLogPoll_framed slot warning s
  | asyncEventNotice slot warning => exact execAsyncEventNotice_framed slot warning s
  | memberAnswer slot => exact execMemberAnswer_framed slot s
  | memberFailTimeout slot cause => exact execMemberFailTimeout_framed slot cause s
  | catchupComplete slot => exact execCatchupComplete_framed slot s
  | bandRestoreComplete group => exact execBandRestoreComplete_framed group s
  | copybackComplete group position => exact execCopybackComplete_framed group position s
  | reshapeSwitch vol => exact execReshapeSwitch_framed vol s
  | sanitizeStatusPoll slot done failed => exact execSanitizeStatusPoll_framed slot done failed s
  | overwriteCursorTick vol finished => exact execOverwriteCursorTick_framed vol finished s
  | heartbeatReceive pathB hb => exact framed_of_lasts (execHeartbeatReceive_lasts s pathB hb)
  | heartbeatMiss pathB => exact framed_of_keepsOtp (execHeartbeatMiss_lasts s pathB).keepsOtp
  | partnerHaltedReceive => exact framed_of_keepsOtp (execPartnerHaltedReceive_lasts s).keepsOtp
  | healthReceive hb => exact execHealthReceive_framed hb s
  | mirrorReceive mseq items => exact execMirrorReceive_framed mseq items s
  | mirrorAckReceive mseq => exact framed_of_lasts (execMirrorAckReceive_lasts s mseq)
  | arbiterAcquireComplete n a => exact framed_of_keepsOtp (execArbiterAcquireComplete_lasts s n a).keepsOtp
  | preemptComplete slot => exact execPreemptComplete_framed slot s
  | preemptTimeout slot => exact execPreemptTimeout_framed slot s
  | ownershipRecordDurable => exact framed_of_lasts (execOwnershipRecordDurable_lasts s)
  | takeoverFinish => exact framed_of_lasts (execTakeoverFinish_lasts s)
  | selfFence => exact framed_of_lasts (execSelfFence_lasts s)
  | innerIdleProbe pier => exact execInnerIdleProbe_framed pier s
  | pierLossTimeout pier => exact execPierLossTimeout_framed pier s
  | fwdCmd pier r => exact execFwdCmd_framed pier r s
  | fwdTrigger pier r => exact execFwdTrigger_framed pier r s
  | fragDone pier r => exact framed_of_lasts (execFragDone_lasts s pier r)
  | sliceSegmentEnd r => exact execSliceSegmentEnd_framed r s
  | hbmEccError pc addr kind => exact execHbmEccError_framed pc addr kind s
  | cpuCoreError core uncorrectable => exact execCpuCoreError_framed core uncorrectable s
  | refclkLoss clk => exact execRefclkLoss_framed clk s
  | fatalClockFault => exact execFatalClockFault_framed s
  | trestleConnectReply _ _ => exact framed_of_lasts lasts_arrive
  | trestleResume _ _ => exact framed_of_lasts lasts_arrive
  | _ => exact of_short_changes rfl h

end Sys2Proof.Machine

/-! ## OTP counters, HALT and OFF (O59, O60) -/

namespace Sys2Proof.Machine

/-! ### Commands that start the device up or switch domains -/

section
variable {d e : Dev}

theorem Dev.Stopped.ne_plan (h : d.Stopped) : d.glb.st ≠ .plan := by grind [Dev.Stopped]

theorem Dev.Stopped.congr (h : d.Stopped) (he : e.glb.st = d.glb.st) : e.Stopped := by
  rwa [Dev.Stopped, he]

theorem st_maybeRecover (h : d.Stopped) : (maybeRecover d).glb.st = d.glb.st := by
  grind [maybeRecover, Dev.Stopped]

/-- Domain turns move no stopped device on. -/
theorem st_turned (h : d.Stopped) (he : Piece.glb.same d e) : (turnStep e).glb.st = d.glb.st :=
  (st_turnStep (h.congr (st_eq_of_same he)).ne_plan).trans (st_eq_of_same he)

theorem st_shutdown : (shutdown d).glb.st = d.glb.st := by
  have halloff (e : Dev) : (allOff e).glb.st = e.glb.st := st_eq_of_same (by simp [same_allOff, same_refl])
  have hnotice : (haltNotice d).glb.st = d.glb.st := st_eq_of_same (by simp [same_haltNotice, same_refl])
  grind [shutdown]

theorem st_holdUnit (u) : (holdUnit d u).glb.st = d.glb.st := by
  have hcnt (e : Dev) (i) : (bstCnt e i).glb.st = e.glb.st := st_eq_of_same (by simp [same_bstCnt, same_refl])
  have hfault (e : Dev) (n a x y w) : (faultEvent e n a x y w).glb.st = e.glb.st := st_eq_of_same (by simp [same_faultEvent, same_refl])
  have hlane (e : Dev) (l) : (laneFail e l).glb.st = e.glb.st := st_eq_of_same (by simp [same_laneFail, same_refl])
  simp only [holdUnit]
  grind [st_shutdown]

theorem st_softRepair (u f) : (softRepair d u f).glb.st = d.glb.st := by
  have hfault (e a x y w) : (faultEvent d e a x y w).glb.st = d.glb.st := st_eq_of_same (by simp [same_faultEvent, same_refl])
  have hsoft (r : List (Nat × Nat)) : (bstCnt { softAdd d (.sram f) with bst.repeat_ := r } 3).glb.st = d.glb.st :=
    st_eq_of_same (by simp [same_bstCnt, same_mk, same_softAdd, same_refl])
  grind [softRepair, st_holdUnit]

end

section
variable (s : State)

theorem execResetRelease_lasts (pairSide boot1 boot0) : Lasts s (execResetRelease pairSide boot1 boot0 s) := by
  refine lasts_actIf (fun d h hs => ?_) fun d => ?_
  · simp_all [Dev.Stopped]
  · simp [↓lasting_mk]

theorem execDomainReady_lasts (dom) : Lasts s (execDomainReady dom s) :=
  lasts_actIf (fun d _ hs => st_turned hs (by simp [same_domServe, same_setDom, same_refl])) (by simp)

theorem execDomainOffComplete_lasts (dom) : Lasts s (execDomainOffComplete dom s) := by
  refine lasts_actIf (fun d _ hs => ?_) (by simp)
  have ht : (turnStep (domServe (domLost (setDom d dom .off) dom))).glb.st = d.glb.st :=
    st_turned hs (by simp [same_domServe, same_domLost, same_setDom, same_refl])
  exact (st_maybeRecover (hs.congr ht)).trans ht

theorem execDeepIdleExit_lasts (m) : Lasts s (execDeepIdleExit m s) := by
  refine lasts_actIf (fun d h hs => ?_) fun d => ?_
  · simp_all [Dev.Stopped]
  · simp [pwrCtrl]

theorem execThermtrip_lasts (sensor) : Lasts s (execThermtrip sensor s) :=
  lasts_actIf (fun d _ _ => st_shutdown) (by simp)

theorem execCpuCoreError_lasts (core uncorrectable) : Lasts s (execCpuCoreError core uncorrectable s) :=
  lasts_whileRunning (fun d h => by simp_all) fun d => by simp [↓lasting_mk]

theorem execFatalClockFault_lasts : Lasts s (execFatalClockFault s) :=
  lasts_whileRunning (fun d h => h) fun d => by simp [↓lasting_mk]

theorem execGlbWdogKick_lasts (m v) : Lasts s (execGlbWdogKick m v s) :=
  lasts_whileRunning (fun d h => h) (by simp)

theorem execMgmtImageDelivery_lasts (m img) : Lasts s (execMgmtImageDelivery m img s) :=
  lasts_whileRunning (fun d h => by simp_all [running]) fun d => by simp

theorem execBootSourceRead_lasts (flashB img) : Lasts s (execBootSourceRead flashB img s) := by
  simp only [execBootSourceRead]
  refine lasts_whileRunning (fun d h => by simp_all [running]) fun d => ?_
  grind [lasting_mk, lasting_spiRead, lasting_bootField, lasting_fwStart]

theorem execFloorPlanCheck_lasts (source img) : Lasts s (execFloorPlanCheck source img s) := by
  refine lasts_whileRunning (fun d h => by simp_all [running]) fun d => ?_
  grind [lasting_mk, lasting_spiRead, lasting_bootField, lasting_noPlan]

theorem execPlanApply_lasts : Lasts s (execPlanApply s) := by
  refine lasts_whileRunning (fun d h => by simp_all [running]) fun d => ?_
  split
  · rfl
  · simp [turnOn, ↓lasting_mk]

theorem execBootBist_lasts (fails found) : Lasts s (execBootBist fails found s) := by
  refine lasts_whileRunning (fun d h => by simp_all [running]) fun d => ?_
  dsimp only
  split <;> simp

theorem execDriveReady_lasts (slot id) : Lasts s (execDriveReady slot id s) :=
  lasts_whileRunning (fun d h => by simp_all [running_of_planned]) (by simp)

theorem execDriveReadyTimeout_lasts (slot) : Lasts s (execDriveReadyTimeout slot s) :=
  lasts_whileRunning (fun d h => by simp_all [running_of_planned]) (by simp)

theorem execSliceSegmentEnd_lasts (r) : Lasts s (execSliceSegmentEnd r s) := by
  refine lasts_actIf (fun d _ _ => ?_) fun d => ?_
  · have hover (e : Dev) : (sliceOver e).glb.st = e.glb.st := st_eq_of_same (by simp [same_sliceOver, same_refl])
    split
    · rfl
    dsimp only
    split
    · exact (st_softRepair ..).trans (hover d)
    · exact (st_holdUnit _).trans (hover d)
    · exact st_eq_of_same (by simp [same_segPassed, same_mk, same_sliceOver, same_refl])
    · exact st_eq_of_same (by simp [same_segPassed, same_mk, same_ite, same_bstCnt, same_sliceOver, same_refl])
  · split
    · rfl
    dsimp only
    split <;> simp [↓lasting_mk]

theorem execHbmEccError_lasts (pc addr kind) : Lasts s (execHbmEccError pc addr kind s) := by
  refine lasts_whileRunning (fun d h => by simp_all) fun d => ?_
  grind [lasting_mk, lasting_memCnt, lasting_retirePc, lasting_faultEvent, lasting_softAdd, lasting_recoverWord]

end

/-! ### The counters never fall, and a stopped device stays stopped -/

/-- The OTP counters of `e` are no lower than those of `d`, and `e` is in HALT or OFF where `d` is. -/
def Dev.Leads (d e : Dev) : Prop :=
  d.glb.otpFw ≤ e.glb.otpFw ∧ d.glb.otpPlan ≤ e.glb.otpPlan ∧ (d.Stopped → e.glb.st = d.glb.st)

/-- An outcome is a next state with the queue as it stood to which the device leads. -/
def Leads (s : State) (o : Host.Outcome State Fault Refusal) : Prop := ∃ d, o = .next { s with dev := d } ∧ s.dev.Leads d

section
variable {d e : Dev}

theorem Dev.Leads.of_glb (h : Piece.glb.same d e) : d.Leads e := by
  have hglb : e.glb = d.glb := h
  simp [Dev.Leads, hglb]

theorem Dev.Leads.trans {f : Dev} (h : d.Leads e) (h' : e.Leads f) : d.Leads f := by
  obtain ⟨hf, hp, hst⟩ := h
  obtain ⟨hf', hp', hst'⟩ := h'
  exact ⟨hf.trans hf', hp.trans hp', fun hd => (hst' (hd.congr (hst hd))).trans (hst hd)⟩

theorem Dev.Leads.of_lasting (h : e.lasting = d.lasting) (hst : d.Stopped → e.glb.st = d.glb.st) : d.Leads e :=
  ⟨(congrArg (·.2.1) h).ge, (congrArg (·.2.2) h).ge, hst⟩

theorem leads_ite {a b : Dev} {c : Prop} [Decidable c] (ha : d.Leads a) (hb : d.Leads b) : d.Leads (if c then a else b) := by
  split <;> assumption

theorem leads_shutdown : d.Leads (shutdown d) := .of_lasting lasting_shutdown fun _ => st_shutdown
theorem leads_thermtripGo : d.Leads (thermtripGo d) := .of_lasting lasting_thermtripGo fun _ => st_shutdown
theorem leads_maybeRecover : d.Leads (maybeRecover d) := .of_lasting lasting_maybeRecover st_maybeRecover

theorem leads_forCmd {c : Nat} {f : Dev → Dev} (hf : ∀ d : Dev, d.Leads (f d)) : d.Leads (forCmd d c f) := by
  have hact : d.Leads (f (actFor d c)) := .trans (.of_glb (by simp [same_actFor, same_refl])) (hf _)
  refine hact.trans (.of_glb ?_)
  simp only [forCmd]
  split
  · split
    · simp [same_mk, same_refl]
    · simp [same_modSlot, same_mk, same_refl]
  · simp [same_mk, same_refl]

/-- IMAGE_ACTIVATE at most raises the counters, to the versions that run. -/
theorem leads_activateGo (c : Nat) (b : List Byte) (fw : FwImage) (img : PlanImage) : d.Leads (activateGo d c b fw img) := by
  have hsucceed (e : Dev) (c a b) : (succeed e c a b).glb = e.glb := (same_succeed (by simp)).2 (same_refl .glb e)
  have hanswer (e : Dev) (c st a b) : (answer e c st a b).glb = e.glb := (same_answer (by simp)).2 (same_refl .glb e)
  have hevent (e : Dev) (ev a v w code) : (admEvent e ev a v w code).glb = e.glb := same_admEvent.2 (same_refl .glb e)
  have hspi (e : Dev) (flashB ops) : (spiOps e flashB ops).glb = e.glb := (same_spiOps (by simp)).2 (same_refl .glb e)
  grind [activateGo, Dev.Leads]

end

section
variable {s : State} {o : Host.Outcome State Fault Refusal}

theorem Lasts.leads (h : Lasts s o) : Leads s o := by
  obtain ⟨d, ho, hd, hst⟩ := h
  exact ⟨d, ho, .of_lasting hd hst⟩

theorem leads_actIf {g : Dev → Bool} {f : Dev → Dev} (hf : ∀ d : Dev, d.Leads (f d)) : Leads s (actIf g s f) := by
  refine ⟨_, actIf_eq g s f, ?_⟩
  split
  · exact (hf _).trans (.of_glb glb_settle)
  · exact .of_glb rfl

end

theorem execPresenceChange_leads (slot : Nat) (present : Bool) (s : State) : Leads s (execPresenceChange slot present s) := by
  refine leads_actIf fun d => Dev.Leads.trans (.of_glb ?_) leads_maybeRecover
  simp [same_ite, same_memberChange, same_slotAbsent, same_mk, same_refl]

theorem execSensorScan_leads (readings : List Int) (s : State) : Leads s (execSensorScan readings s) := by
  refine leads_actIf fun d => ?_
  refine leads_ite (.trans (.of_glb ?_) leads_thermtripGo) (leads_ite (.trans (.of_glb ?_) leads_shutdown) (.of_glb ?_))
  all_goals simp [same_throttleStep, same_warnStep, same_mk, same_refl]

theorem execImageActivate_leads (cmd : Nat) (blk : List Byte) (fw : FwImage) (img : PlanImage) (s : State) :
    Leads s (execImageActivate cmd blk fw img s) := by
  refine leads_actIf fun d => leads_ite (.of_glb rfl) ?_
  split
  · next x e he =>
    refine Dev.Leads.trans (.of_glb ((same_adminStart (by simp) he).2 (same_refl ..))) (leads_forCmd fun d => ?_)
    have hanswer {d : Dev} (st n) : d.Leads (answer d cmd st n 0) := .of_glb (by simp [same_answer, same_refl])
    refine leads_ite (hanswer ..) (leads_ite ?_ (.of_glb (by simp [same_answer, same_deny, same_refl])))
    split
    · exact hanswer ..
    · exact leads_ite (hanswer ..) (leads_ite (hanswer ..) (leads_activateGo ..))
  · exact .of_glb rfl

/-! ### Every command -/

/-- What a command leaves alone, by its list. -/
theorem frame_exec (c : Instr) (s : State) : Gives c s fun d => ∀ p, p ∉ changes c → p.same s.dev d :=
  (le_or_gt (changes c).length 4).elim (frameOfShortCommands c s) (frameOfWideCommands c s)

theorem leads_of_frame {c : Instr} {s : State} (h : (changes c).contains .glb = false) : Leads s (exec c s) := by
  obtain ⟨d, ho, hd⟩ := frame_exec c s
  exact ⟨d, ho, .of_glb (hd .glb (by simpa using h))⟩

/-- Every command but a cold reset leads on: one that may change the global state by its own lemma, the others because they do not. -/
theorem leads_exec (c : Instr) (s : State) (hon : c ≠ .aonPowerOn) (hloss : c ≠ .aonPowerLoss) (hporst : c ≠ .porstAssert) :
    Leads s (exec c s) := by
  cases c with
  | aonPowerOn => exact absurd rfl hon
  | aonPowerLoss => exact absurd rfl hloss
  | porstAssert => exact absurd rfl hporst
  | resetRelease pairSide boot1 boot0 => exact (execResetRelease_lasts s pairSide boot1 boot0).leads
  | presenceChange slot present => exact execPresenceChange_leads slot present s
  | domainReady dom => exact (execDomainReady_lasts s dom).leads
  | domainOffComplete dom => exact (execDomainOffComplete_lasts s dom).leads
  | deepIdleExit m => exact (execDeepIdleExit_lasts s m).leads
  | sensorScan readings => exact execSensorScan_leads readings s
  | thermtrip sensor => exact (execThermtrip_lasts s sensor).leads
  | haltEntry => exact (execHaltEntry_lasts s).leads
  | glbResetCtrlWrite m v => exact (execGlbResetCtrlWrite_lasts s m v).leads
  | glbWdogKick m v => exact (execGlbWdogKick_lasts s m v).leads
  | watchdogExpire => exact (execWatchdogExpire_lasts s).leads
  | bootSourceRead flashB img => exact (execBootSourceRead_lasts s flashB img).leads
  | mgmtImageDelivery m img => exact (execMgmtImageDelivery_lasts s m img).leads
  | floorPlanCheck source img => exact (execFloorPlanCheck_lasts s source img).leads
  | planApply => exact (execPlanApply_lasts s).leads
  | bootBist fails found => exact (execBootBist_lasts s fails found).leads
  | driveReady slot id => exact (execDriveReady_lasts s slot id).leads
  | driveReadyTimeout slot => exact (execDriveReadyTimeout_lasts s slot).leads
  | pairJoin j => exact (execPairJoin_lasts s j).leads
  | recoveryComplete micros => exact (execRecoveryComplete_lasts s micros).leads
  | registerWrite m off v => exact (execRegisterWrite_lasts s m off v).leads
  | stagedRegisterWrite m off v => exact (execStagedRegisterWrite_lasts s m off v).leads
  | trestleWrite _ _ => exact lasts_arrive.leads
  | trestleReadReq _ _ => exact lasts_arrive.leads
  | trestleReadResp _ _ => exact lasts_arrive.leads
  | trestleAck _ _ => exact lasts_arrive.leads
  | trestleNack _ _ => exact lasts_arrive.leads
  | trestleCredit _ _ => exact lasts_arrive.leads
  | trestleProbe _ _ => exact lasts_arrive.leads
  | trestleConnect _ _ => exact lasts_arrive.leads
  | trestleClose _ _ => exact lasts_arrive.leads
  | trestleResumeReply _ _ => exact lasts_arrive.leads
  | contextFetchComplete c eccOk late => exact (execContextFetchComplete_lasts s c eccOk late).leads
  | completionGenerate cmd late waits latencyNs => exact (execCompletionGenerate_lasts s cmd late waits latencyNs).leads
  | cqSpacePoll cq => exact (execCqSpacePoll_lasts s cq).leads
  | cqDetachTimeout cq => exact (execCqDetachTimeout_lasts s cq).leads
  | configWrite cmd => exact (execConfigWrite_lasts s cmd).leads
  | queueAttach cmd => exact (execQueueAttach_lasts s cmd).leads
  | imageActivate cmd blk fw img => exact execImageActivate_leads cmd blk fw img s
  | fragmentWriteComplete cmd stripe col r => exact (execFragmentWriteComplete_lasts s cmd stripe col r).leads
  | driveReadComplete cmd stripe col first r => exact (execDriveReadComplete_lasts s cmd stripe col first r).leads
  | heartbeatReceive pathB hb => exact (execHeartbeatReceive_lasts s pathB hb).leads
  | heartbeatMiss pathB => exact (execHeartbeatMiss_lasts s pathB).leads
  | partnerHaltedReceive => exact (execPartnerHaltedReceive_lasts s).leads
  | mirrorAckReceive mseq => exact (execMirrorAckReceive_lasts s mseq).leads
  | arbiterAcquireComplete n a => exact (execArbiterAcquireComplete_lasts s n a).leads
  | ownershipRecordDurable => exact (execOwnershipRecordDurable_lasts s).leads
  | takeoverFinish => exact (execTakeoverFinish_lasts s).leads
  | selfFence => exact (execSelfFence_lasts s).leads
  | fragDone pier r => exact (execFragDone_lasts s pier r).leads
  | sliceSegmentEnd r => exact (execSliceSegmentEnd_lasts s r).leads
  | hbmEccError pc addr kind => exact (execHbmEccError_lasts s pc addr kind).leads
  | cpuCoreError core uncorrectable => exact (execCpuCoreError_lasts s core uncorrectable).leads
  | fatalClockFault => exact (execFatalClockFault_lasts s).leads
  | trestleConnectReply _ _ => exact lasts_arrive.leads
  | trestleResume _ _ => exact lasts_arrive.leads
  | _ => exact leads_of_frame rfl

theorem leads_idleTick (d : Dev) : d.Leads (idleTick d) := by
  have htime : d.Leads { d with time := d.time + tickNs d } := .of_glb rfl
  refine htime.trans (.of_glb ?_)
  simp [idleTick, sgpioFrame, same_ite, same_emit, same_domServe, same_mk, same_refl]

/-! ### The statements -/

theorem keepsOtp_cold {c : Instr} {s : State} (h : c = .aonPowerOn ∨ c = .aonPowerLoss ∨ c = .porstAssert) : KeepsOtp s (exec c s) := by
  obtain rfl | rfl | rfl := h
  · exact execAonPowerOn_keepsOtp s
  · exact execAonPowerLoss_keepsOtp s
  · exact execPorstAssert_keepsOtp s

theorem otp_le_exec (c : Instr) (s : State) :
    ∃ d, exec c s = .next { s with dev := d } ∧ s.dev.glb.otpFw ≤ d.glb.otpFw ∧ s.dev.glb.otpPlan ≤ d.glb.otpPlan := by
  by_cases hc : c = .aonPowerOn ∨ c = .aonPowerLoss ∨ c = .porstAssert
  · obtain ⟨d, ho, hf, hp⟩ := keepsOtp_cold (s := s) hc
    exact ⟨d, ho, hf.ge, hp.ge⟩
  · simp only [not_or] at hc
    obtain ⟨hon, hloss, hporst⟩ := hc
    obtain ⟨d, ho, hf, hp, -⟩ := leads_exec c s hon hloss hporst
    exact ⟨d, ho, hf, hp⟩

theorem otp_le_step {s t : State} (h : step s = .next t) :
    s.dev.glb.otpFw ≤ t.dev.glb.otpFw ∧ s.dev.glb.otpPlan ≤ t.dev.glb.otpPlan := by
  unfold step at h
  split at h
  · next c rest _ =>
    obtain ⟨d, ho, hle⟩ := otp_le_exec c { s with pending := rest }
    obtain rfl := Host.Outcome.next.inj (ho.symm.trans h)
    exact hle
  · obtain rfl := Host.Outcome.next.inj h
    obtain ⟨hf, hp, -⟩ := leads_idleTick s.dev
    exact ⟨hf, hp⟩

/-- Settles O59: a reset of any kind keeps the counters, IMAGE_ACTIVATE raises them, and nothing else writes them. -/
theorem otpNeverFalls : Obligations.OtpNeverFalls := by
  unfold Obligations.OtpNeverFalls
  intro a b s t ⟨ha, hb⟩ h
  obtain ⟨hf, hp⟩ := otp_le_step h
  exact ⟨ha.trans hf, hb.trans hp⟩

/-- A step of a stopped device that is no cold reset leaves its state. -/
theorem st_step_of_stopped {s t : State} (h : step s = .next t) (hs : s.dev.Stopped) (hon : s.pending.head? ≠ some .aonPowerOn)
    (hloss : s.pending.head? ≠ some .aonPowerLoss) (hporst : s.pending.head? ≠ some .porstAssert) :
    t.dev.glb.st = s.dev.glb.st := by
  unfold step at h
  split at h
  · next c rest hc =>
    simp only [hc, List.head?_cons, ne_eq, Option.some.injEq] at hon hloss hporst
    obtain ⟨d, ho, -, -, hst⟩ := leads_exec c { s with pending := rest } hon hloss hporst
    obtain rfl := Host.Outcome.next.inj (ho.symm.trans h)
    exact hst hs
  · obtain rfl := Host.Outcome.next.inj h
    obtain ⟨-, -, hst⟩ := leads_idleTick s.dev
    exact hst hs

theorem execAonPowerOn_of_on {s : State} (h : s.dev.glb.st ≠ .off) : execAonPowerOn s = .next s := if_neg (by simpa using h)

theorem execPorstAssert_of_off {s : State} (h : s.dev.glb.st = .off) : execPorstAssert s = .next s := if_neg (by simpa using h)

theorem step_of_head {s : State} {c : Instr} (h : s.pending.head? = some c) :
    ∃ rest, step s = exec c { s with pending := rest } := by
  obtain ⟨rest, hrest⟩ := List.head?_eq_some_iff.1 h
  exact ⟨rest, by simp [step, hrest]⟩

theorem dev_step_aonPowerOn {s t : State} (h : step s = .next t) (hc : s.pending.head? = some .aonPowerOn) (hs : s.dev.glb.st ≠ .off) :
    t.dev = s.dev := by
  obtain ⟨rest, hrest⟩ := step_of_head hc
  obtain rfl := Host.Outcome.next.inj ((execAonPowerOn_of_on (s := { s with pending := rest }) hs).symm.trans (hrest.symm.trans h))
  rfl

theorem dev_step_porstAssert {s t : State} (h : step s = .next t) (hc : s.pending.head? = some .porstAssert) (hs : s.dev.glb.st = .off) :
    t.dev = s.dev := by
  obtain ⟨rest, hrest⟩ := step_of_head hc
  obtain rfl := Host.Outcome.next.inj ((execPorstAssert_of_off (s := { s with pending := rest }) hs).symm.trans (hrest.symm.trans h))
  rfl

theorem st_step_aonPowerLoss {s t : State} (h : step s = .next t) (hc : s.pending.head? = some .aonPowerLoss) : t.dev.glb.st = .off := by
  obtain ⟨rest, hrest⟩ := step_of_head hc
  obtain rfl := Host.Outcome.next.inj (hrest.symm.trans h)
  exact st_settle

/-- Settles O60: no command but a cold reset acts on the device state in HALT or OFF, and of the cold resets VDD_AON rising acts in OFF
alone, its loss ends in OFF, and PORST_N does nothing in OFF. -/
theorem haltAndOffEndByColdReset : Obligations.HaltAndOffEndByColdReset := by
  unfold Obligations.HaltAndOffEndByColdReset
  intro s t h
  constructor
  · intro hs hporst hloss
    by_cases hon : s.pending.head? = some .aonPowerOn
    · rw [dev_step_aonPowerOn h hon (by simp [hs]), hs]
    · exact (st_step_of_stopped h (.inl hs) hon hloss hporst).trans hs
  · intro hs hon
    by_cases hloss : s.pending.head? = some .aonPowerLoss
    · exact st_step_aonPowerLoss h hloss
    by_cases hporst : s.pending.head? = some .porstAssert
    · rw [dev_step_porstAssert h hporst hs, hs]
    · exact (st_step_of_stopped h (.inr hs) hon hloss hporst).trans hs

end Sys2Proof.Machine

/-! ## The bring-up of a drive (O4) -/

namespace Sys2Proof.Machine

/-! ### What the judging of a drive leaves -/

/-- What the judging of a drive leaves as it was: which slots and repairs stand, how far each drive's bring-up is, and whose it is. -/
structure BringView where
  slots : List Nat
  repairs : Tab Repair
  drives : Nat → Bring × Dword

def bringView (d : Dev) : BringView where
  slots := tkeys d.cmd.slots
  repairs := d.sto.repairs
  drives k := ((driveOf d k).bring, (driveOf d k).id.eui64)

section
variable {d e : Dev}

theorem bringView_of_same (hcmd : Piece.cmd.same d e) (hsto : Piece.sto.same d e) : bringView e = bringView d := by
  have hcmd : e.cmd = d.cmd := hcmd
  have hrepairs : e.sto.repairs = d.sto.repairs := (congrArg Sto.repairs hsto :)
  have hdrives : e.sto.drives = d.sto.drives := (congrArg Sto.drives hsto :)
  simp only [bringView, driveOf, hcmd, hrepairs, hdrives]

theorem bringView_ite {c : Prop} [Decidable c] {a b : Dev} :
    bringView (if c then a else b) = if c then bringView a else bringView b := apply_ite bringView c a b

theorem bringView_foldl {α : Type} {f : Dev → α → Dev} (h : ∀ d a, bringView (f d a) = bringView d) (l : List α) (d : Dev) :
    bringView (l.foldl f d) = bringView d :=
  foldl_keeps (bringView · = bringView d) f (fun e a he => (h e a).trans he) l d rfl

theorem bringView_modGroup (g : Nat) (f : Group → Group) : bringView (modGroup d g f) = bringView d := rfl

theorem bringView_modShelf (f : AdmOp → AdmOp) : bringView (modShelf d f) = bringView d := rfl

/-- A write of a drive's other fields. -/
theorem bringView_modDrive {k : Nat} {f : Drive → Drive} (hbring : ∀ x, (f x).bring = x.bring) (hid : ∀ x, (f x).id.eui64 = x.id.eui64) :
    bringView (modDrive d k f) = bringView d := by
  have hdrive (j : Nat) : (driveOf (modDrive d k f) j).bring = (driveOf d j).bring
      ∧ (driveOf (modDrive d k f) j).id.eui64 = (driveOf d j).id.eui64 := by
    by_cases hj : j = k
    · subst hj
      simp [driveOf, modDrive, tmod, hbring, hid]
    · simp [driveOf, modDrive, tmod, tgetD, tget_tset_ne _ _ hj]
  simp only [bringView, hdrive]
  rfl

theorem bringView_mirror (item : MirrorItem) : bringView (mirror d item) = bringView d :=
  bringView_of_same (by simp [same_mirror, same_refl]) (by simp [same_mirror, same_refl])

theorem bringView_logEvent (event attn : Nat) (t : Topic) (bs : List Byte) : bringView (logEvent d event attn t bs) = bringView d :=
  bringView_of_same (by simp [same_logEvent, same_refl]) (by simp [same_logEvent, same_refl])

theorem bringView_emit (x : Emit) : bringView (emit d x) = bringView d := rfl

theorem bringView_reserveOn (k : Nat) : bringView (reserveOn d k) = bringView d :=
  bringView_of_same (by simp [same_reserveOn, same_refl]) (by simp [same_reserveOn, same_refl])

theorem bringView_driveSend (g key : Nat) (c : DriveCmd) : bringView (driveSend d g key c) = bringView d :=
  bringView_of_same (by simp [same_driveSend, same_refl]) (by simp [same_driveSend, same_refl])

theorem bringView_setMember (k : Nat) (st : MemberSt) : bringView (setMember d k st) = bringView d := by
  simp [setMember, bringView_mirror, bringView_ite, bringView_modDrive]

theorem bringView_writeHeader (k kind : Nat) : bringView (writeHeader d k kind) = bringView d := by
  simp [writeHeader, bringView_modDrive, bringView_ite, bringView_driveSend]

theorem bringView_writeHead (g k epoch : Nat) : bringView (writeHead d g k epoch) = bringView d := by
  simp [writeHead, bringView_ite, bringView_driveSend]

theorem bringView_writeVols (g k : Nat) (vols : List (List Byte)) : bringView (writeVols d g k vols) = bringView d := by
  simp [writeVols, bringView_driveSend, bringView_foldl]

theorem bringView_headWritten (g k epoch : Nat) : bringView (headWritten d g k epoch) = bringView d :=
  bringView_modDrive (fun _ => rfl) fun _ => rfl

theorem bringView_writeRecords (g : Nat) : bringView (writeRecords d g) = bringView d := by
  simp [writeRecords, writeRecordsFor, bringView_foldl, bringView_headWritten, bringView_writeHead, bringView_writeVols,
    bringView_driveSend, bringView_mirror, bringView_modGroup]

theorem bringView_takeReplacement (g pos k : Nat) : bringView (takeReplacement d g pos k) = bringView d := by
  simp [takeReplacement, bringView_reserveOn, bringView_setMember, bringView_modDrive, bringView_modGroup]

theorem bringView_becomeSpare (k : Nat) : bringView (becomeSpare d k) = bringView d := by
  simp only [becomeSpare]
  split <;> simp [bringView_writeRecords, bringView_takeReplacement, bringView_modGroup, bringView_setMember, bringView_modDrive,
    bringView_writeHeader]

theorem bringView_sanIssue (k : Nat) (o : AdmOp) : bringView (sanIssue d k o) = bringView d := by
  simp [sanIssue, bringView_ite, bringView_emit, bringView_modDrive]

theorem bringView_sanDone (k : Nat) (failed : Bool) : bringView (sanDone d k failed) = bringView d := by
  simp [sanDone, bringView_modShelf, bringView_modDrive]

theorem bringView_sanFail (k : Nat) (o : AdmOp) : bringView (sanFail d k o) = bringView d := by
  simp [sanFail, bringView_ite, bringView_sanIssue, bringView_sanDone, bringView_modDrive]

theorem bringView_sanResume (k : Nat) (o : AdmOp) : bringView (sanResume d k o) = bringView d := by
  simp [sanResume, bringView_ite, bringView_modDrive, bringView_sanIssue, bringView_sanDone, bringView_sanFail]

theorem bringView_judgeDrive (k : Nat) : bringView (judgeDrive d k) = bringView d := by
  unfold judgeDrive
  dsimp only
  repeat' split
  all_goals simp [bringView_sanResume, bringView_logEvent, bringView_becomeSpare, bringView_setMember, bringView_modDrive]

theorem bringView_admitDrive (k : Nat) : bringView (admitDrive d k) = bringView d := by
  simp [admitDrive, bringView_ite, bringView_judgeDrive, bringView_setMember]

end

/-! ### The records of the drives -/

theorem driveOf_modDrive_same (d : Dev) (k : Nat) (f : Drive → Drive) : driveOf (modDrive d k f) k = f (driveOf d k) := by
  simp [driveOf, modDrive, tmod]

theorem driveOf_modDrive_ne (d : Dev) {j k : Nat} (f : Drive → Drive) (h : j ≠ k) : driveOf (modDrive d k f) j = driveOf d j := by
  simp [driveOf, modDrive, tmod, tgetD, tget_tset_ne _ _ h]

theorem driveOf_settle (d : Dev) (k : Nat) : driveOf (settle d) k = driveOf d k := by simp [driveOf]

theorem driveOf_maybeRecover (d : Dev) (k : Nat) : driveOf (maybeRecover d) k = driveOf d k := by simp [driveOf]

theorem noWork_registerOn {d : Dev} (h : NoWork d) (k : Nat) : NoWork (registerOn d k) := by
  have hsto : Piece.sto.same d (registerOn d k) := by simp [same_registerOn, same_refl]
  have hcmd : (registerOn d k).cmd = d.cmd := (show Piece.cmd.same d (registerOn d k) by simp [same_registerOn, same_refl])
  have hrepairs : (registerOn d k).sto.repairs = d.sto.repairs := (congrArg Sto.repairs hsto :)
  have hgroups : (registerOn d k).sto.groups = d.sto.groups := (congrArg Sto.groups hsto :)
  rwa [NoWork, hcmd, hrepairs, hgroups]

/-- With no work under way, the admission of a drive leaves how far its bring-up is, and its identity. -/
theorem bringView_memberChange_admitDrive {d : Dev} (h : NoWork d) (k : Nat) :
    bringView (memberChange d fun d => admitDrive d k) = bringView d := by
  have hview := bringView_admitDrive (d := d) k
  have ⟨hnoslots, hnorepairs, _⟩ := h
  have hslots : tkeys (admitDrive d k).cmd.slots = [] := (congrArg BringView.slots hview).trans (congrArg tkeys hnoslots)
  have hrepairs : (admitDrive d k).sto.repairs = [] := (congrArg BringView.repairs hview).trans hnorepairs
  rw [memberChange_of_noWork (f := fun d => admitDrive d k) h ⟨hslots, hrepairs⟩, hview]

theorem bringView_registerOn (d : Dev) (k : Nat) : bringView (registerOn d k) = bringView d :=
  bringView_of_same (by simp [same_registerOn, same_refl]) (by simp [same_registerOn, same_refl])

/-- A drive's record as written stands when the drive is then registered on and admitted. -/
theorem bring_admitted {d : Dev} (h : NoWork d) (k : Nat) (f : Drive → Drive) (out : List Emit) :
    let e := memberChange (registerOn (emits (modDrive d k f) out) k) fun d => admitDrive d k
    (driveOf e k).bring = (f (driveOf d k)).bring ∧ (driveOf e k).id.eui64 = (f (driveOf d k)).id.eui64 := by
  have hwork : NoWork (emits (modDrive d k f) out) := h
  have hview := (bringView_memberChange_admitDrive (noWork_registerOn hwork k) k).trans (bringView_registerOn ..)
  have hdrive := Prod.mk.inj (congrFun (congrArg BringView.drives hview) k)
  have hmod : driveOf (emits (modDrive d k f) out) k = f (driveOf d k) := driveOf_modDrive_same ..
  rwa [hmod] at hdrive

theorem setMember_st_bring (d : Dev) (k : Nat) (st : MemberSt) :
    (driveOf (setMember d k st) k).st = st ∧ (driveOf (setMember d k st) k).bring = (driveOf d k).bring := by
  have hdrive : ((driveOf (setMember d k st) k).st, (driveOf (setMember d k st) k).bring) = (st, (driveOf d k).bring) :=
    (congrFun (congrArg MemberView.drives (memberView_setMember (d := d) k st)) k).trans (Function.update_self ..)
  exact Prod.mk.inj hdrive

theorem driveOf_emit (d : Dev) (e : Emit) (k : Nat) : driveOf (emit d e) k = driveOf d k := rfl

theorem decides_modDrive (d : Dev) (j k : Nat) (f : Drive → Drive) : decides (modDrive d j f) k = decides d k := rfl

/-- Whether a reservation is taken from a drive that came back does not touch the drive's record. -/
theorem driveOf_preempt (d : Dev) (c : Bool) (j k : Nat) :
    driveOf (if c then emit d (.drive j .preempt) else d) k = driveOf d k := by
  split <;> rfl

/-- Settles O4: each bring-up step writes its own drive; the judging that a ready drive begins leaves the bring-up and the identity. -/
theorem driveBringUp : Obligations.DriveBringUp := by
  unfold Obligations.DriveBringUp
  intro s hplanned
  refine ⟨?release, ?link, ?ready, ?timeout⟩
  case release =>
    intro k hidle hclk hk
    refine gives_of_actIf (rfl : execDrivePerstRelease s = _) (by simpa [hplanned, hidle] using hclk) ?_
    simp only [hk, driveOf_settle, driveOf_modDrive_same]
    exact ⟨trivial, fun j hj => driveOf_modDrive_ne _ _ hj⟩
  case link =>
    intro slot rate width hslot hbring
    refine gives_of_actIf (rfl : execDriveLinkUp slot rate width s = _) (by simpa [hplanned, hslot] using hbring) ?_
    simp only [settle_out, emit_out, modDrive_out, driveOf_settle, driveOf_emit, driveOf_modDrive_same, drawBits, draw]
    exact ⟨if_congr beq_iff_eq rfl rfl, trivial, trivial, trivial⟩
  case ready =>
    intro slot id hslot hbring hwork
    refine gives_of_actIf (rfl : execDriveReady slot id s = _) (by simp [hplanned, hslot, hbring]) ?_
    simp only [driveOf_settle, driveOf_maybeRecover, driveOf_preempt]
    exact bring_admitted hwork slot _ _
  case timeout =>
    intro slot hslot hbring
    refine gives_of_actIf (rfl : execDriveReadyTimeout slot s = _) (by simpa [hplanned, hslot] using hbring) ?_
    simp only [driveOf_settle, driveOf_maybeRecover, decides_modDrive]
    have hfailed : (driveOf (modDrive s.dev slot fun x => { x with bring := .failed }) slot).bring = .failed :=
      congrArg Drive.bring (driveOf_modDrive_same ..)
    by_cases hdecides : decides s.dev slot = true
    · obtain ⟨hst, hbring⟩ := setMember_st_bring (modDrive s.dev slot fun x => { x with bring := .failed }) slot .present
      simp only [hdecides, if_true]
      exact ⟨hbring.trans hfailed, fun _ => hst⟩
    · simp only [hdecides]
      exact ⟨hfailed, nofun⟩

end Sys2Proof.Machine

/-! ## Commits and locks of the running floor plan

A commit that passes its checks writes the plan's record of attempts, numbers and locks and makes the staged values live; what the
blocks do with the new values (`afterCommit`) touches neither. -/

namespace Sys2Proof.Machine

/-! ### The locks (R141) -/

section
variable {d : Dev} {m : Master} {g : Nat}

/-- A COMMIT, DISCARD or RELEASE that no other master's lock shuts out leaves its group unlocked and all but the locks as it was. -/
theorem unlockBy_frees (h : (tget d.pln.locks g).any (· != m) = false) :
    ∃ t, unlockBy d m g = { d with pln.locks := t } ∧ tget t g = none := by
  unfold unlockBy
  split
  case isTrue => exact ⟨_, rfl, tget_tdel_same ..⟩
  case isFalse hheld =>
    refine ⟨_, rfl, ?_⟩
    cases hlock : tget d.pln.locks g with
    | none => rfl
    | some k =>
      have hmine : k = m := by simpa [hlock] using h
      simp [hlock, hmine] at hheld

theorem lockClaim_takes (h : tget d.pln.locks g = none ∨ isFw m = true) :
    lockClaim d m g = { d with pln.locks := tset d.pln.locks g m } := by
  refine if_pos ?_
  rcases h with h | h <;> simp [h]

/-- All the lock registers lie on configuration page 3 (R142). -/
theorem lockReg_page (h : g < 64) : (0x30200 + 4 * g) / 0x10000 = 3 := by
  omega

end

/-! ### Staged values that go live (R139) -/

/-- What a table holds once every key of a list is set to its value. -/
theorem tget_foldl_tset_key {α : Type} (v : Nat → α) (l : List Nat) (t : Tab α) (o : Nat) :
    tget (l.foldl (fun t k => tset t k (v k)) t) o = if o ∈ l then some (v o) else tget t o := by
  induction l generalizing t with
  | nil => rfl
  | cons k l ih =>
    rw [List.foldl_cons, ih]
    by_cases hk : o = k
    · simp [hk]
    · simp [hk, tget_tset_ne _ _ hk]

theorem tget_live_withStaged (d : Dev) (g o : Nat) :
    tget (withStaged d g).reg.live o = if o ∈ stagedDiff d g then some (stagedReg d o) else tget d.reg.live o :=
  tget_foldl_tset_key (stagedReg d) (stagedDiff d g) d.reg.live o

theorem afterCommit_pln (d : Dev) (g : Nat) : (afterCommit d g).pln = d.pln :=
  (same_afterCommit (part := .pln) nofun nofun nofun).2 (same_refl _ d)

theorem afterCommit_live (d : Dev) (g : Nat) : (afterCommit d g).reg.live = d.reg.live :=
  ((same_afterCommit (part := .regs) nofun nofun nofun).2 (same_refl .regs d)).1

/-! ### COMMIT and DISCARD (R142) -/

/-- The plan's record once a COMMIT or DISCARD of group `g` has succeeded with a result. -/
def plnDone (p : Pln) (g result : Nat) (seq : Tab Nat) (locks : Tab Master) : Pln :=
  { p with attempt := (p.attempt + 1) % 65536, result, group := g, detail := 0, seq, locks }

section
variable {d : Dev} {m : Master} {g : Nat} (hst : d.glb.st = .service ∨ d.glb.st = .maint)
  (hlock : (tget d.pln.locks g).any (· != m) = false)
include hst

/-- The state is one of the two in which COMMIT and DISCARD act. -/
theorem commitState_ok : (d.glb.st != .service && d.glb.st != .maint) = false := by
  rcases hst with h | h <;> rw [h] <;> rfl

include hlock

theorem discardGo_leaves : ∃ t, tget t g = none ∧ discardGo d m g = { dropStaged d g with pln := plnDone d.pln g 3 d.pln.seq t } := by
  obtain ⟨t, hunlock, hfree⟩ := unlockBy_frees (d := commitDone (dropStaged d g) g 3 0) hlock
  refine ⟨t, hfree, ?_⟩
  simp only [discardGo, commitState_ok hst, hlock, hunlock, Bool.false_eq_true, if_false]
  rfl

/-- A COMMIT whose values pass their checks: what it leaves in the plan's record and the live registers. -/
theorem commitGo_leaves (hrange : rangeFail d g = none) (hrel : relationFail d g = none) (hdiff : stagedDiff d g ≠ []) :
    ∃ t, tget t g = none
      ∧ (commitGo d m g).pln = plnDone d.pln g 1 (tset d.pln.seq g ((tgetD d.pln.seq g 0 + 1) % 65536)) t
      ∧ (commitGo d m g).reg.live = (withStaged d g).reg.live := by
  have hsome : (stagedDiff d g).isEmpty = false := by simpa using hdiff
  simp only [commitGo, commitState_ok hst, hlock, hrange, hrel, hsome, Bool.false_eq_true, if_false, logEvent_pln, logEvent_reg,
    afterCommit_pln, afterCommit_live]
  -- group 4 first brings its tokens up to now, which is no part of the plan's record or of the registers
  split
  all_goals
    generalize hgone : commitDone _ g 1 0 = e
    obtain ⟨t, hunlock, hfree⟩ := unlockBy_frees (d := e) (m := m) (g := g) (by rw [← hgone]; exact hlock)
    refine ⟨t, hfree, ?_⟩
    rw [hunlock, ← hgone]
    exact ⟨rfl, rfl⟩

end

section
variable {d : Dev} {m : Master} {g : Nat} (hg : g < 23) (hmay : commitDenied d m g = false)
include hg hmay

/-- A COMMIT of an existing group that is no denial goes to its steps 4 to 7. -/
theorem commitWrite_commit : commitWrite d m g false = commitGo d m g := by
  simp [commitWrite, hmay, Nat.not_le.2 hg]

theorem commitWrite_discard : commitWrite d m g true = discardGo d m g := by
  simp [commitWrite, hmay, Nat.not_le.2 hg]

end

/-- Settles O12: a commit and a discard by what `commitGo` and `discardGo` leave, the locks by their writes of the lock table. -/
theorem commitAndLocks : Obligations.CommitAndLocks := by
  unfold Obligations.CommitAndLocks
  intro s m g hrun
  refine ⟨?commit, ?discard, ?claim, ?release, ?timeout⟩
  case commit =>
    intro hg hst hmay hlock hrange hrel hdiff
    obtain ⟨t, hfree, hpln, hlive⟩ := commitGo_leaves hst hlock hrange hrel hdiff
    refine gives_of_actIf (rfl : execPlnCommit m g s = _) (by simp [hrun, show g < 64 by omega]) ?_
    simp only [commitWrite_commit hg hmay, settle_pln, settle_reg_live, hpln, hlive, tget_live_withStaged]
    exact ⟨rfl, rfl, rfl, tgetD_tset_same .., fun o ho => if_pos ho, fun o ho => if_neg ho, hfree⟩
  case discard =>
    intro hg hst hmay hlock
    obtain ⟨t, -, hdiscard⟩ := discardGo_leaves hst hlock
    refine gives_of_actIf (rfl : execPlnDiscard m g s = _) (by simp [hrun, show g < 64 by omega]) ?_
    simp only [commitWrite_discard hg hmay, settle_pln, settle_reg_live, settle_reg_staged, hdiscard]
    exact ⟨rfl, rfl, rfl⟩
  case claim =>
    intro hg hpage hfree
    refine gives_of_actIf (rfl : execPlnLockClaim m g s = _) (by simp [hrun, hg]) ?_
    rw [writeAccess_allowed (by rwa [lockReg_page hg]), lockClaim_takes hfree, settle_pln]
    exact ⟨tget_tset_same .., fun k hk => tget_tset_ne _ _ hk⟩
  case release =>
    intro hg hpage hheld
    obtain ⟨t, hunlock, hfree⟩ := unlockBy_frees (d := s.dev) (m := m) (g := g) (by simp [hheld])
    refine gives_of_actIf (rfl : execPlnLockRelease m g s = _) (by simp [hrun, hg]) ?_
    rwa [writeAccess_allowed (by rwa [lockReg_page hg]), hunlock, settle_pln]
  case timeout =>
    intro hheld
    refine gives_of_actIf (rfl : execPlnLockTimeout g s = _) (by simp [hrun, hheld]) ?_
    rw [settle_pln]
    exact tget_tdel_same ..

end Sys2Proof.Machine

/-! ## What the operations of the switch core leave

`coreView` is what all but a few of them leave as it was: device time, the forwarding table and what each port sends. One lemma per
operation says so, by those of the operations it is made of. -/

namespace Sys2Proof.Machine

/-! ### Tables and folds -/

theorem tgetD_tset_ne {α : Type} (t : Tab α) {k j : Nat} (v d : α) (h : j ≠ k) : tgetD (tset t k v) j d = tgetD t j d := by
  simp only [tgetD, tget_tset_ne _ _ h]

/-- What every step of a fold leaves as it was, the fold leaves as it was. -/
theorem foldl_leaves {α β γ : Type} (v : β → γ) {f : β → α → β} (h : ∀ b a, v (f b a) = v b) (l : List α) (b : β) :
    v (l.foldl f b) = v b :=
  foldl_keeps (v · = v b) f (fun e a he => (h e a).trans he) l b rfl

/-- A step that brings about `r` where `q` holds, among steps that each keep both. -/
theorem foldl_establishes {α β : Type} {q r : β → Prop} {f : β → α → β} {a : α} (hq : ∀ b x, q b → q (f b x))
    (hr : ∀ b x, r b → r (f b x)) (ha : ∀ b, q b → r (f b a)) : ∀ {l : List α}, a ∈ l → ∀ {b}, q b → r (l.foldl f b)
  | x :: l, hmem, b, hb => by
    rcases List.mem_cons.1 hmem with rfl | hmem
    · exact foldl_keeps r f hr l _ (ha b hb)
    · exact foldl_establishes hq hr ha hmem (hq b x hb)

/-! ### Counters write neither the ports nor the switch core -/

section
variable (d : Dev)

@[simp] theorem ethStatN_time (p i n : Nat) : (ethStatN d p i n).time = d.time := countN_time ..
@[simp] theorem ethStatN_eth (p i n : Nat) : (ethStatN d p i n).eth = d.eth := countN_eth ..
@[simp] theorem ethStatN_swc (p i n : Nat) : (ethStatN d p i n).swc = d.swc := countN_swc ..
@[simp] theorem ethStat_time (p i : Nat) : (ethStat d p i).time = d.time := ethStatN_time ..
@[simp] theorem ethStat_eth (p i : Nat) : (ethStat d p i).eth = d.eth := ethStatN_eth ..
@[simp] theorem ethStat_swc (p i : Nat) : (ethStat d p i).swc = d.swc := ethStatN_swc ..
@[simp] theorem laneStat_time (m l i : Nat) : (laneStat d m l i).time = d.time := count_time ..
@[simp] theorem laneStat_eth (m l i : Nat) : (laneStat d m l i).eth = d.eth := count_eth ..
@[simp] theorem swcCnt_time (p i : Nat) : (swcCnt d p i).time = d.time := count_time ..
@[simp] theorem swcCnt_swc (p i : Nat) : (swcCnt d p i).swc = d.swc := count_swc ..
@[simp] theorem qDrop_time (p q : Nat) : (qDrop d p q).time = d.time := count_time ..
@[simp] theorem qDrop_swc (p q : Nat) : (qDrop d p q).swc = d.swc := count_swc ..
@[simp] theorem dropAt_time (p q i : Nat) : (dropAt d p q i).time = d.time := by simp [dropAt]
@[simp] theorem dropAt_swc (p q i : Nat) : (dropAt d p q i).swc = d.swc := by simp [dropAt]
@[simp] theorem dropDrain_time (p q : Nat) : (dropDrain d p q).time = d.time := by unfold dropDrain; split <;> simp
@[simp] theorem dropDrain_swc (p q : Nat) : (dropDrain d p q).swc = d.swc := by unfold dropDrain; split <;> simp
@[simp] theorem macControl_time (p i : Nat) : (macControl d p i).time = d.time := by simp [macControl]
@[simp] theorem macControl_eth (p i : Nat) : (macControl d p i).eth = d.eth := by simp [macControl]
@[simp] theorem macControl_swc (p i : Nat) : (macControl d p i).swc = d.swc := by simp [macControl]

end

/-! ### Device time, the forwarding table and what each port sends -/

structure CoreView where
  time : Nat
  fdb : List FdbEnt
  tx : Nat → Option Tx

def coreView (d : Dev) : CoreView := ⟨d.time, d.swc.fdb, fun p => (egressOf d p).tx⟩

section
variable {d e : Dev}

theorem coreView_of_swc (ht : e.time = d.time) (hs : e.swc = d.swc) : coreView e = coreView d := by
  simp only [coreView, egressOf, ht, hs]

theorem coreView_swc {x : Swc} (hf : x.fdb = d.swc.fdb) (he : x.egress = d.swc.egress) : coreView { d with swc := x } = coreView d := by
  simp only [coreView, egressOf, hf, he]

theorem coreView_ite {c : Prop} [Decidable c] {a b : Dev} :
    coreView (if c then a else b) = if c then coreView a else coreView b := apply_ite coreView c a b

theorem coreView_foldl {α : Type} {f : Dev → α → Dev} (h : ∀ d a, coreView (f d a) = coreView d) (l : List α) (d : Dev) :
    coreView (l.foldl f d) = coreView d := foldl_leaves coreView h l d

theorem egressOf_modEgress_same (p : Nat) (f : Egress → Egress) : egressOf (modEgress d p f) p = f (egressOf d p) :=
  tgetD_tset_same ..

theorem egressOf_modEgress_ne {p k : Nat} (h : k ≠ p) (f : Egress → Egress) : egressOf (modEgress d p f) k = egressOf d k :=
  tgetD_tset_ne _ _ _ h

/-- A write of the tokens or of the DWRR list of a port. -/
theorem coreView_modEgress {p : Nat} {f : Egress → Egress} (hf : ∀ x, (f x).tx = x.tx) : coreView (modEgress d p f) = coreView d := by
  have htx (k : Nat) : (egressOf (modEgress d p f) k).tx = (egressOf d k).tx := by
    by_cases hk : k = p
    · rw [hk, egressOf_modEgress_same, hf]
    · rw [egressOf_modEgress_ne hk]
  simp only [coreView, htx]
  rfl

theorem coreView_modQueue (p q : Nat) (f : Queue → Queue) : coreView (modQueue d p q f) = coreView d := rfl

theorem coreView_emit (x : Emit) : coreView (emit d x) = coreView d := rfl

theorem coreView_draw : coreView (draw d).2 = coreView d := rfl

theorem coreView_swcCnt (p i : Nat) : coreView (swcCnt d p i) = coreView d := coreView_of_swc (swcCnt_time ..) (swcCnt_swc ..)

theorem coreView_qDrop (p q : Nat) : coreView (qDrop d p q) = coreView d := coreView_of_swc (qDrop_time ..) (qDrop_swc ..)

theorem coreView_dropAt (p q i : Nat) : coreView (dropAt d p q i) = coreView d := coreView_of_swc (dropAt_time ..) (dropAt_swc ..)

theorem coreView_dropDrain (p q : Nat) : coreView (dropDrain d p q) = coreView d :=
  coreView_of_swc (dropDrain_time ..) (dropDrain_swc ..)

theorem coreView_abortSegs (p q n : Nat) : coreView (abortSegs d p q n) = coreView d :=
  coreView_of_swc (by simp [abortSegs]) (by simp [abortSegs])

theorem coreView_sendPfc (p r n : Nat) : coreView (sendPfc d p r n) = coreView d :=
  coreView_of_swc (by simp [sendPfc]) (by simp [sendPfc])

theorem coreView_sendXoff (k : Nat) : coreView (sendXoff d k) = coreView d := by
  simp only [sendXoff, coreView_ite, coreView_sendPfc, coreView_swc, ite_self]

theorem coreView_sendXon (k : Nat) : coreView (sendXon d k) = coreView d := by
  simp only [sendXon, coreView_ite, coreView_sendPfc, coreView_swc, ite_self]

theorem coreView_xonAll : coreView (xonAll d) = coreView d := coreView_foldl (fun _ k => coreView_sendXon k) ..

theorem coreView_enqueue (p q : Nat) (f : QFrame) : coreView (enqueue d p q f) = coreView d := by
  simp only [enqueue, coreView_ite, coreView_modEgress, coreView_modQueue, implies_true, ite_self]

theorem coreView_placeCopy (p q : Nat) (f : QFrame) (a : Admit) (key : Option Nat) : coreView (placeCopy d p q f a key) = coreView d := by
  unfold placeCopy
  split <;> simp only [coreView_enqueue, coreView_swc]

theorem coreView_freeCopy (f : QFrame) : coreView (freeCopy d f) = coreView d := by
  simp only [freeCopy, coreView_xonAll, coreView_ite, coreView_swc, ite_eq_right_iff]
  intro
  split <;> simp only [coreView_swc]

theorem coreView_leaveIfEmpty (p q : Nat) : coreView (leaveIfEmpty d p q) = coreView d := by
  simp only [leaveIfEmpty, coreView_ite, coreView_modEgress, coreView_modQueue, implies_true, ite_self]

theorem coreView_discardFrames (p q i : Nat) (sel : QFrame → Bool) : coreView (discardFrames d p q i sel) = coreView d := by
  simp only [discardFrames, coreView_leaveIfEmpty, coreView_foldl, coreView_freeCopy, coreView_ite, coreView_dropAt, coreView_dropDrain,
    coreView_modQueue, ite_self, implies_true]

theorem coreView_offerCopy (p : Nat) (f : QFrame) (yellow flooded : Bool) :
    coreView (offerCopy d p f yellow flooded).2 = coreView d := by
  unfold offerCopy
  dsimp only
  split
  · exact coreView_dropAt ..
  · split
    · exact coreView_dropDrain ..
    · split
      all_goals simp only [coreView_dropAt, coreView_ite, coreView_swcCnt, coreView_qDrop, coreView_placeCopy, ite_self]
      all_goals split <;> simp only [coreView_sendXoff]

theorem coreView_storeFrame (f : QFrame) (ports : List (Nat × Frame)) (yellow flooded : Bool) :
    coreView (storeFrame d f ports yellow flooded) = coreView d := by
  simp only [storeFrame, coreView_ite, coreView_swc, coreView_foldl, coreView_offerCopy, ite_self, implies_true]

theorem coreView_mirrorOne (s p vid : Nat) (inbound : Bool) (f : Frame) : coreView (mirrorOne s p vid inbound f d) = coreView d := by
  simp only [mirrorOne, coreView_ite, coreView_dropDrain, coreView_draw, coreView_swc]
  split
  · rfl
  · split
    · rfl
    · split
      · rfl
      · split <;> simp only [coreView_dropAt, coreView_enqueue, coreView_draw, coreView_swc]

theorem coreView_mirrorAll (p vid : Nat) (inbound : Bool) (f : Frame) : coreView (mirrorAll d p vid inbound f) = coreView d :=
  coreView_foldl (fun _ s => coreView_mirrorOne s p vid inbound f) ..

theorem coreView_payTokens (p q n : Nat) : coreView (payTokens d p q n) = coreView d := by
  simp only [payTokens, coreView_ite, coreView_modEgress, coreView_modQueue, implies_true, ite_self]

theorem coreView_startWire (p : Nat) (t : Tx) : coreView (startWire d p t) = coreView d := by
  simp only [startWire, coreView_ite, coreView_mirrorAll, ite_self]
  split <;> simp only [coreView_emit]

end

theorem time_of_coreView {d e : Dev} (h : coreView e = coreView d) : e.time = d.time := congrArg CoreView.time h
theorem fdb_of_coreView {d e : Dev} (h : coreView e = coreView d) : e.swc.fdb = d.swc.fdb := congrArg CoreView.fdb h
theorem tx_of_coreView {d e : Dev} (h : coreView e = coreView d) (p : Nat) : (egressOf e p).tx = (egressOf d p).tx :=
  congrFun (congrArg CoreView.tx h) p

end Sys2Proof.Machine

/-! ## The frames that wait in a queue -/

namespace Sys2Proof.Machine

section
variable {d : Dev}

theorem queueOf_modQueue (p q j k : Nat) (f : Queue → Queue) :
    queueOf (modQueue d p q f) j k = if j * 16 + k = p * 16 + q then f (queueOf d p q) else queueOf d j k := by
  split
  case isTrue h => simp only [queueOf, h]; exact tgetD_tset_same ..
  case isFalse h => exact tgetD_tset_ne _ _ _ h

theorem queueOf_of_queues {e : Dev} (h : e.swc.queues = d.swc.queues) (j k : Nat) : queueOf e j k = queueOf d j k := by
  rw [queueOf, h, queueOf]

theorem queueOf_modEgress (p j k : Nat) (f : Egress → Egress) : queueOf (modEgress d p f) j k = queueOf d j k := rfl

/-- A write of a queue's other fields leaves its frames. -/
theorem frames_modQueue {f : Queue → Queue} (hf : ∀ x, (f x).frames = x.frames) (p q j k : Nat) :
    (queueOf (modQueue d p q f) j k).frames = (queueOf d j k).frames := by
  rw [queueOf_modQueue]
  split
  case isTrue h => rw [hf, queueOf, queueOf, h]
  case isFalse => rfl

theorem frames_leaveIfEmpty (p q j k : Nat) : (queueOf (leaveIfEmpty d p q) j k).frames = (queueOf d j k).frames := by
  unfold leaveIfEmpty
  split
  · simp only [queueOf_modEgress, frames_modQueue, implies_true]
  · rfl

theorem sendPfc_swc (p r n : Nat) : (sendPfc d p r n).swc = d.swc := by simp [sendPfc]

theorem xonAll_queues : (xonAll d).swc.queues = d.swc.queues :=
  foldl_leaves (·.swc.queues) (fun e k => by unfold sendXon; split <;> simp [sendPfc_swc]) _ d

theorem freeCopy_queues (f : QFrame) : (freeCopy d f).swc.queues = d.swc.queues := by
  unfold freeCopy
  dsimp only
  rw [xonAll_queues]
  split
  · split <;> rfl
  · rfl

/-- Discarding takes the frames it selects out of its queue and none out of another. -/
theorem frames_discardFrames (p q i : Nat) (sel : QFrame → Bool) (j k : Nat) :
    (queueOf (discardFrames d p q i sel) j k).frames =
      if j * 16 + k = p * 16 + q then (queueOf d p q).frames.filter fun f => !sel f else (queueOf d j k).frames := by
  have hqueues (e : Dev) : ((queueOf d p q).frames.filter sel |>.foldl
      (fun d f => freeCopy (if i == 9 then dropDrain d p q else dropAt d p q i) f) e).swc.queues = e.swc.queues :=
    foldl_leaves (·.swc.queues) (fun e f => by rw [freeCopy_queues]; split <;> simp) _ e
  simp only [discardFrames]
  rw [frames_leaveIfEmpty, queueOf_of_queues (hqueues _), queueOf_modQueue]
  split <;> rfl

theorem frames_ageHeads (p q : Nat) :
    (queueOf (ageHeads d p q) p q).frames = (queueOf d p q).frames.dropWhile fun f => f.time + 10000000 < d.time := by
  have hsplit := List.takeWhile_append_dropWhile (p := fun f : QFrame => decide (f.time + 10000000 < d.time)) (l := (queueOf d p q).frames)
  have hqueues (l : List QFrame) (e : Dev) : (l.foldl (fun d f => freeCopy (dropAt d p q 8) f) e).swc.queues = e.swc.queues :=
    foldl_leaves (·.swc.queues) (fun e f => by rw [freeCopy_queues, dropAt_swc]) _ e
  simp only [ageHeads]
  split
  case isTrue h =>
    rw [List.isEmpty_iff.1 h] at hsplit
    exact hsplit.symm
  case isFalse =>
    rw [frames_leaveIfEmpty, queueOf_of_queues (hqueues _ _), queueOf_modQueue, if_pos rfl]
    exact (congrArg (List.drop _) hsplit.symm).trans List.drop_left

/-- With no frame of a queue too old there is nothing to discard. -/
theorem ageHeads_of_young {p q : Nat} (h : ∀ f ∈ (queueOf d p q).frames, d.time ≤ f.time + 10000000) : ageHeads d p q = d := by
  refine if_pos ?_
  rw [List.isEmpty_iff, List.takeWhile_eq_nil_iff]
  intro hlen
  simpa using h _ (List.getElem_mem hlen)

theorem frames_dwrrPick (p fuel skipped j k : Nat) : (queueOf (dwrrPick d p fuel skipped).2 j k).frames = (queueOf d j k).frames := by
  induction fuel generalizing d skipped with
  | zero => rfl
  | succ fuel ih =>
    unfold dwrrPick
    dsimp only
    split
    · rfl
    · split_ifs <;> simp only [ih, queueOf_modEgress, frames_modQueue, implies_true]

theorem frames_pickQueue (p j k : Nat) : (queueOf (pickQueue d p).2 j k).frames = (queueOf d j k).frames := by
  unfold pickQueue
  split_ifs
  · rfl
  · rfl
  · rfl
  · rfl
  · exact frames_dwrrPick ..

theorem coreView_dwrrPick (p fuel skipped : Nat) : coreView (dwrrPick d p fuel skipped).2 = coreView d := by
  induction fuel generalizing d skipped with
  | zero => rfl
  | succ fuel ih =>
    unfold dwrrPick
    dsimp only
    split
    · rfl
    · split_ifs <;> simp only [ih, coreView_modEgress, coreView_modQueue, implies_true]

theorem coreView_pickQueue (p : Nat) : coreView (pickQueue d p).2 = coreView d := by
  simp only [pickQueue, apply_ite Prod.snd, coreView_ite, coreView_dwrrPick, ite_self]

end

end Sys2Proof.Machine

/-! ## Ethernet ports: bring-up, loss of link, retrain and LINK_HOLD -/

namespace Sys2Proof.Machine

section
variable {d : Dev}

/-! ### Ports and lanes -/

theorem portOf_modPort_same (p : Nat) (f : Port → Port) : portOf (modPort d p f) p = f (portOf d p) := tgetD_tset_same ..

theorem portOf_modPort_ne {p q : Nat} (h : q ≠ p) (f : Port → Port) : portOf (modPort d p f) q = portOf d q := tgetD_tset_ne _ _ _ h

theorem portOf_of_eth {e : Dev} (h : e.eth = d.eth) (q : Nat) : portOf e q = portOf d q := by rw [portOf, h, portOf]

theorem laneOf_of_eth {e : Dev} (h : e.eth = d.eth) (m l : Nat) : laneOf e m l = laneOf d m l := by rw [laneOf, h, laneOf]

theorem abortTx_eth (p : Nat) : (abortTx d p).eth = d.eth := (same_abortTx (part := .eth) nofun nofun).2 (same_refl _ d)

theorem discardFrames_eth (p q i : Nat) (sel : QFrame → Bool) : (discardFrames d p q i sel).eth = d.eth :=
  (same_discardFrames (part := .eth) nofun nofun).2 (same_refl _ d)

theorem resendB_eth : (resendB d).eth = d.eth := (same_resendB (part := .eth) nofun nofun).2 (same_refl _ d)

/-- What the partner is sent once PW is up again leaves the ports. -/
theorem pwResumes_eth : (gatedGo (sendKeys (sendLeft d))).eth = d.eth := by
  have h : Piece.eth.same d (gatedGo (sendKeys (sendLeft d))) := by
    simp only [same_gatedGo, same_sendKeys, same_sendLeft, same_refl, ne_eq, reduceCtorEq, not_false_eq_true]
  exact h

theorem portOf_foldl {α : Type} {f : Dev → α → Dev} {q : Nat} (h : ∀ d a, portOf (f d a) q = portOf d q) (l : List α) (d : Dev) :
    portOf (l.foldl f d) q = portOf d q := foldl_leaves (portOf · q) h l d

theorem portOf_modLane (m l : Nat) (f : Lane → Lane) (q : Nat) : portOf (modLane d m l f) q = portOf d q := by rfl

theorem portOf_ethStat (p i q : Nat) : portOf (ethStat d p i) q = portOf d q := portOf_of_eth (ethStat_eth ..) q

theorem portOf_laneStat (m l i q : Nat) : portOf (laneStat d m l i) q = portOf d q := portOf_of_eth (laneStat_eth ..) q

theorem portOf_modPort (p q : Nat) (f : Port → Port) : portOf (modPort d p f) q = if q = p then f (portOf d p) else portOf d q := by
  split
  case isTrue h => rw [h, portOf_modPort_same]
  case isFalse h => exact portOf_modPort_ne h f

theorem portOf_logEvent (event attn : Nat) (t : Topic) (b : List Byte) (q : Nat) :
    portOf (logEvent d event attn t b) q = portOf d q := portOf_of_eth (logEvent_eth ..) q

/-- What a lane's record of retrains holds: whether it is retired, and the failures charged to it (R159). -/
def laneRecord (d : Dev) (m l : Nat) : Bool × List Nat := ((laneOf d m l).retired, (laneOf d m l).fails)

theorem laneRecord_of_eth {e : Dev} (h : e.eth = d.eth) (m l : Nat) : laneRecord e m l = laneRecord d m l := by
  simp only [laneRecord, laneOf_of_eth h]

theorem laneRecord_foldl {α : Type} {f : Dev → α → Dev} {m l : Nat} (h : ∀ d a, laneRecord (f d a) m l = laneRecord d m l)
    (t : List α) (d : Dev) : laneRecord (t.foldl f d) m l = laneRecord d m l := foldl_leaves (laneRecord · m l) h t d

theorem laneRecord_modPort (p : Nat) (f : Port → Port) (m l : Nat) : laneRecord (modPort d p f) m l = laneRecord d m l := by rfl

theorem laneOf_modLane (m l j k : Nat) (f : Lane → Lane) :
    laneOf (modLane d m l f) j k = if j * 4 + k = m * 4 + l then f (laneOf d m l) else laneOf d j k := by
  split
  case isTrue h => simp only [laneOf, h]; exact tgetD_tset_same ..
  case isFalse h => exact tgetD_tset_ne _ _ _ h

/-- A write of a lane's lock or of whether it is idle. -/
theorem laneRecord_modLane {f : Lane → Lane} (hf : ∀ x, ((f x).retired, (f x).fails) = (x.retired, x.fails)) (m l j k : Nat) :
    laneRecord (modLane d m l f) j k = laneRecord d j k := by
  simp only [laneRecord, laneOf_modLane]
  split
  case isTrue h => rw [hf, laneOf, laneOf, h]
  case isFalse => rfl

theorem laneRecord_ethStat (p i m l : Nat) : laneRecord (ethStat d p i) m l = laneRecord d m l := laneRecord_of_eth (ethStat_eth ..) m l

/-! ### Loss of link (R191) -/

/-- A port as loss of link leaves it, `hold` with step 3b of R191 past. -/
def Port.lost (x : Port) (t h : Nat) (hold : Bool) : Port :=
  { x with up := false, attempt := none, down := some (t, h), holdDone := hold, pwd := [] }

theorem portOf_linkLost (p q : Nat) :
    portOf (linkLost d p) q = if q = p then (portOf d p).lost d.time (linkHold d p) false else portOf d q := by
  simp only [linkLost, pwdClear, portOf_ethStat, portOf_modPort, portOf_foldl, portOf_modLane, implies_true, if_true]
  split <;> rfl

theorem laneRecord_linkLost (p m l : Nat) : laneRecord (linkLost d p) m l = laneRecord d m l := by
  simp only [linkLost, pwdClear, laneRecord_ethStat, laneRecord_modPort, laneRecord_foldl, laneRecord_modLane, implies_true]

theorem linkLost_time (p : Nat) : (linkLost d p).time = d.time := by
  simp only [linkLost, pwdClear, ethStat_time, modPort_time]
  refine (foldl_leaves Dev.time (fun e l => ?_) _ _).trans ?_ <;> rfl

theorem modPort_eth (p : Nat) (f : Port → Port) : (modPort d p f).eth = { d.eth with ports := tmod d.eth.ports p {} f } := rfl

/-- Step 3b of R191 takes the frames and the forwarding entries of the port; of the ports it writes only that it is past. -/
theorem holdExpired_eth (p : Nat) : (holdExpired d p).eth = (modPort d p fun x => { x with holdDone := true }).eth := by
  have heth : ((List.range 16).foldl (fun d q => discardFrames d p q 7 fun _ => true) d).eth = d.eth :=
    foldl_leaves Dev.eth (fun e q => discardFrames_eth (d := e) p q 7 _) _ d
  simp only [holdExpired, fdbDropPort, modPort_eth, heth]

theorem portOf_holdExpired (p q : Nat) :
    portOf (holdExpired d p) q = if q = p then { portOf d p with holdDone := true } else portOf d q :=
  (portOf_of_eth (holdExpired_eth p) q).trans (portOf_modPort ..)

theorem laneRecord_holdExpired (p m l : Nat) : laneRecord (holdExpired d p) m l = laneRecord d m l :=
  (laneRecord_of_eth (holdExpired_eth p) m l).trans (laneRecord_modPort ..)

theorem holdExpired_time (p : Nat) : (holdExpired d p).time = d.time := by
  simp only [holdExpired, fdbDropPort, modPort_time]
  exact time_of_coreView (coreView_foldl (fun e q => coreView_discardFrames (d := e) p q 7 _) _ d)

theorem abortTx_time (p : Nat) : (abortTx d p).time = d.time := by
  have hmod (f : Egress → Egress) : (modEgress d p f).time = d.time := rfl
  simp only [abortTx]
  refine (time_of_coreView (coreView_foldl (fun e q => ?_) _ _)).trans ?_
  · simp only [coreView_ite, coreView_leaveIfEmpty, coreView_foldl, coreView_freeCopy, coreView_abortSegs, coreView_modQueue, ite_self,
      implies_true]
  · split
    · rfl
    · rw [time_of_coreView (coreView_freeCopy _)]
      split
      · rw [time_of_coreView (coreView_abortSegs ..)]
        split <;> simp only [dropAt_time, hmod]
      · split <;> simp only [dropAt_time, hmod]

/-- A port goes down, at once for good where LINK_HOLD is 0; no other port changes. -/
theorem portOf_portDown (p q : Nat) : portOf (portDown d p) q =
    if q = p then (portOf d p).lost d.time (linkHold d p) (linkHold (abortTx (linkLost d p) p) p == 0) else portOf d q := by
  unfold portDown
  extract_lets e
  have he (q : Nat) : portOf e q = if q = p then (portOf d p).lost d.time (linkHold d p) false else portOf d q :=
    (portOf_of_eth (abortTx_eth p) q).trans (portOf_linkLost p q)
  split
  case isTrue h =>
    rw [portOf_holdExpired, he, he, if_pos rfl, h]
    split <;> rfl
  case isFalse h => rw [he, Bool.eq_false_of_not_eq_true h]

theorem laneRecord_portDown (p m l : Nat) : laneRecord (portDown d p) m l = laneRecord d m l := by
  simp only [portDown, apply_ite (laneRecord · m l), laneRecord_holdExpired, laneRecord_of_eth (abortTx_eth _),
    laneRecord_linkLost, ite_self]

theorem portDown_time (p : Nat) : (portDown d p).time = d.time := by
  simp only [portDown, apply_ite Dev.time, holdExpired_time, abortTx_time, linkLost_time, ite_self]

/-! ### Bring-up (R157) -/

/-- The lanes a bring-up starts with: the port's planned lanes where it has none and was not re-formed. -/
def startLanes (d : Dev) (p : Nat) : List Nat :=
  if (portOf d p).lanes.isEmpty && !(portOf d p).reformed then plannedLanes d p else (portOf d p).lanes

theorem portOf_startAttempt (p q : Nat) : portOf (startAttempt d p) q =
    if q = p then { portOf d p with lanes := startLanes d p,
                                    attempt := if (startLanes d p).isEmpty then (portOf d p).attempt else some d.time }
    else portOf d q := by
  unfold startAttempt
  extract_lets x e y f
  have he (q : Nat) : portOf e q = if q = p then { portOf d p with lanes := startLanes d p } else portOf d q := by
    by_cases hplan : ((portOf d p).lanes.isEmpty && !(portOf d p).reformed) = true
    case pos => simp only [e, x, startLanes, hplan, if_true, portOf_modPort]
    case neg =>
      simp only [e, x, startLanes, hplan, Bool.false_eq_true, if_false]
      split
      case isTrue hq => rw [hq]
      case isFalse => rfl
  have het : e.time = d.time := by
    simp only [e]
    split <;> rfl
  have hf (q : Nat) : portOf f q = portOf e q := by
    simp only [f, apply_ite (portOf · q), portOf_foldl, portOf_laneStat, implies_true, ite_self]
  have hft : f.time = e.time := by
    simp only [f, apply_ite Dev.time, foldl_leaves Dev.time, laneStat_time, implies_true, ite_self]
  have hy : y.lanes = startLanes d p := by simp only [y, he, if_true]
  rw [hy]
  split
  · rw [he]
  · rw [portOf_modPort, hf, hf, he, he, hft, het]
    split <;> simp [x]

theorem plannedLanes_ne_nil (p : Nat) : plannedLanes d p ≠ [] := by
  unfold plannedLanes
  split
  · simp
  · split <;> simp

theorem startLanes_ne_nil {p : Nat} (h : ¬((portOf d p).lanes = [] ∧ (portOf d p).reformed = true)) : startLanes d p ≠ [] := by
  unfold startLanes
  split
  case isTrue => exact plannedLanes_ne_nil p
  case isFalse hplan => exact fun hnil => h ⟨hnil, by simpa [hnil] using hplan⟩

theorem startAttempt_eth_lanes (p : Nat) : (startAttempt d p).eth.lanes = d.eth.lanes := by
  unfold startAttempt
  extract_lets x e y f
  have he : e.eth.lanes = d.eth.lanes := by
    simp only [e]
    split <;> rfl
  have hf : f.eth.lanes = e.eth.lanes := by
    simp only [f, apply_ite Dev.eth, foldl_leaves Dev.eth, laneStat_eth, implies_true, ite_self]
  split
  · exact he
  · exact hf.trans he

theorem laneRecord_startAttempt (p m l : Nat) : laneRecord (startAttempt d p) m l = laneRecord d m l := by
  simp only [laneRecord, laneOf, startAttempt_eth_lanes]

/-! ### Retrain and RESTORE (R158, R162) -/

/-- A restart of a port takes it down and notes whether it is a retrain; with lanes to start with, an attempt starts at once. -/
theorem portOf_restartPort_same (p : Nat) (r : Bool) :
    (portOf (restartPort d p r) p).up = false ∧ (portOf (restartPort d p r) p).retrain = r
      ∧ ((portOf d p).lanes ≠ [] → (portOf (restartPort d p r) p).attempt = some d.time) := by
  unfold restartPort
  extract_lets e
  have hup : (portOf e p).up = false := by
    simp only [e]
    split
    case isTrue => rw [portOf_portDown, if_pos rfl]; rfl
    case isFalse h => exact Bool.eq_false_of_not_eq_true h
  have hlanes : (portOf e p).lanes = (portOf d p).lanes := by
    simp only [e, apply_ite (portOf · p), portOf_portDown, if_true]
    split <;> rfl
  have het : e.time = d.time := by simp only [e, apply_ite Dev.time, portDown_time, ite_self]
  rw [portOf_startAttempt, if_pos rfl]
  simp only [portOf_modPort_same]
  refine ⟨hup, trivial, fun hne => ?_⟩
  rw [if_neg (mt List.isEmpty_iff.1 (startLanes_ne_nil (by simp [portOf_modPort_same, hlanes, hne])))]
  exact congrArg some het

theorem portOf_restartPort_ne {p q : Nat} (h : q ≠ p) (r : Bool) : portOf (restartPort d p r) q = portOf d q := by
  simp only [restartPort, portOf_startAttempt, portOf_modPort, apply_ite (portOf · q), portOf_portDown, if_neg h, ite_self]

/-- RESTORE clears the record of its lane and of no other. -/
theorem laneRecord_restoreLane (m l j k : Nat) :
    laneRecord (restoreLane d m l) j k = if j * 4 + k = m * 4 + l then (false, []) else laneRecord d j k := by
  have hlane : laneRecord (modLane d m l fun x => { x with retired := false, fails := [], idle := false }) j k =
      if j * 4 + k = m * 4 + l then (false, []) else laneRecord d j k := by
    simp only [laneRecord, laneOf_modLane]
    split <;> rfl
  rw [← hlane]
  simp only [restoreLane]
  split
  · rfl
  · simp only [laneRecord_startAttempt, laneRecord_modPort, apply_ite (laneRecord · j k), laneRecord_portDown, ite_self,
      laneRecord_foldl, laneRecord_modLane, implies_true]

theorem startAttempt_begins (p : Nat) (h : ¬((portOf d p).lanes = [] ∧ (portOf d p).reformed = true)) :
    (portOf (startAttempt d p) p).attempt = some d.time ∧ (portOf (startAttempt d p) p).up = (portOf d p).up := by
  rw [portOf_startAttempt, if_pos rfl]
  exact ⟨if_neg (mt List.isEmpty_iff.1 (startLanes_ne_nil h)), rfl⟩

/-- The port is up and its attempt over, whatever it lets the partner be sent. -/
theorem portOf_portComesUp (p : Nat) : (portOf (portComesUp d p) p).up = true ∧ (portOf (portComesUp d p) p).attempt = none := by
  unfold portComesUp
  extract_lets e f
  have hf : portOf f p = portOf e p := by simp only [f, portOf_foldl, portOf_modLane, implies_true]
  have hpw : portOf (if p == 32 then gatedGo (sendKeys (sendLeft f)) else f) p = portOf f p := by
    simp only [apply_ite (portOf · p), portOf_of_eth pwResumes_eth, ite_self]
  rw [hpw, hf, portOf_modPort_same]
  exact ⟨rfl, rfl⟩

/-- A failed retrain charged to a lane may re-form the port; it starts no attempt. -/
theorem attempt_retireLane (p l : Nat) : (portOf (retireLane d p l) p).attempt = (portOf d p).attempt := by
  simp only [retireLane, apply_ite (fun e => (portOf e p).attempt), portOf_ethStat, portOf_foldl, portOf_modLane, portOf_modPort_same,
    portOf_logEvent, portOf_laneStat, implies_true, ite_self]

theorem attempt_chargeLane (p l : Nat) : (portOf (chargeLane d p l) p).attempt = (portOf d p).attempt := by
  simp only [chargeLane, apply_ite (fun e => (portOf e p).attempt), attempt_retireLane, portOf_laneStat, portOf_modLane, ite_self]

/-! ### ETH_LANE_CTRL (R176) -/

theorem bitAt_ofNat_32 (v : Nat) {i : Nat} (h : i < 32) : bitAt (BitVec.ofNat 32 v).toNat i = bitAt v i := by
  rw [bitAt_eq_testBit, bitAt_eq_testBit, BitVec.toNat_ofNat, Nat.testBit_mod_two_pow, decide_eq_true h, Bool.true_and]

theorem bitAt_shiftLeft_four (v i : Nat) : bitAt (v <<< 4) i = (decide (4 ≤ i) && bitAt v (i - 4)) := by
  simp [bitAt_eq_testBit]

theorem bitAt_lanes_high (lanes : BitVec 4) (l : Nat) : bitAt lanes.toNat (4 + l) = false := by
  rw [bitAt_eq_testBit, BitVec.testBit_toNat, BitVec.getLsbD_of_ge _ _ (by omega)]

/-- A RETRAIN of lanes alone names no lane to restore. -/
theorem laneCtrl_retrain (m : Nat) (lanes : BitVec 4) : laneCtrl d m (BitVec.ofNat 32 (lanes.toNat <<< 4)) =
    ((((List.range 4).filter (bitAt lanes.toNat)).filterMap (portOfLane d m)).eraseDups).foldl (fun d p => restartPort d p true) d := by
  have hlow (l : Nat) (hl : l ∈ List.range 4) : bitAt (BitVec.ofNat 32 (lanes.toNat <<< 4)).toNat l = false := by
    have hl := List.mem_range.1 hl
    rw [bitAt_ofNat_32 _ (by omega), bitAt_shiftLeft_four, decide_eq_false (by omega), Bool.false_and]
  have hhigh (l : Nat) (hl : l ∈ List.range 4) : bitAt (BitVec.ofNat 32 (lanes.toNat <<< 4)).toNat (4 + l) = bitAt lanes.toNat l := by
    have hl := List.mem_range.1 hl
    rw [bitAt_ofNat_32 _ (by omega), bitAt_shiftLeft_four, decide_eq_true (by omega), Bool.true_and, Nat.add_sub_cancel_left]
  have hnone : (List.range 4).foldl
      (fun e l => if bitAt (BitVec.ofNat 32 (lanes.toNat <<< 4)).toNat l then restoreLane e m l else e) d = d :=
    (List.foldl_ext _ (fun e _ => e) _ fun e l hl => if_neg (by rw [hlow l hl]; decide)).trans (List.foldl_fixed _)
  simp only [laneCtrl, hnone, List.filter_congr hhigh]

/-- A port among those of a RETRAIN ends down and marked for one. -/
theorem restartPorts_retrain {p : Nat} {l : List Nat} (h : p ∈ l) :
    (portOf (l.foldl (fun d p => restartPort d p true) d) p).up = false
      ∧ (portOf (l.foldl (fun d p => restartPort d p true) d) p).retrain = true := by
  refine foldl_establishes (q := fun _ => True) (r := fun e => (portOf e p).up = false ∧ (portOf e p).retrain = true)
    (fun _ _ _ => trivial) (fun e k he => ?_) (fun e _ => ?_) h trivial
  · by_cases hk : p = k
    · obtain ⟨hup, hre, -⟩ := portOf_restartPort_same (d := e) k true
      rw [hk]
      exact ⟨hup, hre⟩
    · rwa [portOf_restartPort_ne hk]
  · obtain ⟨hup, hre, -⟩ := portOf_restartPort_same (d := e) p true
    exact ⟨hup, hre⟩

/-- A RESTORE names no lane for a retrain. -/
theorem laneCtrl_restore (m : Nat) (lanes : BitVec 4) : laneCtrl d m (BitVec.ofNat 32 lanes.toNat) =
    (List.range 4).foldl (fun d l => if bitAt lanes.toNat l then restoreLane d m l else d) d := by
  have hlow (l : Nat) (hl : l ∈ List.range 4) : bitAt (BitVec.ofNat 32 lanes.toNat).toNat l = bitAt lanes.toNat l :=
    bitAt_ofNat_32 _ (by have := List.mem_range.1 hl; omega)
  have hhigh (l : Nat) (hl : l ∈ List.range 4) : bitAt (BitVec.ofNat 32 lanes.toNat).toNat (4 + l) = false := by
    rw [bitAt_ofNat_32 _ (by have := List.mem_range.1 hl; omega), bitAt_lanes_high]
  have hnone : (List.range 4).filter (fun l => bitAt (BitVec.ofNat 32 lanes.toNat).toNat (4 + l)) = [] :=
    List.filter_eq_nil_iff.2 fun l hl => by rw [hhigh l hl]; decide
  simp only [laneCtrl, hnone, List.filterMap_nil, List.eraseDups_nil, List.foldl_nil]
  exact List.foldl_ext _ _ _ fun e l hl => by rw [hlow l hl]

theorem laneRecord_restoreLanes {m l v : Nat} (hl : l < 4) (hbit : bitAt v l = true) :
    laneRecord ((List.range 4).foldl (fun d l => if bitAt v l then restoreLane d m l else d) d) m l = (false, []) := by
  refine foldl_establishes (q := fun _ => True) (r := fun e => laneRecord e m l = (false, []))
    (fun _ _ _ => trivial) (fun e k he => ?_) (fun e _ => ?_) (List.mem_range.2 hl) trivial
  · simp only [apply_ite (laneRecord · m l), laneRecord_restoreLane, he, ite_self]
  · simp only [hbit, if_true, laneRecord_restoreLane]

/-! ### The statement -/

theorem macroOf_le (p : Nat) : macroOf p ≤ 8 := by
  unfold macroOf
  split <;> omega

/-- ETH_LANE_CTRL lies on the first configuration page of its window (R149, R176). -/
theorem laneCtrl_page (mac : Nat) : (ethBase mac + 0x10) / 0x10000 = ethBase mac / 0x10000 := by
  unfold ethBase
  split <;> omega

theorem portOf_settle (q : Nat) : portOf (settle d) q = portOf d q := portOf_of_eth (settle_eth d) q

theorem laneRecord_settle (m l : Nat) : laneRecord (settle d) m l = laneRecord d m l := laneRecord_of_eth (settle_eth d) m l

theorem queueOf_settle (j k : Nat) : queueOf (settle d) j k = queueOf d j k := queueOf_of_queues (by rw [settle_swc]) j k

theorem queueOf_modPort (p j k : Nat) (f : Port → Port) : queueOf (modPort d p f) j k = queueOf d j k := rfl

theorem queueOf_fdbDropPort (p j k : Nat) : queueOf (fdbDropPort d p) j k = queueOf d j k := rfl

/-- Step 3b of R191 empties every queue of the port and takes every entry learned on it. -/
theorem holdExpired_empties (p : Nat) :
    (∀ q, q < 16 → (queueOf (holdExpired d p) p q).frames = []) ∧ ∀ e ∈ (holdExpired d p).swc.fdb, e.via ≠ p := by
  constructor
  case left =>
    intro q hq
    have hall : (queueOf ((List.range 16).foldl (fun d q => discardFrames d p q 7 fun _ => true) d) p q).frames = [] := by
      refine foldl_establishes (q := fun _ => True) (r := fun e => (queueOf e p q).frames = []) (fun _ _ _ => trivial) (fun e k he => ?_)
        (fun e _ => ?_) (List.mem_range.2 hq) trivial
      · rw [frames_discardFrames]
        split
        · simp
        · exact he
      · simp [frames_discardFrames]
    simp only [holdExpired, queueOf_fdbDropPort, queueOf_modPort, hall]
  case right =>
    intro e he
    simp only [holdExpired, fdbDropPort] at he
    simpa using (List.mem_filter.1 he).2

end

/-- Settles O14: each command by what it leaves of the port (`portOf_restartPort_same`, `portOf_portDown`, `portOf_startAttempt`), of a
lane's record (`laneRecord_restoreLane`) and of the port's queues (`holdExpired_empties`). -/
theorem portLinks : Obligations.PortLinks := by
  unfold Obligations.PortLinks
  intro s p hplan hp hex
  have hrun : (running s.dev && decide (macroOf p ≤ 8)) = true := by simp [running_of_planned hplan, macroOf_le]
  refine ⟨fun hlive => ⟨?attempt, ?linkUp, ?timeout, ?retrain, ?laneRetrain, ?restore, ?linkDown⟩, ?hold⟩
  case attempt =>
    intro hdown hno hlanes
    obtain ⟨hatt, hup⟩ := startAttempt_begins p hlanes
    refine gives_of_actIf (rfl : execPortBringupAttempt p s = _) (by simp [hlive, hdown, hno]) ?_
    rw [portOf_settle]
    exact ⟨hatt, hup.trans hdown⟩
  case linkUp =>
    intro hatt
    refine gives_of_actIf (rfl : execPortLinkUp p s = _) (by simp [hlive, hatt]) ?_
    rw [portOf_settle]
    exact portOf_portComesUp p
  case timeout =>
    intro blame hatt
    refine gives_of_actIf (rfl : execPortBringupTimeout p blame s = _) (by simp [hlive, hatt]) ?_
    simp only [portOf_settle, apply_ite (fun e => (portOf e p).attempt), portOf_modPort_same,
      foldl_leaves (fun e => (portOf e p).attempt), attempt_chargeLane, implies_true, ite_self]
  case retrain =>
    intro cause hup hlanes
    refine gives_of_actIf (rfl : execPortRetrainTrigger p cause s = _) (by simp [hlive, hup]) ?_
    dsimp only
    generalize hd : (if cause == .lockLoss then _ else s.dev) = d
    have heth : d.eth = s.dev.eth ∧ d.time = s.dev.time := by
      rw [← hd]
      split
      · exact ⟨foldl_leaves Dev.eth (fun e l => laneStat_eth ..) .., foldl_leaves Dev.time (fun e l => laneStat_time ..) ..⟩
      · exact ⟨rfl, rfl⟩
    obtain ⟨heth, htime⟩ := heth
    obtain ⟨hup', hre, hatt⟩ := portOf_restartPort_same (d := d) p true
    rw [portOf_settle]
    exact ⟨hup', hre, (hatt (by rwa [portOf_of_eth heth])).trans (congrArg some htime)⟩
  case laneRetrain =>
    intro m lanes l hl hpage hbit hlane
    refine gives_of_actIf (rfl : execEthLaneRetrain m (macroOf p) lanes s = _) hrun ?_
    rw [writeAccess_allowed (by rwa [laneCtrl_page]), laneCtrl_retrain, portOf_settle]
    refine restartPorts_retrain (List.mem_eraseDups.2 (List.mem_filterMap.2 ⟨l, ?_, hlane⟩))
    exact List.mem_filter.2 ⟨List.mem_range.2 hl, hbit⟩
  case restore =>
    intro m lanes l hl hpage hbit
    refine gives_of_actIf (rfl : execEthLaneRestore m (macroOf p) lanes s = _) hrun ?_
    have hrec := laneRecord_restoreLanes (d := s.dev) (m := macroOf p) hl hbit
    rw [← laneCtrl_restore, ← laneRecord_settle] at hrec
    rw [writeAccess_allowed (by rwa [laneCtrl_page])]
    exact Prod.mk.inj hrec
  case linkDown =>
    intro hup
    refine gives_of_actIf (rfl : execPortLinkDown p s = _) (by simp [hlive, hup]) ?_
    rw [portOf_settle, apply_ite (portOf · p), portOf_of_eth resendB_eth, ite_self, portOf_portDown, if_pos rfl]
    exact ⟨rfl, rfl⟩
  case hold =>
    intro hdown hwait
    obtain ⟨hqueues, hfdb⟩ := holdExpired_empties (d := s.dev) p
    refine gives_of_actIf (rfl : execLinkHoldExpire p s = _) (by simp [hplan, hp, hex, hdown, hwait]) ?_
    simp only [portOf_settle, queueOf_settle, settle_swc]
    exact ⟨by rw [portOf_holdExpired, if_pos rfl], hqueues, hfdb⟩

end Sys2Proof.Machine

/-! ## Pause, PFC and the pause watchdog -/

namespace Sys2Proof.Machine

/-! ### The configuration of a port: its registers and the floor plan -/

section
variable {d e : Dev}

theorem liveN_congr (hlive : e.reg.live = d.reg.live) (hpln : e.pln = d.pln) (o : Nat) : liveN e o = liveN d o := by
  have hport : swPortExists e = swPortExists d := by
    funext p
    simp only [swPortExists, hpln]
  have hinfo : regInfo e o = regInfo d o := by simp only [regInfo, regEth, regSwc, regSch, hport]
  simp only [liveN, liveReg, hlive, hinfo]

theorem ethStat_live (p i : Nat) : (ethStat d p i).reg.live = d.reg.live := countN_live ..
theorem ethStat_pln (p i : Nat) : (ethStat d p i).pln = d.pln := countN_pln ..
theorem ethStatN_live (p i n : Nat) : (ethStatN d p i n).reg.live = d.reg.live := countN_live ..
theorem ethStatN_pln (p i n : Nat) : (ethStatN d p i n).pln = d.pln := countN_pln ..

/-- The statistics of a port change nothing of what it is configured to do. -/
theorem liveN_ethStat (p i o : Nat) : liveN (ethStat d p i) o = liveN d o := liveN_congr (ethStat_live ..) (ethStat_pln ..) o

theorem liveN_macControl (p i o : Nat) : liveN (macControl d p i) o = liveN d o :=
  liveN_congr (by simp only [macControl, ethStat_live, ethStatN_live]) (by simp only [macControl, ethStat_pln, ethStatN_pln]) o

theorem macControl_pln (p i : Nat) : (macControl d p i).pln = d.pln := by simp only [macControl, ethStat_pln, ethStatN_pln]

theorem quantaNs_congr (heth : e.eth = d.eth) (hpln : e.pln = d.pln) (p n : Nat) : quantaNs e p n = quantaNs d p n := by
  have hrate : portRate e p = portRate d p := by simp only [portRate, portOf_of_eth heth, hpln]
  simp only [quantaNs, hrate]

/-! ### The pause watchdog (R165) -/

theorem pwdOf_of_eth (h : e.eth = d.eth) (p i : Nat) : pwdOf e p i = pwdOf d p i := by rw [pwdOf, portOf_of_eth h, pwdOf]

theorem pwdOf_settle (p i : Nat) : pwdOf (settle d) p i = pwdOf d p i := pwdOf_of_eth (settle_eth d) p i

theorem pwdOf_ethStat (p k p' i : Nat) : pwdOf (ethStat d p k) p' i = pwdOf d p' i := pwdOf_of_eth (ethStat_eth ..) p' i

theorem pwdOf_setPwd_same (p i : Nat) (w : Pwd) : pwdOf (setPwd d p i w) p i = w := by
  simp only [pwdOf, setPwd, portOf_modPort_same, tgetD_tset_same]

theorem pwdOf_setPwd_ne {i j : Nat} (h : j ≠ i) (p : Nat) (w : Pwd) : pwdOf (setPwd d p i w) p j = pwdOf d p j := by
  simp only [pwdOf, setPwd, portOf_modPort_same, tgetD_tset_ne _ _ _ h]

/-- A pause of non-zero quanta holds an open watchdog and starts both its timers. -/
theorem pwdPause_open {p i n : Nat} (ho : (pwdOf d p i).st = .open) (hn : n ≠ 0) :
    pwdOf (pwdPause d p i n) p i =
      { pwdOf d p i with st := .held, quantaAt := d.time + quantaNs d p n, watchAt := d.time } := by
  simp only [pwdPause, ho, beq_iff_eq, hn, if_false, pwdOf_setPwd_same]

/-- A pause for one watchdog of a port changes no other. -/
theorem pwdPause_ne {i j : Nat} (h : j ≠ i) (p n : Nat) : pwdOf (pwdPause d p i n) p j = pwdOf d p j := by
  simp only [pwdPause]
  split
  · split
    · rfl
    · exact pwdOf_setPwd_ne h ..
  · split <;> exact pwdOf_setPwd_ne h ..
  · exact pwdOf_ethStat ..

theorem pwdPause_time (p i n : Nat) : (pwdPause d p i n).time = d.time := by
  simp only [pwdPause]
  split
  · split <;> rfl
  · split <;> rfl
  · exact ethStat_time ..

theorem liveN_pwdPause (p i n o : Nat) : liveN (pwdPause d p i n) o = liveN d o := by
  have hregs : Piece.regs.same d (pwdPause d p i n) := (same_pwdPause (part := .regs) nofun).2 (same_refl ..)
  have hpln : Piece.pln.same d (pwdPause d p i n) := (same_pwdPause (part := .pln) nofun).2 (same_refl ..)
  exact liveN_congr hregs.1 hpln o

/-! ### PFC (R163) -/

/-- One enabled priority of a PFC frame. -/
def pfcPause (p : Nat) (quanta : List Half) (d : Dev) (r : Nat) : Dev :=
  if pfcEn (ethStat d p (6 + r)) p r then pwdPause (ethStat d p (6 + r)) p r (quanta.getD r 0).toNat else ethStat d p (6 + r)

theorem exec_pfcFrameReceive (p : Nat) (enable : Byte) (quanta : List Half) (s : State) :
    exec (.pfcFrameReceive p enable quanta) s = actIf (fun d => portLive d p && (portOf d p).up) s fun d =>
      (bitList enable.toNat 8).foldl (pfcPause p quanta) (ethStat (macControl d p 0) p 20) := rfl

theorem pfcEn_ethStat (p k p' r : Nat) : pfcEn (ethStat d p k) p' r = pfcEn d p' r := by
  simp only [pfcEn, fcCfg, liveN_ethStat]

theorem pfcEn_pfcPause (p : Nat) (quanta : List Half) (r p' r' : Nat) : pfcEn (pfcPause p quanta d r) p' r' = pfcEn d p' r' := by
  unfold pfcPause
  split <;> simp only [pfcEn, fcCfg, liveN_pwdPause, liveN_ethStat]

theorem pfcPause_time (p : Nat) (quanta : List Half) (r : Nat) : (pfcPause p quanta d r).time = d.time := by
  unfold pfcPause
  split <;> simp only [pwdPause_time, ethStat_time]

theorem pfcPause_ne {r j : Nat} (h : j ≠ r) (p : Nat) (quanta : List Half) : pwdOf (pfcPause p quanta d r) p j = pwdOf d p j := by
  unfold pfcPause
  split <;> simp only [pwdPause_ne h, pwdOf_ethStat]

/-- An enabled priority with non-zero quanta holds its open watchdog. -/
theorem pfcPause_open {p r : Nat} {quanta : List Half} (hen : pfcEn d p r = true) (hq : (quanta.getD r 0).toNat ≠ 0)
    (ho : (pwdOf d p r).st = .open) :
    (pwdOf (pfcPause p quanta d r) p r).st = .held ∧ (pwdOf (pfcPause p quanta d r) p r).watchAt = d.time := by
  rw [pfcPause, pfcEn_ethStat, if_pos hen, pwdPause_open (by rwa [pwdOf_ethStat]) hq]
  exact ⟨rfl, ethStat_time ..⟩

theorem pwdOf_foldl_pfcPause {r : Nat} {l : List Nat} (h : r ∉ l) (p : Nat) (quanta : List Half) (d : Dev) :
    pwdOf (l.foldl (pfcPause p quanta) d) p r = pwdOf d p r := by
  induction l generalizing d with
  | nil => rfl
  | cons j l ih =>
    obtain ⟨hj, hl⟩ := not_or.1 (mt List.mem_cons.2 h)
    exact (ih hl _).trans (pfcPause_ne hj ..)

/-- A PFC frame holds each open watchdog that it enables with non-zero quanta, whatever it names besides. -/
theorem pfcFrame_holds {p r : Nat} {quanta : List Half} {l : List Nat} (hnd : l.Nodup) (hr : r ∈ l) (hen : pfcEn d p r = true)
    (hq : (quanta.getD r 0).toNat ≠ 0) (ho : (pwdOf d p r).st = .open) :
    (pwdOf (l.foldl (pfcPause p quanta) d) p r).st = .held ∧ (pwdOf (l.foldl (pfcPause p quanta) d) p r).watchAt = d.time := by
  obtain ⟨a, b, rfl⟩ := List.append_of_mem hr
  obtain ⟨hab, -⟩ := List.nodup_middle.1 hnd |> List.nodup_cons.1
  obtain ⟨ha, hb⟩ := not_or.1 (mt List.mem_append.2 hab)
  rw [List.foldl_append, List.foldl_cons, pwdOf_foldl_pfcPause hb,
    ← foldl_leaves Dev.time (fun e j => pfcPause_time (d := e) p quanta j) a d]
  exact pfcPause_open ((foldl_leaves (pfcEn · p r) (fun e j => pfcEn_pfcPause (d := e) p quanta j p r) a d).trans hen) hq
    (by rwa [pwdOf_foldl_pfcPause ha])

/-! ### The timers of a watchdog, and the pause that the device sends (R164, R165) -/

theorem pwdOf_pwdExpire (p i : Nat) : pwdOf (pwdExpire d p i) p i =
    { pwdOf d p i with st := .recover, drain := bitAt (pwdCfg d p) 31, recAt := d.time } := by
  simp only [pwdExpire]
  generalize hlog : logEvent (ethStat d p (48 + i % 8)) _ _ _ _ = e
  have heth : e.eth = d.eth := by rw [← hlog, logEvent_eth, ethStat_eth]
  have htime : e.time = d.time := by rw [← hlog, logEvent_time, ethStat_time]
  have hset : pwdOf (setPwd e p i { pwdOf e p i with st := .recover, drain := bitAt (pwdCfg d p) 31, recAt := e.time }) p i =
      { pwdOf d p i with st := .recover, drain := bitAt (pwdCfg d p) 31, recAt := d.time } := by
    rw [pwdOf_setPwd_same, pwdOf_of_eth heth, htime]
  split
  · exact (pwdOf_of_eth (foldl_leaves Dev.eth (fun e q => discardFrames_eth (d := e) p q 9 _) _ _) p i).trans hset
  · exact hset

theorem sendPfc_out (p r n : Nat) : (sendPfc d p r n).out = d.out ++ [.pfc p r n] := by
  simp [sendPfc, macControl, ethStat, ethStatN]

end

/-- Settles O15: a pause received by `pwdPause_open` and `pfcFrame_holds`, a timer by what it sets of its watchdog, and a refresh by
what `sendPfc` sends. -/
theorem flowControl : Obligations.FlowControl := by
  unfold Obligations.FlowControl
  intro s p hlive
  refine ⟨?pause, ?pfc, ?quanta, ?watch, ?recovery, ?refresh⟩
  case pause =>
    intro quanta hup hen hopen hq
    refine gives_of_actIf (rfl : execPauseFrameReceive p quanta s = _) (by simp [hlive, hup]) ?_
    dsimp only
    generalize hcnt : ethStat (ethStat (macControl s.dev p 0) p 20) p 5 = d
    have heth : d.eth = s.dev.eth := by rw [← hcnt, ethStat_eth, ethStat_eth, macControl_eth]
    have htime : d.time = s.dev.time := by rw [← hcnt, ethStat_time, ethStat_time, macControl_time]
    have hpln : d.pln = s.dev.pln := by rw [← hcnt, ethStat_pln, ethStat_pln, macControl_pln]
    have hcfg : pauseEn d p = true := by simpa only [← hcnt, pauseEn, fcCfg, liveN_ethStat, liveN_macControl] using hen
    have hn : quanta.toNat ≠ 0 := fun h => hq (BitVec.eq_of_toNat_eq h)
    rw [if_pos hcfg, pwdOf_settle, pwdPause_open (by rwa [pwdOf_of_eth heth]) hn, htime, quantaNs_congr heth hpln]
    exact ⟨rfl, rfl, rfl⟩
  case pfc =>
    intro enable quanta r hup hr hbit hen hopen hq
    refine gives_of_actIf (exec_pfcFrameReceive p enable quanta s) (by simp [hlive, hup]) ?_
    have hn : (quanta.getD r 0).toNat ≠ 0 := fun h => hq (BitVec.eq_of_toNat_eq h)
    have heth : (ethStat (macControl s.dev p 0) p 20).eth = s.dev.eth := by rw [ethStat_eth, macControl_eth]
    have htime : (ethStat (macControl s.dev p 0) p 20).time = s.dev.time := by rw [ethStat_time, macControl_time]
    rw [pwdOf_settle, ← htime]
    refine pfcFrame_holds (List.nodup_range.filter _) (List.mem_filter.2 ⟨List.mem_range.2 hr, hbit⟩) ?_ hn ?_
    · simpa only [pfcEn, fcCfg, liveN_ethStat, liveN_macControl] using hen
    · rwa [pwdOf_of_eth heth]
  case quanta =>
    intro inst hheld
    refine gives_of_actIf (rfl : execPauseQuantaExpire p inst s = _) (by simp [hlive, hheld]) ?_
    rw [pwdOf_settle, pwdOf_setPwd_same]
  case watch =>
    intro inst hheld
    refine gives_of_actIf (rfl : execPwdWatchExpire p inst s = _) (by simp [hlive, hheld]) ?_
    rw [pwdOf_settle, pwdOf_pwdExpire]
    exact ⟨rfl, rfl, rfl⟩
  case recovery =>
    intro inst hrec
    refine gives_of_actIf (rfl : execPwdRecoveryExpire p inst s = _) (by simp [hlive, hrec]) ?_
    rw [pwdOf_settle, pwdOf_setPwd_same]
  case refresh =>
    intro prio k hup hk hx
    have hany : (losslessKey s.dev p prio).any s.dev.swc.xoff.contains = true := by rwa [hk, Option.any_some]
    refine gives_of_actIf (rfl : execPauseRefresh p prio s = _) (by rw [hlive, hup, hany]; rfl) ?_
    simp only [hk]
    refine ⟨fun hlasts => ?_, fun hover => ?_⟩
    · simp only [settle_out, settle_swc, hlasts, Bool.false_eq_true, if_false]
      exact ⟨sendPfc_out .., congrArg Swc.xoff (sendPfc_swc ..)⟩
    · simp only [settle_out, settle_swc, hover, if_true, sendXon, hx, Bool.and_self, sendPfc_out, sendPfc_swc, true_and]
      simp

end Sys2Proof.Machine

/-! ## Learning, internal frames, transmission and ageing -/

namespace Sys2Proof.Machine

/-! ### What forwarding leaves: the forwarding table -/

section
variable {d : Dev}

/-- The head of a queue goes on the wire: its port sends it, and the forwarding table stands. -/
theorem coreView_startFrom {p q : Nat} {f : QFrame} {rest : List QFrame} (h : (queueOf d p q).frames = f :: rest) :
    coreView (startFrom d p q) = coreView (modEgress d p fun x => { x with tx := some { q, f, seg := f.seg, time := d.time } }) := by
  simp only [startFrom, h, coreView_startWire, coreView_leaveIfEmpty, coreView_payTokens]
  rfl

theorem startFrom_of_nil {p q : Nat} (h : (queueOf d p q).frames = []) : startFrom d p q = d := by
  simp only [startFrom, h]

theorem startFrom_fdb (p q : Nat) : (startFrom d p q).swc.fdb = d.swc.fdb := by
  cases h : (queueOf d p q).frames with
  | nil => rw [startFrom_of_nil h]
  | cons f rest => exact (fdb_of_coreView (coreView_startFrom h)).trans (by rfl)

theorem storeFrame_fdb (f : QFrame) (ports : List (Nat × Frame)) (yellow flooded : Bool) :
    (storeFrame d f ports yellow flooded).swc.fdb = d.swc.fdb := fdb_of_coreView (coreView_storeFrame ..)

theorem swcCnt_fdb (p i : Nat) : (swcCnt d p i).swc.fdb = d.swc.fdb := by rw [swcCnt_swc]

theorem deliverUnicast_fdb (p k vid prio : Nat) (v : Option Nat) (f : Frame) (yellow stomp : Bool) :
    (deliverUnicast d p k vid prio v f yellow stomp).swc.fdb = d.swc.fdb := by
  simp only [deliverUnicast, apply_ite (fun e : Dev => e.swc.fdb), startFrom_fdb, swcCnt_fdb, storeFrame_fdb, ite_self]

theorem relayFrame_fdb (p n prio : Nat) (f : Frame) (yellow stomp : Bool) :
    (relayFrame d p n prio f yellow stomp).swc.fdb = d.swc.fdb := by
  simp only [relayFrame]
  split
  · rfl
  · split_ifs
    · rw [count_swc]
    · rw [count_swc]
    · split
      · exact swcCnt_fdb ..
      · rw [deliverUnicast_fdb, count_swc, emit_swc]

theorem forward_fdb (p v vid prio : Nat) (f : Frame) (yellow stomp : Bool) :
    (forward d p v vid prio f yellow stomp).swc.fdb = d.swc.fdb := by
  simp only [forward]
  split
  · exact swcCnt_fdb ..
  · rw [count_swc]
  · rfl
  · split
    · rw [count_swc]
    · rw [deliverUnicast_fdb]
      split
      · split
        · rw [ethStat_swc, emit_swc]
        · rfl
      · rfl
  · exact deliverUnicast_fdb ..
  · exact relayFrame_fdb ..
  · split
    · exact swcCnt_fdb ..
    · exact storeFrame_fdb ..

/-! ### Learning (R178, R181) -/

/-- A source not yet known is learned against the port it came in on. -/
theorem learn_new {p vid addr : Nat} (hm : isMulticast addr = false) (hon : bitAt (liveN d (0x200040 + 4 * p)) 16 = true)
    (hlag : lagOf d p = none) (hnew : fdbFind d vid addr = none) (hroom : d.swc.fdb.length < 32768) :
    (learn d p vid addr).swc.fdb = d.swc.fdb ++ [⟨vid, addr, p, p, d.time⟩] := by
  simp [learn, hm, hon, hlag, hnew, Nat.not_le.2 hroom]

theorem mirrorAll_live (p vid : Nat) (inbound : Bool) (f : Frame) : (mirrorAll d p vid inbound f).reg.live = d.reg.live :=
  ((same_mirrorAll (part := .regs) nofun).2 (same_refl _ d)).1

theorem mirrorAll_pln (p vid : Nat) (inbound : Bool) (f : Frame) : (mirrorAll d p vid inbound f).pln = d.pln :=
  (same_mirrorAll (part := .pln) nofun).2 (same_refl _ d)

/-- A frame that its VLAN admits and no policer judges is learned from: mirroring it first and forwarding it then leave the table. -/
theorem lookup_learns {p v : Nat} {f : Frame} (hv : vlanEntry d (frameVlan d p f).1 = some v) (hmem : vlanMember d v p = true)
    (hpol : policerOf d p (frameVlan d p f).2 (frameVlan d p f).1 = none) (hm : isMulticast f.src = false)
    (hon : bitAt (liveN d (0x200040 + 4 * p)) 16 = true) (hlag : lagOf d p = none)
    (hnew : fdbFind d (frameVlan d p f).1 f.src = none) (hroom : d.swc.fdb.length < 32768) :
    (lookup d p f false).swc.fdb = d.swc.fdb ++ [⟨(frameVlan d p f).1, f.src, p, p, d.time⟩] := by
  simp only [lookup]
  generalize hmir : mirrorAll d p (frameVlan d p f).1 true f = e
  have hlive : e.reg.live = d.reg.live := by rw [← hmir, mirrorAll_live]
  have hcore : coreView e = coreView d := by rw [← hmir, coreView_mirrorAll]
  have hreg : swcReg e = swcReg d := by
    funext a
    simp only [swcReg, hlive]
  have hv' : vlanEntry e (frameVlan d p f).1 = some v := by rwa [vlanEntry, hreg]
  have hmem' : vlanMember e v p = true := by rwa [vlanMember, hreg]
  have hpol' : policerOf e p (frameVlan d p f).2 (frameVlan d p f).1 = none := by rwa [policerOf, hreg]
  have hlag' : lagOf e p = none := by
    simpa only [lagOf, inLag, hreg] using hlag
  have hon' : bitAt (liveN e (0x200040 + 4 * p)) 16 = true := by
    rwa [liveN_congr hlive (by rw [← hmir, mirrorAll_pln])]
  have hnew' : fdbFind e (frameVlan d p f).1 f.src = none := by rwa [fdbFind, fdb_of_coreView hcore]
  simp only [hv', hmem', hpol', Bool.not_true, Bool.false_eq_true, if_false, reduceCtorEq, beq_iff_eq]
  rw [forward_fdb, learn_new hm hon' hlag' hnew' (by rwa [fdb_of_coreView hcore]), fdb_of_coreView hcore, time_of_coreView hcore]

theorem ethStatN_only (d : Dev) (p i n : Nat) : ∃ c, ethStatN d p i n = { d with reg.cnt := c } := countN_only ..

theorem ethStat_only (d : Dev) (p i : Nat) : ∃ c, ethStat d p i = { d with reg.cnt := c } := ethStatN_only ..

/-- A frame that MAC acceptance passes is counted and looked up (R154, R178). -/
theorem ingress_accepted {p : Nat} {f : Frame} (ha : frameAccepted d p f = true) (hck : l3l4Ok d f = true) :
    ∃ c, ingress d p f = lookup { d with reg.cnt := c } p f false := by
  simp only [frameAccepted, Bool.and_eq_true, decide_eq_true_eq, bne_iff_ne, ne_eq] at ha
  obtain ⟨⟨⟨⟨hmin, hmax⟩, hctl⟩, hpcs⟩, hfcs⟩ := ha
  obtain ⟨c₁, h₁⟩ := ethStat_only d p (20 + sizeIndex f.len)
  obtain ⟨c₂, h₂⟩ := ethStat_only { d with reg.cnt := c₁ } p 0
  obtain ⟨c₃, h₃⟩ := ethStatN_only { d with reg.cnt := c₂ } p 1 f.len
  obtain ⟨c₄, h₄⟩ := ethStat_only { d with reg.cnt := c₃ } p (if isBroadcast f.dst then 4 else if isMulticast f.dst then 3 else 2)
  have herr : rxErrors { d with reg.cnt := c₁ } p f = [] := by
    simp [rxErrors, Nat.not_lt.2 hmin, Nat.not_lt.2 (show f.len ≤ maxFrameOf { d with reg.cnt := c₁ } p from hmax), hpcs, hfcs]
  have hck₁ : l3l4Ok { d with reg.cnt := c₁ } f = true := hck
  refine ⟨c₄, ?_⟩
  simp only [ingress, hmin, hmax, decide_true, Bool.and_self, if_true, h₁, herr, List.isEmpty_nil, hck₁, Bool.not_true,
    Bool.false_eq_true, if_false, h₂, h₃, h₄, beq_iff_eq, hctl]

/-! ### Transmission (R193, R196) -/

theorem egressOf_settle (p : Nat) : egressOf (settle d) p = egressOf d p := by simp only [egressOf, settle_swc]

theorem foldl_stays {α β : Type} {f : β → α → β} {b : β} {l : List α} (h : ∀ a ∈ l, f b a = b) : l.foldl f b = b := by
  induction l with
  | nil => rfl
  | cons a l ih =>
    rw [List.foldl_cons, h a List.mem_cons_self]
    exact ih fun x hx => h x (List.mem_cons_of_mem a hx)

/-- With no queue of the port holding an aged frame, a free port takes the head of the queue that pick chooses, or stays free where that
holds none. -/
theorem tx_startNext {p q : Nat} (hfree : (egressOf d p).tx = none)
    (hyoung : ∀ k, k < 16 → ∀ f ∈ (queueOf d p k).frames, d.time ≤ f.time + 10000000) (hpick : (pickQueue d p).1 = some q) :
    ((egressOf (startNext d p false) p).tx.map fun t => (t.q, t.f, t.sending)) =
      (queueOf d p q).frames.head?.map fun f => (q, f, true) := by
  have hages : (List.range 16).foldl (fun d q => ageHeads d p q) d = d :=
    foldl_stays fun k hk => ageHeads_of_young (hyoung k (List.mem_range.1 hk))
  obtain ⟨e, he⟩ : ∃ e, pickQueue d p = (some q, e) := ⟨_, Prod.ext hpick rfl⟩
  have hcore : coreView e = coreView d := by rw [← coreView_pickQueue (d := d) p, he]
  have hframes : (queueOf e p q).frames = (queueOf d p q).frames := by rw [← frames_pickQueue (d := d) p, he]
  simp only [startNext, hages, he, Bool.false_eq_true, if_false]
  rw [← hframes]
  cases h : (queueOf e p q).frames with
  | nil => rw [startFrom_of_nil h, tx_of_coreView hcore, hfree]; rfl
  | cons f rest => rw [tx_of_coreView (coreView_startFrom h), egressOf_modEgress_same]; rfl

theorem tx_freeCopy (f : QFrame) (p : Nat) : (egressOf (freeCopy d f) p).tx = (egressOf d p).tx :=
  tx_of_coreView (coreView_freeCopy f) p

/-- After a segment the next one waits, or the port is free. -/
theorem tx_nextSegment (p : Nat) (t : Tx) (sp : Super) : (egressOf (nextSegment d p t sp) p).tx =
    if t.seg + 1 < segCount sp then some { t with seg := t.seg + 1, sending := false } else none := by
  simp only [nextSegment]
  split
  · rw [egressOf_modEgress_same]
  · rw [tx_freeCopy, egressOf_modEgress_same]

section
variable {p : Nat} {t : Tx} (htx : (egressOf d p).tx = some t) (hsend : t.sending = true)
include htx hsend

theorem tx_txComplete_frame (h : t.f.super = none) : (egressOf (txComplete d p) p).tx = none := by
  simp only [txComplete, htx, hsend, h, Bool.not_true, Bool.false_eq_true, if_false]
  rw [tx_freeCopy, egressOf_modEgress_same]

theorem tx_txComplete_super {sp : Super} (h : t.f.super = some sp) : (egressOf (txComplete d p) p).tx =
    if t.seg + 1 < segCount sp then some { t with seg := t.seg + 1, sending := false } else none := by
  simp only [txComplete, htx, hsend, h, Bool.not_true, Bool.false_eq_true, if_false]
  exact tx_nextSegment ..

end

/-! ### The forwarding table and the timestamp FIFO (R176, R181) -/

theorem fdbFlush_all {v : Word} (h : bitAt v.toNat 0 = true) : (fdbFlush d v).swc.fdb = [] := by
  simp only [fdbFlush, h, if_true]

theorem fdbFlush_port {v : Word} (h0 : bitAt v.toNat 0 = false) (h1 : bitAt v.toNat 1 = true) :
    (fdbFlush d v).swc.fdb = d.swc.fdb.filter (·.via != fld v.toNat 2 6) := by
  simp only [fdbFlush, h0, h1, Bool.false_eq_true, if_false, if_true, fdbDropPort]

theorem ptpRead_empty {m : Nat} (h : tgetD d.eth.ptp m [] = []) : (ptpRead d m).1 = 0 := by
  simp only [ptpRead, h]

theorem ptpRead_oldest {m : Nat} {t : PtpTs} {rest : List PtpTs} (h : tgetD d.eth.ptp m [] = t :: rest) :
    (ptpRead d m).1 = BitVec.ofNat 32 t.time ∧ tgetD (ptpRead d m).2.eth.ptp m [] = rest := by
  simp only [ptpRead, h, tgetD_tset_same, and_self]

end

/-- Settles O16: a frame is learned from by `lookup_learns`, a port starts and ends sending by `tx_startNext` and the lemmas on
`txComplete`, and a queue keeps its younger frames by `frames_ageHeads` and `frames_discardFrames`. -/
theorem switchFrames : Obligations.SwitchFrames := by
  unfold Obligations.SwitchFrames
  intro s hplan
  refine ⟨?learning, ?offer, ?holdoff, ?start, ?complete, ?ageing, ?fdbAge, ?flush, ?ptp⟩
  case learning =>
    intro p f v hlive hup hacc hck hv hmem hpol hm hon hlag hnew hroom
    refine gives_of_actIf (rfl : execFrameIngress p f s = _) (by rw [hlive, hup]; rfl) ?_
    obtain ⟨c, hc⟩ := ingress_accepted hacc hck
    have hlearn := lookup_learns (d := { s.dev with reg.cnt := c }) hv hmem hpol hm (by rwa [liveN_congr rfl rfl]) hlag hnew hroom
    rw [settle_swc, hc, hlearn]
    exact List.mem_append_right _ (List.mem_singleton_self _)
  case offer =>
    intro f hlo hhi hsuper
    refine gives_of_actIf (rfl : execInternalFrameOffer f s = _) (by simp [hplan, hlo, hhi, hsuper]) ?_
    refine ⟨fun hfull => ?_, fun d' htaken => ?_⟩
    · simp only [hfull, settle_swc, swcCnt_swc]
    · simp only [htaken]
  case holdoff =>
    intro src f d' hfirst
    refine gives_of_actIf (rfl : execHoldoffAccept src s = _) hplan ?_
    simp only [hfirst, settle_swc, and_self]
  case start =>
    intro p q hp hex hup hfree hyoung hpick
    refine gives_of_actIf (rfl : execFrameTransmitStart p false s = _) (by simp [hplan, hp, hex, hup]) ?_
    simp only [hfree, egressOf_settle]
    exact tx_startNext hfree hyoung hpick
  case complete =>
    intro p t hp htx hsend
    refine gives_of_actIf (rfl : execFrameTransmitComplete p s = _) (by simp [hplan, hp]) ?_
    rw [egressOf_settle]
    exact ⟨tx_txComplete_frame htx hsend, fun sp => tx_txComplete_super htx hsend⟩
  case ageing =>
    intro p q hp hq
    refine gives_of_actIf (rfl : execFrameAgeDiscard p q s = _) (by simp [hplan, hp, hq]) ?_
    rw [queueOf_settle]
    refine ⟨fun hdown => ?_, fun hup => ?_⟩
    · rw [if_neg (by rw [hdown]; decide), frames_discardFrames, if_pos rfl]
    · rw [if_pos hup, frames_ageHeads]
  case fdbAge =>
    intro vid addr
    refine gives_of_actIf (rfl : execFdbAgeOut vid addr s = _) hplan ?_
    rw [settle_swc]
  case flush =>
    intro m v hrun hpage
    refine gives_of_actIf (rfl : execSwcFdbFlush m v s = _) hrun ?_
    rw [writeAccess_allowed (off := 0x20001C) hpage, settle_swc]
    exact ⟨fdbFlush_all, fdbFlush_port⟩
  case ptp =>
    intro m mac hrun hmac hpage
    refine gives_of_actIf (rfl : execEthPtpTsRead m mac s = _) (by simp [hrun, hmac]) ?_
    rw [if_pos hpage]
    simp only [settle_reg_readVal, settle_eth]
    exact ⟨ptpRead_empty, fun t rest => ptpRead_oldest⟩

end Sys2Proof.Machine

/-! ## The transmit timestamp FIFO -/

namespace Sys2Proof.Machine

/-- The offset of the statistic with index `i` of a port (R177). -/
def portStatAt (p i : Nat) : Nat := ethBase (macroOf p) + 0x1000 + 0x400 * subOf p + 8 * i

section
variable {d : Dev}

theorem ethStatN_eq (p i n : Nat) : ethStatN d p i n = countN d (portStatAt p i) n := rfl

/-- Statistics of different indices are different counters, whichever ports they are of. -/
theorem portStatAt_ne {p q i j : Nat} (hi : i < 128) (hj : j < 128) (h : i ≠ j) : portStatAt p i ≠ portStatAt q j := by
  have hmod (p k : Nat) (hk : k < 128) : portStatAt p k % 0x400 = 8 * k := by
    unfold portStatAt ethBase
    split <;> omega
  intro heq
  have := hmod p i hi
  rw [heq, hmod q j hj] at this
  omega

/-- A port's statistics count while its power domain is on. -/
theorem counts_portStatAt {p i : Nat} (hp : p ≤ 32) (hi : i < 128) (hon : domOn d (portDomain p) = true) :
    counts d (portStatAt p i) = true := by
  have hdom : countDomain (portStatAt p i) = some (portDomain p) := by
    rcases Nat.lt_or_eq_of_le hp with h | rfl
    case inl =>
      have hm : p / 4 < 8 := by omega
      simp only [countDomain, portStatAt, ethBase, macroOf, subOf, portDomain, if_pos h, if_pos hm, Bool.and_eq_true, decide_eq_true_eq]
      rw [if_neg (by omega), if_pos (by omega)]
      exact congrArg some (by omega)
    case inr =>
      simp only [countDomain, portStatAt, ethBase, macroOf, subOf, portDomain, lt_self_iff_false, if_false, Bool.and_eq_true,
        decide_eq_true_eq]
      rw [if_neg (by omega), if_neg (by omega), if_pos (by omega)]
      rfl
  rw [counts, hdom]
  exact hon

theorem portStatAt_lt {p i : Nat} (hi : i < 128) : portStatAt p i < 0xC00000 := by
  unfold portStatAt ethBase macroOf subOf
  grind

theorem cnt_ethStatN_ne {p q i j n : Nat} (hi : i < 128) (hj : j < 128) (h : i ≠ j) :
    tget (ethStatN d q j n).reg.cnt (portStatAt p i) = tget d.reg.cnt (portStatAt p i) := tget_cnt_countN_ne (portStatAt_ne hi hj h)

theorem cnt_ethStat_ne {p q i j : Nat} (hi : i < 128) (hj : j < 128) (h : i ≠ j) :
    tget (ethStat d q j).reg.cnt (portStatAt p i) = tget d.reg.cnt (portStatAt p i) := cnt_ethStatN_ne hi hj h

theorem cnt_ethStat_same {p i : Nat} (hp : p ≤ 32) (hi : i < 128) (hon : domOn d (portDomain p) = true) :
    tgetD (ethStat d p i).reg.cnt (portStatAt p i) 0 = tgetD d.reg.cnt (portStatAt p i) 0 + 1 := by
  rw [ethStat, ethStatN_eq, countN, if_pos (counts_portStatAt hp hi hon)]
  exact tgetD_tset_same ..

/-- What freeing a frame sends and a sent frame's statistics leave PTP_TS_OVERFLOW and every other statistic above 44. -/
theorem cnt_sendPfc {p q i r n : Nat} (hr : r ≤ 8) (hlo : 44 < i) (hi : i < 128) :
    tget (sendPfc d q r n).reg.cnt (portStatAt p i) = tget d.reg.cnt (portStatAt p i) := by
  have hlast : (if r == 8 then 35 else 36 + r) ≤ 44 := by split <;> omega
  simp only [sendPfc, macControl]
  rw [cnt_ethStat_ne hi (by omega) (by omega), cnt_ethStat_ne hi (by omega) (by omega), cnt_ethStatN_ne hi (by omega) (by omega),
    cnt_ethStat_ne hi (by omega) (by omega), emit_reg]

theorem keyPrio_le (k : Nat) : keyPrio k ≤ 8 := by
  unfold keyPrio
  split <;> omega

theorem cnt_freeCopy {p i : Nat} (f : QFrame) (hlo : 44 < i) (hi : i < 128) :
    tget (freeCopy d f).reg.cnt (portStatAt p i) = tget d.reg.cnt (portStatAt p i) := by
  have hxon (e : Dev) : tget (xonAll e).reg.cnt (portStatAt p i) = tget e.reg.cnt (portStatAt p i) := by
    refine foldl_leaves (fun e : Dev => tget e.reg.cnt (portStatAt p i)) (fun e k => ?_) _ e
    simp only [sendXon]
    split
    · exact cnt_sendPfc (keyPrio_le k) hlo hi
    · rfl
  simp only [freeCopy, hxon]
  split
  · split <;> rfl
  · rfl

theorem cnt_txStats {p q i n : Nat} (f : QFrame) (hlo : 44 < i) (hi : i < 128) :
    tget (txStats d q f n).reg.cnt (portStatAt p i) = tget d.reg.cnt (portStatAt p i) := by
  have hkind : (if isBroadcast f.frame.dst then 34 else if isMulticast f.frame.dst then 33 else 32) ≤ 34 := by
    split
    · exact Nat.le_refl _
    · split <;> decide
  have hsent (e : Dev) : tget (ethStat (ethStatN (ethStat e q 30) q 31 n) q
      (if isBroadcast f.frame.dst then 34 else if isMulticast f.frame.dst then 33 else 32)).reg.cnt (portStatAt p i) =
        tget e.reg.cnt (portStatAt p i) := by
    rw [cnt_ethStat_ne hi (by omega) (by omega), cnt_ethStatN_ne hi (by omega) (by omega), cnt_ethStat_ne hi (by omega) (by omega)]
  simp only [txStats]
  split
  · rfl
  · split
    · rw [cnt_ethStat_ne hi (by omega) (by omega), hsent]
    · rw [hsent]

theorem txStats_eth (p : Nat) (f : QFrame) (n : Nat) : (txStats d p f n).eth = d.eth :=
  (same_txStats (part := .eth)).2 (same_refl _ d)

theorem txStats_pwr (p : Nat) (f : QFrame) (n : Nat) : (txStats d p f n).pwr = d.pwr :=
  (same_txStats (part := .pwr)).2 (same_refl _ d)

theorem modEgress_reg (p : Nat) (f : Egress → Egress) : (modEgress d p f).reg = d.reg := rfl

theorem freeCopy_eth (f : QFrame) : (freeCopy d f).eth = d.eth := (same_freeCopy (part := .eth) nofun nofun).2 (same_refl _ d)

/-- A marked PTP event message of an Ethernet port or PW, once sent: its statistics, its timestamp, and its cells. -/
theorem txComplete_marked {p sq : Nat} {t : Tx} (hp : p ≤ 32) (htx : (egressOf d p).tx = some t) (hsend : t.sending = true)
    (hsuper : t.f.super = none) (hptp : t.f.frame.ptp = some sq) (hmark : t.f.mark = true) :
    txComplete d p = freeCopy (modEgress (ptpPush (txStats d p t.f t.f.bytes) p sq t.time) p fun x => { x with tx := none }) t.f := by
  simp only [txComplete, htx, hsend, hsuper, hptp, hmark, hp, Bool.not_true, Bool.false_eq_true, if_false, decide_true, Bool.and_self,
    if_true]

/-- What a timestamp FIFO holds. -/
def ptpFifo (d : Dev) (m : Nat) : List PtpTs := tgetD d.eth.ptp m []

theorem ptpFifo_of_eth {e : Dev} (h : e.eth = d.eth) (m : Nat) : ptpFifo e m = ptpFifo d m := by rw [ptpFifo, h, ptpFifo]

theorem ptpPush_room {p sq time : Nat} (h : (ptpFifo d (macroOf p)).length < 16) :
    (ptpPush d p sq time).eth =
      { d.eth with ptp := tset d.eth.ptp (macroOf p) (ptpFifo d (macroOf p) ++ [{ time, seqId := sq, port := subOf p }]) } := by
  exact (congrArg Dev.eth (if_neg (Nat.not_le.2 h))).trans (ethStat_eth ..)

theorem ptpPush_full {p sq time : Nat} (h : 16 ≤ (ptpFifo d (macroOf p)).length) : ptpPush d p sq time = ethStat d p 60 := if_pos h

/-- No FIFO grows beyond 16 entries (R174). -/
theorem ptpPush_bounded (p sq time : Nat) {m : Nat} (h : (ptpFifo d m).length ≤ 16) :
    (ptpFifo (ptpPush d p sq time) m).length ≤ 16 := by
  rcases Nat.lt_or_ge (ptpFifo d (macroOf p)).length 16 with hroom | hfull
  · rw [ptpFifo, ptpPush_room hroom]
    by_cases hm : m = macroOf p
    · rw [hm, tgetD_tset_same, List.length_append]
      exact hroom
    · rwa [tgetD_tset_ne _ _ _ hm]
  · rwa [ptpPush_full hfull, ptpFifo_of_eth (ethStat_eth ..)]

end

/-- Settles O17: of what completes the sending (`txComplete_marked`) only the timestamp's own push writes the FIFOs or PTP_TS_OVERFLOW. -/
theorem transmitTimestamps : Obligations.TransmitTimestamps := by
  unfold Obligations.TransmitTimestamps
  intro s p sq t hplan hp hon htx hsend hsuper hptp hmark
  refine gives_of_actIf (rfl : execFrameTransmitComplete p s = _) (by simp [hplan, show p < 36 by omega]) ?_
  rw [txComplete_marked hp htx hsend hsuper hptp hmark]
  generalize hsent : txStats s.dev p t.f t.f.bytes = d
  have heth : d.eth = s.dev.eth := by rw [← hsent, txStats_eth]
  have hon' : domOn d (portDomain p) = true := by rwa [domOn, ← hsent, txStats_pwr]
  have hcnt : tget d.reg.cnt (portStatAt p 60) = tget s.dev.reg.cnt (portStatAt p 60) := by
    rw [← hsent, cnt_txStats _ (by decide) (by decide)]
  have hfreed (e : Dev) : (settle (freeCopy (modEgress e p fun x => { x with tx := none }) t.f)).eth = e.eth := by
    rw [settle_eth, freeCopy_eth]
    rfl
  rw [hfreed, ← heth]
  refine ⟨fun m hm => ptpPush_bounded p sq t.time hm, fun hroom => ?_, fun hfull => ?_⟩
  · rw [ptpPush_room hroom, tgetD_tset_same]
    rfl
  · rw [ptpPush_full hfull]
    refine ⟨congrArg Eth.ptp (ethStat_eth ..), ?_⟩
    have hat : ethBase (macroOf p) + 0x1000 + 0x400 * subOf p + 8 * 60 = portStatAt p 60 := rfl
    rw [hat]
    calc tgetD (settle (freeCopy (modEgress (ethStat d p 60) p fun x => { x with tx := none }) t.f)).reg.cnt (portStatAt p 60) 0
        = tgetD (ethStat d p 60).reg.cnt (portStatAt p 60) 0 := by
          rw [tgetD, tget_cnt_settle (portStatAt_lt (by decide)), cnt_freeCopy _ (by decide) (by decide), modEgress_reg, tgetD]
      _ = tgetD d.reg.cnt (portStatAt p 60) 0 + 1 := cnt_ethStat_same hp (by decide) hon'
      _ = tgetD s.dev.reg.cnt (portStatAt p 60) 0 + 1 := by rw [tgetD, hcnt, tgetD]

end Sys2Proof.Machine

/-! ## What the transport does to one connection

Most of the transport's operations write the one connection that they are for, the counters and what is sent. `Moves v c d e` says so of
two devices: Trestle is as before but for the connection at `c`, and the view `v` of that connection is as before too. There is one
lemma `moves_<operation>` for each of them, with the finest view that it leaves. -/

namespace Sys2Proof.Machine

section
variable {d e : Dev} {c : Nat} {x : Conn}

/-! ### The connection at an index -/

theorem tget_tupd {α : Type} (t : Tab α) (k j : Nat) (f : α → α) :
    tget (tupd t k f) j = if j = k then (tget t j).map f else tget t j := by
  induction t with
  | nil => simp [tupd, tget]
  | cons a t ih =>
    have hcons : tget (tupd (a :: t) k f) j = if a.1 = j then some (if a.1 = k then f a.2 else a.2) else tget (tupd t k f) j := by
      simp only [tupd, List.map_cons, beq_iff_eq]
      by_cases hk : a.1 = k <;> simp [hk, tget]
    have htail : tget (a :: t) j = if a.1 = j then some a.2 else tget t j := by
      simp only [tget, beq_iff_eq]
    rw [hcons, htail, ih]
    by_cases hj : a.1 = j
    · subst hj
      by_cases hk : a.1 = k <;> simp [hk]
    · simp [hj]

theorem tupd_tupd {α : Type} (t : Tab α) (k : Nat) (f g : α → α) : tupd (tupd t k f) k g = tupd t k (g ∘ f) := by
  simp only [tupd, List.map_map]
  refine List.map_congr_left fun a _ => ?_
  by_cases hk : a.1 = k <;> simp [hk]

theorem tupd_id {α : Type} (t : Tab α) (k : Nat) : tupd t k (fun a => a) = t := by
  simp [tupd]

theorem connOf_of_conns (h : e.trs.conns = d.trs.conns) (k : Nat) : connOf e k = connOf d k := by simp only [connOf, h]

@[simp] theorem connOf_settle (d : Dev) (k : Nat) : connOf (settle d) k = connOf d k := connOf_of_conns (by rw [settle_trs]) k

theorem connOf_modConn (d : Dev) (c k : Nat) (f : Conn → Conn) :
    connOf (modConn d k f) c = if c = k then (connOf d c).map f else connOf d c := tget_tupd ..

theorem connOf_modConn_same (f : Conn → Conn) (h : connOf d c = some x) : connOf (modConn d c f) c = some (f x) := by
  rw [connOf_modConn, if_pos rfl, h, Option.map_some]

/-- A view of the connection at an index. -/
def connView {α : Type} (v : Conn → α) (d : Dev) (c : Nat) : Option α := (connOf d c).map v

theorem connView_of_some {α : Type} {v : Conn → α} (h : connOf d c = some x) : connView v d c = some (v x) := by
  rw [connView, h, Option.map_some]

theorem connView_of_conns {α : Type} {v : Conn → α} (h : e.trs.conns = d.trs.conns) (k : Nat) : connView v e k = connView v d k := by
  rw [connView, connOf_of_conns h, connView]

/-- A connection whose view is known is there. -/
theorem conn_of_view {α : Type} {v : Conn → α} {a : α} (h : connView v d c = some a) : ∃ y, connOf d c = some y ∧ v y = a :=
  Option.map_eq_some_iff.1 h

/-- A view of a view. -/
theorem connView_mono {α β : Type} {v : Conn → α} {w : Conn → β} (hw : ∀ x y, v x = v y → w x = w y)
    (h : connView v e c = connView v d c) : connView w e c = connView w d c := by
  unfold connView at *
  cases he : connOf e c with
  | none =>
    cases hd : connOf d c with
    | none => rfl
    | some y => simp [he, hd] at h
  | some x =>
    cases hd : connOf d c with
    | none => simp [he, hd] at h
    | some y =>
      rw [he, hd] at h
      exact congrArg some (hw x y (Option.some.inj h))

theorem connView_modConn {α : Type} {v : Conn → α} {f : Conn → Conn} (hf : ∀ x, v (f x) = v x) (k c : Nat) :
    connView v (modConn d k f) c = connView v d c := by
  unfold connView
  rw [connOf_modConn]
  split
  · rw [Option.map_map]
    exact congrArg (Option.map · _) (funext hf)
  · rfl

/-! ### Operations for one connection -/

/-- Of Trestle only the connection at `c` and the tags of probes differ, and what `v` shows of the connection does not; device time and
what has been sent stand. -/
structure Moves {α : Type} (v : Conn → α) (c : Nat) (d e : Dev) : Prop where
  time : e.time = d.time
  sent : d.out <+: e.out
  trs : ∃ f n, e.trs = { d.trs with conns := tupd d.trs.conns c f, probeSeq := n } ∧ ∀ x, v (f x) = v x

section
variable {α β : Type} {v : Conn → α} {w : Conn → β}

theorem Moves.of_trs (htime : e.time = d.time) (hsent : d.out <+: e.out) (htrs : e.trs = d.trs) : Moves v c d e :=
  ⟨htime, hsent, fun x => x, d.trs.probeSeq, by rw [htrs, tupd_id], fun _ => rfl⟩

theorem Moves.refl (d : Dev) : Moves v c d d := .of_trs rfl (List.prefix_refl _) rfl

theorem Moves.trans {b : Dev} (h : Moves v c d e) (h' : Moves v c e b) : Moves v c d b := by
  obtain ⟨ht, hs, f, n, htrs, hf⟩ := h
  obtain ⟨ht', hs', g, m, htrs', hg⟩ := h'
  refine ⟨ht'.trans ht, hs.trans hs', g ∘ f, m, ?_, fun x => (hg _).trans (hf x)⟩
  rw [htrs', htrs, tupd_tupd]

theorem Moves.mono (hw : ∀ x y, v x = v y → w x = w y) (h : Moves v c d e) : Moves w c d e := by
  obtain ⟨ht, hs, f, n, htrs, hf⟩ := h
  exact ⟨ht, hs, f, n, htrs, fun x => hw _ _ (hf x)⟩

theorem Moves.conn (h : Moves v c d e) (k : Nat) : connView v e k = connView v d k := by
  obtain ⟨_, _, f, n, htrs, hf⟩ := h
  rw [connView_of_conns (d := modConn d c f) (by rw [htrs]; rfl), connView_modConn hf]

/-- The connection is there after as it was before. -/
theorem Moves.some (h : Moves v c d e) (hx : connOf d c = some x) : ∃ y, connOf e c = some y ∧ v y = v x :=
  conn_of_view ((h.conn c).trans (connView_of_some hx))

theorem Moves.resident (h : Moves v c d e) : e.trs.resident = d.trs.resident := by
  obtain ⟨_, _, f, n, htrs, _⟩ := h
  rw [htrs]

theorem Moves.foldl {α' : Type} {f : Dev → α' → Dev} (h : ∀ d a, Moves v c d (f d a)) (l : List α') (d : Dev) :
    Moves v c d (l.foldl f d) :=
  foldl_keeps (Moves v c d) f (fun b a hb => hb.trans (h b a)) l d (.refl d)

theorem moves_modConn {f : Conn → Conn} (hf : ∀ x, v (f x) = v x) : Moves v c d (modConn d c f) :=
  ⟨rfl, List.prefix_refl _, f, d.trs.probeSeq, rfl, hf⟩

theorem Moves.modConn (h : Moves v c d e) {f : Conn → Conn} (hf : ∀ x, v (f x) = v x) : Moves v c d (modConn e c f) :=
  h.trans (moves_modConn hf)

@[simp] theorem trsCnt_trs (i : Nat) : (trsCnt d i).trs = d.trs := count_trs ..
@[simp] theorem trsCnt_out (i : Nat) : (trsCnt d i).out = d.out := count_out ..
@[simp] theorem trsCnt_time (i : Nat) : (trsCnt d i).time = d.time := count_time ..
@[simp] theorem pdCnt_trs (pd i n : Nat) : (pdCnt d pd i n).trs = d.trs := countN_trs ..
@[simp] theorem pdCnt_out (pd i n : Nat) : (pdCnt d pd i n).out = d.out := countN_out ..
@[simp] theorem pdCnt_time (pd i n : Nat) : (pdCnt d pd i n).time = d.time := countN_time ..
@[simp] theorem connOf_trsCnt (i k : Nat) : connOf (trsCnt d i) k = connOf d k := connOf_of_conns (by rw [trsCnt_trs]) k
@[simp] theorem connOf_pdCnt (pd i n k : Nat) : connOf (pdCnt d pd i n) k = connOf d k := connOf_of_conns (by rw [pdCnt_trs]) k

theorem moves_countN (off n : Nat) : Moves v c d (countN d off n) := .of_trs (countN_time ..) (by rw [countN_out]) (countN_trs ..)
theorem moves_trsCnt (i : Nat) : Moves v c d (trsCnt d i) := moves_countN ..

/-- A packet of a connection is counted and sent. -/
theorem sendPkt_only (d : Dev) (x : Conn) (p : Pkt) : ∃ t, sendPkt d x p =
    { d with reg.cnt := t, out := d.out ++ [connEmit x (sealPkt { p with dstConn := x.r.srcConn })] } := by
  obtain ⟨t₁, h₁⟩ := countN_only d (0x300100 + 8 * 2) 1
  obtain ⟨t₂, h₂⟩ := countN_only { d with reg.cnt := t₁ } (0x300100 + 8 * 3) p.body.length
  obtain ⟨t₃, h₃⟩ := countN_only { d with reg.cnt := t₂ } (0xC80000 + 128 * x.r.pd + 8 * 13) p.body.length
  have h₁' : trsCnt d 2 = { d with reg.cnt := t₁ } := h₁
  have h₂' : trsCntN { d with reg.cnt := t₁ } 3 (sealPkt { p with dstConn := x.r.srcConn }).body.length = { d with reg.cnt := t₂ } := h₂
  have h₃' : pdCnt { d with reg.cnt := t₂ } x.r.pd 13 (sealPkt { p with dstConn := x.r.srcConn }).body.length = { d with reg.cnt := t₃ } := h₃
  unfold sendPkt
  simp only [h₁', h₂', h₃']
  split
  · exact ⟨t₃, rfl⟩
  · exact ⟨t₁, rfl⟩

@[simp] theorem sendPkt_trs (x : Conn) (p : Pkt) : (sendPkt d x p).trs = d.trs := by
  obtain ⟨_, h⟩ := sendPkt_only d x p
  rw [h]

@[simp] theorem sendPkt_time (x : Conn) (p : Pkt) : (sendPkt d x p).time = d.time := by
  obtain ⟨_, h⟩ := sendPkt_only d x p
  rw [h]

theorem sendPkt_out (x : Conn) (p : Pkt) :
    (sendPkt d x p).out = d.out ++ [connEmit x (sealPkt { p with dstConn := x.r.srcConn })] := by
  obtain ⟨_, h⟩ := sendPkt_only d x p
  rw [h]

theorem moves_sendPkt (x : Conn) (p : Pkt) : Moves v c d (sendPkt d x p) :=
  .of_trs (sendPkt_time ..) (by rw [sendPkt_out]; exact List.prefix_append ..) (sendPkt_trs ..)

end

/-! ### Acknowledging (R228, R237) -/

/-- A connection without what acknowledging moves: its edge, what the peer has been told of it, and what is coalesced. -/
def Conn.sansAck (x : Conn) : Conn := { x with edge := 0, advertised := 0, ackPend := 0, ackPath := 0, ackSince := 0 }

/-- An ACK says what there was to acknowledge, and advertises the edge. -/
def Conn.acked (x : Conn) : Conn := { x with ackPend := 0, advertised := x.edge }

theorem sendAck_eq (path probe : Nat) (h : connOf d c = some x) : sendAck d c path probe =
    modConn (sendPkt d x { verOp := verOp 4, path := BitVec.ofNat 16 path, body := ackBody x probe }) c Conn.acked := by
  simp only [sendAck, h]
  rfl

theorem sendAck_out (path probe : Nat) (h : connOf d c = some x) : (sendAck d c path probe).out = d.out ++ [ackOf x path probe] := by
  rw [sendAck_eq path probe h, modConn_out, sendPkt_out]
  rfl

theorem connOf_sendAck (path probe : Nat) (h : connOf d c = some x) : connOf (sendAck d c path probe) c = some x.acked := by
  rw [sendAck_eq path probe h]
  exact connOf_modConn_same _ ((connOf_of_conns (by rw [sendPkt_trs]) c).trans h)

theorem moves_sendAck (path probe : Nat) : Moves Conn.sansAck c d (sendAck d c path probe) := by
  cases h : connOf d c with
  | none => simp only [sendAck, h]; exact .refl d
  | some x => rw [sendAck_eq path probe h]; exact (moves_sendPkt ..).trans (moves_modConn fun _ => rfl)

theorem moves_sendCredit : Moves Conn.sansAck c d (sendCredit d c) := by
  unfold sendCredit
  split
  · exact .refl d
  · exact (moves_sendPkt ..).trans (moves_modConn fun _ => rfl)

theorem moves_creditIfDue : Moves Conn.sansAck c d (creditIfDue d c) := by
  unfold creditIfDue
  split
  · split
    · exact moves_sendCredit
    · exact .refl d
  · exact .refl d

theorem moves_edgeMove : Moves Conn.sansAck c d (edgeMove d c) := by
  unfold edgeMove
  split
  · exact .refl d
  · refine moves_modConn fun x => ?_
    dsimp only
    split <;> rfl

theorem moves_ackOrWait (p : Pkt) (now : Bool) : Moves Conn.sansAck c d (ackOrWait d c p now) := by
  unfold ackOrWait
  split
  · exact .refl d
  · split
    · exact moves_sendAck ..
    · exact moves_modConn fun _ => rfl

/-! ### Sending, and failing what is open -/

/-- A connection without what acknowledging, sending and failing its open messages move. -/
def Conn.standing (x : Conn) : Conn :=
  { x.sansAck with psn := 0, msn := 0, sent := 0, sendQ := [], unacked := [], reads := [], outMsgs := [], order := 0, nextPath := 0,
                   closeSent := false, deadAt := none, msgs := [], completed := 0, failMask := 0, held := [], nackAt := [] }

theorem standing_of_sansAck (x y : Conn) (h : x.sansAck = y.sansAck) : x.standing = y.standing := by
  have hx : ∀ z : Conn, z.standing = z.sansAck.standing := fun _ => rfl
  rw [hx x, hx y, h]

theorem moves_sendNack (p : Pkt) (code detail : Nat) : Moves Conn.standing c d (sendNack d c p code detail) := by
  unfold sendNack
  split
  · exact .refl d
  · split
    · exact .refl d
    · exact ((moves_sendPkt ..).trans (moves_trsCnt ..)).trans (moves_modConn fun _ => rfl)

/-- Failing a use marks its command, its queue or its fragment. -/
theorem failUse_only (d : Dev) (u : Use) (code : Nat) : ∃ m a, failUse d u code = { d with cmd := m, via := a } := by
  unfold failUse
  cases u <;> exact ⟨_, _, rfl⟩

theorem foldl_failUse_only (l : List Use) (code : Nat) (d : Dev) :
    ∃ m a, l.foldl (fun d u => failUse d u code) d = { d with cmd := m, via := a } :=
  foldl_keeps (fun e => ∃ m a, e = { d with cmd := m, via := a }) _ (fun e u he => by
    obtain ⟨m, a, rfl⟩ := he
    exact failUse_only _ u code) l d ⟨d.cmd, d.via, rfl⟩

theorem settleMsgs_only (n : Nat) (x : Conn) : ∃ k m f, settleMsgs n x = { x with completed := k, msgs := m, failMask := f } := by
  induction n generalizing x with
  | zero => exact ⟨_, _, _, rfl⟩
  | succ n ih =>
    unfold settleMsgs
    split
    · split
      · exact ih _
      · exact ⟨_, _, _, rfl⟩
    · exact ⟨_, _, _, rfl⟩

/-- A connection with every open message and read failed. -/
def Conn.failed (x : Conn) : Conn := settleMsgs 64 { x with
  msgs := x.msgs.map fun e => (e.1, { e.2 with failed := !e.2.complete || e.2.failed }),
  outMsgs := [], reads := [], sendQ := x.sendQ.filter (·.kind == .close), held := [] }

theorem standing_failed (x : Conn) : x.failed.standing = x.standing := by
  obtain ⟨_, _, _, h⟩ := settleMsgs_only 64 { x with
    msgs := x.msgs.map fun e => (e.1, { e.2 with failed := !e.2.complete || e.2.failed }),
    outMsgs := [], reads := [], sendQ := x.sendQ.filter (·.kind == .close), held := [] }
  rw [Conn.failed, h]
  rfl

theorem outMsgs_failed (x : Conn) : x.failed.outMsgs = [] := by
  obtain ⟨_, _, _, h⟩ := settleMsgs_only 64 { x with
    msgs := x.msgs.map fun e => (e.1, { e.2 with failed := !e.2.complete || e.2.failed }),
    outMsgs := [], reads := [], sendQ := x.sendQ.filter (·.kind == .close), held := [] }
  rw [Conn.failed, h]

theorem failOpen_only (code : Nat) (h : connOf d c = some x) :
    ∃ m a, failOpen d c code = { modConn d c Conn.failed with cmd := m, via := a } := by
  obtain ⟨m, a, hf⟩ := foldl_failUse_only (x.outMsgs.map (·.2.use) ++ x.reads.map (·.use) ++ x.sendQ.map (·.use)) code d
  refine ⟨m, a, ?_⟩
  simp only [failOpen, h, hf]
  rfl

theorem moves_failOpen (code : Nat) : Moves Conn.standing c d (failOpen d c code) := by
  cases h : connOf d c with
  | none => simp only [failOpen, h]; exact .refl d
  | some x =>
    obtain ⟨m, a, hf⟩ := failOpen_only code h
    rw [hf]
    exact ⟨rfl, List.prefix_refl _, Conn.failed, d.trs.probeSeq, rfl, standing_failed⟩

/-! ### Asking for a context, and the pump (R216, R265, R267) -/

/-- A context that leaves is acknowledged for. -/
theorem sansAck_evict (k c : Nat) : connView Conn.sansAck (evict d k) c = connView Conn.sansAck d c := by
  unfold evict ctxCnt
  rw [connView_of_conns (by rw [count_trs])]
  split
  · refine (moves_creditIfDue.conn c).trans ?_
    split
    · exact (moves_sendAck ..).conn c
    · rfl
  · rfl

theorem sansAck_makeRoom (c : Nat) : connView Conn.sansAck (makeRoom d).2 c = connView Conn.sansAck d c := by
  unfold makeRoom
  split
  · rfl
  · split
    · rfl
    · split
      · exact sansAck_evict ..
      · rfl

theorem sansAck_wantCtx (k c : Nat) : connView Conn.sansAck (wantCtx d k).2 c = connView Conn.sansAck d c := by
  have hroom (e : Dev) (h : e.trs.conns = d.trs.conns) : connView Conn.sansAck (makeRoom e).2 c = connView Conn.sansAck d c :=
    (sansAck_makeRoom c).trans (connView_of_conns h c)
  unfold wantCtx ctxCnt
  split
  · rfl
  · split
    · rfl
    · split
      · dsimp only
        generalize hr : makeRoom _ = r
        have hview : connView Conn.sansAck r.2 c = connView Conn.sansAck d c := by
          rw [← hr]
          exact hroom _ (by rw [count_trs])
        split
        · exact (connView_of_conns rfl c).trans hview
        · exact (connView_of_conns rfl c).trans hview
      · split
        · rfl
        · exact (connView_of_conns (by rw [count_trs]) c).trans (hroom d rfl)

theorem standing_wantCtx (k c : Nat) : connView Conn.standing (wantCtx d k).2 c = connView Conn.standing d c :=
  connView_mono standing_of_sansAck (sansAck_wantCtx k c)

/-- Of a context that is resident none else is touched. -/
theorem wantCtx_resident {k : Nat} (h : isResident d k = true) : wantCtx d k = (true, touch d k) := by
  rw [wantCtx, if_pos h]

theorem chargeWait_only (d : Dev) (u : Use) (reason ns : Nat) : ∃ m, chargeWait d u reason ns = { d with cmd := m } := by
  unfold chargeWait
  split
  · split
    · exact ⟨_, rfl⟩
    · exact ⟨_, rfl⟩
  · exact ⟨_, rfl⟩

theorem chargeMsg_only (d : Dev) (m : OutMsg) : ∃ s, chargeMsg d m = { d with cmd := s } := by
  obtain ⟨s₁, h₁⟩ := chargeWait_only d m.use 6 (msgWaits d m).1
  obtain ⟨s₂, h₂⟩ := chargeWait_only { d with cmd := s₁ } m.use 7 (msgWaits d m).2
  exact ⟨s₂, by simp only [chargeMsg, h₁, h₂]⟩

theorem standing_sendOne (y : Conn) (i : Nat) (m : OutMsg) (path k : Nat) :
    connView Conn.standing (sendOne d c y i m path) k = connView Conn.standing d k := by
  obtain ⟨s, hs⟩ := chargeMsg_only d m
  have hcharged : connView Conn.standing (chargeMsg d m) k = connView Conn.standing d k := connView_of_conns (by rw [hs]) k
  refine ((moves_sendPkt (c := c) ..).conn k).trans ((connView_modConn ?_ c k).trans hcharged)
  exact fun _ => rfl

theorem standing_pumpGo (fuel k : Nat) : connView Conn.standing (pumpGo c fuel d) k = connView Conn.standing d k := by
  induction fuel generalizing d with
  | zero => rfl
  | succ fuel ih =>
    unfold pumpGo
    split
    · rfl
    · split
      · exact ih.trans (standing_sendOne ..)
      · rfl

theorem standing_pump (k : Nat) : connView Conn.standing (pump d c) k = connView Conn.standing d k := by
  unfold pump
  split
  · rfl
  · split
    · rfl
    · dsimp only
      split
      · refine (connView_modConn ?_ c k).trans ((standing_pumpGo ..).trans (standing_wantCtx ..))
        exact fun _ => rfl
      · refine (connView_modConn ?_ c k).trans (standing_wantCtx ..)
        exact fun _ => rfl

theorem standing_sendMsg (m : OutMsg) (k : Nat) : connView Conn.standing (sendMsg d c m) k = connView Conn.standing d k := by
  refine (standing_pump k).trans (connView_modConn ?_ c k)
  exact fun _ => rfl

/-- A connection with nothing to send sends nothing. -/
theorem pump_of_empty (h : connOf d c = some x) (hq : x.sendQ = []) : pump d c = d := by
  simp only [pump, h, hq, List.isEmpty_nil, Bool.true_or, if_true]

end
end Sys2Proof.Machine

/-! ## What a Trestle packet meets (R204, R213, R217) -/

namespace Sys2Proof.Machine

section
variable {d e : Dev} {c : Nat} {x : Conn} {net : Net} {p : Pkt}

/-! ### Counters of Trestle -/

theorem cnt_trsCnt_same (i : Nat) (hi : i < 64) :
    tgetD (trsCnt d i).reg.cnt (0x300100 + 8 * i) 0 = tgetD d.reg.cnt (0x300100 + 8 * i) 0 + 1 := by
  have hdom : countDomain (0x300100 + 8 * i) = none := by
    simp only [countDomain, Bool.and_eq_true, decide_eq_true_eq]
    rw [if_neg (by omega), if_neg (by omega), if_neg (by omega)]
  have hcounts : counts d (0x300100 + 8 * i) = true := by rw [counts, hdom, Option.all_none]
  simp only [trsCnt, count, countN, hcounts, if_true, tmod, tgetD_tset_same]

theorem cnt_trsCnt_ne {i j : Nat} (h : i ≠ j) :
    tgetD (trsCnt d i).reg.cnt (0x300100 + 8 * j) 0 = tgetD d.reg.cnt (0x300100 + 8 * j) 0 := by
  rw [trsCnt, count, tgetD, tget_cnt_countN_ne (by omega), tgetD]

theorem cnt_trsCntN_ne {i j n : Nat} (h : i ≠ j) :
    tgetD (trsCntN d i n).reg.cnt (0x300100 + 8 * j) 0 = tgetD d.reg.cnt (0x300100 + 8 * j) 0 := by
  rw [trsCntN, tgetD, tget_cnt_countN_ne (by omega), tgetD]

/-- What a packet without data counts as sent is itself alone. -/
theorem cnt_sendPkt_ne {q : Pkt} {j : Nat} (h₁ : pkOp q ≠ 1) (h₃ : pkOp q ≠ 3) (hj : 2 ≠ j) :
    tgetD (sendPkt d x q).reg.cnt (0x300100 + 8 * j) 0 = tgetD d.reg.cnt (0x300100 + 8 * j) 0 := by
  have hop : (pkOp (sealPkt { q with dstConn := x.r.srcConn }) == 1 || pkOp (sealPkt { q with dstConn := x.r.srcConn }) == 3) = false := by
    simp only [Bool.or_eq_false_iff, beq_eq_false_iff_ne]
    exact ⟨h₁, h₃⟩
  simp only [sendPkt, hop, Bool.false_eq_true, if_false]
  exact cnt_trsCnt_ne hj

theorem tgetD_cnt_settle {o : Nat} (ho : o < 0xC00000) : tgetD (settle d).reg.cnt o 0 = tgetD d.reg.cnt o 0 := by
  rw [tgetD, tget_cnt_settle ho, tgetD]

theorem sameMem_of_bytes (h : e.bytes = d.bytes) : SameMem d e := by
  simp only [Dev.bytes, Prod.mk.injEq] at h
  obtain ⟨hrings, hpantry, hdump⟩ := h
  intro a
  rw [hrings, hpantry, hdump]
  exact ⟨rfl, rfl, rfl⟩

/-! ### Steps 1 to 3 of the receive checks -/

/-- A packet whose trailer is right is counted, and so are the bytes of data in it. -/
def rxCounted (d : Dev) (p : Pkt) : Dev :=
  if pkOp p == 1 || pkOp p == 3 then trsCntN (trsCnt d 0) 1 p.body.length else trsCnt d 0

/-- The device as a packet of a resident connection finds it: the packet counted, the context used last. -/
def heard (d : Dev) (c : Nat) (p : Pkt) : Dev := touch (rxCounted d p) c

theorem rxCounted_only (d : Dev) (p : Pkt) : ∃ t, rxCounted d p = { d with reg.cnt := t } := by
  obtain ⟨t₁, h₁⟩ := countN_only d (0x300100 + 8 * 0) 1
  obtain ⟨t₂, h₂⟩ := countN_only { d with reg.cnt := t₁ } (0x300100 + 8 * 1) p.body.length
  have h₁' : trsCnt d 0 = { d with reg.cnt := t₁ } := h₁
  have h₂' : trsCntN { d with reg.cnt := t₁ } 1 p.body.length = { d with reg.cnt := t₂ } := h₂
  unfold rxCounted
  rw [h₁', h₂']
  split
  · exact ⟨t₂, rfl⟩
  · exact ⟨t₁, rfl⟩

theorem heard_only (d : Dev) (c : Nat) (p : Pkt) :
    ∃ t, heard d c p = { d with reg.cnt := t, trs.resident := d.trs.resident.erase c ++ [c] } := by
  obtain ⟨t, h⟩ := rxCounted_only d p
  exact ⟨t, by rw [heard, h]; rfl⟩

theorem rxCounted_cnt {j : Nat} (h₀ : 0 ≠ j) (h₁ : 1 ≠ j) :
    tgetD (rxCounted d p).reg.cnt (0x300100 + 8 * j) 0 = tgetD d.reg.cnt (0x300100 + 8 * j) 0 := by
  unfold rxCounted
  split
  · rw [cnt_trsCntN_ne h₁, cnt_trsCnt_ne h₀]
  · rw [cnt_trsCnt_ne h₀]

@[simp] theorem connOf_heard (k : Nat) : connOf (heard d c p) k = connOf d k := by
  obtain ⟨t, h⟩ := heard_only d c p
  rw [h]
  rfl

@[simp] theorem heard_out : (heard d c p).out = d.out := by
  obtain ⟨t, h⟩ := heard_only d c p
  rw [h]

@[simp] theorem bytes_heard : (heard d c p).bytes = d.bytes := by
  obtain ⟨t, h⟩ := heard_only d c p
  rw [h]
  rfl

/-- A packet with a right trailer that names no connection: neither a CONNECT nor a RESUME of this version. -/
theorem rxPacket_unnamed (hcrc : p.crc = pktCrc p) (hconn : pkOp p ≠ 0xA) (hres : pkOp p ≠ 7) (hnamed : namedBy d net p = none)
    (had : d.par.adopted.contains net.dstIp = false) : rxPacket d net p = nackBadConn (rxCounted d p) net p := by
  obtain ⟨t, ht⟩ := rxCounted_only d p
  have hnamed' : namedBy (rxCounted d p) net p = none := by rw [ht]; exact hnamed
  have had' : (rxCounted d p).par.adopted.contains net.dstIp = false := by rw [ht]; exact had
  have hstart : (if pkOp p == 1 || pkOp p == 3 then trsCntN (trsCnt d 0) 1 p.body.length else trsCnt d 0) = rxCounted d p := rfl
  have hnew : (pkOp p == 0xA && pkVer p == 1) = false := by simp [hconn]
  have hold : (pkOp p == 7 && pkVer p == 1 && (viaPlan (rxCounted d p)).isSome) = false := by simp [hres]
  simp only [rxPacket, hcrc, bne_self_eq_false, Bool.false_eq_true, if_false, hstart, hnew, hnamed', had', hold]

/-- A packet with a right trailer that names a connection whose context is resident, with nothing parked. -/
theorem rxPacket_named (hcrc : p.crc = pktCrc p) (hconn : pkOp p ≠ 0xA ∨ pkVer p ≠ 1) (hnamed : namedBy d net p = some (c, x))
    (hearly : x.st = .resuming → pkOp p = 8)
    (had : d.par.adopted.contains net.dstIp = false ∨ (x.adopted && x.r.localIp == net.dstIp) = true)
    (hporch : d.trs.porch.any (fun e => e.1 == c) = false) (hres : isResident d c = true) :
    rxPacket d net p = rxStep3 (heard d c p) net c p := by
  obtain ⟨t, ht⟩ := rxCounted_only d p
  have hnamed' : namedBy (rxCounted d p) net p = some (c, x) := by rw [ht]; exact hnamed
  have had' : ((rxCounted d p).par.adopted.contains net.dstIp && !(x.adopted && x.r.localIp == net.dstIp)) = false := by
    rw [ht]
    rcases had with h | h
    · exact (congrArg (· && _) h).trans (Bool.false_and _)
    · exact (congrArg (_ && !·) h).trans (Bool.and_false _)
  have hporch' : (rxCounted d p).trs.porch.any (fun e => e.1 == c) = false := by rw [ht]; exact hporch
  have hres' : isResident (rxCounted d p) c = true := by rw [ht]; exact hres
  have hnew : (pkOp p == 0xA && pkVer p == 1) = false := by
    rcases hconn with h | h <;> simp [h]
  have hsoon : (x.st == .resuming && pkOp p != 8 && !(pkOp p == 5 && byteAt p.body 9 == 2)) = false := by
    by_cases h : x.st = .resuming
    · simp [hearly h]
    · simp [h]
  have hstart : (if pkOp p == 1 || pkOp p == 3 then trsCntN (trsCnt d 0) 1 p.body.length else trsCnt d 0) = rxCounted d p := rfl
  have hconnRx : rxConn (rxCounted d p) c x net p = rxStep3 (heard d c p) net c p := by
    simp only [rxConn, hsoon, had', Bool.or_self, hporch', wantCtx_resident hres', Bool.false_eq_true, if_false, if_true]
    rfl
  simp only [rxPacket, hcrc, bne_self_eq_false, Bool.false_eq_true, if_false, hstart, hnew, hnamed', hconnRx]

/-- What `rxOk` says, part by part. -/
theorem rxOk_parts (h : rxOk d net p c x = true) : (serving d = true ∧ domOn d (pdTRS 0) = true) ∧ p.crc = pktCrc p ∧ pkVer p = 1
    ∧ namedBy d net p = some (c, x) ∧ connOf d c = some x ∧ badField p x.r.payload = none ∧ isResident d c = true
    ∧ d.trs.porch.any (fun e => e.1 == c) = false
    ∧ (d.par.adopted.contains net.dstIp = false ∨ (x.adopted && x.r.localIp == net.dstIp) = true) := by
  simp only [rxOk, Bool.and_eq_true, beq_iff_eq, Option.isNone_iff_eq_none, Bool.not_eq_true', Bool.or_eq_true] at h
  obtain ⟨⟨⟨⟨⟨⟨⟨⟨⟨hserv, hdom⟩, hcrc⟩, hver⟩, hnamed⟩, hx⟩, hbad⟩, hres⟩, hporch⟩, had⟩ := h
  exact ⟨⟨hserv, hdom⟩, hcrc, hver, hnamed, hx, hbad, hres, hporch, had.imp id fun h => by simp [h]⟩

theorem connOf_of_rxOk (h : rxOk d net p c x = true) : connOf d c = some x := (rxOk_parts h).2.2.2.2.1

/-- A packet that reaches step 4 of the checks is acted upon. -/
theorem rxPacket_acts (h : rxOk d net p c x = true) (h₀ : 0 < pkOp p) (hD : pkOp p < 0xD) (hA : pkOp p ≠ 0xA)
    (htakes : connTakes x p = true) (hearly : x.st = .resuming → pkOp p = 8) : rxPacket d net p = rxAct (heard d c p) net c x p := by
  obtain ⟨_, hcrc, hver, hnamed, hx, hbad, hres, hporch, had⟩ := rxOk_parts h
  rw [rxPacket_named hcrc (.inl hA) hnamed hearly had hporch hres]
  have hx' : connOf (heard d c p) c = some x := by rw [connOf_heard, hx]
  simp [rxStep3, hx', htakes, hver, hbad, Nat.pos_iff_ne_zero.1 h₀, Nat.not_le.2 hD]

theorem connTakes_established (h : x.st = .established) : connTakes x p = true := by simp [connTakes, connLive, h]

/-- So is every packet but a CONNECT of an ESTABLISHED connection. -/
theorem rxPacket_established (h : rxOk d net p c x = true) (hst : x.st = .established) (h₀ : 0 < pkOp p) (hD : pkOp p < 0xD)
    (hA : pkOp p ≠ 0xA) : rxPacket d net p = rxAct (heard d c p) net c x p :=
  rxPacket_acts h h₀ hD hA (connTakes_established hst) (by simp [hst])

/-! ### What a packet completes as -/

/-- What every packet does, whatever its opcode. -/
theorem gives_arrive {i : Instr} {s : State} {P : Dev → Prop} (hi : exec i s = arrive s net p)
    (hs : serving s.dev = true ∧ domOn s.dev (pdTRS 0) = true) (h : P (settle (rxPacket s.dev net p))) : Gives i s P :=
  gives_of_actIf hi (by simp only [hs.1, hs.2, Bool.and_self]) h

/-- What a packet of an ESTABLISHED connection does. -/
theorem gives_rx {i : Instr} {s : State} {P : Dev → Prop} (hi : exec i s = arrive s net p) (h : rxOk s.dev net p c x = true)
    (hst : x.st = .established) (h₀ : 0 < pkOp p) (hD : pkOp p < 0xD) (hA : pkOp p ≠ 0xA)
    (hP : P (settle (rxAct (heard s.dev c p) net c x p))) : Gives i s P :=
  gives_arrive hi (rxOk_parts h).1 (by rw [rxPacket_established h hst h₀ hD hA]; exact hP)

/-- A connection there is after a command, by what is known of a view of it. -/
theorem connHas_of_view {α : Type} {v : Conn → α} {a : α} (h : connView v d c = some a) : connHas (settle d) c fun y => v y = a := by
  obtain ⟨y, hy, hv⟩ := conn_of_view h
  exact ⟨y, by rw [connOf_settle, hy], hv⟩

theorem connHas_settle {q : Conn → Prop} (h : connOf d c = some x) (hq : q x) : connHas (settle d) c q :=
  ⟨x, by rw [connOf_settle, h], hq⟩

/-! ### Packets that are discarded -/

/-- An ESTABLISHED connection that is closed is CLOSING. -/
theorem st_closeConn {reason : Nat} (h : connOf d c = some x) (hst : x.st = .established) :
    connView (·.st) (closeConn d c reason) c = some .closing := by
  obtain ⟨y, hy, _⟩ := (moves_failOpen (d := d) (c := c) 0).some h
  simp only [closeConn, h, hst, beq_self_eq_true, if_true]
  refine (connView_mono (fun _ _ hv => congrArg Conn.st hv) (standing_sendMsg ..)).trans ?_
  exact connView_of_some (connOf_modConn_same _ hy)

/-- A protocol violation closes an ESTABLISHED connection (R217). -/
theorem st_violate {code detail : Nat} (h : connOf d c = some x) (hst : x.st = .established) :
    connView (·.st) (violate d c x p code detail) c = some .closing := by
  obtain ⟨y, hy, hv⟩ := (((moves_sendNack p code detail).trans (moves_trsCnt 9)) : Moves Conn.standing c d _).some h
  have hyst : y.st = .established := (congrArg Conn.st hv).trans hst
  have hnot : (x.st == ConnSt.connecting) = false := by rw [hst]; rfl
  simp only [violate, hnot, Bool.false_eq_true, if_false]
  exact st_closeConn hy hyst

theorem drawPortBase_range (d : Dev) : (drawPortBase d).1 % 64 = 0 ∧ 0xC000 ≤ (drawPortBase d).1 ∧ (drawPortBase d).1 ≤ 0xFFC0 := by
  have hlt : (drawBits d 8).1 < 2 ^ 8 := Nat.mod_lt _ (by decide)
  have hbase : (drawPortBase d).1 = 0xC000 + 64 * (drawBits d 8).1 := rfl
  omega

/-- The opcode of a packet that is made with one. -/
theorem pkOp_of_verOp {q : Pkt} {n : Nat} (hn : n < 16) (h : q.verOp = verOp n) : pkOp q = n := by
  simp only [pkOp, h, verOp, fld, BitVec.toNat_ofNat]
  omega

/-- The path of a packet that is made with one. -/
theorem pkPath_of_path {q : Pkt} {n : Nat} (h : q.path = BitVec.ofNat 16 n) : pkPath q = n % 64 := by
  simp only [pkPath, h, fld, BitVec.toNat_ofNat]
  omega

theorem pkPath_lt (p : Pkt) : pkPath p < 64 := Nat.mod_lt _ (by decide)

/-- The NACK of a packet that names no connection (R213). -/
def badConnNack (p : Pkt) : Pkt :=
  sealPkt { verOp := verOp 5, path := BitVec.ofNat 16 (pkPath p), body := nackBody p.psn.toNat p.msn.toNat 3 p.dstConn.toNat }

theorem pkOp_badConnNack (p : Pkt) : pkOp (badConnNack p) = 5 := pkOp_of_verOp (by decide) rfl

theorem pkPath_badConnNack (p : Pkt) : pkPath (badConnNack p) = pkPath p :=
  (pkPath_of_path rfl).trans (Nat.mod_eq_of_lt (pkPath_lt p))

theorem code_badConnNack (p : Pkt) : byteAt (badConnNack p).body 8 = 3 := rfl

/-- A source that has had its NACK within the millisecond gets none. -/
theorem nackBadConn_again (h : (tget d.trs.badConnAt net.srcIp).any (fun t => d.time < t + 1000000) = true) :
    nackBadConn d net p = trsCnt d 19 := by
  simp only [nackBadConn, trsCnt_trs, trsCnt_time, h, if_true]

/-- Any other is answered from a port base drawn for it. -/
theorem nackBadConn_first (h : (tget d.trs.badConnAt net.srcIp).any (fun t => d.time < t + 1000000) = false) :
    ∃ b, (nackBadConn d net p).out =
      d.out ++ [trsEmit net.dstIp net.srcIp ((drawPortBase b).1 + pkPath p) net.srcPort (badConnNack p)] := by
  simp only [nackBadConn, trsCnt_trs, trsCnt_time, h, Bool.false_eq_true, if_false, trsCnt_out]
  exact ⟨_, congrArg (· ++ _) (trsCnt_out 19)⟩

theorem nackBadConn_conns : (nackBadConn d net p).trs.conns = d.trs.conns := by
  unfold nackBadConn
  dsimp only
  split
  · rw [trsCnt_trs]
  · rw [trsCnt_trs, trsCnt_trs]
    show (trsCnt d 19).trs.conns = d.trs.conns
    rw [trsCnt_trs]

end

/-- The twelve commands by which a packet arrives are one and the same. -/
theorem exec_packet {net : Net} {p : Pkt} (s : State) : ∀ i ∈ [Instr.trestleWrite net p, .trestleReadReq net p, .trestleReadResp net p,
    .trestleAck net p, .trestleNack net p, .trestleCredit net p, .trestleProbe net p, .trestleConnect net p, .trestleClose net p,
    .trestleResumeReply net p, .trestleConnectReply net p, .trestleResume net p], exec i s = arrive s net p := by
  simp only [List.forall_mem_cons, List.not_mem_nil, false_implies, implies_true, and_true]
  exact ⟨rfl, rfl, rfl, rfl, rfl, rfl, rfl, rfl, rfl, rfl, rfl, rfl⟩

/-- Settles O19: each clause is one branch of the receive checks, up to steps 2, 3 and 6. -/
theorem trestleDiscards : Obligations.TrestleDiscards := by
  unfold Obligations.TrestleDiscards
  intro s net p hserv hdom i hi
  have hexec := exec_packet s i hi
  refine ⟨?trailer, ?unnamed, ?duplicate, ?violation⟩
  case trailer =>
    intro hcrc
    refine gives_arrive hexec ⟨hserv, hdom⟩ ?_
    have hrx : rxPacket s.dev net p = trsCnt (trsCnt s.dev 0) 8 := by simp only [rxPacket, bne_iff_ne.2 hcrc, if_true]
    rw [hrx, tgetD_cnt_settle (by decide), tgetD_cnt_settle (by decide), settle_trs, settle_out]
    refine ⟨by rw [trsCnt_trs, trsCnt_trs], by rw [trsCnt_out, trsCnt_out], ?_, ?_⟩
    · exact (cnt_trsCnt_same 8 (by decide)).trans (congrArg (· + 1) (cnt_trsCnt_ne (i := 0) (j := 8) (by decide)))
    · exact (cnt_trsCnt_ne (i := 8) (j := 0) (by decide)).trans (cnt_trsCnt_same 0 (by decide))
  case unnamed =>
    intro hcrc hseq hnamed had
    have hA : pkOp p ≠ 0xA := by rintro h; simp [h, isSequenced] at hseq
    have h7 : pkOp p ≠ 7 := by rintro h; simp [h, isSequenced] at hseq
    refine gives_arrive hexec ⟨hserv, hdom⟩ ?_
    rw [rxPacket_unnamed hcrc hA h7 hnamed had]
    obtain ⟨t, ht⟩ := rxCounted_only s.dev p
    rw [settle_trs, settle_out, nackBadConn_conns, ht]
    refine ⟨rfl, sameMem_of_bytes ?bytes, fun hagain => ?again, fun hfirst => ?first⟩
    case bytes =>
      rw [bytes_settle, bytes_nackBadConn]
      rfl
    case again =>
      rw [nackBadConn_again (by exact hagain), trsCnt_out]
    case first =>
      obtain ⟨b, hout⟩ := nackBadConn_first (d := { s.dev with reg.cnt := t }) (p := p) hfirst
      obtain ⟨h64, hlo, hhi⟩ := drawPortBase_range b
      refine ⟨badConnNack p, (drawPortBase b).1, pkOp_badConnNack p, code_badConnNack p, h64, hlo, hhi, ?_⟩
      rw [hout, pkPath_badConnNack]
  case duplicate =>
    intro c x hok hst hseq hdup
    have hop : pkOp p = 1 ∨ pkOp p = 2 ∨ pkOp p = 3 ∨ pkOp p = 0xC := by simpa [isSequenced, or_assoc] using hseq
    refine gives_rx hexec hok hst (by omega) (by omega) (by omega) ?_
    have hact : rxAct (heard s.dev c p) net c x p = sendAck (trsCnt (heard s.dev c p) 7) c (pkPath p) 0 := by
      have hdup' : (below32 p.psn.toNat x.cum || x.got.contains p.psn.toNat || x.held.any fun q => q.psn == p.psn) = true := by
        simpa [or_assoc] using hdup
      rcases hop with h | h | h | h <;> simp only [rxAct, h, hdup', if_true]
    have hx : connOf (trsCnt (heard s.dev c p) 7) c = some x := by
      rw [connOf_trsCnt, connOf_heard, connOf_of_rxOk hok]
    rw [hact, tgetD_cnt_settle (by decide), settle_out]
    refine ⟨?_, sameMem_of_bytes ?_, ?_⟩
    · rw [sendAck_out _ _ hx, trsCnt_out, heard_out]
    · rw [bytes_settle, bytes_sendAck, bytes_trsCnt, bytes_heard]
    · have hack : pkOp { verOp := verOp 4, path := BitVec.ofNat 16 (pkPath p), body := ackBody x 0 } = 4 := pkOp_of_verOp (by decide) rfl
      rw [sendAck_eq _ _ hx]
      calc tgetD (sendPkt (trsCnt (heard s.dev c p) 7) x _).reg.cnt (0x300100 + 8 * 7) 0
          = tgetD (trsCnt (heard s.dev c p) 7).reg.cnt (0x300100 + 8 * 7) 0 := cnt_sendPkt_ne (by omega) (by omega) (by decide)
        _ = tgetD (heard s.dev c p).reg.cnt (0x300100 + 8 * 7) 0 + 1 := cnt_trsCnt_same 7 (by decide)
        _ = tgetD s.dev.reg.cnt (0x300100 + 8 * 7) 0 + 1 := congrArg (· + 1) (rxCounted_cnt (by decide) (by decide))
  case violation =>
    intro c x hcrc hnamed hx hst hres hporch had hbad
    have hnew : pkOp p ≠ 0xA ∨ pkVer p ≠ 1 := by omega
    refine gives_arrive hexec ⟨hserv, hdom⟩ ?_
    rw [rxPacket_named hcrc hnew hnamed (by simp [hst]) (.inl had) hporch hres]
    have hx' : connOf (heard s.dev c p) c = some x := by rw [connOf_heard, hx]
    have hstep : rxStep3 (heard s.dev c p) net c p = violate (heard s.dev c p) c x p 2 p.verOp.toNat := by
      have hbad' : (pkVer p != 1 || pkOp p == 0 || decide (0xD ≤ pkOp p)) = true := by simpa [or_assoc] using hbad
      simp only [rxStep3, hx', connTakes_established hst, Bool.not_true, Bool.false_eq_true, if_false, hbad', if_true]
    rw [hstep]
    exact connHas_of_view (st_violate hx' hst)

end Sys2Proof.Machine

/-! ## Acknowledgements, failures and timers of a connection (R226 to R234, R243, R245) -/

namespace Sys2Proof.Machine

section
variable {d e : Dev} {c : Nat} {x : Conn}

/-! ### The end of a connection (R212) -/

section
variable {α : Type} {v : Conn → α}

theorem moves_pairOn (pathB : Bool) (m : PairMsg) : Moves v c d (pairOn d pathB m) := by
  unfold pairOn
  dsimp only
  split
  · exact .refl d
  · exact .of_trs rfl (List.prefix_append ..) rfl

theorem moves_mirrorQueue (item : MirrorItem) (a : OnAck) : Moves v c d (mirrorQueue d item a) := by
  have hsend (e : Dev) (he : Moves v c d e) (lost : Bool) (m : PairMsg) (off : Nat) :
      Moves v c d (if lost then e else count (pairSend e m) off) := by
    split
    · exact he
    · exact (he.trans (moves_pairOn ..)).trans (moves_countN ..)
  unfold mirrorQueue
  dsimp only
  split
  · refine hsend _ ?_ _ _ _
    exact .of_trs rfl (List.prefix_refl _) rfl
  · split
    · refine hsend _ ?_ _ _ _
      exact .of_trs rfl (List.prefix_refl _) rfl
    · exact .refl d

theorem moves_mirror (item : MirrorItem) : Moves v c d (mirror d item) := moves_mirrorQueue ..

theorem moves_detachCqs : Moves v c d (detachCqs d c) := by
  refine .foldl (fun d a => ?_) _ _
  exact .of_trs rfl (List.prefix_refl _) rfl

theorem moves_innerLost (x : Conn) : Moves v c d (innerLost d x) := by
  unfold innerLost
  split
  · exact .of_trs rfl (List.prefix_refl _) rfl
  · exact .refl d

end

theorem mirror_trs (item : MirrorItem) : (mirror d item).trs = d.trs := (same_mirror (part := .trs) nofun nofun).2 (same_refl ..)
theorem detachCqs_trs : (detachCqs d c).trs = d.trs := (same_detachCqs (part := .trs) nofun).2 (same_refl ..)
theorem innerLost_trs (x : Conn) : (innerLost d x).trs = d.trs := (same_innerLost (part := .trs) nofun).2 (same_refl ..)

/-- A connection in TIME_WAIT since `now`, with all that was open failed. -/
def Conn.ended (now : Nat) (x : Conn) : Conn :=
  { x.failed with st := .timeWait, since := now, sendQ := [], unacked := [], deadAt := none, ackPend := 0, held := [] }

/-- The entry to TIME_WAIT ends the connection, and sends no more than its mirror item. -/
theorem enterTimeWait_ends (h : connOf d c = some x) :
    connOf (enterTimeWait d c) c = some (x.ended d.time) ∧ d.out <+: (enterTimeWait d c).out := by
  obtain ⟨m, a, hf⟩ := failOpen_only 0 h
  simp only [enterTimeWait, h]
  rw [hf]
  generalize hg : (modConn { modConn d c Conn.failed with cmd := m, via := a } c _ : Dev) = g
  have hx : connOf g c = some (x.ended d.time) := by
    rw [← hg]
    exact connOf_modConn_same _ (connOf_modConn_same Conn.failed h)
  have hout : g.out = d.out := by rw [← hg]; rfl
  have hend (e : Dev) : Moves id c e (mirror (detachCqs (innerLost e x) c) (.st (.conn c none))) :=
    ((moves_innerLost x).trans moves_detachCqs).trans (moves_mirror _)
  constructor
  · exact (connOf_of_conns (by rw [mirror_trs, detachCqs_trs, innerLost_trs]) c).trans hx
  · rw [← hout]
    refine List.IsPrefix.trans ?_ (hend _).sent
    exact List.prefix_refl _

theorem outMsgs_ended (now : Nat) (x : Conn) : (x.ended now).outMsgs = [] := outMsgs_failed x

/-! ### Transmitting again (R230, R231) -/

/-- A connection one of whose packets has been transmitted again. -/
def Conn.resent (now psn path : Nat) (x : Conn) : Conn :=
  { x with order := x.order + 1, unacked := x.unacked.map fun u =>
      if u.psn == psn then { u with time := now, sent := (path, x.order) :: u.sent } else u }

/-- A connection without what transmitting packets again moves, and their PSNs. -/
def Conn.sansTries (x : Conn) : Conn × List Nat := ({ x with order := 0, unacked := [] }, x.unacked.map (·.psn))

theorem psns_map {f : TxPkt → TxPkt} (hf : ∀ t, (f t).psn = t.psn) (l : List TxPkt) : (l.map f).map (·.psn) = l.map (·.psn) := by
  rw [List.map_map]
  exact List.map_congr_left fun t _ => hf t

theorem sansTries_resent (now psn path : Nat) (x : Conn) : (x.resent now psn path).sansTries = x.sansTries := by
  refine Prod.ext rfl (psns_map (fun t => ?_) _)
  split <;> rfl

theorem resend_only (t : TxPkt) (path : Nat) (h : connOf d c = some x) :
    (resend d c t path).time = d.time ∧ d.out <+: (resend d c t path).out
      ∧ (resend d c t path).trs = (modConn d c (Conn.resent d.time t.psn path)).trs := by
  simp only [resend, h, pdCnt_time, pdCnt_out, pdCnt_trs, trsCnt_time, trsCnt_out, trsCnt_trs, sendPkt_time, sendPkt_out, sendPkt_trs]
  exact ⟨rfl, List.prefix_append .., rfl⟩

theorem connOf_resend (t : TxPkt) (path : Nat) (h : connOf d c = some x) :
    connOf (resend d c t path) c = some (x.resent d.time t.psn path) := by
  obtain ⟨_, _, htrs⟩ := resend_only t path h
  rw [connOf_of_conns (congrArg Trs.conns htrs), connOf_modConn_same _ h]

theorem moves_resend (t : TxPkt) (path : Nat) : Moves Conn.sansTries c d (resend d c t path) := by
  cases h : connOf d c with
  | none => simp only [resend, h]; exact .refl d
  | some x =>
    obtain ⟨htime, hout, htrs⟩ := resend_only t path h
    exact ⟨htime, hout, _, d.trs.probeSeq, htrs, fun x => sansTries_resent ..⟩

/-! ### Paths (R233) -/

/-- A connection without what path evidence, timeouts and probes move. -/
def Conn.sansPaths (x : Conn) : Conn := { x with paths := [], deadAt := none }

theorem moves_modPath (p : Nat) (f : PathRec → PathRec) : Moves Conn.sansPaths c d (modPath d c p f) := moves_modConn fun _ => rfl

theorem moves_sendProbe (p : Nat) : Moves Conn.sansPaths c d (sendProbe d c p) := by
  unfold sendProbe
  split
  · exact .refl d
  · refine .trans ?_ (moves_sendPkt ..)
    refine .modConn (.trans ?_ (moves_modPath ..)) (by intro _; rfl)
    exact ⟨rfl, List.prefix_refl _, fun x => x, d.trs.probeSeq + 1, by rw [tupd_id], fun _ => rfl⟩

theorem moves_chargePath (p : Nat) : Moves Conn.sansPaths c d (chargePath d c p) := by
  unfold chargePath
  split
  · exact .refl d
  · split
    · exact (moves_modPath ..).trans (moves_sendProbe ..)
    · split
      · exact (moves_modPath ..).trans (moves_trsCnt ..)
      · exact (moves_modPath ..).trans (moves_sendProbe ..)
    · exact .refl d

theorem moves_pathEvidence (p tag : Nat) : Moves Conn.sansPaths c d (pathEvidence d c p tag) := by
  unfold pathEvidence
  split
  · exact .refl d
  · dsimp only
    generalize he : (if (tag != 0 && _) = true then _ else d) = e
    have hprobe : Moves Conn.sansPaths c d e := by
      rw [← he]
      split
      · exact moves_modPath ..
      · exact .refl d
    split
    · exact hprobe
    · split
      · exact hprobe.trans (moves_modPath ..)
      · exact hprobe
    · split
      · exact (hprobe.trans (moves_modPath ..)).trans (moves_trsCnt ..)
      · exact hprobe

/-! ### A received ACK (R227, R230 to R232) -/

/-- What a connection awaits of its peer, its queue and its state. -/
def Conn.awaits (x : Conn) : List Nat × Nat × Nat × List (Nat × OutMsg) × List OutMsg × ConnSt :=
  (x.unacked.map (·.psn), x.peerCum, x.peerDone, x.outMsgs, x.sendQ, x.st)

theorem awaits_of_sansPaths (x y : Conn) (h : x.sansPaths = y.sansPaths) : x.awaits = y.awaits := by
  have hx : ∀ z : Conn, z.awaits = z.sansPaths.awaits := fun _ => rfl
  rw [hx x, hx y, h]

theorem awaits_of_sansTries (x y : Conn) (h : x.sansTries = y.sansTries) : x.awaits = y.awaits := by
  have hx : ∀ z : Conn, z.awaits = (z.sansTries.2, z.sansTries.1.awaits.2) := fun _ => rfl
  rw [hx x, hx y, h]

theorem moves_rttSample (r : Nat) : Moves Conn.awaits c d (rttSample d c r) := moves_modConn fun _ => rfl

theorem moves_takeEdge (edge : Nat) : Moves Conn.awaits c d (takeEdge d c edge) :=
  moves_modConn fun x => by split <;> rfl

theorem moves_failUse {α : Type} {v : Conn → α} (u : Use) (code : Nat) : Moves v c d (failUse d u code) := by
  obtain ⟨m, a, h⟩ := failUse_only d u code
  rw [h]
  exact .of_trs rfl (List.prefix_refl _) rfl

theorem moves_msgDone {α : Type} {v : Conn → α} (u : Use) (failed : Bool) (code : Nat) : Moves v c d (msgDone d u failed code) := by
  unfold msgDone
  split
  · exact moves_mirror _
  · split
    · exact moves_failUse ..
    · exact .refl d

/-- A connection whose peer has finished the messages below `done`, of which `mask` shows those that failed. -/
def Conn.retired (done mask : Nat) (x : Conn) : Conn := { x with
  peerDone := if below32 x.peerDone done then done else x.peerDone,
  outMsgs := x.outMsgs.filter fun m => !below32 m.1 done,
  reads := x.reads.filter fun r => !(below32 r.msn done && bitAt mask (sub32 done r.msn - 1)) }

theorem connOf_retireMsgs (done mask : Nat) (h : connOf d c = some x) :
    connOf (retireMsgs d c done mask) c = some (x.retired done mask) := by
  simp only [retireMsgs, h]
  refine connOf_modConn_same (x := x) _ ?_
  obtain ⟨y, hy, hyx⟩ := ((Moves.foldl (v := id) (c := c) (fun d (m : Nat × OutMsg) =>
      moves_msgDone m.2.use (decide (sub32 done m.1 - 1 < 64) && bitAt mask (sub32 done m.1 - 1)) 0)
        (x.outMsgs.filter fun m => below32 m.1 done) d).trans
    (Moves.foldl (fun d (r : ReadOut) => moves_failUse r.use 0)
      (x.reads.filter fun r => below32 r.msn done && bitAt mask (sub32 done r.msn - 1)) _)).some h
  exact hy.trans (congrArg some hyx)

/-- A fast retransmission (R232). -/
def fastResend (c : Nat) (d : Dev) (t : TxPkt) : Dev :=
  match (connOf d c).bind fastPath with
  | some path =>
    trsCnt (resend (modConn d c fun x => { x with unacked := x.unacked.map fun u =>
      if u.psn == t.psn then ({ u with fastAt := some d.time } : TxPkt) else u }) c t path) 6
  | none => d

theorem moves_fastResend (t : TxPkt) : Moves Conn.sansTries c d (fastResend c d t) := by
  unfold fastResend
  split
  · refine ((moves_modConn fun x => ?_).trans (moves_resend ..)).trans (moves_trsCnt ..)
    refine Prod.ext rfl (psns_map (fun t => ?_) _)
    split <;> rfl
  · exact .refl d

/-- An ACK's cumulative PSN and blocks. -/
def ackCum (p : Pkt) : Nat := beAt p.body 0 4
def ackBlocks (p : Pkt) : List (Nat × Nat) :=
  (List.range (byteAt p.body 28)).map fun i => (beAt p.body (32 + 8 * i) 4, beAt p.body (36 + 8 * i) 4)

/-- What an ACK leaves of a connection that has nothing to send. -/
theorem takeAck_conn {p : Pkt} (h : connOf d c = some x) (hst : x.st = .established) (hq : x.sendQ = []) :
    connView Conn.awaits (takeAck d c p) c = some
      ((x.unacked.filter fun t => !ackCovers (ackCum p) (ackBlocks p) t.psn).map (·.psn),
        if below32 x.peerCum (ackCum p) then ackCum p else x.peerCum,
        if below32 x.peerDone (beAt p.body 4 4) then beAt p.body 4 4 else x.peerDone,
        x.outMsgs.filter fun m => !below32 m.1 (beAt p.body 4 4), [], .established) := by
  simp only [takeAck, h]
  generalize hd₁ : modConn d c _ = d₁
  have hx₁ : connOf d₁ c = some { x with
      unacked := x.unacked.filter fun t => !ackCovers (ackCum p) (ackBlocks p) t.psn,
      peerCum := if below32 x.peerCum (ackCum p) then ackCum p else x.peerCum } := by
    rw [← hd₁, connOf_modConn_same _ h]
    rfl
  generalize hd₂ : (if beAt p.body 24 4 != 0 then _ else _) = d₂
  have hpaths : Moves Conn.awaits c d₁ d₂ := by
    have hrtt : Moves Conn.awaits c d₁ (((x.unacked.filter fun t => ackCovers (ackCum p) (ackBlocks p) t.psn).filter
        (·.sent.length == 1)).foldl (fun d t => rttSample d c (d.time - t.time)) d₁) := .foldl (fun d t => moves_rttSample _) _ _
    have hpath (e : Dev) (tag q : Nat) : Moves Conn.awaits c e (pathEvidence e c q tag) :=
      (moves_pathEvidence ..).mono awaits_of_sansPaths
    have hev := hrtt.trans (.foldl (fun e q => hpath e 0 q) (((x.unacked.filter fun t => ackCovers (ackCum p) (ackBlocks p) t.psn).flatMap
      fun t => t.sent.map (·.1)).eraseDups) _)
    rw [← hd₂]
    split
    · refine hev.trans (.foldl (fun e q => ?_) _ _)
      split
      · exact hpath ..
      · exact .refl e
    · exact hev
  obtain ⟨x₂, hx₂, hview₂⟩ := hpaths.some hx₁
  have hx₃ := connOf_retireMsgs (beAt p.body 4 4) (beAt p.body 16 8) hx₂
  generalize hd₃ : retireMsgs d₂ c _ _ = d₃ at hx₃ ⊢
  generalize hd₄ : modConn (List.foldl _ _ _) c _ = d₄
  have hlost : Moves Conn.awaits c d₃ d₄ := by
    rw [← hd₄]
    refine .modConn (.trans (moves_takeEdge _) (.foldl (f := fastResend c) (fun e t => ?_) _ _)) (by intro _; rfl)
    exact (moves_fastResend t).mono awaits_of_sansTries
  obtain ⟨x₄, hx₄, hview₄⟩ := hlost.some hx₃
  simp only [Conn.awaits, Conn.retired, Prod.mk.injEq, hq, hst] at hview₂ hview₄
  obtain ⟨hpsns₂, hcum₂, hdone₂, hmsgs₂, hq₂, hst₂⟩ := hview₂
  obtain ⟨hpsns₄, hcum₄, hdone₄, hmsgs₄, hq₄, hst₄⟩ := hview₄
  have hdone : closingDone d₄ c = d₄ := by
    have hst' : x₄.st = .established := hst₄.trans hst₂
    simp [closingDone, hx₄, hst']
  rw [hdone, pump_of_empty hx₄ (hq₄.trans hq₂), connView_of_some hx₄]
  simp only [Conn.awaits, hpsns₄, hcum₄, hdone₄, hmsgs₄, hq₄, hst₄, hpsns₂, hcum₂, hdone₂, hmsgs₂, hq₂, hst₂]

end
end Sys2Proof.Machine

namespace Sys2Proof.Machine

section
variable {d : Dev} {c : Nat} {x : Conn} {net : Net} {p : Pkt}

/-! ### A received NACK or CREDIT (R229, R237) -/

/-- A NACK of class 2 ends the connection. -/
theorem takeNack_ends (h : connOf d c = some x) (hcls : byteAt p.body 9 = 2) :
    connOf (takeNack d c x p) c = some (x.ended d.time) := by
  have hx : connOf (trsCnt d 11) c = some x := by rw [connOf_trsCnt, h]
  simp only [takeNack, hcls, beq_self_eq_true, if_true]
  rw [(enterTimeWait_ends hx).1, trsCnt_time]

/-- A connection that has forgotten what it began under a message number. -/
def Conn.forgotten (msn : Nat) (x : Conn) : Conn := { x with
  outMsgs := x.outMsgs.filter (·.1 != msn),
  reads := x.reads.filter (·.msn != msn),
  sendQ := x.sendQ.filter fun m => !((m.kind == .write || m.kind == .readReq) && m.msn == some msn) }

/-- A NACK of class 1 that is for no READ_RESP forgets its message. -/
theorem takeNack_forgets (h : connOf d c = some x) (hcls : byteAt p.body 9 = 1) (hq : x.sendQ = [])
    (hno : x.unacked.any (fun t => t.psn == beAt p.body 0 4 && pkOp t.pk == 3) = false) :
    connOf (takeNack d c x p) c = some (x.forgotten (beAt p.body 4 4)) := by
  have hx : connOf (trsCnt d 11) c = some x := by rw [connOf_trsCnt, h]
  have h2 : (byteAt p.body 9 == 2) = false := by rw [hcls]; rfl
  have h1 : (byteAt p.body 9 != 1) = false := by rw [hcls]; rfl
  simp only [takeNack, h2, h1, hno, Bool.false_eq_true, if_false]
  generalize hf : List.foldl _ (trsCnt d 11) _ = e
  obtain ⟨m, a, hfail⟩ := foldl_failUse_only ((x.outMsgs.filter (·.1 == beAt p.body 4 4)).map (·.2.use)
    ++ (x.reads.filter (·.msn == beAt p.body 4 4)).map (·.use)) (byteAt p.body 8) (trsCnt d 11)
  have he : connOf e c = some x := by rw [← hf, hfail]; exact hx
  have hforgot := connOf_modConn_same (Conn.forgotten (beAt p.body 4 4)) he
  have hempty : (x.forgotten (beAt p.body 4 4)).sendQ = [] := by rw [Conn.forgotten, hq, List.filter_nil]
  show connOf (pump (modConn e c (Conn.forgotten (beAt p.body 4 4))) c) c = some (x.forgotten (beAt p.body 4 4))
  rw [pump_of_empty hforgot hempty, hforgot]

/-- A CREDIT takes an edge beyond the one held, whatever is sent then. -/
theorem peerEdge_credit (edge : Nat) (h : connOf d c = some x) :
    connView (·.peerEdge) (pump (takeEdge d c edge) c) c = some (if beyond edge x.peerEdge then edge else x.peerEdge) := by
  refine (connView_mono (fun _ _ hv => congrArg Conn.peerEdge hv) (standing_pump c)).trans ?_
  refine (connView_of_some (connOf_modConn_same _ h)).trans (congrArg some ?_)
  split <;> rfl

end

/-- Settles O22: what each packet does to its connection is `takeAck_conn`, `takeNack_ends`, `takeNack_forgets`, `peerEdge_credit` and
`connOf_sendAck`. -/
theorem trestleReplies : Obligations.TrestleReplies := by
  unfold Obligations.TrestleReplies
  intro s net p c x hok hst
  have hx : connOf (heard s.dev c p) c = some x := by rw [connOf_heard, connOf_of_rxOk hok]
  refine ⟨?ack, ?ends, ?forgets, ?credit, ?probe⟩
  case ack =>
    intro hop hq
    refine gives_rx (i := .trestleAck net p) rfl hok hst (by omega) (by omega) (by omega) ?_
    obtain ⟨e, hgo, he⟩ : ∃ e, rxAct (heard s.dev c p) net c x p = takeAck e c p ∧ connOf e c = some x := by
      simp only [rxAct, hop]
      cases x.r.inner with
      | none => exact ⟨_, rfl, hx⟩
      | some n => exact ⟨_, rfl, hx⟩
    obtain ⟨y, hy, hview⟩ := conn_of_view (takeAck_conn (p := p) he hst hq)
    rw [hgo]
    simp only [Conn.awaits, Prod.mk.injEq] at hview
    obtain ⟨hpsns, hcum, hdone, hmsgs, -, -⟩ := hview
    exact connHas_settle hy ⟨hpsns, hcum, hdone, hmsgs⟩
  case ends =>
    intro hop hcls
    refine gives_rx (i := .trestleNack net p) rfl hok hst (by omega) (by omega) (by omega) ?_
    simp only [rxAct, hop]
    exact connHas_settle (takeNack_ends hx hcls) ⟨rfl, rfl, outMsgs_ended ..⟩
  case forgets =>
    intro hop hcls hq hno
    refine gives_rx (i := .trestleNack net p) rfl hok hst (by omega) (by omega) (by omega) ?_
    simp only [rxAct, hop]
    exact connHas_settle (takeNack_forgets hx hcls hq hno) ⟨rfl, rfl⟩
  case credit =>
    intro hop
    refine gives_rx (i := .trestleCredit net p) rfl hok hst (by omega) (by omega) (by omega) ?_
    simp only [rxAct, hop]
    exact connHas_of_view (peerEdge_credit _ hx)
  case probe =>
    intro hop
    refine gives_rx (i := .trestleProbe net p) rfl hok hst (by omega) (by omega) (by omega) ?_
    simp only [rxAct, hop]
    rw [settle_out, sendAck_out _ _ hx, heard_out]
    exact ⟨rfl, connHas_settle (connOf_sendAck _ _ hx) rfl⟩

/-! ## Timers of a connection (R228, R231 to R234, R243, R245) -/

section
variable {d e : Dev} {c : Nat} {x : Conn}

/-! ### The RTO -/

theorem rtoOf_congr (hlive : e.reg.live = d.reg.live) (hpln : e.pln = d.pln) (x : Conn) : rtoOf e x = rtoOf d x := by
  simp only [rtoOf, rtoMin, rtoMax, liveN_congr hlive hpln]

/-- One more expiry doubles the RTO, up to its bound. -/
theorem rtoOf_backoff (d : Dev) (x : Conn) : rtoOf d { x with backoff := x.backoff + 1 } = min (2 * rtoOf d x) (rtoMax d) := by
  simp only [rtoOf, Nat.pow_succ, ← Nat.mul_assoc]
  generalize _ * 2 ^ x.backoff = rto
  omega

/-- With an OPEN path there is one for a retransmission. -/
theorem retryPath_isSome (h : openPaths x ≠ []) (last : Nat) : (retryPath x last).isSome = true := by
  obtain ⟨q, hq⟩ := List.exists_mem_of_ne_nil _ h
  unfold retryPath
  cases hf : (openPaths x).find? (· != last) with
  | some r => rfl
  | none =>
    have hlast : q = last := by simpa using List.find?_eq_none.1 hf q hq
    rw [Option.none_or, if_pos (by rw [List.contains_iff_mem, ← hlast]; exact hq)]
    rfl

/-- The retransmission of one packet at an RTO. -/
def rtoResend (c : Nat) (d : Dev) (t : TxPkt) : Dev :=
  match (connOf d c).bind fun x => retryPath x (lastPath t) with
  | some path => resend d c t path
  | none => d

theorem moves_rtoResend (t : TxPkt) : Moves Conn.sansTries c d (rtoResend c d t) := by
  unfold rtoResend
  split
  · exact moves_resend ..
  · exact .refl d

/-- Every packet of one PSN has been transmitted now. -/
def sentNow (c psn now : Nat) (d : Dev) : Prop := d.time = now ∧ ∀ y, connOf d c = some y → ∀ u ∈ y.unacked, u.psn = psn → u.time = now

theorem sentNow_rtoResend {psn now : Nat} (t : TxPkt) (h : sentNow c psn now d) : sentNow c psn now (rtoResend c d t) := by
  unfold rtoResend
  split
  next path _ =>
    cases hx : connOf d c with
    | none => simp only [resend, hx]; exact h
    | some x =>
      refine ⟨(resend_only t path hx).1.trans h.1, fun y hy u hu hpsn => ?_⟩
      rw [connOf_resend t path hx, Option.some.injEq] at hy
      subst hy
      obtain ⟨u₀, hu₀, rfl⟩ := List.mem_map.1 hu
      by_cases heq : u₀.psn = t.psn
      · simp only [heq, beq_self_eq_true, if_true]
        exact h.1
      · simp only [beq_eq_false_iff_ne.2 heq, Bool.false_eq_true, if_false] at hpsn ⊢
        exact h.2 x hx u₀ hu₀ hpsn
  · exact h

/-- A packet that is transmitted again is transmitted now. -/
theorem rtoResend_sentNow {t : TxPkt} (hx : connOf d c = some x) (hopen : openPaths x ≠ []) :
    sentNow c t.psn d.time (rtoResend c d t) := by
  obtain ⟨path, hpath⟩ := Option.isSome_iff_exists.1 (retryPath_isSome hopen (lastPath t))
  have hgo : rtoResend c d t = resend d c t path := by simp only [rtoResend, hx, Option.bind_some, hpath]
  rw [hgo]
  refine ⟨(resend_only t path hx).1, fun y hy u hu hpsn => ?_⟩
  rw [connOf_resend t path hx, Option.some.injEq] at hy
  subst hy
  obtain ⟨u₀, hu₀, rfl⟩ := List.mem_map.1 hu
  by_cases heq : u₀.psn = t.psn
  · simp only [heq, beq_self_eq_true, if_true]
  · simp only [beq_eq_false_iff_ne.2 heq, Bool.false_eq_true, if_false] at hpsn
    exact absurd hpsn heq

/-- With an OPEN path every packet of a list is transmitted again now. -/
theorem foldl_rtoResend_sentNow {l : List TxPkt} {t : TxPkt} (ht : t ∈ l) (hx : connOf d c = some x) (hopen : openPaths x ≠ []) :
    sentNow c t.psn d.time (l.foldl (rtoResend c) d) := by
  obtain ⟨l₁, l₂, rfl⟩ := List.append_of_mem ht
  rw [List.foldl_append, List.foldl_cons]
  have hmoves : Moves Conn.sansTries c d (l₁.foldl (rtoResend c) d) := .foldl (fun e t => moves_rtoResend t) l₁ d
  obtain ⟨y, hy, hview⟩ := hmoves.some hx
  have hopen' : openPaths y ≠ [] := by
    have hpaths : y.paths = x.paths := (congrArg (fun v => v.1.paths) hview :)
    rwa [openPaths, hpaths]
  refine foldl_keeps (sentNow c t.psn d.time) _ (fun e u he => sentNow_rtoResend u he) l₂ _ ?_
  rw [← hmoves.time]
  exact rtoResend_sentNow hy hopen'

/-- The RTO of a connection that has packets due: they are transmitted again, their paths charged, and the RTO doubles. -/
theorem rtoGo_eq (hx : connOf d c = some x) (hdue : x.unacked.any (fun t => t.time + rtoOf d x ≤ d.time) = true) :
    rtoGo d c = modConn (((x.unacked.filter fun t => t.time + rtoOf d x ≤ d.time).map lastPath).eraseDups.foldl
      (fun d p => chargePath d c p) ((x.unacked.filter fun t => t.time + rtoOf d x ≤ d.time).foldl (rtoResend c) (trsCnt d 5))) c
      fun x => { x with backoff := x.backoff + 1 } := by
  have hsome : (x.unacked.filter fun t => t.time + rtoOf d x ≤ d.time).isEmpty = false := by
    obtain ⟨t, ht, hdue⟩ := List.any_eq_true.1 hdue
    exact List.isEmpty_eq_false_iff.2 (List.ne_nil_of_mem (List.mem_filter.2 ⟨ht, hdue⟩))
  simp only [rtoGo, hx, hsome, Bool.false_eq_true, if_false]
  rfl

theorem rtoGo_conn (hx : connOf d c = some x) (hdue : x.unacked.any (fun t => t.time + rtoOf d x ≤ d.time) = true) :
    ∃ y, connOf (rtoGo d c) c = some y ∧ rtoOf d y = min (2 * rtoOf d x) (rtoMax d) ∧ y.unacked.map (·.psn) = x.unacked.map (·.psn)
      ∧ (openPaths x ≠ [] → ∀ u ∈ y.unacked, (∃ t ∈ x.unacked, t.psn = u.psn ∧ t.time + rtoOf d x ≤ d.time) → u.time = d.time) := by
  rw [rtoGo_eq hx hdue]
  generalize hl : (x.unacked.filter fun t => t.time + rtoOf d x ≤ d.time) = l
  have hx₁ : connOf (trsCnt d 5) c = some x := by rw [connOf_trsCnt, hx]
  have hsent : Moves Conn.sansTries c (trsCnt d 5) (l.foldl (rtoResend c) (trsCnt d 5)) := .foldl (fun e t => moves_rtoResend t) _ _
  obtain ⟨x₂, hx₂, hview₂⟩ := hsent.some hx₁
  generalize he : l.foldl (rtoResend c) (trsCnt d 5) = e at hx₂ ⊢
  have hcharged : Moves Conn.sansPaths c e ((l.map lastPath).eraseDups.foldl (fun d p => chargePath d c p) e) :=
    .foldl (fun e p => moves_chargePath p) _ _
  obtain ⟨x₃, hx₃, hview₃⟩ := hcharged.some hx₂
  refine ⟨_, connOf_modConn_same _ hx₃, ?_, ?_, fun hopen u hu hdue => ?_⟩
  · have hrto : rtoOf d x₃ = rtoOf d x := by
      have h₃ : rtoOf d x₃ = rtoOf d x₂ := (congrArg (rtoOf d) hview₃ :)
      have h₂ : rtoOf d x₂ = rtoOf d x := (congrArg (fun v => rtoOf d v.1) hview₂ :)
      exact h₃.trans h₂
    rw [rtoOf_backoff, hrto]
  · have h₃ : x₃.unacked = x₂.unacked := (congrArg Conn.unacked hview₃ :)
    exact (congrArg _ h₃).trans (congrArg Prod.snd hview₂)
  · obtain ⟨t, ht, hpsn, hlate⟩ := hdue
    have hnow := foldl_rtoResend_sentNow (l := l) (t := t) (by rw [← hl]; exact List.mem_filter.2 ⟨ht, by simpa using hlate⟩) hx₁ hopen
    rw [he, trsCnt_time] at hnow
    have h₃ : x₃.unacked = x₂.unacked := (congrArg Conn.unacked hview₃ :)
    exact hnow.2 x₂ hx₂ u (h₃ ▸ hu) hpsn.symm

end
end Sys2Proof.Machine

namespace Sys2Proof.Machine

section
variable {d e : Dev} {c : Nat} {x : Conn}

theorem tget_tdel_ne {α : Type} {t : Tab α} {j k : Nat} (h : j ≠ k) : tget (tdel t k) j = tget t j := by
  induction t with
  | nil => rfl
  | cons e t ih =>
    by_cases hk : e.1 = k
    · simpa [tdel, List.filter_cons, tget, hk, h.symm] using ih
    · by_cases hj : e.1 = j
      · simp [tdel, tget, hj, h]
      · simpa [tdel, List.filter_cons, tget, hk, hj] using ih

/-! ### Timers that find the context resident (R266) -/

theorem timerDue_resident {t : CtxTimer} (hx : connOf d c = some x) (hst : x.st = .established ∨ x.st = .closing)
    (hres : isResident d c = true) : timerDue d c t = timerGo (touch d c) c t := by
  have hst' : (x.st == .established || x.st == .closing) = true := by
    rcases hst with h | h <;> rw [h] <;> rfl
  simp only [timerDue, hx, hst', if_true, ctxDo, wantCtx_resident hres]

/-- The RTO bounds and every other register stand through an RTO. -/
theorem rtoOf_rtoGo (y : Conn) : rtoOf (settle (rtoGo d c)) y = rtoOf d y := by
  have hregs : Piece.regs.same d (rtoGo d c) := (same_rtoGo (part := .regs) nofun nofun).2 (same_refl ..)
  have hpln : Piece.pln.same d (rtoGo d c) := (same_rtoGo (part := .pln) nofun nofun).2 (same_refl ..)
  exact rtoOf_congr ((settle_reg_live _).trans hregs.1) ((settle_pln _).trans hpln) y

/-- A PROBE carries a new tag on its path (R233), which the path holds. -/
theorem sendProbe_conn {p : Nat} {r : PathRec} (hx : connOf d c = some x) (hr : tget x.paths p = some r) :
    ∃ y r', connOf (sendProbe d c p) c = some y ∧ tget y.paths p = some r' ∧ r'.probing = true
      ∧ r'.tag = d.trs.probeSeq % 0xFFFFFFFF + 1 := by
  have hpath : tget (tupd x.paths p fun r => { r with tag := d.trs.probeSeq % 0xFFFFFFFF + 1, probing := true, time := d.time }) p
      = some { r with tag := d.trs.probeSeq % 0xFFFFFFFF + 1, probing := true, time := d.time } :=
    (tget_tupd_same ..).trans (congrArg (Option.map _) hr)
  simp only [sendProbe, hx]
  refine ⟨_, _, (connOf_of_conns (congrArg Trs.conns (sendPkt_trs ..)) c).trans
    (connOf_modConn_same _ (connOf_modConn_same (x := x) _ hx)), hpath, rfl, rfl⟩

theorem sendProbe_out {p : Nat} (hx : connOf d c = some x) :
    ∃ q, (sendProbe d c p).out = d.out ++ [connEmit x q] ∧ pkOp q = 9 ∧ pkPath q = p % 64
      ∧ q.tag = BitVec.ofNat 32 (d.trs.probeSeq % 0xFFFFFFFF + 1) := by
  simp only [sendProbe, hx, sendPkt_out]
  exact ⟨_, rfl, pkOp_of_verOp (by decide) rfl, pkPath_of_path rfl, rfl⟩

/-! ### RESUME (R243, R245) -/

theorem sendResume_conn (hx : connOf d c = some x) : connOf (sendResume d c) c = some { x with resumes := x.resumes + 1 } := by
  simp only [sendResume, hx]
  refine connOf_modConn_same (x := x) _ ?_
  rw [connOf_trsCnt, connOf_of_conns (congrArg Trs.conns (sendPkt_trs ..)), hx]

theorem sendResume_out (hx : connOf d c = some x) : ∃ q, (sendResume d c).out = d.out ++ [connEmit x q] ∧ pkOp q = 7 := by
  simp only [sendResume, hx, modConn_out, trsCnt_out, sendPkt_out]
  exact ⟨_, rfl, pkOp_of_verOp (by decide) rfl⟩

/-- After the eighth RESUME a CLOSE with RESUME_FAILED goes out. -/
theorem resumeAgain_fails (hx : connOf d c = some x) (hst : x.st = .resuming) (h8 : 8 ≤ x.resumes) :
    ∃ q, connOf (resumeAgain d c) c = some (x.ended d.time) ∧ connEmit x q ∈ (resumeAgain d c).out ∧ pkOp q = 0xC
      ∧ byteAt q.body 0 = 5 := by
  have hnot : (x.st != .resuming) = false := by rw [hst]; rfl
  simp only [resumeAgain, hx, hnot, Bool.false_eq_true, if_false, Nat.not_lt.2 h8]
  generalize hq : ({ verOp := verOp 0xC, psn := BitVec.ofNat 32 x.psn, body := 5 :: zeros 7 } : Pkt) = q
  have hx' : connOf (trsCnt (sendPkt d x q) 21) c = some x := by
    rw [connOf_trsCnt, connOf_of_conns (congrArg Trs.conns (sendPkt_trs ..)), hx]
  obtain ⟨hend, hout⟩ := enterTimeWait_ends hx'
  rw [trsCnt_time, sendPkt_time] at hend
  rw [trsCnt_out, sendPkt_out] at hout
  refine ⟨_, hend, hout.subset (List.mem_append_right _ (List.mem_singleton_self _)), ?_, ?_⟩
  · exact pkOp_of_verOp (by decide) (by rw [← hq]; rfl)
  · rw [← hq]
    rfl

end

/-- Settles O24: a timer of a resident connection runs at once (`timerDue_resident`), and each has its own lemma above. -/
theorem connectionTimers : Obligations.ConnectionTimers := by
  unfold Obligations.ConnectionTimers
  intro s c x hplan hx
  have hx' : connOf (touch s.dev c) c = some x := hx
  refine ⟨fun hres hst => ⟨?rto, ?probe, ?ack, ?dead⟩, ?closing, ?timeWait, fun hst => ⟨?resume, ?failed⟩⟩
  case rto =>
    intro hdue
    refine gives_of_actIf (rfl : execRtoExpire c s = _) hplan ?_
    rw [timerDue_resident hx hst hres]
    obtain ⟨y, hy, hrto, hpsns, hsent⟩ := rtoGo_conn hx' hdue
    exact connHas_settle hy ⟨(rtoOf_rtoGo y).trans hrto, hpsns, hsent⟩
  case probe =>
    intro p r hr hclosed
    refine gives_of_actIf (rfl : execPathProbeTimer c p s = _) hplan ?_
    have hgo : timerDue s.dev c (.probe p) = sendProbe (touch s.dev c) c p := by
      rw [timerDue_resident hx hst hres]
      simp [timerGo, probeGo, hx', hr, hclosed]
    rw [hgo, settle_out]
    obtain ⟨y, r', hy, hr', hprobing, htag⟩ := sendProbe_conn hx' hr
    exact ⟨connHas_settle hy ⟨r', hr', hprobing, htag⟩, sendProbe_out hx'⟩
  case ack =>
    intro hpend
    refine gives_of_actIf (rfl : execAckCoalesceExpire c s = _) hplan ?_
    have hgo : timerDue s.dev c .ack = sendAck (touch s.dev c) c x.ackPath 0 := by
      rw [timerDue_resident hx hst hres]
      simp [timerGo, ackGo, hx', hpend]
    rw [hgo, settle_out]
    exact ⟨sendAck_out _ _ hx', connHas_settle (connOf_sendAck _ _ hx') rfl⟩
  case dead =>
    intro hest hawaits
    refine gives_of_actIf (rfl : execDeadTimerExpire c s = _) hplan ?_
    have hgo : timerDue s.dev c .dead = trsCnt (enterTimeWait (touch s.dev c) c) 22 := by
      rw [timerDue_resident hx hst hres]
      simp [timerGo, deadGo, hx', hest, hawaits]
    rw [hgo]
    exact connHas_settle ((connOf_trsCnt ..).trans (enterTimeWait_ends hx').1) ⟨rfl, rfl⟩
  case closing =>
    intro hst
    refine gives_of_actIf (rfl : execClosingTimeout c s = _) hplan ?_
    simp only [hx, Option.any_some, hst, beq_self_eq_true, if_true]
    exact connHas_settle (enterTimeWait_ends hx).1 ⟨rfl, rfl⟩
  case timeWait =>
    intro hst
    refine gives_of_actIf (rfl : execTimeWaitExpire c s = _) hplan ?_
    simp only [hx, Option.any_some, hst, beq_self_eq_true, if_true, connOf_settle, settle_trs]
    exact ⟨tget_tdel_same .., trivial, fun k hk => tget_tdel_ne hk⟩
  case resume =>
    intro hfew
    refine gives_of_actIf (rfl : execResumeRetry c s = _) hplan ?_
    have hgo : resumeAgain s.dev c = sendResume s.dev c := by simp [resumeAgain, hx, hst, hfew]
    rw [hgo, settle_out]
    exact ⟨connHas_settle (sendResume_conn hx) rfl, sendResume_out hx⟩
  case failed =>
    intro h8
    refine gives_of_actIf (rfl : execResumeRetry c s = _) hplan ?_
    obtain ⟨q, hend, hout, hop, hreason⟩ := resumeAgain_fails hx hst h8
    rw [settle_out]
    exact ⟨connHas_settle hend rfl, q, hout, hop, hreason⟩

end Sys2Proof.Machine

namespace Sys2Proof.Machine

/-! ## PSNs received (R215, R228) -/

/-- What an ACK says of a sequence number: CUM_PSN lies beyond it, or it is among those received above. -/
def marked (psn : Nat) (r : Nat × List Nat) : Prop := below32 psn r.1 = true ∨ r.2.contains psn = true

theorem below32_iff (a b : Nat) : below32 a b = true ↔ 0 < sub32 b a ∧ sub32 b a < 2 ^ 31 := by
  have hne : a % 2 ^ 32 ≠ b % 2 ^ 32 ↔ 0 < sub32 b a := by
    simp only [sub32]
    omega
  simp only [below32, Bool.and_eq_true, bne_iff_ne, hne, decide_eq_true_iff]
  exact Iff.rfl

theorem sub32_succ (cum psn : Nat) (h : sub32 cum psn < 2 ^ 31) : sub32 ((cum + 1) % 2 ^ 32) psn = sub32 cum psn + 1 := by
  simp only [sub32] at *
  omega

theorem sub32_self (cum : Nat) : sub32 cum cum = 0 := by
  simp only [sub32]
  omega

theorem sub32_next (cum : Nat) : sub32 ((cum + 1) % 2 ^ 32) cum = 1 := by
  rw [sub32_succ cum cum (by rw [sub32_self]; decide), sub32_self]

/-- CUM_PSN moving on leaves what lies below it below, while it moves less than half the numbers. -/
theorem below32_advCum {psn : Nat} (fuel cum : Nat) (got : List Nat) (hpos : 0 < sub32 cum psn) (hfew : sub32 cum psn + fuel < 2 ^ 31) :
    below32 psn (advCum fuel cum got).1 = true := by
  induction fuel generalizing cum got with
  | zero =>
    rw [Nat.add_zero] at hfew
    exact (below32_iff psn cum).2 ⟨hpos, hfew⟩
  | succ fuel ih =>
    rw [advCum]
    split
    · have hnext := sub32_succ cum psn (by omega)
      exact ih _ _ (by omega) (by omega)
    · exact (below32_iff psn cum).2 ⟨hpos, by omega⟩

/-- A number received stays so while CUM_PSN moves on. -/
theorem marked_advCum {psn : Nat} (fuel cum : Nat) (got : List Nat) (hpsn : psn ∈ got) (hfew : fuel < 2 ^ 31) :
    marked psn (advCum fuel cum got) := by
  induction fuel generalizing cum got with
  | zero => exact .inr (List.contains_iff_mem.2 hpsn)
  | succ fuel ih =>
    unfold advCum
    split
    · by_cases heq : psn = cum
      · subst heq
        exact .inl (below32_advCum _ _ _ (by rw [sub32_next]; decide) (by rw [sub32_next]; omega))
      · exact ih _ _ ((List.mem_erase_of_ne heq).2 hpsn) (by omega)
    · exact .inr (List.contains_iff_mem.2 hpsn)

/-- CUM_PSN moves over the number next to be received. -/
theorem below32_advCum_next (cum : Nat) (got : List Nat) (hfew : got.length < 4096) :
    below32 cum (advCum (got.length + 1) cum (cum :: got)).1 = true := by
  simp only [advCum, List.contains_cons, beq_self_eq_true, Bool.true_or, if_true]
  exact below32_advCum _ _ _ (by rw [sub32_next]; decide) (by rw [sub32_next]; omega)

section
variable {d : Dev} {c : Nat} {x : Conn} {p : Pkt} {now : Bool}

/-- What has been received of a connection's sequenced packets. -/
def Conn.psns (x : Conn) : Nat × List Nat := (x.cum, x.got)

theorem psns_of_standing (x y : Conn) (h : x.standing = y.standing) : x.psns = y.psns := (congrArg Conn.psns h :)
theorem psns_of_sansAck (x y : Conn) (h : x.sansAck = y.sansAck) : x.psns = y.psns := (congrArg Conn.psns h :)

/-! ### A sequenced packet that is new (R217) -/

/-- The checks that a new packet passes. -/
theorem newPsn_parts (h : newPsn x p = true) :
    (below32 p.psn.toNat x.cum || x.got.contains p.psn.toNat || x.held.any fun q => q.psn == p.psn) = false
      ∧ ¬ 4096 ≤ sub32 p.psn.toNat x.cum := by
  simp only [newPsn, Bool.and_eq_true, Bool.not_eq_true', decide_eq_true_eq] at h
  obtain ⟨⟨⟨hcum, hgot⟩, hheld⟩, hnear⟩ := h
  exact ⟨by rw [hcum, hgot, hheld]; rfl, Nat.not_le.2 hnear⟩

theorem rxAct_write {net : Net} (hop : pkOp p = 1) (h : newPsn x p = true) :
    rxAct d net c x p = rxWrite (pdCnt d x.r.pd 12 p.body.length) c x p := by
  obtain ⟨hdup, hnear⟩ := newPsn_parts h
  simp only [rxAct, hop, hdup, hnear, Bool.false_eq_true, if_false, beq_self_eq_true, Bool.true_or, if_true]

theorem rxAct_readReq {net : Net} (hop : pkOp p = 2) (h : newPsn x p = true) : rxAct d net c x p = rxReadReq d c x p := by
  obtain ⟨hdup, hnear⟩ := newPsn_parts h
  simp only [rxAct, hop, hdup, hnear, Bool.false_eq_true, if_false, Nat.reduceBEq, Bool.or_self]

theorem rxAct_readResp {net : Net} (hop : pkOp p = 3) (h : newPsn x p = true) :
    rxAct d net c x p = rxReadResp (pdCnt d x.r.pd 12 p.body.length) c x p := by
  obtain ⟨hdup, hnear⟩ := newPsn_parts h
  simp only [rxAct, hop, hdup, hnear, Bool.false_eq_true, if_false, beq_self_eq_true, Bool.or_true, if_true]

theorem rxAct_close {net : Net} (hop : pkOp p = 0xC) (h : newPsn x p = true) :
    rxAct d net c x p = markRx (modConn d c fun x => { x with closePsn := some p.psn.toNat }) c p false := by
  obtain ⟨hdup, hnear⟩ := newPsn_parts h
  simp only [rxAct, hop, hdup, hnear, Bool.false_eq_true, if_false, Nat.reduceBEq, Bool.or_self]

/-- The packet next in order is new. -/
theorem newPsn_next (hpsn : p.psn.toNat = x.cum) (hgot : x.got = []) (hheld : x.held = []) : newPsn x p = true := by
  simp [newPsn, hpsn, hgot, hheld, below32, sub32_self]

/-! ### A PSN marked received -/

/-- What is received with a packet. -/
def rcvdWith (x : Conn) (p : Pkt) : Nat × List Nat := advCum (x.got.length + 1) x.cum (p.psn.toNat :: x.got)

theorem rcvdWith_congr {y : Conn} (h : y.psns = x.psns) : rcvdWith y p = rcvdWith x p := by
  obtain ⟨hcum, hgot⟩ := Prod.mk.inj h
  simp only [rcvdWith, hcum, hgot]

/-- A packet received is among them. -/
theorem marked_of_psns {y : Conn} (h : y.psns = rcvdWith x p) (hgot : x.got.length < 4096) :
    below32 p.psn.toNat y.cum = true ∨ y.got.contains p.psn.toNat = true := by
  have hmarked : marked p.psn.toNat (rcvdWith x p) := marked_advCum _ _ _ List.mem_cons_self (by omega)
  rw [← h] at hmarked
  exact hmarked

/-- CUM_PSN moves over the packet next in order. -/
theorem below32_of_psns {y : Conn} (h : y.psns = rcvdWith x p) (hgot : x.got.length < 4096) (hnext : p.psn.toNat = x.cum) :
    below32 p.psn.toNat y.cum = true := by
  have hcum : y.cum = (rcvdWith x p).1 := congrArg Prod.fst h
  rw [hcum, rcvdWith, hnext]
  exact below32_advCum_next x.cum x.got hgot

/-- A connection with what is received now. -/
def Conn.received (r : Nat × List Nat) (path : Nat) (x : Conn) : Conn := { x with cum := r.1, got := r.2, ackPath := path }

/-- The acknowledgements that follow on a PSN received. -/
theorem markRx_eq (p : Pkt) (now : Bool) (h : connOf d c = some x) :
    ∃ e, markRx d c p now = peerClose e c
      ∧ Moves Conn.sansAck c (modConn d c (Conn.received (rcvdWith x p) (pkPath p))) e := by
  simp only [markRx, h]
  exact ⟨_, rfl, (moves_edgeMove.trans (moves_ackOrWait ..)).trans moves_creditIfDue⟩

theorem peerClose_of_open (h : connOf d c = some x) (hclose : x.closePsn = none) : peerClose d c = d := by
  simp only [peerClose, h, hclose]

/-- Without a CLOSE of the peer only acknowledgements follow on a PSN received. -/
theorem markRx_open (h : connOf d c = some x) (hclose : x.closePsn = none) : ∃ late, markRx d c p now =
    creditIfDue (ackOrWait (edgeMove (modConn d c (Conn.received (rcvdWith x p) (pkPath p))) c) c p late) c := by
  have hmoves (late : Bool) : Moves Conn.sansAck c (modConn d c (Conn.received (rcvdWith x p) (pkPath p)))
      (creditIfDue (ackOrWait (edgeMove (modConn d c (Conn.received (rcvdWith x p) (pkPath p))) c) c p late) c) :=
    (moves_edgeMove.trans (moves_ackOrWait ..)).trans moves_creditIfDue
  simp only [markRx, h]
  obtain ⟨y, hy, hyx⟩ := (hmoves _).some (connOf_modConn_same _ h)
  exact ⟨_, peerClose_of_open hy ((congrArg Conn.closePsn hyx).trans hclose)⟩

/-- It moves only what is received. -/
theorem moves_markRx (h : connOf d c = some x) (hclose : x.closePsn = none) :
    Moves Conn.sansAck c (modConn d c (Conn.received (rcvdWith x p) (pkPath p))) (markRx d c p now) := by
  obtain ⟨_, hmark⟩ := markRx_open (now := now) h hclose
  rw [hmark]
  exact (moves_edgeMove.trans (moves_ackOrWait ..)).trans moves_creditIfDue

/-- Commands and the viaduct stand. -/
theorem same_markRx_open {part : Piece} (htrs : part ≠ .trs) (houts : part ≠ .outs) (h : connOf d c = some x) (hclose : x.closePsn = none) :
    part.same d (markRx d c p now) := by
  obtain ⟨_, hmark⟩ := markRx_open (now := now) h hclose
  rw [hmark, same_creditIfDue htrs houts, same_ackOrWait htrs houts, same_edgeMove htrs, same_modConn htrs]
  exact same_refl ..

/-! ### The peer's CLOSE -/

theorem psns_enterTimeWait : connView Conn.psns (enterTimeWait d c) c = connView Conn.psns d c := by
  cases h : connOf d c with
  | none => simp only [enterTimeWait, h]
  | some x =>
    rw [connView_of_some (enterTimeWait_ends h).1, connView_of_some h]
    exact congrArg some (psns_of_standing x.failed x (standing_failed x))

theorem psns_closingDone : connView Conn.psns (closingDone d c) c = connView Conn.psns d c := by
  unfold closingDone
  split
  · split
    · exact psns_enterTimeWait
    · rfl
  · rfl

theorem psns_peerClose : connView Conn.psns (peerClose d c) c = connView Conn.psns d c := by
  have hack (e : Dev) (path : Nat) : connView Conn.psns (sendAck e c path 0) c = connView Conn.psns e c :=
    connView_mono psns_of_sansAck ((moves_sendAck path 0).conn c)
  have hfail (e : Dev) : connView Conn.psns (failOpen e c 0) c = connView Conn.psns e c :=
    connView_mono psns_of_standing ((moves_failOpen 0).conn c)
  have hsend (e : Dev) (m : OutMsg) : connView Conn.psns (sendMsg e c m) c = connView Conn.psns e c :=
    connView_mono psns_of_standing (standing_sendMsg m c)
  unfold peerClose
  split
  · rfl
  · split
    · rfl
    · split
      · rfl
      · dsimp only
        split
        · rw [hsend, connView_modConn, hack, hfail, connView_modConn] <;> exact fun _ => rfl
        · rw [psns_closingDone, hack, connView_modConn]
          exact fun _ => rfl

/-- Whatever follows, what is received is what the packet made it. -/
theorem psns_markRx (h : connOf d c = some x) : connView Conn.psns (markRx d c p now) c = some (rcvdWith x p) := by
  obtain ⟨e, he, hmoves⟩ := markRx_eq p now h
  rw [he, psns_peerClose, connView_mono psns_of_sansAck (hmoves.conn c)]
  exact connView_of_some (connOf_modConn_same _ h)

/-- How far the peer's CLOSE has come. -/
def Conn.closed (x : Conn) : ConnSt × Bool × Nat := (x.st, x.peerClosed, x.cum)

theorem closed_of_standing (x y : Conn) (h : x.standing = y.standing) : x.closed = y.closed := (congrArg Conn.closed h :)

/-- A CLOSE in order closes an ESTABLISHED connection (R212). -/
theorem peerClose_closes (h : connOf d c = some x) (hst : x.st = .established) (hopen : x.peerClosed = false) {psn : Nat}
    (hclose : x.closePsn = some psn) (hbelow : below32 psn x.cum = true) :
    connView Conn.closed (peerClose d c) c = some (.closing, true, x.cum) := by
  simp only [peerClose, h, hclose, hbelow, hopen, hst, Bool.not_true, Bool.or_self, Bool.false_eq_true, if_false, beq_self_eq_true, if_true]
  generalize hd : modConn d c _ = d'
  have hx' : connView Conn.closed d' c = some (.established, true, x.cum) := by
    rw [← hd, connView_of_some (connOf_modConn_same _ h), ← hst]
    rfl
  have hmoves : Moves Conn.standing c d' (sendAck (failOpen d' c 0) c x.ackPath 0) :=
    (moves_failOpen 0).trans ((moves_sendAck x.ackPath 0).mono standing_of_sansAck)
  obtain ⟨y, hy, hyx⟩ := conn_of_view ((connView_mono closed_of_standing (hmoves.conn c)).trans hx')
  rw [connView_mono closed_of_standing (standing_sendMsg ..), connView_of_some (connOf_modConn_same _ hy)]
  exact congrArg (fun v => some (ConnSt.closing, v.2)) hyx

/-- What a CLOSE in order does to an ESTABLISHED connection with nothing received out of order (R212, R213). -/
theorem markRx_close (h : connOf d c = some x) (hst : x.st = .established) (hopen : x.peerClosed = false) (hpsn : p.psn.toNat = x.cum)
    (hgot : x.got = []) (hclose : x.closePsn = some p.psn.toNat) :
    connView Conn.closed (markRx d c p now) c = some (.closing, true, (x.cum + 1) % 2 ^ 32) := by
  have hrcvd : rcvdWith x p = ((x.cum + 1) % 2 ^ 32, []) := by simp [rcvdWith, hgot, hpsn, advCum]
  obtain ⟨e, he, hmoves⟩ := markRx_eq p now h
  obtain ⟨y, hy, hyx⟩ := hmoves.some (connOf_modConn_same _ h)
  rw [hrcvd] at hyx
  have hcum : y.cum = (x.cum + 1) % 2 ^ 32 := (congrArg Conn.cum hyx :)
  have hbelow : below32 p.psn.toNat y.cum = true := by
    rw [hpsn, hcum, below32_iff, sub32_next]
    decide
  rw [he, peerClose_closes hy ((congrArg Conn.st hyx).trans hst) ((congrArg Conn.peerClosed hyx).trans hopen)
    ((congrArg Conn.closePsn hyx).trans hclose) hbelow, hcum]

end

end Sys2Proof.Machine

namespace Sys2Proof.Machine

/-! ## Connections opened, resumed and closed (R208 to R213, R243, R244, R451, R453) -/

section
variable {d : Dev} {c : Nat} {x : Conn} {net : Net} {p : Pkt}

/-! ### The viaduct's inner connections -/

theorem bitAt_ofNat_64 {v i : Nat} (h : i < 64) : bitAt (BitVec.ofNat 64 v).toNat i = bitAt v i := by
  rw [bitAt_eq_testBit, bitAt_eq_testBit, BitVec.toNat_ofNat, Nat.testBit_mod_two_pow, decide_eq_true h, Bool.true_and]

theorem sendDirectory_only (d : Dev) (n : Nat) : ∃ l, d.out <+: l ∧ sendDirectory d n = { d with out := l } := by
  unfold sendDirectory
  refine foldl_keeps (fun e => ∃ l, d.out <+: l ∧ e = { d with out := l }) _ (fun e a he => ?_) _ d ⟨d.out, List.prefix_refl _, rfl⟩
  obtain ⟨l, hl, rfl⟩ := he
  exact ⟨_, hl.trans (List.prefix_append ..), rfl⟩

theorem viaEvent_only (d : Dev) (ev pier group micros attn : Nat) : ∃ l, viaEvent d ev pier group micros attn = { d with log := l } :=
  logEvent_only ..

theorem reForward_of_empty (n : Nat) (h : d.cmd.slots = []) : reForward d n = d := by
  rw [reForward, h]
  rfl

/-- A pier reached at a connection is UP. -/
def Via.reached (v : Via) (n c now : Nat) : Via :=
  { v with inner := tset v.inner n c, ackAt := tset v.ackAt n now, up := BitVec.ofNat 64 (setBit v.up.toNat n) }

/-- With no command in a slot nothing goes to a pier reached but the directory. -/
theorem pierReached_only (n : Nat) (h : d.cmd.slots = []) :
    ∃ l o, d.out <+: o ∧ pierReached d n c = { d with via := d.via.reached n c d.time, log := l, out := o } := by
  have hevent (e : Dev) : ∃ l, (if pierUp d n = true then e else viaEvent e 0x0F02 n 0 0 0) = { e with log := l } := by
    split
    · exact ⟨e.log, rfl⟩
    · exact viaEvent_only ..
  obtain ⟨l, hl⟩ := hevent { d with via := d.via.reached n c d.time }
  obtain ⟨o, hpre, ho⟩ := sendDirectory_only { d with via := d.via.reached n c d.time, log := l } n
  refine ⟨l, o, hpre, ?_⟩
  simp only [pierReached]
  exact (congrArg (reForward · n) ((congrArg (sendDirectory · n) hl).trans ho)).trans (reForward_of_empty n h)

theorem connOf_pierReached (n k : Nat) : connOf (pierReached d n c) k = connOf d k :=
  connOf_of_conns (congrArg Trs.conns ((same_pierReached (part := .trs) nofun nofun nofun nofun).2 (same_refl ..))) k

/-- The pier's connection and its bit. -/
theorem via_pierReached {n : Nat} (h : d.cmd.slots = []) :
    tget (pierReached d n c).via.inner n = some c ∧ (n < 64 → pierUp (pierReached d n c) n = true) := by
  obtain ⟨_, _, _, hr⟩ := pierReached_only (c := c) n h
  rw [hr]
  refine ⟨tget_tset_same .., fun hn => ?_⟩
  exact (bitAt_ofNat_64 hn).trans (by rw [bitAt_setBit, decide_eq_true rfl, Bool.or_true])

/-! ### CONNECT -/

/-- What a CONNECT decides of a connection. -/
def Conn.terms (x : Conn) : ConnSt × Nat × Nat × Nat × Nat × Nat × Dword × Option Nat :=
  (x.st, x.cum, x.sent, x.peerEdge, x.r.pd, x.r.hostIp, x.r.pathMask, x.r.inner)

theorem terms_of_sansAck (x y : Conn) (h : x.sansAck = y.sansAck) : x.terms = y.terms := (congrArg Conn.terms h :)

theorem connOf_setConn_same (c : Nat) (x : Conn) : connOf (setConn d c x) c = some x := tget_tset_same ..

/-- The connection that takes an index. -/
theorem takeConn_conn (x : Conn) : connView Conn.terms (takeConn d c x) c = some x.terms := by
  unfold takeConn
  dsimp only
  generalize he : setConn _ c _ = e
  have hx : connView Conn.terms e c = some x.terms := by
    rw [← he]
    exact (connView_of_some (connOf_setConn_same ..)).trans rfl
  have hroom : connView Conn.terms (makeRoom e).2 c = some x.terms := (connView_mono terms_of_sansAck (sansAck_makeRoom c)).trans hx
  split <;> exact hroom

theorem answerWith_trs (ip : Nat) (conn id : Word) (e : Emit) : (answerWith d ip conn id e).trs.conns = d.trs.conns := by
  rw [answerWith, trsCnt_trs]
  rfl

theorem answerWith_out (ip : Nat) (conn id : Word) (e : Emit) : (answerWith d ip conn id e).out = d.out ++ [e] := by
  rw [answerWith, trsCnt_out]
  rfl

/-- Unpaired, an answer goes out at once. -/
theorem mirrorThen_answers (hpair : paired d = false) (item : MirrorItem) (a : OnAck) (ip : Nat) (conn id : Word) (e : Emit) :
    ∃ d', (mirrorThen d item a fun d => answerWith d ip conn id e) = d' ∧ (∀ k, connOf d' k = connOf d k) ∧ d'.cmd = d.cmd ∧ e ∈ d'.out := by
  refine ⟨_, by rw [mirrorThen, hpair, if_neg Bool.false_ne_true], fun k => ?_, ?_, ?_⟩
  · exact (connOf_of_conns (answerWith_trs ..) k).trans (connOf_of_conns (by rw [mirror_trs]) k)
  · exact (same_answerWith (part := .cmd) nofun nofun).2 ((same_mirror (part := .cmd) nofun nofun).2 rfl)
  · rw [answerWith_out]
    exact List.mem_append_right _ (List.mem_singleton_self e)

/-- The connection that a CONNECT asks for. -/
def connTerms (net : Net) (p : Pkt) (inner : Bool) : ConnSt × Nat × Nat × Nat × Nat × Nat × Dword × Option Nat :=
  (.established, beAt p.body 20 4, beAt p.body 24 8, beAt p.body 32 8, beAt p.body 12 2 % 4096, net.srcIp,
    BitVec.ofNat 64 (beAt p.body 40 8), if inner then some (beAt p.body 12 2 % 4096) else none)

/-- A CONNECT accepted makes its connection and is answered with code 0. -/
theorem connAccept_conn (inner : Bool) (hpair : paired d = false) (hslots : inner = true → d.cmd.slots = []) :
    connView Conn.terms (connAccept d net p c inner) c = some (connTerms net p inner)
      ∧ ∃ port body, connReply net p port body ∈ (connAccept d net p c inner).out ∧ byteAt body 0 = 0 := by
  unfold connAccept
  dsimp only
  generalize he : trsCnt (takeConn _ c _) 17 = e
  have hterms : connView Conn.terms e c = some (connTerms net p inner) := by
    rw [← he]
    exact (connView_of_conns (by rw [trsCnt_trs]) c).trans ((takeConn_conn _).trans rfl)
  have hpar : e.par = d.par := by
    rw [← he]
    exact (same_trsCnt (part := .par)).2 ((same_takeConn (part := .par) nofun nofun).2 rfl)
  have hcmd : e.cmd = d.cmd := by
    rw [← he]
    exact (same_trsCnt (part := .cmd)).2 ((same_takeConn (part := .cmd) nofun nofun).2 rfl)
  obtain ⟨y, hy, hyt⟩ := conn_of_view hterms
  simp only [hy]
  obtain ⟨g, hg, hgconn, hgcmd, hgout⟩ := mirrorThen_answers ((congrArg (·.st == .paired) hpar).trans hpair)
    (.st (.conn c (some y.r))) _ net.srcIp _ p.tag _
  rw [hg]
  have hgterms : connView Conn.terms g c = some (connTerms net p inner) := by rw [connView, hgconn]; exact hterms
  obtain ⟨port, body, hin, hcode⟩ : ∃ port body, connReply net p port body ∈ g.out ∧ byteAt body 0 = 0 := ⟨_, _, hgout, rfl⟩
  cases inner with
  | false => exact ⟨hgterms, port, body, hin, hcode⟩
  | true =>
    obtain ⟨_, _, hpre, hreached⟩ := pierReached_only (c := c) (beAt p.body 12 2 % 4096) (hgcmd ▸ hcmd ▸ hslots rfl)
    refine ⟨?_, port, body, ?_, hcode⟩
    · rw [if_pos rfl, connView, connOf_pierReached]
      exact hgterms
    · rw [if_pos rfl, hreached]
      exact hpre.subset hin

/-- A CONNECT that the device answers afresh. -/
def connAsks (d : Dev) (net : Net) (p : Pkt) : Prop :=
  (d.glb.st = .service ∨ d.glb.st = .maint) ∧ d.par.adopted.contains net.dstIp = false
    ∧ (isEndpoint d net.dstIp = false ∨ d.via.gate = true)
    ∧ answeredNow d net.srcIp (BitVec.ofNat 32 (beAt p.body 8 4)) p.tag = none
    ∧ (d.trs.conns.any fun e => e.2.r.hostIp == net.srcIp && e.2.r.srcConn == BitVec.ofNat 32 (beAt p.body 8 4) && e.2.est) = false

theorem connAsks_checks (h : connAsks d net p) : d.par.adopted.contains net.dstIp = false
    ∧ (!(d.glb.st == .service || d.glb.st == .maint) || (isEndpoint d net.dstIp && !d.via.gate)) = false
    ∧ answeredNow d net.srcIp (BitVec.ofNat 32 (beAt p.body 8 4)) p.tag = none
    ∧ (d.trs.conns.any fun e => e.2.r.hostIp == net.srcIp && e.2.r.srcConn == BitVec.ofNat 32 (beAt p.body 8 4) && e.2.est) = false := by
  obtain ⟨hst, had, hgate, hans, hnone⟩ := h
  have hst' : (d.glb.st == .service || d.glb.st == .maint) = true := by rcases hst with h | h <;> rw [h] <;> rfl
  have hgate' : (isEndpoint d net.dstIp && !d.via.gate) = false := by rcases hgate with h | h <;> simp [h]
  exact ⟨had, by rw [hst', hgate']; rfl, hans, hnone⟩

theorem rxConnect_accepts (h : connAsks d net p) (hden : connDenied d p (ownInner d net.dstIp) = false) (hbad : connBad p = false)
    (hfree : freeConn d = some c)
    (hroom : ownInner d net.dstIp = true ∨ pdConns d (beAt p.body 12 2 % 4096) < (tgetD d.trs.pds (beAt p.body 12 2 % 4096) {}).maxConn) :
    rxConnect d net p = connAccept d net p c (ownInner d net.dstIp) := by
  obtain ⟨had, hserves, hans, hnone⟩ := connAsks_checks h
  have hfull : (!ownInner d net.dstIp
      && decide ((tgetD d.trs.pds (beAt p.body 12 2 % 4096) {}).maxConn ≤ pdConns d (beAt p.body 12 2 % 4096))) = false := by
    rcases hroom with h | h
    · simp [h]
    · rw [decide_eq_false (Nat.not_le.2 h), Bool.and_false]
  simp only [rxConnect, had, hserves, hans, hnone, hden, hbad, hfree, hfull, Bool.false_eq_true, if_false]

theorem rxConnect_denies (h : connAsks d net p) (hden : connDenied d p (ownInner d net.dstIp) = true) :
    (rxConnect d net p).trs.conns = d.trs.conns
      ∧ ∃ port, (rxConnect d net p).out = d.out ++ [connReply net p port (1 :: zeros 55)] := by
  obtain ⟨had, hserves, hans, hnone⟩ := connAsks_checks h
  simp only [rxConnect, had, hserves, hans, hnone, hden, Bool.false_eq_true, if_false, if_true, trsCnt_trs,
    trsCnt_out, answerWith_trs, answerWith_out]
  exact ⟨rfl, _, rfl⟩

/-- A CONNECT of this version is counted and weighed. -/
theorem rxPacket_connect (hcrc : p.crc = pktCrc p) (hop : pkOp p = 0xA) (hver : pkVer p = 1) :
    rxPacket d net p = rxConnect (rxCounted d p) net p := by
  have hstart : (if pkOp p == 1 || pkOp p == 3 then trsCntN (trsCnt d 0) 1 p.body.length else trsCnt d 0) = rxCounted d p := rfl
  have hnew : (pkOp p == 0xA && pkVer p == 1) = true := by rw [hop, hver]; rfl
  simp only [rxPacket, hcrc, bne_self_eq_false, Bool.false_eq_true, if_false, hstart, hnew, if_true]

/-! ### CONNECT_REPLY -/

/-- A connection as a CONNECT_REPLY with code 0 makes it. -/
def Conn.connected (p : Pkt) (now : Nat) (x : Conn) : Conn := { x with
  st := .established, since := now,
  r := { x.r with srcConn := BitVec.ofNat 32 (beAt p.body 4 4), hostReadSlots := byteAt p.body 2,
                  payload := if bitAt (byteAt p.body 1) 0 then 8192 else 4096, hostPortBase := beAt p.body 8 2,
                  pathMask := BitVec.ofNat 64 (beAt p.body 32 8), nonce := BitVec.ofNat 64 (beAt p.body 40 8) },
  cum := beAt p.body 12 4, sent := beAt p.body 16 8, peerEdge := beAt p.body 24 8, paths := pathTab (beAt p.body 32 8) }

theorem connOf_mirror (item : MirrorItem) (k : Nat) : connOf (mirror d item) k = connOf d k := connOf_of_conns (by rw [mirror_trs]) k

theorem takeConnectReply_connects (h : connOf d c = some x) (hst : x.st = .connecting) (hid : p.tag.toNat = x.id) (hcode : byteAt p.body 0 = 0)
    {n : Nat} (hpier : x.r.inner = some n) (hslots : d.cmd.slots = []) :
    connOf (takeConnectReply d c x p) c = some (x.connected p d.time) ∧ tget (takeConnectReply d c x p).via.inner n = some c
      ∧ (n < 64 → pierUp (takeConnectReply d c x p) n = true) := by
  have hst' : (x.st != .connecting) = false := by rw [hst]; rfl
  simp only [takeConnectReply, hst', hid, hcode, bne_self_eq_false, Bool.or_self, Bool.false_eq_true, if_false, hpier]
  generalize he : modConn d c _ = e
  have hconn : connOf e c = some (x.connected p d.time) := by
    rw [← he]
    exact connOf_modConn_same _ h
  have hcmd : (mirror e (.st (.conn c (some (x.connected p d.time).r)))).cmd = d.cmd := by
    refine (same_mirror (part := .cmd) nofun nofun).2 ?_
    rw [← he]
    rfl
  obtain ⟨hinner, hup⟩ := via_pierReached (c := c) (n := n) (hcmd ▸ hslots)
  simp only [hconn]
  exact ⟨by rw [connOf_pierReached, connOf_mirror, hconn], hinner, hup⟩

/-! ### RESUME_REPLY -/

/-- A connection as a RESUME_REPLY with result 0 makes it. -/
def Conn.goesOn (p : Pkt) (now : Nat) (x : Conn) : Conn := { x with
  st := .established, since := now,
  r := { x.r with hostReadSlots := byteAt p.body 1, pathMask := BitVec.ofNat 64 (beAt p.body 24 8) },
  cum := beAt p.body 4 4, got := [], completed := 0, msgs := [], failMask := 0,
  sent := beAt p.body 8 8, peerEdge := beAt p.body 16 8, peerCum := x.psn, peerDone := 0, msn := 0,
  paths := pathTab (beAt p.body 24 8), deadAt := none, closeLater := none }

theorem takeResumeReply_goesOn (h : connOf d c = some x) (hst : x.st = .resuming) (hid : p.tag.toNat = x.id) (hcode : byteAt p.body 0 = 0)
    (hmask : beAt p.body 24 8 ≠ 0) (hclose : x.closeLater = none)
    (hgone : x.r.inner = none → (tgetD d.trs.pds x.r.pd {}).enabled = true) :
    connView Conn.standing (takeResumeReply d c x p) c = some (x.goesOn p d.time).standing := by
  have hst' : (x.st != .resuming) = false := by rw [hst]; rfl
  have hmask' : (beAt p.body 24 8 == 0) = false := beq_eq_false_iff_ne.2 hmask
  have hreply : ∃ e, takeResumeReply d c x p = pump e c ∧ connOf e c = some (x.goesOn p d.time) := by
    simp only [takeResumeReply, hst', hid, hcode, hmask', hclose, bne_self_eq_false, Nat.reduceBEq, Bool.or_self, Bool.false_eq_true, if_false]
    generalize he : modConn d c _ = e
    have hgo : connOf e c = some (x.goesOn p d.time) := by
      rw [← he]
      exact connOf_modConn_same _ h
    have hpds : e.trs.pds = d.trs.pds := by
      rw [← he]
      rfl
    cases hinner : x.r.inner with
    | none =>
      refine ⟨e, ?_, hgo⟩
      simp only [Option.isNone_none, hpds, hgone hinner, Bool.not_true, Bool.and_false, Bool.false_eq_true, if_false]
    | some n =>
      simp only [Option.isNone_some, Bool.false_and, Bool.false_eq_true, if_false]
      refine ⟨_, rfl, ?_⟩
      split
      · rw [connOf_pierReached, hgo]
      · exact hgo
  obtain ⟨e, he, hconn⟩ := hreply
  rw [he, standing_pump, connView_of_some hconn]

/-! ### RESUME -/

theorem rewindUse_only (d : Dev) (u : Use) (n : Nat) : ∃ m a, rewindUse d u n = { d with cmd := m, via := a } := by
  unfold rewindUse
  cases u <;> exact ⟨_, _, rfl⟩

theorem foldl_rewindUse_only (l : List ReadOut) (d : Dev) :
    ∃ m a, l.foldl (fun d r => rewindUse d r.use r.count) d = { d with cmd := m, via := a } :=
  foldl_keeps (fun e => ∃ m a, e = { d with cmd := m, via := a }) _ (fun e r he => by
    obtain ⟨m, a, rfl⟩ := he
    exact rewindUse_only _ r.use r.count) l d ⟨d.cmd, d.via, rfl⟩

/-- What a RESUME brings to a connection. -/
def Conn.resumption (x : Conn) : Word × Nat × Nat × List Nat := (x.r.srcConn, x.cum, x.r.hostIp, x.got)

theorem resumption_of_standing (x y : Conn) (h : x.standing = y.standing) : x.resumption = y.resumption := (congrArg Conn.resumption h :)

/-- A RESUME that shows the nonce takes the connection over. -/
theorem takeResume_takes (h : connOf d c = some x) (hnew : x.resumed.all (fun r => r.1 != p.tag) = true) (hinner : x.r.inner.isSome = true)
    (hnonce : x.r.nonce.toNat = beAt p.body 0 8) :
    connView Conn.resumption (takeResume d net c x p) c
      = some (BitVec.ofNat 32 (beAt p.body 8 4), beAt p.body 16 4, net.srcIp, []) := by
  have htake : takeResume d net c x p = takeResume.takeNew d net c x p (resumeDst p) := by
    unfold takeResume
    split
    · next id e hres =>
      have hother : (id == p.tag) = false := by simpa [hres] using hnew
      simp only [hother, Bool.false_eq_true, if_false]
    · rfl
  have hshown : (x.r.inner.isNone || x.r.nonce.toNat != beAt p.body 0 8) = false := by
    obtain ⟨n, hn⟩ := Option.isSome_iff_exists.1 hinner
    rw [hn, hnonce, bne_self_eq_false]
    rfl
  rw [htake, takeResume.takeNew]
  simp only [hshown, Bool.false_eq_true, if_false]
  obtain ⟨m, a, hrew⟩ := foldl_rewindUse_only x.reads (drawBits (drawBits d 32).2 64).2
  rw [hrew]
  generalize he : modConn _ c _ = e
  have hx : connView Conn.resumption e c = some (BitVec.ofNat 32 (beAt p.body 8 4), beAt p.body 16 4, net.srcIp, []) := by
    rw [← he]
    exact (connView_of_some (connOf_modConn_same _ h)).trans rfl
  obtain ⟨y, hy, hyx⟩ := conn_of_view hx
  simp only [hy]
  rw [connView_mono resumption_of_standing (standing_pump c)]
  exact (connView_of_conns (by rw [trsCnt_trs, emit_trs, mirror_trs]) c).trans hx

end

/-- Settles O23, each packet by the lemma above on what it makes of the connection. -/
theorem connectionsOpen : Obligations.ConnectionsOpen := by
  unfold Obligations.ConnectionsOpen
  intro s net p c
  refine ⟨fun hserv hdom hcrc hver hop hst had hgate hans hnone => ⟨?accepted, ?denied⟩, fun x hrx => ?_⟩
  case accepted =>
    intro hden hbad hfree hpair hroom
    have hasks : connAsks s.dev net p := ⟨hst, had, hgate, hans, hnone⟩
    refine gives_arrive (net := net) (p := p) rfl ⟨hserv, hdom⟩ ?_
    obtain ⟨t, ht⟩ := rxCounted_only s.dev p
    have hrun : rxPacket s.dev net p = connAccept { s.dev with reg.cnt := t } net p c (ownInner s.dev net.dstIp) := by
      rw [rxPacket_connect hcrc hop hver, ht]
      exact rxConnect_accepts hasks hden hbad hfree (hroom.imp And.left And.right)
    have hslots : ownInner s.dev net.dstIp = true → s.dev.cmd.slots = [] := fun h =>
      hroom.elim And.right fun hnot => absurd (hnot.1.symm.trans h) Bool.false_ne_true
    obtain ⟨hterms, port, body, hreply, hcode⟩ := connAccept_conn (net := net) (p := p) (c := c) (ownInner s.dev net.dstIp)
      (d := { s.dev with reg.cnt := t }) hpair hslots
    rw [← hrun] at hterms hreply
    refine ⟨?_, port, body, by rw [settle_out]; exact hreply, hcode⟩
    obtain ⟨y, hy, hyt⟩ := connHas_of_view hterms
    simp only [Conn.terms, connTerms, Prod.mk.injEq] at hyt
    exact ⟨y, hy, hyt⟩
  case denied =>
    intro hden
    have hasks : connAsks s.dev net p := ⟨hst, had, hgate, hans, hnone⟩
    refine gives_arrive (net := net) (p := p) rfl ⟨hserv, hdom⟩ ?_
    obtain ⟨t, ht⟩ := rxCounted_only s.dev p
    rw [rxPacket_connect hcrc hop hver, ht, settle_trs, settle_out]
    obtain ⟨hconns, port, hout⟩ := rxConnect_denies (d := { s.dev with reg.cnt := t }) hasks hden
    exact ⟨hconns, port, _, hout, rfl⟩
  have hx : connOf (heard s.dev c p) c = some x := (connOf_heard c).trans (connOf_of_rxOk hrx)
  obtain ⟨t, hheard⟩ := heard_only s.dev c p
  refine ⟨?reply, ?resumeReply, ?resume, ?close⟩
  case reply =>
    intro n hop hst hid hcode hpier hslots
    refine gives_arrive (net := net) (p := p) rfl (rxOk_parts hrx).1 ?_
    have hact : rxPacket s.dev net p = takeConnectReply (heard s.dev c p) c x p := by
      rw [rxPacket_acts hrx (by omega) (by omega) (by omega) (by simp [connTakes, hst, hop]) (by simp [hst])]
      simp only [rxAct, hop]
    rw [hact]
    obtain ⟨hconn, hinner, hup⟩ := takeConnectReply_connects hx hst hid hcode hpier (n := n) (by rw [hheard]; exact hslots)
    exact ⟨connHas_settle hconn ⟨rfl, rfl⟩, fun hn => by rw [pierUp, settle_via]; exact hup hn, by rw [settle_via]; exact hinner⟩
  case resumeReply =>
    intro hop hst hid hcode hmask hclose hgone
    refine gives_arrive (net := net) (p := p) rfl (rxOk_parts hrx).1 ?_
    have hact : rxPacket s.dev net p = takeResumeReply (heard s.dev c p) c x p := by
      rw [rxPacket_acts hrx (by omega) (by omega) (by omega) (by simp [connTakes, connLive, hst]) (fun _ => hop)]
      simp only [rxAct, hop]
    have hen : x.r.inner = none → (tgetD (heard s.dev c p).trs.pds x.r.pd {}).enabled = true := by
      intro hnone
      rw [hheard]
      rcases hgone with ⟨_, hen⟩ | ⟨hsome, _⟩
      · exact hen
      · rw [hnone] at hsome
        exact absurd hsome Bool.false_ne_true
    rw [hact]
    obtain ⟨y, hy, hyx⟩ := connHas_of_view (takeResumeReply_goesOn hx hst hid hcode hmask hclose hen)
    exact ⟨y, hy, (congrArg Conn.st hyx :), (congrArg Conn.cum hyx :), (congrArg Conn.got hyx :), (congrArg Conn.peerEdge hyx :)⟩
  case resume =>
    intro hop hst hnew hinner hnonce
    refine gives_rx rfl hrx hst (by omega) (by omega) (by omega) ?_
    simp only [rxAct, hop]
    obtain ⟨y, hy, hyx⟩ := connHas_of_view (takeResume_takes (net := net) hx hnew hinner hnonce)
    simp only [Conn.resumption, Prod.mk.injEq] at hyx
    exact ⟨y, hy, hyx⟩
  case close =>
    intro hop hst hpsn hgot hheld hopen
    refine gives_rx rfl hrx hst (by omega) (by omega) (by omega) ?_
    rw [rxAct_close hop (newPsn_next hpsn hgot hheld)]
    obtain ⟨y, hy, hyx⟩ := connHas_of_view (markRx_close (p := p) (now := false)
      (connOf_modConn_same (fun x => { x with closePsn := some p.psn.toNat }) hx) hst hopen hpsn hgot rfl)
    simp only [Conn.closed, Prod.mk.injEq] at hyx
    exact ⟨y, hy, hyx⟩

end Sys2Proof.Machine

namespace Sys2Proof.Machine

/-! ## WRITEs placed (R218, R220, R222, R255) -/

section
variable {d e : Dev} {c : Nat} {x y : Conn} {p : Pkt} {r : Region}

/-- Memory with a WRITE's data at its place in a region (R252, R255). -/
def placed (d : Dev) (r : Region) (p : Pkt) : List Host.Cell × List Host.Cell × List Host.Cell :=
  let o := r.offset + (p.addr.toNat - r.vaBase)
  if r.partition = 2 then (d.trs.rings, memWrites d.trs.pantry o p.body, d.ctr.dump)
  else (memWrites d.trs.rings o p.body, d.trs.pantry, d.ctr.dump)

theorem placed_of_bytes (h : e.bytes = d.bytes) : placed e r p = placed d r p := by
  simp only [Dev.bytes, Prod.mk.injEq] at h
  obtain ⟨hrings, hpantry, hdump⟩ := h
  simp only [placed, hrings, hpantry, hdump]

theorem placed_parts (h : e.bytes = placed d r p) :
    (r.partition = 2 → e.trs.pantry = memWrites d.trs.pantry (r.offset + (p.addr.toNat - r.vaBase)) p.body ∧ e.trs.rings = d.trs.rings)
      ∧ (r.partition = 1 → e.trs.rings = memWrites d.trs.rings (r.offset + (p.addr.toNat - r.vaBase)) p.body ∧ e.trs.pantry = d.trs.pantry)
      ∧ e.ctr.dump = d.ctr.dump := by
  unfold placed at h
  by_cases hpantry : r.partition = 2 <;> simp only [hpantry, if_true, if_false, Dev.bytes, Prod.mk.injEq] at h <;>
    obtain ⟨hrings, hpan, hdump⟩ := h
  · exact ⟨fun _ => ⟨hpan, hrings⟩, fun hring => absurd (hpantry.symm.trans hring) (by decide), hdump⟩
  · exact ⟨fun h => absurd h hpantry, fun _ => ⟨hrings, hpan⟩, hdump⟩

theorem bytes_placeData (hinner : x.r.inner = none) (hr : tget d.trs.regions (p.key.toNat / 4096) = some r) :
    (placeData d c x p).bytes = placed d r p := by
  unfold placeData placed
  by_cases hempty : p.body.isEmpty = true
  · simp [hinner, List.isEmpty_iff.1 hempty, memWrites, Dev.bytes]
  · simp only [hempty, hinner, hr, Option.isSome_none, Bool.or_self, Bool.false_eq_true, if_false]
    by_cases hpantry : r.partition = 2
    · simp only [hpantry, beq_self_eq_true, if_true, Dev.bytes]
    · have hpantry' : (r.partition == 2) = false := beq_eq_false_iff_ne.2 hpantry
      simp only [hpantry, hpantry', Bool.false_eq_true, if_false]
      split
      · rfl
      · split
        · rw [bytes_mirrorQueue]
          rfl
        · rw [bytes_mirror]
          rfl

/-- Data placed moves none of a connection's PSNs. -/
theorem psns_placeData : connView Conn.psns (placeData d c x p) c = connView Conn.psns d c := by
  unfold placeData
  split
  · rfl
  · split
    · rfl
    · dsimp only
      split
      · rfl
      · split
        · rfl
        · split
          · refine ((moves_mirrorQueue (c := c) ..).conn c).trans ((connView_modConn ?_ c c).trans ?_)
            · exact fun _ => rfl
            · exact connView_of_conns (by rfl) c
          · refine ((moves_mirror (c := c) _).conn c).trans ?_
            exact connView_of_conns (by rfl) c

theorem psns_settleMsgs (n : Nat) (x : Conn) : (settleMsgs n x).psns = x.psns := by
  obtain ⟨_, _, _, h⟩ := settleMsgs_only n x
  rw [h]
  rfl

/-- A WRITE placed is in its region's memory, and its PSN received. -/
theorem placeWrite_places (h : connOf d c = some x) (hinner : x.r.inner = none) (hr : tget d.trs.regions (p.key.toNat / 4096) = some r)
    (htrigger : fTRIGGER p = false) (htag : (tget x.msgs p.msn.toNat).all (fun m => m.tag.isNone) = true) :
    (placeWrite d c p).bytes = placed d r p ∧ connView Conn.psns (placeWrite d c p) c = some (rcvdWith x p) := by
  have hplaced := bytes_placeData (c := c) hinner hr
  have hmark (e : Dev) (now : Bool) (hbytes : e.bytes = placed d r p) (hpsns : connView Conn.psns e c = some x.psns) :
      (markRx e c p now).bytes = placed d r p ∧ connView Conn.psns (markRx e c p now) c = some (rcvdWith x p) := by
    obtain ⟨y, hy, hyx⟩ := conn_of_view hpsns
    exact ⟨by rw [bytes_markRx, hbytes], (psns_markRx hy).trans (congrArg some (rcvdWith_congr hyx))⟩
  have hpsns : connView Conn.psns (placeData d c x p) c = some x.psns := psns_placeData.trans (connView_of_some h)
  have hold : (tgetD x.msgs p.msn.toNat {}).tag = none := by
    unfold tgetD
    cases hm : tget x.msgs p.msn.toNat with
    | none => rfl
    | some m => simpa [hm] using htag
  simp only [placeWrite, h, htrigger, hold, Bool.false_eq_true, if_false]
  split
  · exact hmark _ _ hplaced hpsns
  · refine hmark _ _ ?_ ((connView_modConn ?_ c c).trans hpsns)
    · rw [bytes_modConn, hplaced]
    · exact fun _ => psns_settleMsgs ..

/-! ### The checks of a WRITE (R217 steps 8 to 11) -/

theorem regionFail_congr (hregions : e.trs.regions = d.trs.regions) (hrec : y.r = x.r) (n : Nat) (write : Bool) :
    regionFail e y p n write = regionFail d x p n write := by
  simp only [regionFail, hregions, hrec]

theorem openMsg_parts (h : openMsg x p = true) : (!below32 p.msn.toNat x.completed && decide (64 ≤ sub32 p.msn.toNat x.completed)) = false
    ∧ msgFailed x p.msn.toNat = false ∧ lenDiffers x p.msn.toNat p.msgLen.toNat = false := by
  simp only [openMsg, Bool.and_eq_true, Bool.or_eq_true, Bool.not_eq_true', decide_eq_true_eq] at h
  obtain ⟨⟨hwindow, hfailed⟩, hlen⟩ := h
  refine ⟨?_, hfailed, hlen⟩
  rcases hwindow with h | h
  · rw [h]
    rfl
  · rw [decide_eq_false (Nat.not_le.2 h), Bool.and_false]

/-- A WRITE that may go on, without FENCE or in its turn. -/
theorem writeGo_places (h : connOf d c = some x) (hfailed : msgFailed x p.msn.toNat = false)
    (hregion : regionFail d x p p.body.length true = none) (hturn : fFENCE p = false ∨ p.psn.toNat = x.cum) :
    writeGo d c p = placeWrite d c p := by
  have hturn' : (!fFENCE p || p.psn.toNat == x.cum) = true := by
    rcases hturn with h | h <;> simp [h]
  have hnone : (if (x.r.inner.isSome || (p.body.length == 0 && p.key == 0)) = true then none else regionFail d x p p.body.length true) = none := by
    rw [hregion, ite_self]
  simp only [writeGo, h, hfailed, hnone, hturn', Bool.false_eq_true, if_false, if_true]

/-- A WRITE within its windows, of a message as long as it says. -/
theorem rxWrite_goes (hopen : openMsg x p = true) (hcredit : sub64 x.edge (x.rcvd + p.body.length) < 2 ^ 63)
    (hfits : p.msgOffset.toNat + p.body.length ≤ p.msgLen.toNat) (hlen : p.msgLen.toNat ≤ 16777216) :
    rxWrite d c x p = writeGo (modConn d c fun x => { x with rcvd := (x.rcvd + p.body.length) % 2 ^ 64 }) c p := by
  obtain ⟨hwindow, _, hsame⟩ := openMsg_parts hopen
  have hshape : (decide (16777216 < p.msgLen.toNat) || decide (p.msgLen.toNat < p.msgOffset.toNat + p.body.length)
      || lenDiffers x p.msn.toNat p.msgLen.toNat) = false := by
    rw [hsame, decide_eq_false (Nat.not_lt.2 hlen), decide_eq_false (Nat.not_lt.2 hfits)]
    rfl
  have hshape' : ¬ (16777216 < p.msgLen.toNat || p.msgLen.toNat < p.msgOffset.toNat + p.body.length
      || lenDiffers x p.msn.toNat p.msgLen.toNat) = true := by
    rw [hshape]
    exact Bool.false_ne_true
  unfold rxWrite
  dsimp only
  rw [hwindow, if_neg Bool.false_ne_true, if_neg (Nat.not_le.2 hcredit), if_neg hshape']

/-- What a WRITE that passes every check leaves. -/
theorem writeGo_leaves (h : connOf e c = some y) (hinner : y.r.inner = none) (hr : tget e.trs.regions (p.key.toNat / 4096) = some r)
    (htrigger : fTRIGGER p = false) (htag : (tget y.msgs p.msn.toNat).all (fun m => m.tag.isNone) = true)
    (hfailed : msgFailed y p.msn.toNat = false) (hregion : regionFail e y p p.body.length true = none)
    (hturn : fFENCE p = false ∨ p.psn.toNat = y.cum) (hbytes : e.bytes = d.bytes) (hpsns : y.psns = x.psns) :
    (settle (writeGo e c p)).bytes = placed d r p ∧ connHas (settle (writeGo e c p)) c fun z => z.psns = rcvdWith x p := by
  rw [writeGo_places h hfailed hregion hturn, bytes_settle, ← placed_of_bytes hbytes, ← rcvdWith_congr hpsns]
  obtain ⟨hplaced, hrcvd⟩ := placeWrite_places h hinner hr htrigger htag
  exact ⟨hplaced, connHas_of_view hrcvd⟩

end

/-- Settles O20: a WRITE that passes the checks reaches `placeWrite`, at arrival or at its release. -/
theorem trestleWritePlaced : Obligations.TrestleWritePlaced := by
  unfold Obligations.TrestleWritePlaced
  intro s net p c x r hst hinner hgot htrigger htag hr hregion hfits hlen hopen
  obtain ⟨_, hfailed, _⟩ := openMsg_parts hopen
  refine ⟨?arrival, ?release⟩
  case arrival =>
    intro hrx hop hnew hcredit hturn
    refine gives_rx rfl hrx hst (by omega) (by omega) (by omega) ?_
    rw [rxAct_write hop hnew, rxWrite_goes hopen hcredit hfits hlen]
    obtain ⟨t, hheard⟩ := heard_only s.dev c p
    generalize hd : pdCnt (heard s.dev c p) x.r.pd 12 p.body.length = d
    have hx : connOf d c = some x := by rw [← hd, connOf_pdCnt, connOf_heard, connOf_of_rxOk hrx]
    have hregions : d.trs.regions = s.dev.trs.regions := by rw [← hd, pdCnt_trs, hheard]
    have hbytes : d.bytes = s.dev.bytes := by rw [← hd, bytes_pdCnt, bytes_heard]
    obtain ⟨hplaced, y, hy, hyx⟩ := writeGo_leaves (connOf_modConn_same (fun x => { x with rcvd := (x.rcvd + p.body.length) % 2 ^ 64 }) hx)
      hinner (hregions ▸ hr) htrigger htag hfailed ((regionFail_congr hregions rfl ..).trans hregion) hturn hbytes (x := x) rfl
    obtain ⟨hpantry, hrings, hdump⟩ := placed_parts hplaced
    exact ⟨hpantry, hrings, hdump, y, hy, marked_of_psns hyx hgot⟩
  case release =>
    intro hserv hx hheld hnext
    refine gives_of_actIf (rfl : execFenceRelease c p.psn s = _) hserv ?_
    have hturn : (p.psn.toNat == x.cum) = true := beq_iff_eq.2 hnext
    simp only [hx, hheld, hturn, if_true]
    obtain ⟨hplaced, y, hy, hyx⟩ := writeGo_leaves (connOf_modConn_same (fun x => { x with held := x.held.erase p }) hx)
      hinner hr htrigger htag hfailed hregion (.inr hnext) (bytes_modConn ..) (x := x) rfl
    obtain ⟨hpantry, hrings, _⟩ := placed_parts hplaced
    exact ⟨fun h => (hpantry h).1, fun h => (hrings h).1, y, hy, below32_of_psns hyx hgot hnext⟩

end Sys2Proof.Machine

namespace Sys2Proof.Machine

/-! ## Reads (R239 to R242, R280) -/

section
variable {d e : Dev} {c : Nat} {x y : Conn} {p : Pkt} {r : Region}

/-! ### What a pump sends -/

/-- A message as it leaves waits no more. -/
def leavingNow (d : Dev) (m : OutMsg) : OutMsg := { leaving_ (chargeMsg d m) m with ctxSince := none, creditSince := none }

/-- The packet that a message sends next. -/
def nextPacket (d : Dev) (y : Conn) (m : OutMsg) (path : Nat) : Pkt :=
  msgPacket (chargeMsg d m) y (leavingNow d m) y.psn ((leavingNow d m).msn.getD y.msn) path

theorem sendOne_out (i : Nat) (m : OutMsg) (path : Nat) :
    (sendOne d c y i m path).out = d.out ++ [connEmit y (sealPkt { nextPacket d y m path with dstConn := y.r.srcConn })] := by
  obtain ⟨s, hs⟩ := chargeMsg_only d m
  simp only [sendOne, sendPkt_out, modConn_out]
  rw [show (chargeMsg d m).out = d.out by rw [hs]]
  rfl

theorem sent_pumpGo (fuel : Nat) : d.out <+: (pumpGo c fuel d).out := by
  induction fuel generalizing d with
  | zero => exact List.prefix_refl _
  | succ fuel ih =>
    unfold pumpGo
    split
    · exact List.prefix_refl _
    · split
      · refine List.IsPrefix.trans ?_ ih
        rw [sendOne_out]
        exact List.prefix_append ..
      · exact List.prefix_refl _

theorem partBytes_congr (h : e.bytes = d.bytes) (part off n : Nat) : partBytes e part off n = partBytes d part off n := by
  obtain ⟨hrings, hmem⟩ := Prod.mk.inj h
  obtain ⟨hpantry, _⟩ := Prod.mk.inj hmem
  simp only [partBytes, hrings, hpantry]

/-- The READ_RESP of a whole read. -/
def respMsg (p : Pkt) (part src : Nat) (data : List Byte) : OutMsg :=
  { kind := .readResp, msn := some p.msn.toNat, len := p.msgLen.toNat, addr := beAt p.body 0 8, key := beAt p.body 8 4,
    tag := p.tag.toNat, src, part, region := p.key.toNat, data }

/-- Where it fits a packet, the packet carries the bytes read. -/
theorem nextPacket_respMsg {path part src : Nat} {data : List Byte} (hpart : part ≠ 0) (hlen : p.msgLen.toNat ≤ y.r.payload) :
    pkOp (nextPacket d y (respMsg p part src data) path) = 3 ∧ (nextPacket d y (respMsg p part src data) path).tag = p.tag
      ∧ (nextPacket d y (respMsg p part src data) path).psn = BitVec.ofNat 32 y.psn
      ∧ (nextPacket d y (respMsg p part src data) path).body = partBytes d part src p.msgLen.toNat := by
  have hleaves : leavingNow d (respMsg p part src data) = respMsg p part src data := rfl
  have hpart' : (part == 0) = false := beq_eq_false_iff_ne.2 hpart
  have hall : min (p.msgLen.toNat - 0) y.r.payload = p.msgLen.toNat := by omega
  unfold nextPacket
  rw [hleaves]
  simp only [respMsg, msgPacket, hall, hpart', Nat.add_zero, Bool.false_eq_true, if_false]
  exact ⟨pkOp_of_verOp (by decide) rfl, BitVec.ofNat_toNat .., trivial, partBytes_congr (bytes_chargeMsg ..) ..⟩

/-- The only message of an ESTABLISHED connection goes out on its next OPEN path. -/
theorem pump_out {m : OutMsg} {path : Nat} (h : connOf d c = some y) (hst : y.st = .established) (hq : y.sendQ = [m])
    (hres : isResident d c = true) (hpath : nextOpen y = some path) (hsend : canSend y m (m.kind == .write) = true) :
    connEmit y (sealPkt { nextPacket (touch d c) y m path with dstConn := y.r.srcConn }) ∈ (pump d c).out := by
  have hx : connOf (touch d c) c = some y := h
  have hpick : pickMsg y y.sendQ true 0 = some (0, m) := by
    rw [hq, pickMsg, Bool.true_and, if_pos hsend]
  have hfuel : pumpFuel y = m.len / 4096 + 1 + 1 := by
    rw [pumpFuel, hq]
    simp
  have hgo : pumpGo c (pumpFuel y) (touch d c) = pumpGo c (m.len / 4096 + 1) (sendOne (touch d c) c y 0 m path) := by
    rw [hfuel, pumpGo]
    simp only [hx, hpath, hpick]
  have hpump : (pump d c).out = (pumpGo c (pumpFuel y) (touch d c)).out := by
    simp only [pump, h, hq, hst, wantCtx_resident hres, List.isEmpty_cons, beq_self_eq_true, Bool.true_or, Bool.not_true, Bool.or_self,
      Bool.false_eq_true, if_false, if_true, modConn_out]
  rw [hpump, hgo]
  refine (sent_pumpGo _).subset ?_
  rw [sendOne_out]
  exact List.mem_append_right _ (List.mem_singleton_self _)

/-- A read that fits a packet is answered with the bytes read. -/
theorem respond_out {path part src : Nat} {data : List Byte} (h : connOf d c = some y) (hst : y.st = .established) (hq : y.sendQ = [])
    (hres : isResident d c = true) (hpath : nextOpen y = some path) (hpsn : sub32 y.psn y.peerCum < 4096) (hpart : part ≠ 0)
    (hlen : p.msgLen.toNat ≤ y.r.payload) : ∃ q, connEmit y q ∈ (respond d c p part src data).out ∧ pkOp q = 3 ∧ q.tag = p.tag
      ∧ q.psn = BitVec.ofNat 32 y.psn ∧ q.body = partBytes d part src p.msgLen.toNat := by
  have hqueued := connOf_modConn_same (fun x => { x with sendQ := x.sendQ ++ [respMsg p part src data] }) h
  obtain ⟨hop, htag, hpsn', hbody⟩ := nextPacket_respMsg (y := y) (data := data) (path := path) (src := src) (p := p)
    (d := touch (modConn d c fun x => { x with sendQ := x.sendQ ++ [respMsg p part src data] }) c) hpart hlen
  have hout := pump_out (m := respMsg p part src data) hqueued hst (by rw [hq]; rfl) hres hpath
    (by rw [canSend]; exact (Bool.and_true _).trans (decide_eq_true hpsn))
  exact ⟨_, hout, hop, htag, hpsn', hbody⟩

/-! ### READ_REQ -/

/-- What sending rests on. -/
def Conn.sends (x : Conn) : ConnSt × ConnRec × Nat × List OutMsg × Tab PathRec × Nat × Nat × Nat :=
  (x.st, x.r, x.portBase, x.sendQ, x.paths, x.nextPath, x.psn, x.peerCum)

theorem sends_of_sansAck (x y : Conn) (h : x.sansAck = y.sansAck) : x.sends = y.sends := (congrArg Conn.sends h :)

theorem settleMsgs_keeps (n : Nat) (x : Conn) : (settleMsgs n x).sends = x.sends ∧ (settleMsgs n x).closePsn = x.closePsn := by
  obtain ⟨_, _, _, h⟩ := settleMsgs_only n x
  rw [h]
  exact ⟨rfl, rfl⟩

/-- A READ_REQ's message is complete when its PSN is received. -/
theorem readDoneRx_leaves (h : connOf d c = some x) (hclose : x.closePsn = none) : ∃ y, connOf (readDoneRx d c p) c = some y
    ∧ y.sends = x.sends ∧ y.psns = rcvdWith x p ∧ (readDoneRx d c p).trs.resident = d.trs.resident := by
  obtain ⟨hsends, hclose'⟩ := settleMsgs_keeps 64
    { x with msgs := tset x.msgs p.msn.toNat { len := p.msgLen.toNat, complete := true } }
  have hdone := connOf_modConn_same
    (fun x => settleMsgs 64 { x with msgs := tset x.msgs p.msn.toNat { len := p.msgLen.toNat, complete := true } }) h
  have hmoves := moves_markRx (p := p) (now := false) hdone (hclose'.trans hclose)
  obtain ⟨y, hy, hyx⟩ := hmoves.some (connOf_modConn_same _ hdone)
  refine ⟨y, hy, (sends_of_sansAck _ _ hyx).trans hsends, ?_, hmoves.resident⟩
  exact (psns_of_sansAck _ _ hyx).trans (rcvdWith_congr (psns_settleMsgs ..))

/-- A READ_REQ that passes every check is marked received and answered (R240, R255). -/
theorem rxReadReq_serves (hopen : openMsg x p = true) (hnew : msgComplete x p.msn.toNat = false) (hpos : 0 < p.msgLen.toNat)
    (hlen : p.msgLen.toNat ≤ 16777216) (hoff : p.msgOffset.toNat ≤ p.msgLen.toNat) (hslot : servedReads d c x < x.slots)
    (hinner : x.r.inner = none) (hregion : regionFail d x p p.msgLen.toNat false = none)
    (hr : tget d.trs.regions (p.key.toNat / 4096) = some r) :
    rxReadReq d c x p = respond (readDoneRx d c p) c p r.partition (r.offset + (p.addr.toNat - r.vaBase)) [] := by
  obtain ⟨hwindow, hfailed, hsame⟩ := openMsg_parts hopen
  have hshape : ¬ (p.msgLen.toNat == 0 || 16777216 < p.msgLen.toNat || p.msgLen.toNat < p.msgOffset.toNat
      || lenDiffers x p.msn.toNat p.msgLen.toNat) = true := by
    rw [hsame, decide_eq_false (Nat.not_lt.2 hlen), decide_eq_false (Nat.not_lt.2 hoff), beq_eq_false_iff_ne.2 (Nat.ne_of_gt hpos)]
    exact Bool.false_ne_true
  unfold rxReadReq
  dsimp only
  rw [hwindow, if_neg Bool.false_ne_true, if_neg hshape, hfailed, hnew, Bool.or_self, if_neg Bool.false_ne_true, if_neg (Nat.not_le.2 hslot),
    hinner, Option.isSome_none, if_neg Bool.false_ne_true, hregion, hr]

/-! ### READ_RESP -/

/-- The reads outstanding when a packet of one of them has come. -/
def readsLeft (x : Conn) (q : ReadOut) (n : Nat) : List ReadOut :=
  if q.count + n == q.len then x.reads.erase q else x.reads.map fun y => if y == q then { y with count := q.count + n } else y

/-- A READ_RESP that the record of its read allows: its PSN is received, the read goes on or ends, and the data lands. -/
theorem rxReadResp_lands {q : ReadOut} (hfound : (x.reads.find? fun y => y.id == p.tag.toNat && y.msn == p.msn.toNat) = some q)
    (hlen : p.msgLen.toNat = q.len) (hfits : p.msgOffset.toNat + p.body.length ≤ q.len)
    (haddr : p.addr.toNat = (q.addr + p.msgOffset.toNat) % 2 ^ 64) (hkey : p.key.toNat = q.key)
    (h : connOf d c = some x) (hclose : x.closePsn = none) :
    ∃ e, rxReadResp d c x p = pump (landRead e q.use p.msgOffset.toNat p.body (q.count + p.body.length == q.len)) c
      ∧ (∃ y, connOf e c = some y ∧ y.reads = readsLeft x q p.body.length ∧ y.sendQ = x.sendQ) ∧ e.cmd = d.cmd ∧ e.via = d.via := by
  have hfits' : (p.msgLen.toNat == q.len && decide (p.msgOffset.toNat + p.body.length ≤ p.msgLen.toNat)
      && p.addr.toNat == (q.addr + p.msgOffset.toNat) % 2 ^ 64 && p.key.toNat == q.key) = true := by
    rw [decide_eq_true (hlen ▸ hfits), beq_iff_eq.2 hlen, beq_iff_eq.2 haddr, beq_iff_eq.2 hkey]
    rfl
  have hleft := connOf_modConn_same (fun x' => { x' with reads := readsLeft x q p.body.length }) h
  refine ⟨markRx (modConn d c fun x' => { x' with reads := readsLeft x q p.body.length }) c p false, ?_, ?_, ?_, ?_⟩
  · simp only [rxReadResp, hfound]
    rw [if_pos hfits']
    rfl
  · obtain ⟨y, hy, hyx⟩ := (moves_markRx (p := p) (now := false) hleft hclose).some (connOf_modConn_same _ hleft)
    exact ⟨y, hy, (congrArg Conn.reads hyx :), (congrArg Conn.sendQ hyx :)⟩
  · exact same_markRx_open (part := .cmd) nofun nofun hleft hclose
  · exact same_markRx_open (part := .via) nofun nofun hleft hclose

theorem postAll_of_empty (h : d.cmd.posting = []) : postAll d = d := by
  rw [postAll, h, postGo]

theorem serveHeld_of_empty (h : d.via.heldReads = []) : serveHeld d = d := by
  rw [serveHeld, h]
  rfl

theorem cqOf_modCq (q : Nat) (f : CqRec → CqRec) : cqOf (modCq d q f) q = (cqOf d q).map f := tget_tupd_same ..

theorem slotOf_modSlot (cmd : Nat) (f : Slot → Slot) : slotOf (modSlot d cmd f) cmd = (slotOf d cmd).map f := tget_tupd_same ..

/-- The bytes of a pull land in their slot. -/
theorem slotOf_landData {cmd off : Nat} {bs : List Byte} {s : Slot} (h : slotOf d cmd = some s) (hans : s.phase ≠ .answered)
    (hgen : s.phase ≠ .generated) : ∃ t, slotOf (landData d cmd off bs) cmd = some t ∧ t.landed = s.landed + bs.length
      ∧ t.data = putAt (fit (pullBytes s) s.data) off bs := by
  have hlands : (s.phase == .answered || s.phase == .generated) = false := by
    rw [beq_eq_false_iff_ne.2 hans, beq_eq_false_iff_ne.2 hgen]
    rfl
  refine ⟨_, by rw [landData, slotOf_modSlot, h, Option.map_some], ?_⟩
  simp only [hlands, Bool.false_eq_true, if_false]
  split
  · unfold mile
    split <;> exact ⟨rfl, rfl⟩
  · exact ⟨rfl, rfl⟩

end

/-- Settles O21: a READ_REQ by what its one packet carries, a READ_RESP by where its bytes land. -/
theorem trestleReads : Obligations.TrestleReads := by
  unfold Obligations.TrestleReads
  intro s net p c x hrx hnew hst hgot hclose hq
  obtain ⟨t, hheard⟩ := heard_only s.dev c p
  have hx : connOf (heard s.dev c p) c = some x := (connOf_heard c).trans (connOf_of_rxOk hrx)
  have hx' : connOf (pdCnt (heard s.dev c p) x.r.pd 12 p.body.length) c = some x := by rw [connOf_pdCnt, hx]
  have hcmd' : (pdCnt (heard s.dev c p) x.r.pd 12 p.body.length).cmd = s.dev.cmd := by rw [pdCnt, countN_cmd, hheard]
  have hvia' : (pdCnt (heard s.dev c p) x.r.pd 12 p.body.length).via = s.dev.via := by rw [pdCnt, countN_via, hheard]
  refine ⟨?readReq, ?cqHead, ?pull⟩
  case readReq =>
    intro r path hinner hop hopen hmsg hpos hlen hpayload hoff hslot hregion hr hpart hpath hpsn
    refine gives_rx rfl hrx hst (by omega) (by omega) (by omega) ?_
    have hregions : (heard s.dev c p).trs.regions = s.dev.trs.regions := by rw [hheard]
    have hslot' : servedReads (heard s.dev c p) c x < x.slots := by
      rw [hheard]
      exact hslot
    have hserves := rxReadReq_serves (c := c) hopen hmsg hpos (by omega) hoff hslot' hinner
      ((regionFail_congr hregions rfl ..).trans hregion) (hregions ▸ hr)
    have hbytes : (rxReadReq (heard s.dev c p) c x p).bytes = s.dev.bytes := by rw [bytes_rxReadReq, bytes_heard]
    obtain ⟨y, hy, hsends, hpsns, hres⟩ := readDoneRx_leaves (p := p) hx hclose
    simp only [Conn.sends, Prod.mk.injEq] at hsends
    obtain ⟨hst', hrec, hport, hq', hpaths, hnext, hpsn', hpeer⟩ := hsends
    rw [rxAct_readReq hop hnew]
    refine ⟨sameMem_of_bytes (by rw [bytes_settle, hbytes]), ?_, ?_⟩
    · have hview : connView Conn.psns (rxReadReq (heard s.dev c p) c x p) c = some (rcvdWith x p) := by
        rw [hserves, respond, connView_mono psns_of_standing (standing_sendMsg ..), connView_of_some hy, hpsns]
      obtain ⟨z, hz, hzx⟩ := connHas_of_view hview
      exact ⟨z, hz, marked_of_psns hzx hgot⟩
    · have hopen' : nextOpen y = some path := by rw [nextOpen, openPaths, hpaths, hnext]; exact hpath
      have hready : isResident (readDoneRx (heard s.dev c p) c p) c = true := by
        rw [isResident, hres, hheard]
        exact List.contains_iff_mem.2 (List.mem_append_right _ (List.mem_singleton_self c))
      obtain ⟨q, hsent, hqop, htag, hqpsn, hbody⟩ := respond_out (p := p) (src := r.offset + (p.addr.toNat - r.vaBase)) (data := [])
        hy (hst'.trans hst) (hq'.trans hq) hready hopen' (by rw [hpsn', hpeer]; exact hpsn) hpart (by rw [hrec]; exact hlen)
      refine ⟨q, ?_, hqop, htag, by rw [hqpsn, hpsn'], ?_⟩
      · rw [settle_out, hserves, connEmit, ← hrec, ← hport]
        exact hsent
      · rw [hbody, partBytes_congr (d := s.dev) (by rw [bytes_readDoneRx, bytes_heard])]
  case cqHead =>
    intro r q cq hop hfound huse hcq hposting hlen hfits hlast haddr hkey
    refine gives_rx rfl hrx hst (by omega) (by omega) (by omega) ?_
    obtain ⟨e, he, ⟨y, hy, hreads, hyq⟩, hcmd, _⟩ := rxReadResp_lands hfound hlen hfits haddr hkey hx' hclose
    have hland : landRead e r.use p.msgOffset.toNat p.body (r.count + p.body.length == r.len)
        = modCq e q fun r => { r with hostHead := unle (p.body.take 2) % 65536, reading := false } := by
      rw [huse, beq_iff_eq.2 hlast]
      exact postAll_of_empty ((congrArg Cmd.posting (hcmd.trans hcmd')).trans hposting)
    rw [hland] at he
    rw [rxAct_readResp hop hnew, he.trans (pump_of_empty (x := y) hy (hyq.trans hq))]
    refine ⟨connHas_settle (x := y) hy ?_, ?_⟩
    · rw [hreads, readsLeft, if_pos (beq_iff_eq.2 hlast)]
    · have hcq' : cqOf e q = some cq := by
        rw [cqOf, hcmd, hcmd']
        exact hcq
      rw [cqOf, settle_cmd]
      exact (cqOf_modCq q _).trans (by rw [hcq']; rfl)
  case pull =>
    intro r cmd o sl hop hfound huse hsl hans hgen hheld hlen hfits hfew haddr hkey
    refine gives_rx rfl hrx hst (by omega) (by omega) (by omega) ?_
    obtain ⟨e, he, ⟨y, hy, _, hyq⟩, hcmd, hvia⟩ := rxReadResp_lands hfound hlen hfits haddr hkey hx' hclose
    have hmore : (r.count + p.body.length == r.len) = false := beq_eq_false_iff_ne.2 (Nat.ne_of_lt hfew)
    have hland : landRead e r.use p.msgOffset.toNat p.body (r.count + p.body.length == r.len)
        = landData e cmd (o + p.msgOffset.toNat) p.body := by
      rw [huse, hmore]
      exact serveHeld_of_empty ((congrArg Via.heldReads (hvia.trans hvia')).trans hheld)
    rw [hland] at he
    rw [rxAct_readResp hop hnew, he.trans (pump_of_empty (x := y) hy (hyq.trans hq))]
    simp only [slotOf, settle_cmd]
    exact slotOf_landData (by rw [slotOf, hcmd, hcmd']; exact hsl) hans hgen

end Sys2Proof.Machine
